-- ==== Sys2Proof/Word.lean ====
section
/-! DEFINITION. The word types of the model and the plain data types that commands carry as operands
(requesters, comparator observations, symbol upsets, self-test results). Rules: R6, R12, R46, R267, R487. -/
namespace Sys2Proof

/-- A scalar dictionary value: the widest scalar type of R46 is 8 bytes. -/
abbrev Word := BitVec 64
/-- One byte of a DOM object, of a frame or of GDDR7. -/
abbrev Byte := BitVec 8

/-- Bundle BN0 to BN11 (R5). -/
abbrev BundleNo := Fin 12
/-- Site S0 to S11 (R9). -/
abbrev SiteNo := Fin 12
/-- Port P0 to P107, bye-stakes P96 to P107 (R5, R6). -/
abbrev PortNo := Fin 108
/-- Quadrant Q0 to Q3 (R5, R8). -/
abbrev QuadNo := Fin 4
/-- Memory channel M0 to M11 (R463). -/
abbrev ChanNo := Fin 12
/-- Context identifier CID = 4,096 b + n (R267). -/
abbrev Cid := Fin 49152
/-- A context number within its bundle (R267). -/
abbrev CtxNo := Fin 4096
/-- A DMA queue (R495). -/
abbrev QueueNo := Fin 16
/-- A service slot of BAR0 (R491). -/
abbrev SlotNo := Fin 16

/-- Sparse data by key: entries in rising key order, none equal to what an unlisted key reads as
(`Sys2Proof.Machine.Store` holds its operations). -/
abbrev Store (α : Type) := List (Nat × α)

/-- A requester (R487): one PCIe service slot, or one management source address with its UDP port. -/
inductive Src where
  | host (slot : SlotNo)
  | mgt (addr : BitVec 128) (port : BitVec 16)
  deriving DecidableEq, Repr, Inhabited

/-- A service request's envelope (R485): who sent it, its SEQ, and `cfg`, the CFG cycle in which it reached the
dictionary service where that cycle is shared with another request (R32, R53, R59); `none` is a cycle of its own. -/
structure Rq where
  src : Src
  seq : BitVec 16
  cfg : Option Nat := none
  deriving DecidableEq, Repr, Inhabited

/-- A dictionary address (R39). -/
structure Addr where
  index : BitVec 16
  sub : BitVec 8
  deriving DecidableEq, Repr, Inhabited

/-- The segment fields of one BLOCK_WRITE frame (R487). -/
structure Segment where
  first : Bool
  last : Bool
  offset : Nat
  total : Nat
  data : List Byte
  deriving DecidableEq, Repr, Inhabited

/-- What the DUT presents at a pin: its Thevenin source, open-circuit volts behind a resistance in ohms (R121, R122). -/
structure PinDrive where
  volts : Rat
  ohms : Rat
  deriving DecidableEq, Repr, Inhabited

/-- What the DUT presents at one port's pin for the strobes of one cycle (R222): at S0, at S1, and its changes through a
WINDOW in order, each with its offset from S0 in vernier steps; `none` is a DUT that drives nothing. -/
structure PortObs where
  port : PortNo
  s0 : Option PinDrive := none
  s1 : Option PinDrive := none
  window : List (Nat × Option PinDrive) := []
  deriving DecidableEq, Repr, Inhabited

/-- What adaptation has come to at a lane: CTLE_PEAK and the 12 DFE taps, and the offset trim of each slicer in volts (R244). -/
structure Adapted where
  bytes : List Byte
  trims : List Rat
  deriving DecidableEq, Repr, Inhabited

/-- What the DUT presents to one serial lane in a WORD cycle (R245 to R247): at each of the 64 sampling instants at its pin, and
at the odd pin of a pair; where the lane samples, as offsets in vernier steps from the LINE grid: of each instant that its CDR
has recovered, or of each edge of the forwarded clock; the symbols by which that clock has gained on LINE; and what adaptation
finds. -/
structure LaneObs where
  port : PortNo
  samples : List (Option PinDrive)
  odd : List (Option PinDrive) := []
  clock : List Int := []
  slip : Int := 0
  adapted : Option Adapted := none
  deriving DecidableEq, Repr, Inhabited

/-- What one lane's observation holds beside its samples (see LaneObs). -/
structure LaneOwn where
  clock : List Int := []
  slip : Int := 0
  adapted : Option Adapted := none
  deriving DecidableEq, Repr, Inhabited

/-- What the DUT presents at a port's pin (R117, R124). -/
structure PinSeen where
  port : PortNo
  dut : Option PinDrive
  deriving DecidableEq, Repr, Inhabited

/-- A time code set as it arrives: its bytes with the check byte, and its instant in vernier steps within the TIME tick (R189, R194). -/
structure CodeIn where
  data : List Byte
  sub : BitVec 15
  deriving DecidableEq, Repr, Inhabited

/-- SEQ and the check byte of an event set (R189, R190). -/
structure SetMark where
  seq : Byte
  check : Byte
  deriving DecidableEq, Repr, Inhabited

/-- A rank and a bank of it (R317, R318). -/
structure RankBank where
  rank : Fin 4
  bank : Fin 32
  deriving DecidableEq, Repr, Inhabited

/-- A head flit's header as a router receives it (R448, R449). -/
structure HeadAt where
  router : Fin 24
  head : BitVec 96
  deriving DecidableEq, Repr, Inhabited

/-- One stored symbol that a read returns changed: its position 0 to 35 in the granule's codeword and the
difference (R466, R468). -/
structure Upset where
  granule : Nat
  symbol : Fin 36
  diff : Byte
  deriving DecidableEq, Repr, Inhabited

/-- What the devices show of one group access: the symbols that a read returns changed, and how many transfers failed (R463, R466). -/
structure MemShow where
  upsets : List Upset := []
  tries : Fin 6 := 0
  deriving DecidableEq, Repr, Inhabited

/-- A decoded request of the NoC fabric port (R407). -/
structure FabricReq where
  write : Bool
  addr : Nat
  count : Nat
  tag : BitVec 8
  encode : Bool
  data : List Byte
  check : List (BitVec 32)
  deriving DecidableEq, Repr, Inhabited

/-- What the configuration chooses for one logic cell (R388, R389): its table and mode, for each output whether it comes from
the flip-flop, what K0 and K1 capture, their INIT, its set/reset mode, whether its carry comes from the cell below and else
which value, and the tree that clocks it. -/
structure CellSetting where
  table : BitVec 64 := 0
  split : Bool := false
  reg0 : Bool := false
  reg1 : Bool := false
  /-- K0 captures BX, and not F6 or FA -/
  bypass0 : Bool := false
  /-- K1 captures 0 the table's FB, 1 the carry sum, 2 I5 -/
  from1 : Fin 3 := 0
  init0 : Bool := false
  init1 : Bool := false
  async : Bool := false
  chained : Bool := false
  carry : Bool := false
  tree : Fin 4 := 0
  deriving DecidableEq, Repr, Inhabited

/-- What the configuration chooses for one queue controller (R398). -/
structure QueueSetting where
  fifo : Bool := false
  writeTree : Fin 4 := 0
  readTree : Fin 4 := 0
  encode : Bool := false
  decode : Bool := false
  afull : Nat := 0
  aempty : Nat := 0
  deriving DecidableEq, Repr, Inhabited

/-- A line that the device gives a design (R402), by absolute bundle b, port p and bit; `other` are the lines of the NoC port,
of the object port and of the utility pins. -/
inductive FabLine where
  | time (bit : Nat)
  | abortInd (b : Nat)
  | run (b : Nat)
  | paused (b : Nat)
  | step (b bit : Nat)
  | trigToggle (b : Nat)
  | cpOut (b k : Nat)
  | meas (b bit : Nat)
  | measToggle (b : Nat)
  | laneRx (p bit : Nat)
  | laneRxReady (p : Nat)
  | laneTxReady (p : Nat)
  | laneSignal (p : Nat)
  | eqSuperseded (p : Nat)
  | other (n : Nat)
  deriving DecidableEq, Repr, Inhabited

/-- What a routing wire takes its value from (R391): nothing, an output of a cell, a wide multiplexer by its lowest cell and
its depth (1 MUX8, 2 MUX16, 3 MUX32), an output line of a queue controller, a border latch of a region, a line of R402. -/
inductive FabNet where
  | zero
  | cell (n : Nat) (second : Bool)
  | mux (n depth : Nat)
  | queue (m : Nat) (upper : Bool) (line : Nat)
  | border (region signal : Nat)
  | line (l : FabLine)
  deriving DecidableEq, Repr, Inhabited

/-- Where a routing wire ends: a cell's input (0 to 5 I0 to I5, 6 BX, 7 clock enable, 8 set/reset), the select of a wide
multiplexer, a port of a queue controller's RAM, a border latch, line n of R402 into the hard units of bundle or port u, a net of
probe n by its code (R410), or the value (0) and the output enable (1) of utility pin n of the quadrant (R413). -/
inductive FabSink where
  | input (cell pin : Nat)
  | select (cell depth : Nat)
  | queue (m : Nat) (upper : Bool) (pin : Nat)
  | border (region signal : Nat)
  | bundle (b n : Nat)
  | lane (p n : Nat)
  | probe (n code : Nat)
  | pin (n k : Nat)
  deriving DecidableEq, Repr, Inhabited

/-- What self-test found (R537, R538): ports with the failing item of R544 and its error, the bundles, routers
that failed. -/
structure SelfTestFinds where
  ports : List (PortNo × Fin 9 × BitVec 32)
  bundles : List BundleNo
  routers : List (Fin 24)
  deriving DecidableEq, Repr, Inhabited

/-- What a listen, or a calibration on the load, measures (R362, R371): transitions, those of the driven traffic, positions
listened to, the shortest PERIOD used in edge mode in vernier steps, the quality figures, the smallest difference of adjacent mean
levels in µV, and the histogram bytes. -/
structure ListenStats where
  transitions : Nat
  driven : Nat
  positions : Nat
  period : BitVec 32
  eyeWidth : BitVec 32
  eyeHeight : BitVec 32
  levelRes : BitVec 16
  timingRes : BitVec 16
  levelGap : BitVec 32
  hist : List Byte
  deriving DecidableEq, Repr, Inhabited

/-- The trims of a point, in the units of R367; the delays are the totals D of R365. -/
structure Trims where
  drvOfs : Int := 0
  drvGain : Int := 0
  drvImp : Int := 0
  slew : Nat := 0
  vttOfs : Int := 0
  vcomOfs : Int := 0
  ct0Ofs : Int := 0
  ct1Ofs : Int := 0
  ct2Ofs : Int := 0
  pmuOfs : Int := 0
  pmuGain : Int := 0
  drvD : Nat := 0
  stbD : Nat := 0
  deriving DecidableEq, Repr, Inhabited

/-- What Calibrate on the load measures (R364, R377): the trims found and the quality figures, and whether the
limits of R377 are met. -/
structure CalFinds where
  trims : Trims
  stats : ListenStats
  meetsLimits : Bool
  deriving DecidableEq, Repr, Inhabited

/-- A frame of the management line (R503). -/
inductive LineFrame where
  /-- neighbor solicitation or duplicate address detection for the Rim's address -/
  | neighbor (src : BitVec 128)
  /-- ICMPv6 echo request -/
  | echo (src : BitVec 128) (payload : List Byte)
  /-- a UDP datagram: source, ports, destination is ff02::1, checksum good, payload -/
  | udp (src : BitVec 128) (sport dport : BitVec 16) (multicast checksum : Bool) (payload : List Byte)
  /-- any other frame -/
  | other
  deriving DecidableEq, Repr, Inhabited

/-- A received time code set and the child's timestamps in vernier steps (R189, R194). -/
structure TimeCode where
  flags : Nat
  seq : Nat
  time : Nat
  loop : Nat
  loopSeq : Nat
  deriving DecidableEq, Repr, Inhabited

/-- Bits [lo + n − 1 : lo] of a word, as a number (R12). -/
def Word.fld (w : Word) (lo n : Nat) : Nat := (w.toNat >>> lo) % 2 ^ n

/-- A word from a number. -/
def Word.of (n : Nat) : Word := BitVec.ofNat 64 n

/-- Two's-complement reading of an n-bit number. -/
def signed (n v : Nat) : Int := if v % 2 ^ n < 2 ^ (n - 1) then (v % 2 ^ n : Nat) else (v % 2 ^ n : Nat) - (2 ^ n : Nat)

/-- The n-bit two's-complement code of an integer. -/
def unsigned (n : Nat) (v : Int) : Nat := (v % (2 ^ n : Nat)).toNat

/-- Little-endian value of bytes (R12). -/
def leNat : List Byte → Nat
  | [] => 0
  | b :: bs => b.toNat + 256 * leNat bs

/-- The n low bytes of a number, little-endian (R12). -/
def leBytes : Nat → Nat → List Byte
  | 0, _ => []
  | n + 1, v => BitVec.ofNat 8 v :: leBytes n (v / 256)

/-- Division rounded up. -/
def ceilDiv (a b : Nat) : Nat := (a + b - 1) / b

/-- Rounded quotient, halves away from zero (R155, R370). -/
def roundDiv (a : Int) (b : Nat) : Int :=
  if 0 ≤ a then ((2 * a.toNat + b) / (2 * b) : Nat) else -((2 * (-a).toNat + b) / (2 * b) : Nat)

/-- An exact value rounded to a whole number, halves away from zero (R155, R161). -/
def roundRat (v : Rat) : Int := if 0 ≤ v then (v + 1 / 2).floor else -(1 / 2 - v).floor

/-- The exact value within `lo` to `hi`. -/
def clampRat (lo hi v : Rat) : Rat := if v < lo then lo else if hi < v then hi else v

/-- The value within `lo` to `hi`. -/
def clampInt (lo hi v : Int) : Int := if v < lo then lo else if hi < v then hi else v

end Sys2Proof
end

