-- ==== Sys2Proof/Syntax.lean ====
section
/-! DEFINITION. The commands of the T96 block: one constructor for each row of spec/opcode_table.json, in the table's
order. The table gives a row no operands; the operands are what the row's rules read (log 2). An operand of type Unit carries
nothing: what the device measures or holds itself. -/
namespace Sys2Proof

/-- A command that the block takes from outside, or an event of the outside world or of one of its engines. -/
inductive Instr where
  /-- A WRITE service to an object that has no row of its own is checked in the order of R71 and, if accepted, brought into force under its access class. (R48) -/
  | write (rq : Rq) (addr : Addr) (data : List Byte)
  /-- A READ service returns the value of one object, refused where R486 or R71 requires. (R486) -/
  | read (rq : Rq) (addr : Addr) (len : Nat)
  /-- A BLOCK_READ request is answered with segments of a DOM object in offset order. (R487) -/
  | blockRead (rq : Rq) (addr : Addr) (seg offset total : Nat)
  /-- A BLOCK_WRITE segment is checked against the open transfer, and the last segment brings the whole transfer into effect. (R487) -/
  | blockWrite (rq : Rq) (addr : Addr) (seg : Segment)
  /-- An open BLOCK_WRITE that receives no segment for 1 s is abandoned and changes nothing. (R487) -/
  | blockWriteIdleTimeout (src : Src)
  /-- A service not completed 100 ms after it passed its checks is answered TIMEOUT, and its write is not in force. (R73) -/
  | serviceTimeout (rq : Rq)
  /-- A write to an RWG object is checked and joins the staging set, or replaces an earlier entry for the same address. (R56) -/
  | stagedWrite (rq : Rq) (addr : Addr) (data : List Byte)
  /-- A commit rechecks every staged entry and brings all of them into force in one CFG cycle, or fails with GROUP_FAIL. (R58) -/
  | groupCommit (rq : Rq)
  /-- Writing 2 to GROUP_COMMIT discards the staging set. (R57) -/
  | groupDiscard (rq : Rq)
  /-- A write of CONTROL_OWNER claims, hands over or releases control ownership, or claims unclaimed management ownership. (R53) -/
  | controlOwnerWrite (rq : Rq) (value : Byte)
  /-- Management ownership reverts to 0 when the heartbeat timeout passes without a frame from the owner, or passes with the ownership unclaimed. (R54) -/
  | ownerRevert
  /-- A HEARTBEAT request is answered with its token and keeps management ownership alive. (R486) -/
  | heartbeat (rq : Rq) (token : BitVec 32)
  /-- An IDENTIFY request is answered with the 32-byte identity reply in every state. (R488) -/
  | identify (rq : Rq) (len : Nat)
  /-- A SUBSCRIBE request takes, replaces or frees an event subscription slot. (R507) -/
  | subscribe (rq : Rq) (mask : BitVec 64) (port lease : BitVec 16)
  /-- A subscription slot whose lease runs out is freed. (R507) -/
  | subscriptionLeaseExpiry (slot : Fin 4)
  /-- A frame on the management line that carries no valid service is discarded and counted, or answered as neighbor discovery or an ICMPv6 echo. (R503) -/
  | mgtFrameReceive (frame : LineFrame)
  /-- An ABORT written to 0x2000:06, or sent as the ABORT service, aborts the scope that it codes. (R95) -/
  | abort (rq : Rq) (code : BitVec 16)
  /-- ABORT_N held low for at least 20 ns triggers a device-scope abort. (R87) -/
  | abortN (lowNs : Nat)
  /-- In an abort, the records in flight have been written to the ring, and the END marker follows. (R91) -/
  | abortFlushDone (site : SiteNo)
  /-- The Flush phase reaches 7.5 µs after the trigger instant unfinished, and the capture is marked INCOMPLETE. (R91) -/
  | abortFlushDeadline (site : SiteNo)
  /-- PAUSE_ALL pauses every site for which PAUSE is accepted. (R79) -/
  | pauseAll (rq : Rq)
  /-- RESUME_ALL resumes every site for which RESUME is accepted. (R79) -/
  | resumeAll (rq : Rq)
  /-- CLEAR_FAULT dissolves every site and wipes the configuration, returning the device from FAULT toward DORMANT. (R79) -/
  | clearFault (rq : Rq) (causeCleared : Bool)
  /-- UNLOAD dissolves every site and wipes the configuration. (R79) -/
  | unload (rq : Rq)
  /-- The wipe of the configuration frames completes, and a new load is no longer refused with BUSY. (R78) -/
  | configWipeComplete (micros : Unit)
  /-- SELF_TEST starts the self-test of ports, pin-switch elements, SRAMs, routers and Warp ports. (R537) -/
  | selfTest (rq : Rq)
  /-- Self-test completes, failed units are treated under R378, R380 or R457, and the results are published. (R538) -/
  | selfTestDone (finds : SelfTestFinds)
  /-- A write of SITE_BUNDLES forms a site from FREE bundles, or dissolves a READY site. (R80) -/
  | siteBundlesWrite (rq : Rq) (site : SiteNo) (mask : BitVec 16)
  /-- SITE_COMMAND ARM starts arm-time validation of the site's step list. (R65) -/
  | arm (rq : Rq) (site : SiteNo)
  /-- Validation ends, and the ARM is answered OK with the site ARMED and its counters reset, or refused with the failure recorded. (R65) -/
  | armValidationDone (site : SiteNo)
  /-- SITE_COMMAND START is accepted for an ARMED site outside a lockstep group. (R34) -/
  | start (rq : Rq) (site : SiteNo)
  /-- An accepted START takes effect at the site's first coincidence point, and the site becomes RUNNING. (R187) -/
  | siteStartEffect (site : SiteNo)
  /-- SITE_COMMAND PAUSE is accepted for a RUNNING site. (R83) -/
  | pause (rq : Rq) (site : SiteNo)
  /-- PAUSE takes effect at the next instruction issue, and the site holds its levels or sends idle. (R83) -/
  | pauseEffect (site : SiteNo)
  /-- A pause that has lasted 2 µs becomes a site idle and a boundary for calibration. (R357) -/
  | pauseBoundary (site : SiteNo)
  /-- SITE_COMMAND RESUME is accepted for a PAUSED site. (R83) -/
  | resume (rq : Rq) (site : SiteNo)
  /-- RESUME takes effect, and the first kept cycle or symbol begins 2,048 ticks after the next coincidence point. (R215) -/
  | resumeEffect (site : SiteNo)
  /-- DISARM returns an ARMED site to READY, or a FAULT site to READY without its failed bundles. (R81) -/
  | disarm (rq : Rq) (site : SiteNo)
  /-- SITE_COMMAND ABORT aborts the site, as an ABORT of site scope does. (R82) -/
  | siteAbort (rq : Rq) (site : SiteNo)
  /-- The last context of a step reaches DONE, and the site either proceeds to a step transition or, after the last step, returns to READY. (R33) -/
  | stepEnd (site : SiteNo)
  /-- The next step issues its first instruction after the transition bound or at the lockstep realignment point, and cycle 0 follows 2,048 ticks later. (R212) -/
  | stepStart (site : SiteNo)
  /-- The realignment time T of a lockstep member passes before its step has ended, and the site aborts and sends a group ABORT up. (R294) -/
  | lockstepMiss (site : SiteNo)
  /-- RESET_N falls, making the ports inert, quieting Warp and holding the main die in reset. (R99) -/
  | resetNFall
  /-- RESET_N is released, and every main-die object returns to its default with the device DORMANT. (R99) -/
  | resetNRise
  /-- A device-wide fault is detected, and the device aborts at device scope and enters FAULT. (R77) -/
  | deviceWideFault (cause : Fin 4)
  /-- An uncorrectable pattern-engine or context-SRAM fault aborts the bundle's site, makes its contexts LOST and the bundle FAILED. (R84) -/
  | bundleFault (bundle : BundleNo) (sram : Bool)
  /-- The 5 µs blank after a span or PMU gain change ends, and the DAC goes to its new code. (R113) -/
  | spanBlankEnd (port : PortNo) (dac : Fin 10)
  /-- A PMU reaches its current limit or a voltage clamp, keeps forcing at the limit and sets its flag. (R117) -/
  | pmuLimitReached (seen : PinSeen)
  /-- A driver reaches its output current limit and sets DRV_LIMIT and DRV_LIMIT_SEEN. (R544) -/
  | drvLimitReached (seen : PinSeen)
  /-- A write to PORT_STATUS_CLEAR clears the sticky bits of PORT_STATUS. (R544) -/
  | portStatusClear (rq : Rq) (port : PortNo) (value : Byte)
  /-- A write of BND_POOL_CELLS sets cell modes and parameters, refused whole where a linked cell may not change. (R146) -/
  | poolCellsWrite (rq : Rq) (bundle : BundleNo) (offset : Nat) (data : List Byte)
  /-- The 5 µs blank after a change of FD GAIN or WD FS ends. (R146) -/
  | poolBlankEnd (bundle : BundleNo) (cell : Fin 16)
  /-- A BND_POOL_LINK close joins a cell terminal to a node, under the one-link and one-source rules. (R149) -/
  | poolLinkClose (rq : Rq) (bundle : BundleNo) (node : BitVec 6) (cell : Fin 16) (terminal : Fin 8)
  /-- A BND_POOL_LINK open removes a cell terminal's link. (R149) -/
  | poolLinkOpen (rq : Rq) (bundle : BundleNo) (cell : Fin 16) (terminal : Fin 8)
  /-- A write of BND_POOL_WAVE brings the DDS registers into force on one WAVE edge, clearing the accumulator where ACC_CLEAR asks. (R157) -/
  | poolWaveWrite (rq : Rq) (bundle : BundleNo) (offset : Nat) (data : List Byte)
  /-- A write of BND_MEAS_CONFIG sets preset, SCS and Warp synchronisation and causes a synchronising reset. (R163) -/
  | measConfigWrite (rq : Rq) (bundle : BundleNo) (value : BitVec 32)
  /-- A BND_MEAS_CONTROL write that changes INPUT selects the chain input and causes a synchronising reset. (R163) -/
  | measInputSelect (rq : Rq) (bundle : BundleNo) (input : BitVec 6)
  /-- COMMAND SYNC of BND_MEAS_CONTROL causes a synchronising reset of the measurement chain. (R163) -/
  | sync (rq : Rq) (bundle : BundleNo)
  /-- COMMAND SWAP starts a cross-fade to the target FIR bank, or queues or applies it. (R167) -/
  | swap (rq : Rq) (bundle : BundleNo) (target : Bool) (fadeLen : BitVec 9)
  /-- A block write of BND_MEAS_COEF loads an inactive FIR coefficient bank. (R166) -/
  | measCoefWrite (rq : Rq) (bundle : BundleNo) (offset : Nat) (data : List Byte)
  /-- The measurement chain completes an output, forms its record and advances any fade. (R169) -/
  | measOutput (bundle : BundleNo) (samples : Unit)
  /-- A write of WARP_ROLE changes the device's timebase role and re-acquires or pulls in ROOT. (R180) -/
  | warpRoleWrite (rq : Rq) (value : Byte)
  /-- ROOT reaches LOCKED on TBREF, starting TIME on first lock and moving CFG to ROOT/64. (R182) -/
  | timebaseLocked
  /-- TBREF is declared lost after 10 µs, and the master or standalone device enters HOLDOVER. (R200) -/
  | tbrefLost
  /-- TBREF returns within tolerance, and ROOT is pulled in by frequency slew. (R200) -/
  | tbrefReturn
  /-- A write of DEV_LINE_RATIO sets the LINE of a bundle. (R185) -/
  | lineRatioWrite (rq : Rq) (bundle : BundleNo) (value : BitVec 64)
  /-- The new LINE is in force, the bundle's WORD domain restarts and the write is answered. (R185) -/
  | lineSettled (bundle : BundleNo)
  /-- A child receives a time code set, timestamps it, schedules its echo and corrects its TIME. (R194) -/
  | warpTimeCode (set : CodeIn)
  /-- A parent receives an echo set and records the loop time for a later time code. (R194) -/
  | warpEcho (out : Fin 4) (seq flags check : Byte) (sub : BitVec 15)
  /-- A Warp SYNC event set is received, passed down and scheduled. (R191) -/
  | warpSync (above : Option (Fin 4)) (mark : SetMark) (time : BitVec 64)
  /-- A Warp START event for a lockstep group is received, passed down and scheduled. (R199) -/
  | warpStart (above : Option (Fin 4)) (mark : SetMark) (group : Byte) (time : BitVec 64)
  /-- A Warp PAUSE event for a lockstep group is received, passed down and scheduled. (R199) -/
  | warpPause (above : Option (Fin 4)) (mark : SetMark) (group : Byte) (time : BitVec 64)
  /-- A Warp ABORT event is received and passed on, and acted on when it arrives from above. (R96) -/
  | warpAbort (above : Option (Fin 4)) (mark : SetMark) (group : Byte) (time : BitVec 64)
  /-- A Warp HOLD event makes a follower abort at device scope and enter HOLD. (R98) -/
  | warpHold (above : Option (Fin 4)) (mark : SetMark) (time : BitVec 64)
  /-- A scheduled SYNC, START or PAUSE reaches its coincidence point and acts on the member site or the synchronised units. (R199) -/
  | warpEventDue
  /-- A follower declares Warp loss, aborts at device scope, enters FREE and sends HOLD down. (R193) -/
  | warpLoss (why : Fin 3)
  /-- A follower's Warp-in shows valid code groups, and ROOT re-locks to LINK_LOCKED. (R201) -/
  | warpLinkLocked
  /-- Two-way alignment reaches the residual bound, and the follower becomes ALIGNED and leaves HOLD. (R195) -/
  | warpAligned
  /-- DEV_EVENT_SEND of type SYNC schedules a Warp SYNC at DEV_EVENT_TIME. (R198) -/
  | eventSendSync (rq : Rq) (group : Byte)
  /-- DEV_EVENT_SEND of type START schedules a group START at DEV_EVENT_TIME. (R198) -/
  | eventSendStart (rq : Rq) (group : Byte)
  /-- DEV_EVENT_SEND of type PAUSE schedules a group PAUSE at DEV_EVENT_TIME. (R198) -/
  | eventSendPause (rq : Rq) (group : Byte)
  /-- DEV_EVENT_SEND of type HOLD sends a Warp HOLD at once. (R198) -/
  | eventSendHold (rq : Rq) (group : Byte)
  /-- A write of DEV_WARP_CHAR starts a fixture loopback measurement on a Warp-out. (R197) -/
  | warpChar (rq : Rq) (value : Byte)
  /-- The fixture measurement ends, and DEV_WARP_CHAR_RESULT holds the loop delay, or 0xFFFFFFFF after 10 ms without signal. (R197) -/
  | warpCharDone (delay : Option (BitVec 32))
  /-- An edge cycle begins PERIOD vernier steps after the previous one and is formatted from the queue. (R211) -/
  | cycleStart (site : SiteNo) (obs : List PortObs)
  /-- In a WORD cycle the site issues one instruction from an eligible context and executes its cycles, slots, address and data operations. (R290) -/
  | instructionIssue (site : SiteNo) (rx : List LaneObs) (fab : Bool)
  /-- Instruction NEXT continues at PC + 1. (R280) -/
  | next (cid : Cid)
  /-- Instruction JUMP continues at TARGET. (R280) -/
  | jump (cid : Cid) (target : BitVec 24)
  /-- Instruction BRANCH goes to TARGET if condition SEL holds, clearing FAIL on FAIL or NOFAIL tests. (R282) -/
  | branch (cid : Cid) (sel : Fin 10) (target : BitVec 24) (xw yw bw fab : Bool)
  /-- Instruction LOOP decrements loop counter SEL and branches while it stays above 1. (R280) -/
  | loop (cid : Cid) (k : Fin 4) (target : BitVec 24)
  /-- Instruction SETLC loads loop counter SEL from IMM. (R280) -/
  | setlc (cid : Cid) (k : Fin 4) (imm : BitVec 32)
  /-- Instruction CALL saves PC + 1 in RET_PC and goes to TARGET. (R280) -/
  | call (cid : Cid) (target : BitVec 24)
  /-- Instruction RET continues at RET_PC. (R280) -/
  | ret (cid : Cid)
  /-- Instruction WAIT puts its context into WAITING with a TIMER, DRAIN or FABRIC cause. (R283) -/
  | wait (cid : Cid) (kind : Fin 3) (imm : BitVec 32)
  /-- The IMM WORD cycles of a TIMER wait pass, and the context becomes READY. (R283) -/
  | waitTimerExpiry (cid : Cid)
  /-- Everything a DRAIN-waiting context supplied has been driven and compared, and it becomes READY. (R283) -/
  | waitDrainDone (cid : Cid)
  /-- The site's fabric event line is sampled high, and a FABRIC-waiting context becomes READY. (R283) -/
  | waitFabricEvent (site : SiteNo) (level : Bool)
  /-- Instruction SPAWN makes a LOADED context of the site READY in the current step. (R280) -/
  | spawn (cid : Cid) (imm : BitVec 32)
  /-- Instruction SETREG writes register SEL from IMM. (R282) -/
  | setreg (cid : Cid) (reg : Fin 8) (imm : BitVec 32)
  /-- Instruction HALT puts its context into WAITING with cause HALTING. (R280) -/
  | halt (cid : Cid)
  /-- Everything a HALTING context supplied has been driven and compared, and it becomes DONE. (R270) -/
  | haltDone (cid : Cid)
  /-- An instruction with CHECKPOINT starts writing its context's checkpoint to the next slot of its pair. (R296) -/
  | checkpoint (cid : Cid)
  /-- The last granule of a checkpoint slot is written, and the slot becomes valid. (R296) -/
  | checkpointComplete (cid : Cid)
  /-- An instruction with CAL_BOUNDARY marks a boundary for calibration exchanges. (R357) -/
  | calBoundary (site : SiteNo)
  /-- An instruction with FAB_TRIGGER inverts the site's TRIG_TOGGLE line at issue. (R278) -/
  | fabTrigger (site : SiteNo)
  /-- A pattern cache line arrives over the NoC, and contexts waiting on it become eligible. (R291) -/
  | patternCacheFill (site : SiteNo) (line : Nat)
  /-- BND_PE_CTX_CMD LOAD reads context images from GDDR7 and sets them LOADED. (R274) -/
  | load (rq : Rq) (bundle : BundleNo) (count : BitVec 13) (first : CtxNo) (src : BitVec 30)
  /-- BND_PE_CTX_CMD FREE sets contexts FREE. (R274) -/
  | free (rq : Rq) (bundle : BundleNo) (count : BitVec 13) (first : CtxNo)
  /-- BND_PE_CTX_CMD RESTORE loads contexts from the newer valid checkpoint slot of each pair. (R274) -/
  | restore (rq : Rq) (bundle : BundleNo) (count : BitVec 13) (first : CtxNo) (src : BitVec 30)
  /-- The last context of a LOAD, FREE or RESTORE is written, and the command is answered. (R273) -/
  | ctxCmdDone (bundle : BundleNo)
  /-- The scheduler sends ACT, opening a row in the bank model. (R311) -/
  | act (site : SiteNo) (ck : Nat)
  /-- The scheduler sends RD and expects its burst at RL. (R313) -/
  | rd (site : SiteNo) (ck : Nat)
  /-- The scheduler sends WR and places its burst on DQ at WL. (R313) -/
  | wr (site : SiteNo) (ck : Nat)
  /-- The scheduler sends RD with auto-precharge. (R315) -/
  | rda (site : SiteNo) (ck : Nat)
  /-- The scheduler sends WR with auto-precharge. (R315) -/
  | wra (site : SiteNo) (ck : Nat)
  /-- The scheduler sends PRE, closing a bank. (R308) -/
  | pre (site : SiteNo) (ck : Nat)
  /-- The scheduler sends PREA as a barrier, closing all banks of a rank. (R310) -/
  | prea (site : SiteNo) (ck : Nat)
  /-- The scheduler sends an all-bank REF, lowering the rank's refresh debt. (R317) -/
  | ref (site : SiteNo) (ck : Nat)
  /-- The scheduler sends a per-bank or same-bank refresh, lowering the debt of the banks covered. (R317) -/
  | refsb (site : SiteNo) (ck : Nat)
  /-- The scheduler sends a mode-register write. (R308) -/
  | mrw (site : SiteNo) (ck : Nat)
  /-- The scheduler sends a mode-register read and compares DQ bits of beat 0 with ARG. (R313) -/
  | mrr (site : SiteNo) (ck : Nat)
  /-- The scheduler keeps the rank's command bus idle for ARG CK periods. (R308) -/
  | des (site : SiteNo) (ck : Nat)
  /-- The scheduler sends power-down entry. (R308) -/
  | pde (site : SiteNo) (ck : Nat)
  /-- The scheduler sends power-down exit. (R308) -/
  | pdx (site : SiteNo) (ck : Nat)
  /-- The scheduler sends self-refresh entry, stopping debt accrual for the rank. (R318) -/
  | sre (site : SiteNo) (ck : Nat)
  /-- The scheduler sends self-refresh exit. (R318) -/
  | srx (site : SiteNo) (ck : Nat)
  /-- The scheduler sends ZQ calibration. (R308) -/
  | zqcal (site : SiteNo) (ck : Nat)
  /-- A TRAIN slot or a non-zero INIT starts a training sequence as a barrier for every rank. (R319) -/
  | train (site : SiteNo) (ck : Nat)
  /-- A training sequence ends, and the waiting context and the queue are released. (R319) -/
  | trainDone (site : SiteNo) (failed : Bool)
  /-- Microcode word END ends the sequence. (R320) -/
  | ucodeEnd (site : SiteNo)
  /-- Microcode word CMD issues a slot command under the timing table. (R320) -/
  | ucodeCmd (site : SiteNo) (ck : Nat)
  /-- Microcode word WAIT starts a wait of CK periods. (R320) -/
  | ucodeWait (site : SiteNo)
  /-- The CK periods of a microcode WAIT pass, and the sequence continues. (R320) -/
  | ucodeWaitExpiry (site : SiteNo)
  /-- Microcode word SWEEP opens an offset sweep over a target. (R321) -/
  | ucodeSweep (site : SiteNo)
  /-- SWEEP_END sets each target port's trained offset at the centre of its longest passing run. (R321) -/
  | sweepEnd (site : SiteNo) (passes : Unit)
  /-- Microcode word PATTERN selects the burst pattern of the following CMD words. (R320) -/
  | ucodePattern (site : SiteNo)
  /-- Microcode word LOOP jumps back a counted number of times. (R320) -/
  | ucodeLoop (site : SiteNo)
  /-- tREFI CK periods pass, and the refresh debt of a rank or bank rises by 1. (R317) -/
  | refreshDebtAccrue (site : SiteNo) (rank : Fin 4)
  /-- The scheduler inserts a refresh sequence, closing, refreshing and re-opening the banks covered. (R318) -/
  | refreshInsert (site : SiteNo) (target : RankBank) (ck : Nat)
  /-- A read burst arrives at its grid position, is compared with the expected word and sets FAIL of its context. (R313) -/
  | readBurstCompare (site : SiteNo) (beats : List (List (PortNo × Option PinDrive)))
  /-- A sampled EDC or CRC mismatch or a low ALERT is counted and forms a DUT-error record. (R324) -/
  | dutError (site : SiteNo) (kind : Fin 3) (burst : Option Cid) (port : PortNo) (ck : Nat)
  /-- Writing 1 to BND_INJ_CONTROL arms DUT-side injection. (R328) -/
  | injArm (rq : Rq) (bundle : BundleNo)
  /-- Writing 0 to BND_INJ_CONTROL disarms DUT-side injection. (R328) -/
  | injDisarm (rq : Rq) (bundle : BundleNo)
  /-- Writing 2 to BND_INJ_CONTROL arms a ONE_SHOT injection. (R328) -/
  | injOneShot (rq : Rq) (bundle : BundleNo)
  /-- A matching transaction arrives in the queue, and injection triggers are evaluated and fired. (R326) -/
  | injTransactionArrival (site : SiteNo)
  /-- A REORDER window unfilled after 1,024 CK periods issues its collected transactions reversed. (R327) -/
  | reorderWindowTimeout (site : SiteNo)
  /-- A record reaches the ring writer and receives a count, or is dropped and counted, with any pending marker written first. (R343) -/
  | ringWrite (bundle : BundleNo)
  /-- A record's write is acknowledged, and COMMITTED advances. (R342) -/
  | recordCommit (site : SiteNo) (count : Nat)
  /-- A write of BND_CAP_READ frees ring space and lets pending markers be written. (R343) -/
  | capReadWrite (rq : Rq) (bundle : BundleNo) (value : BitVec 64)
  /-- A serial lane locks, and its compares resume. (R249) -/
  | laneLockAcquired (port : PortNo)
  /-- A lane loses lock after its first lock in a step, suppresses compares, and aborts the site with LOSS_ABORT. (R249) -/
  | laneLockLoss (port : PortNo)
  /-- An elastic buffer fill reaches 0 or 1,024, and the site aborts. (R246) -/
  | laneElastic (port : PortNo) (full : Bool)
  /-- A lane achieves comma or block alignment, and marker compares begin. (R247) -/
  | markerAligned (port : PortNo)
  /-- A lane group is aligned or its skew exceeds 512 symbols, setting GROUP_ALIGNED or DESKEW_FAIL. (R248) -/
  | laneDeskew (port : PortNo) (arrivals : List (PortNo × Nat))
  /-- The PRBS checker gains or loses lock on the received stream. (R253) -/
  | prbsLocked (port : PortNo) (samples odd : List (Option PinDrive)) (own : LaneOwn)
  /-- STEP adaptation has run ADAPT_LEN × 1,024 symbols and freezes. (R244) -/
  | adaptDone (port : PortNo) (taps : Unit)
  /-- A write of PORT_SER_TXEQ brings new FFE taps into force at the next WORD boundary. (R240) -/
  | txeqWrite (rq : Rq) (port : PortNo) (value : BitVec 64)
  /-- A write of PORT_SER_RXEQ replaces the equalizer values at the next WORD boundary. (R244) -/
  | rxeqWrite (rq : Rq) (port : PortNo) (offset : Nat) (data : List Byte)
  /-- A fabric LANE_EQ strobe applies FFE taps, or is rejected and counted. (R405) -/
  | laneEq (port : PortNo) (pre2 pre1 post1 post2 : Byte)
  /-- A bundle temperature sample recomputes trims and raises TEMPERATURE triggers. (R354) -/
  | temperatureSample (bundle : BundleNo) (temp : BitVec 16)
  /-- The hub checks VREF_EXT against the bandgap and chooses the DC reference. (R353) -/
  | vrefCheck (microvolts : BitVec 32)
  /-- Writing 0 to PORT_CAL_REQUEST cancels a pending request whose cycle has not started. (R386) -/
  | calRequestCancel (rq : Rq) (port : PortNo)
  /-- Writing 1 to PORT_CAL_REQUEST raises a HOST trigger for a live cycle. (R386) -/
  | calRequestLive (rq : Rq) (port : PortNo)
  /-- Writing 2 to PORT_CAL_REQUEST raises a HOST trigger for an offline cycle of an inert port. (R386) -/
  | calRequestOffline (rq : Rq) (port : PortNo)
  /-- BND_CAL_COMMAND CLEAR_SUB releases a substitution or FAILED port and raises CLEAR. (R381) -/
  | clearSub (rq : Rq) (bundle : BundleNo) (slot : Fin 16)
  /-- A pending trigger starts a live or offline calibration cycle once its conditions hold. (R356) -/
  | calCycleStart (bundle : BundleNo)
  /-- The bye-stake's own point is formed, and Listen begins. (R358) -/
  | calPrepareDone (bundle : BundleNo) (finds : CalFinds)
  /-- A listen completes its statistics, or falls back, and the cycle waits for takeover. (R358) -/
  | calListenDone (bundle : BundleNo) (stats : ListenStats)
  /-- DEV_CAL_LISTEN_LIMIT passes before Listen is met, and the cycle falls back to internal stimulus. (R363) -/
  | calListenLimit (bundle : BundleNo) (transitions : Nat)
  /-- At a boundary the bye-stake takes the pin, and the port moves to the calibration load. (R359) -/
  | calTakeover (bundle : BundleNo)
  /-- Calibration on the load forms a new point, or fails the port. (R358) -/
  | calCalibrateDone (bundle : BundleNo) (finds : CalFinds)
  /-- The recalibrated port has rejoined its pin for compares, and the cycle waits for return. (R358) -/
  | calRejoinDone (bundle : BundleNo)
  /-- At a boundary the port takes its pin back with new trims, the bye-stake is released and the set is handed to the Rim. (R358) -/
  | calReturn (bundle : BundleNo)
  /-- An idle bye-stake completes a survey listen on a port and updates its quality figures. (R372) -/
  | calSurveyListen (bundle : BundleNo) (slot : Fin 8) (stats : ListenStats)
  /-- The Rim starts committing a calibration set to the other ledger copy. (R375) -/
  | ledgerCommit
  /-- The CRC word of a ledger commit is written, and the new copy is in force. (R375) -/
  | ledgerCommitDone
  /-- A write of QD_CLK_DIV changes divider ratios. (R395) -/
  | clkDivWrite (rq : Rq) (quad : QuadNo) (value : BitVec 64)
  /-- The new divider ratios are in force, and the write is answered. (R395) -/
  | clkDivSettled (quad : QuadNo)
  /-- A write of QD_CLK_SEL starts glitch-free tree switches or stops. (R394) -/
  | clkSelWrite (rq : Rq) (quad : QuadNo) (value : BitVec 16)
  /-- A clock tree switch completes on the new divider. (R394) -/
  | clkSwitchDone (quad : QuadNo) (tree : Fin 4)
  /-- A write of QD_RESET asserts or releases the user reset of a clock tree. (R396) -/
  | qdResetWrite (rq : Rq) (quad : QuadNo) (value : Byte)
  /-- A write of QD_PROBE_SEL changes probe selections at the next trace edge 100 ns on. (R410) -/
  | probeSelWrite (rq : Rq) (quad : QuadNo) (offset : Nat) (data : List Byte)
  /-- COMMAND ARM of QD_TRACE_CTL clears and starts the trace buffer. (R411) -/
  | traceArm (rq : Rq) (quad : QuadNo) (value : BitVec 64)
  /-- COMMAND FORCE of QD_TRACE_CTL triggers an armed MANUAL trace. (R411) -/
  | traceForce (rq : Rq) (quad : QuadNo) (value : BitVec 64) (since : Unit)
  /-- COMMAND STOP of QD_TRACE_CTL ends sampling and sets DONE. (R411) -/
  | traceStop (rq : Rq) (quad : QuadNo) (value : BitVec 64) (since : Unit)
  /-- POST samples after the trigger have been taken, and the trace is DONE. (R411) -/
  | traceDone (quad : QuadNo) (samples : Unit)
  /-- A write to a user object is checked and presented to the design. (R409) -/
  | userObjectWrite (rq : Rq) (addr : Addr) (data : List Byte)
  /-- The design answers a user-object write, and the shadow and reply follow. (R409) -/
  | userObjectAnswer (rq : Rq) (answer : Fin 3)
  /-- The design submits a READ or WRITE request at the quadrant's NoC fabric port. (R407) -/
  | fabricPortRequest (quad : QuadNo) (req : FabricReq)
  /-- A fabric-port response returns with its status to the design. (R408) -/
  | fabricPortResponse (quad : QuadNo) (tag : BitVec 8)
  /-- A REC_WRITE strobe submits a FABRIC fail record into the bundle's capture FIFO. (R406) -/
  | recWrite (port : PortNo) (data : List Byte)
  /-- DEV_CFG_COMMAND BEGIN_FULL starts a full load, making ports inert and holding the fabric. (R425) -/
  | beginFull (rq : Rq)
  /-- A chunk of a configuration stream is consumed, its blocks authenticated and their frames written. (R426) -/
  | cfgChunk (rq : Rq) (quad : Option QuadNo) (data : List Byte)
  /-- A load that has accepted no chunk for 10 s fails with STALLED. (R428) -/
  | cfgStalled
  /-- The upsett step WAIT_LOCK takes effect once ROOT is locked. (R432) -/
  | waitLock (region : Option (Fin 16))
  /-- WAIT_LOCK does not complete within 100 ms, and the load fails. (R429) -/
  | lockTimeout (region : Option (Fin 16))
  /-- The upsett step RELEASE_GSR removes global set/reset. (R432) -/
  | releaseGsr (region : Option (Fin 16))
  /-- The upsett step ENABLE_WRITES enables queue-RAM writes. (R432) -/
  | enableWrites (region : Option (Fin 16))
  /-- The upsett step RELEASE_OUTPUTS releases utility I/O and personality connections and opens border latches. (R432) -/
  | releaseOutputs (region : Option (Fin 16))
  /-- QD_PR_COMMAND BEGIN closes a region's border latches and starts its wipe. (R437) -/
  | prBegin (rq : Rq) (quad : QuadNo) (region : Fin 4)
  /-- The region's wipe completes, and it starts receiving the partial stream. (R439) -/
  | prWipeDone (quad : QuadNo) (region : Fin 4)
  /-- A write of DEV_KEY_RAM writes the VBAT key RAM. (R443) -/
  | keyRamWrite (rq : Rq) (offset : Nat) (data : List Byte)
  /-- A write of DEV_KEY_RAM_CLEAR erases the VBAT key RAM. (R443) -/
  | keyRamClear (rq : Rq) (value : Byte)
  /-- The frame sentinel finds a frame whose CRC does not match, logs it and aborts sites under ABORT_SITE. (R441) -/
  | cfgFrameMismatch (frame : BitVec 20)
  /-- A disagreement of the sentinel's triplicated state is outvoted, and the scan restarts. (R442) -/
  | cfgSentinelVote
  /-- A sideband CRC error makes the link retry the flit, and 8 failures declare it down. (R448) -/
  | nocLinkRetry (router : Fin 24) (link : Fin 4) (failures : Nat)
  /-- A router absorbs a malformed head flit and counts it. (R449) -/
  | nocMalformed (seen : HeadAt)
  /-- No swap avoiding a down link completes within 10 ms, and a device-wide fault follows. (R457) -/
  | nocLinkDownTimeout (router : Fin 24) (link : Fin 4)
  /-- An edge router answers a packet addressed to an isolated or closed endpoint. (R458) -/
  | isolatedTargetAnswer (dest src : BitVec 6) (vc : BitVec 3) (epoch : Bool) (rest : BitVec 80)
  /-- A write of DEV_NOC_SHADOW loads the shadow routing table. (R454) -/
  | nocShadowWrite (rq : Rq) (offset : Nat) (data : List Byte)
  /-- DEV_NOC_SWAP SWAP checks the shadow table and starts back-pressure. (R456) -/
  | nocSwap (rq : Rq)
  /-- DEV_NOC_SWAP value 2 copies the default table into the shadow. (R461) -/
  | nocDefaultCopy (rq : Rq)
  /-- Every source injects with the new epoch, and DEV_NOC_EPOCH flips. (R456) -/
  | nocBackpressureDone (cycles : Fin 65)
  /-- No packet of the old epoch remains, and the swap returns to IDLE. (R456) -/
  | nocDrainDone (cycles : Unit)
  /-- Channel training and zero-fill complete, and waiting requests proceed. (R464) -/
  | memInitDone (chan : ChanNo) (failedPins : List (Fin 32)) (otherFail : Bool) (micros : Unit) (offsets : List (BitVec 16))
  /-- A memory controller performs a group read or write, decoding, merging and counting corrections. (R471) -/
  | memAccess (write : Bool) (addr : Nat) (data : List Byte) (count : Nat) (shows : MemShow)
  /-- The scrubber reads one group and writes it back corrected where needed. (R478) -/
  | scrubGroup (chan : ChanNo) (upsets : List Upset) (overtaken : Bool)
  /-- A disagreement of the scrubber's triplicated state is outvoted and the pass restarts at the next group. (R478) -/
  | scrubVoteUpset (chan : ChanNo)
  /-- A write of DEV_MEM_REGIONS sets the site region table. (R476) -/
  | memRegionsWrite (rq : Rq) (offset : Nat) (data : List Byte)
  /-- DEV_MEM_CMD DECLARE_LANE puts a channel into ERASURE with a declared lane. (R479) -/
  | declareLane (rq : Rq) (chan : Fin 16) (lane : Fin 32)
  /-- DEV_MEM_CMD ISOLATE isolates a channel and aborts sites that depend on it. (R480) -/
  | isolate (rq : Rq) (chan : Fin 16)
  /-- DEV_MEM_CMD RETRAIN starts training and zero-filling an isolated channel. (R481) -/
  | retrain (rq : Rq) (chan : Fin 16)
  /-- Retraining ends with the channel READY, ERASURE or still ISOLATED. (R481) -/
  | retrainDone (chan : ChanNo) (failedPins : List (Fin 32)) (otherFail : Bool)
  /-- DEV_MEM_CMD SCRUB_NOW starts a full scrub pass at once. (R481) -/
  | scrubNow (rq : Rq) (chan : Fin 16)
  /-- A doorbell write of N submits the frame in an IDLE slot's request area. (R492) -/
  | doorbellSubmit (slot : SlotNo) (frame : List Byte)
  /-- A doorbell write of 0 returns a DONE slot to IDLE or releases the next BLOCK_READ segment. (R492) -/
  | doorbellRelease (slot : SlotNo)
  /-- Setting ENABLE in a queue's CTRL starts the queue, or records CONFIG or BIND. (R495) -/
  | dmaQueueEnable (queue : QueueNo) (base : BitVec 64) (size ctrl : BitVec 32)
  /-- Clearing ENABLE lets the descriptor in progress complete and resets HEAD and TAIL. (R495) -/
  | dmaQueueDisable (queue : QueueNo)
  /-- A write of TAIL posts descriptors to an enabled queue. (R495) -/
  | dmaTailWrite (queue : QueueNo) (tail : BitVec 32)
  /-- A queue starts its next descriptor in ring order, after any fence or previous chunk answer. (R497) -/
  | dmaDescriptorStart (queue : QueueNo) (desc : List Byte)
  /-- A descriptor's data is committed or delivered, and its completion and interrupt are written. (R497) -/
  | dmaDescriptorComplete (queue : QueueNo) (hostData : List Byte) (hostError : Bool)
  /-- A host write through BAR2 reaches GDDR7 with check bytes formed, or is discarded. (R493) -/
  | bar2Write (addr : Nat) (data : List Byte)
  /-- A host read through BAR2 returns GDDR7 data, poisoned where required. (R493) -/
  | bar2Read (addr count : Nat)
  /-- A link-down, hot reset, FLR or return from D3hot resets BAR0 state and reverts host ownership. (R494) -/
  | pcieLinkDown
  /-- The Rim takes an event from its queue and writes its log entry. (R533) -/
  | logWrite
  /-- A write of DEV_LOG_CLEAR moves the log's first sequence to the next sequence. (R533) -/
  | devLogClear (rq : Rq) (value : Byte)
  /-- RIM_VIN becomes valid, and the Rim starts, validates the ledger and answers IDENTIFY. (R511) -/
  | rimStart
  /-- RIM_VIN falls below its threshold, and the Rim resets the main die and drops every enable. (R516) -/
  | pwrLineLoss
  /-- DEV_PWR_COMMAND POWER_UP starts the main-rail power-up sequence. (R514) -/
  | powerUp (rq : Rq) (cooled : Unit)
  /-- DEV_PWR_COMMAND POWER_DOWN starts the main-rail power-down sequence. (R515) -/
  | powerDown (rq : Rq)
  /-- 1 ms after PG_k reads high, the sequencer moves to the next enable or to Release. (R514) -/
  | powerUpStep
  /-- PG_k is not high 20 ms after its enable, and the sequencer powers down from that step. (R514) -/
  | pwrPgTimeout
  /-- Release ends after 2 ms, and the Rim releases its internal main reset. (R514) -/
  | powerRelease (micros : Unit)
  /-- PG_k reads low or 5 ms pass, and the sequencer drops the next enable. (R515) -/
  | powerDownStep (pgLow : Bool)
  /-- A PG input falls while its enable is high, and the Rim resets the main die and powers down. (R516) -/
  | pwrPgLost (input : Fin 8)
  /-- The thermal sensors are sampled, setting WARN, range flags or a thermal shutdown. (R521) -/
  | thermalSample (temps : List (BitVec 16)) (rim : BitVec 16)
  /-- The rail meters are read, and PWR_LIMIT is logged when the total exceeds the limit. (R527) -/
  | railMeterSample (rails : List (BitVec 16 × BitVec 32)) (vbat rimVin : BitVec 16) (domains : List (BitVec 32)) (milliJoules : Nat)
  /-- QD_PWR_COMMAND POWER_DOWN starts the fence of a quadrant. (R518) -/
  | qdPowerDown (rq : Rq) (quad : QuadNo)
  /-- The fenced quadrant's endpoints are empty, and its domain is powered off. (R459) -/
  | fenceDrainDone (quad : QuadNo) (nanos : Unit)
  /-- QD_PWR_COMMAND POWER_UP starts switching a quadrant's domain on. (R519) -/
  | qdPowerUp (rq : Rq) (quad : QuadNo)
  /-- The quadrant's domain rails are within tolerance, and Restore begins. (R519) -/
  | qdSwitchDone (quad : QuadNo)
  /-- Channels are trained and regions re-released, and the quadrant opens. (R519) -/
  | qdRestoreDone (quad : QuadNo) (failedRegions : List (Fin 4)) (micros : Unit)
  /-- A quadrant's Switch or Restore phase overruns its bound, and the domain is powered off again. (R520) -/
  | qdPwrUpFailed (quad : QuadNo) (micros : Unit)
  /-- The discard pass has marked records of LOST contexts as DISCARDED. (R535) -/
  | discardDone
  /-- Writes of 0x5A then 0xA5 to DEV_IJ_UNLOCK unlock internal fault injection. (R539) -/
  | ijUnlock (rq : Rq) (value : Byte) (within10ms : Unit)
  /-- DEV_IJ_CONTROL ARM arms the configured internal injection. (R540) -/
  | ijArm (rq : Rq)
  /-- DEV_IJ_CONTROL DISARM returns injection to LOCKED. (R539) -/
  | ijDisarm (rq : Rq)
  /-- An injection interval passes, and one injection acts on its target. (R541) -/
  | ijFired
  /-- DEV_IJ_WINDOW passes without an ARM, and injection returns to LOCKED. (R539) -/
  | ijWindowExpiry
  /-- ABORT_N returns high, and ARM and START are no longer refused with STATE. (R89) -/
  | abortNRelease
  /-- The PCIe link trains at a generation and width and DEV_PCIE_LINK reports UP. (R490) -/
  | pcieLinkUp (gen width : Fin 16)
  /-- The 10BASE-T1L PHY completes autonegotiation and DEV_MGT_LINK reports UP at 1.0 V or 2.4 V. (R503) -/
  | mgtLinkUp (high : Bool)
  /-- The management line is lost and DEV_MGT_LINK reads DOWN. (R503) -/
  | mgtLinkDown
  /-- VBAT falls below 1.0 V, the VBAT key RAM is cleared and KEY_RAM valid reads 0. (R525) -/
  | vbatLow (millivolts : BitVec 16)
  /-- A STREAM-mode wave DAC finds no fabric sample at a WAVE edge, repeats the last sample and sets STREAM_UNDERRUN. (R158) -/
  | streamUnderrun (bundle : BundleNo) (wd : Fin 2)
  /-- A lane with the FABRIC source has no symbols for a WORD cycle, sends its idle and sets TX_UNDERRUN. (R242) -/
  | txUnderrun (port : PortNo)
  /-- A received lane entry finds the fabric RX FIFO full, is lost and is counted in RX_OVERFLOW. (R404) -/
  | rxOverflow (port : PortNo)
  /-- The fabric drives EQ_CLEAR and the lane clears FABRIC_EQ_SUPERSEDED. (R402) -/
  | eqClear (port : PortNo)
  /-- A tree's fabric select lines change while SEL_SRC is 1, starting a glitch-free switch to another divider. (R394) -/
  | fabricClkSelect (quad : QuadNo) (tree sel : Fin 4)
  /-- A tree's fabric reset line asserts or releases the tree's user reset. (R396) -/
  | fabricUserReset (quad : QuadNo) (tree : Fin 4) (level : Bool)
  /-- An armed trace finds its MATCH, FAB_TRIGGER or ABORT condition at a sample and sets TRIGGERED. (R411) -/
  | traceTrigger (quad : QuadNo) (since sample : Unit)
  /-- A NoC link held down by injection retrains after DEV_IJ_DURATION and comes back up, raising NOC_LINK_UP. (R541) -/
  | nocLinkUp (router : Fin 24) (link : Fin 4)
  /-- A Warp-out quieted by injection resumes transmission after DEV_IJ_DURATION. (R541) -/
  | warpQuietEnd (out : Fin 4)
  /-- Within 20 ms after ROOT is first present the ledger sets are loaded into the engine and each port is put into the state its FLAGS record. (R375) -/
  | calSetsLoaded
  /-- The re-wipe of a region after a failed partial load completes and the region reads EMPTY behind its latches. (R439) -/
  | prFailWipeDone (quad : QuadNo) (region : Fin 4)
  deriving DecidableEq, Repr

end Sys2Proof
end

