-- ==== Sys2Proof/Machine/Cipher.lean ====
section
/-! DEFINITION. AES-256-GCM, which authenticates and deciphers the body of a configuration stream: AES as FIPS 197 has it, GCM as
SP 800-38D has it, with a 96-bit IV and a 128-bit tag (R11, R422). -/
namespace Sys2Proof.Machine

/-! ## AES (FIPS 197) -/

/-- Twice an element of GF(2^8) with polynomial 0x11B. -/
def aesTwice (a : Byte) : Byte := (a <<< 1) ^^^ (if a.getLsbD 7 then 0x1B#8 else 0#8)

/-- The product in GF(2^8): by Horner's rule over the bits of b, the highest first. -/
def aesMul (a b : Byte) : Byte :=
  (List.range 8).foldl (fun acc i => aesTwice acc ^^^ (if b.getLsbD (7 - i) then a else 0#8)) 0#8

/-- The inverse a^254; 0 for 0. -/
def aesInv (a : Byte) : Byte :=
  let a2 := aesMul a a
  let a3 := aesMul a2 a
  let a6 := aesMul a3 a3
  let a12 := aesMul a6 a6
  let a15 := aesMul a12 a3
  let a30 := aesMul a15 a15
  let a60 := aesMul a30 a30
  let a120 := aesMul a60 a60
  let a126 := aesMul a120 a6
  let a127 := aesMul a126 a
  aesMul a127 a127

/-- SUBBYTES of one byte. -/
def subByte (a : Byte) : Byte :=
  let b := aesInv a
  b ^^^ b.rotateLeft 1 ^^^ b.rotateLeft 2 ^^^ b.rotateLeft 3 ^^^ b.rotateLeft 4 ^^^ 0x63#8

/-- The byte-wise sum of two lists. -/
def xorBytes (a b : List Byte) : List Byte := (a.zip b).map (fun e => e.1 ^^^ e.2)

/-- RCON of round j, from 1. -/
def roundConst : Nat → Byte
  | 0 => 0x8D#8
  | n + 1 => aesTwice (roundConst n)

/-- The next word of the key schedule of a 256-bit key; `w` holds the words so far, the newest first. -/
def nextWord (w : List (List Byte)) : List Byte :=
  let i := w.length
  let t := w.headD []
  let t :=
    if i % 8 == 0 then xorBytes ((t.drop 1 ++ t.take 1).map subByte) [roundConst (i / 8), 0, 0, 0]
    else if i % 8 == 4 then t.map subByte else t
  xorBytes (w.getD 7 []) t

/-- The 15 round keys of a 256-bit key. -/
def roundKeys (key : List Byte) : List (List Byte) :=
  let first := (List.range 8).map (fun i => (key.drop (4 * i)).take 4)
  let words := ((List.range 52).foldl (fun w _ => nextWord w :: w) first.reverse).reverse
  (List.range 15).map (fun r => ((words.drop (4 * r)).take 4).flatten)

/-- SHIFTROWS: byte r of column c comes from column c + r. -/
def shiftRows (b : List Byte) : List Byte := (List.range 16).map (fun i => b.getD ((i + 4 * (i % 4)) % 16) 0#8)

/-- MIXCOLUMNS. -/
def mixColumns (b : List Byte) : List Byte :=
  (List.range 16).map (fun i =>
    let at' (k : Nat) := b.getD (i / 4 * 4 + (i + k) % 4) 0#8
    aesTwice (at' 0) ^^^ (aesTwice (at' 1) ^^^ at' 1) ^^^ at' 2 ^^^ at' 3)

/-- The cipher under the 15 round keys. -/
def aesBlock (keys : List (List Byte)) (block : List Byte) : List Byte :=
  let mid := ((keys.drop 1).take 13).foldl (fun b k => xorBytes (mixColumns (shiftRows (b.map subByte))) k)
    (xorBytes block (keys.headD []))
  xorBytes (shiftRows (mid.map subByte)) (keys.getD 14 [])

/-! ## GCM (SP 800-38D) -/

/-- A block as a number whose highest bit is the block's first. -/
def gcmBlock (b : List Byte) : BitVec 128 := BitVec.ofNat 128 ((b ++ List.replicate (16 - b.length) 0#8).foldl (fun a x => 256 * a + x.toNat) 0)

/-- The 16 bytes of a block. -/
def gcmBytes (x : BitVec 128) : List Byte := (List.range 16).map (fun i => BitVec.ofNat 8 (x.toNat / 2 ^ (8 * (15 - i))))

/-- The product of two blocks. -/
def ghashMul (x y : BitVec 128) : BitVec 128 :=
  ((List.range 128).foldl (fun (e : BitVec 128 × BitVec 128) i =>
    (if x.getMsbD i then e.1 ^^^ e.2 else e.1,
     (e.2 >>> 1) ^^^ (if e.2.getLsbD 0 then 0xE1000000000000000000000000000000#128 else 0#128))) (0#128, y)).1

/-- The 16-byte pieces of a list, the last one as long as it is. -/
def pieces16 (l : List Byte) : List (List Byte) := (List.range (ceilDiv l.length 16)).map (fun i => (l.drop (16 * i)).take 16)

/-- GHASH under the subkey h. -/
def ghash (h : BitVec 128) (blocks : List (List Byte)) : BitVec 128 := blocks.foldl (fun a b => ghashMul (a ^^^ gcmBlock b) h) 0#128

/-- Big-endian bytes of a number. -/
def beBytes (n v : Nat) : List Byte := (leBytes n v).reverse

/-- The counter block of a 96-bit IV. -/
def counterBlock (iv : List Byte) (n : Nat) : List Byte := iv ++ beBytes 4 n

/-- The plaintext of a ciphertext. -/
def gcmPlain (key iv cipher : List Byte) : List Byte :=
  let keys := roundKeys key
  let stream := (List.range (ceilDiv cipher.length 16)).flatMap (fun i => aesBlock keys (counterBlock iv (i + 2)))
  xorBytes cipher stream

/-- The 128-bit tag over a ciphertext and its additional data. -/
def gcmTag (key iv aad cipher : List Byte) : List Byte :=
  let keys := roundKeys key
  let h := gcmBlock (aesBlock keys (List.replicate 16 0#8))
  let s := ghash h (pieces16 aad ++ pieces16 cipher ++ [beBytes 8 (8 * aad.length) ++ beBytes 8 (8 * cipher.length)])
  xorBytes (gcmBytes s) (aesBlock keys (counterBlock iv 1))

end Sys2Proof.Machine
end

