-- ==== Sys2Proof/Config.lean ====
section
/-! DEFINITION. The free values: what the spec leaves open and the block nevertheless has. Each is a constant with no
body, so no proof can use a particular value of it (log 4, 7 to 12). -/
namespace Sys2Proof.Config

/-- An undefined value, fresh for each count that the state draws (log 4). -/
opaque freeValue : Nat → BitVec 64

/-- What the DUT presents at package pin DPp at a TIME count, outside the strobes of a run (R122, log 129). -/
opaque dutPin : Nat → Nat → Option PinDrive

/-- Volts of a node that no source drives, by node and TIME count: undefined (R122, log 129). -/
opaque floatVolts : Nat → Nat → Rat

/-- Volts of VPE_P (0) and VPE_N (1) at a TIME count, which the measurement chain can read (R160, log 129). -/
opaque railVolts : Nat → Nat → Rat

/-- Setting of a logic cell, read from the bytes of its region's LOGIC frames (R388, R418); the manual does not give the layout
of the frames (log 156). -/
opaque cellSetting : List (BitVec 8) → Nat → CellSetting
/-- The cell stands at the foot of its column, where no carry comes in from below (R389, log 156). -/
opaque columnFoot : Nat → Bool
/-- Setting of a queue controller, read from the bytes of its region's LOGIC and ROUTING frames (R398, log 156). -/
opaque queueSetting : List (BitVec 8) → Nat → QueueSetting
/-- What feeds the wire that ends at a sink, read from the bytes of the frames that hold its select fields (R391, log 156). -/
opaque netSource : List (BitVec 8) → FabSink → FabNet
/-- Tree of the interface of line n of bundle or port u, read from the bytes of the POOL, PERSONALITY and CLOCK frames (R404,
R418, log 156). -/
opaque lineTree : List (BitVec 8) → FabSink → Fin 4
/-- A line of the NoC port, the object port or a utility pin into the design, by quadrant, line and TIME count (R402, log 130). -/
opaque outerLine : Nat → Nat → Nat → Bool
/-- A wire in a combinational loop, or the second output of a WHOLE cell from its table, by TIME count (R388, log 156). -/
opaque fabricOpen : Nat → Bool
/-- What a PAIR_RAM read delivers that meets a write of the same entry, by TIME count (R398, log 156). -/
opaque readMeetsWrite : Nat → BitVec 288

/-- Tap i of the vendor's default FIR filter (R165, log 12). -/
opaque vendorTap : Nat → BitVec 32

/-- What a fabric design does with one byte of its configuration frames is outside the manual (R402, R418, log 7):
the byte at an address of the design's declaration, read from the frames' bytes. -/
opaque designByte : List (BitVec 8) → Nat → BitVec 8

/-- What the design keeps in the RO shadow value of a user entry, by its frames, entry and TIME count (R409, log 7). -/
opaque roShadow : List (BitVec 8) → Nat → Nat → BitVec 64

/-- TIME ticks of a full pass of the frame sentinel, less one; at most 2 s of them count (R440). -/
opaque sentinelPass : Nat

/-- A select field of a ROUTING or CLOCK frame is neither all 0 nor one-hot (R391, R419); the manual does not give the
layout of the fields (log 41). -/
opaque selectFault : Nat → List (BitVec 8) → Bool

/-- Values that the DUT standards define and the manual cites by reference (R308, R310, R319, R323, log 9), by a
selector of the item and its operands. -/
opaque dutStandard : Nat → List Nat → Nat

/-- DEPTH in FLAGS of a set whose sender has no depth (R189; log 144), by TIME. -/
opaque unalignedDepth : Nat → BitVec 4

/-- The two PAM3 symbols, as 3 times the first and the second, of three bits under 3B2S (R234, JESD239; log 9). -/
opaque threeBits : BitVec 3 → BitVec 4
/-- The bits of a pair of PAM3 symbols that 3B2S does not use (log 9). -/
opaque strayThree : BitVec 3
/-- What a TERNARY lane sends for the two bits 11 (log 150). -/
opaque strayTernary : BitVec 2
/-- Symbol of SSPRQ by its place in the 65,535 (R252, IEEE 802.3 clause 120; log 9). -/
opaque ssprq : Nat → BitVec 2
/-- Seed of the SCRAMBLE 2 register of a port's lane (R250, log 152). -/
opaque laneSeed : Nat → BitVec 23
/-- What a received 10-bit group that is no code group of 8B10B gives as a character (R250, log 155). -/
opaque strayGroup : BitVec 10 → BitVec 8
/-- Output of the CTLE at a peaking of 1 to 15 dB for what the receiver senses at this symbol and the ones before it, the latest
first (R243, log 153). -/
opaque ctle : Nat → List Rat → Rat

end Sys2Proof.Config
end

