-- ==== Sys2Proof/Machine/Store.lean ====
section
/-! DEFINITION. The operations of `Store`, the sparse data of State: a list of key and value pairs in one canonical
form, keys strictly rising and no entry equal to what an unlisted key reads as. GDDR7, the dictionary's registers and
every numbered unit of the block are held in it. -/
namespace Sys2Proof.Machine.Store

variable {α : Type}

/-- The value at a key; `d` is what an unlisted key reads as. -/
def get (d : α) (k : Nat) : Store α → α
  | [] => d
  | (i, v) :: l => if i = k then v else get d k l

/-- Removes a key. -/
def del (k : Nat) : Store α → Store α
  | [] => []
  | (i, v) :: l => if i = k then del k l else (i, v) :: del k l

/-- Lists a value before the first key above its own. -/
def place (k : Nat) (v : α) : Store α → Store α
  | [] => [(k, v)]
  | (i, w) :: l => if k < i then (k, v) :: (i, w) :: l else (i, w) :: place k v l

/-- Lists a value at a key, in order. -/
def ins (k : Nat) (v : α) (l : Store α) : Store α := place k v (del k l)

/-- Writes a key; writing what an unlisted key reads as removes the entry. -/
def put [DecidableEq α] (d : α) (k : Nat) (v : α) (l : Store α) : Store α :=
  if v = d then del k l else ins k v l

/-- Every key of the list is above `lo` (all of them when `lo` is none), keys rise, and no entry reads as unlisted. -/
def wfFrom [DecidableEq α] (d : Nat → α) : Option Nat → Store α → Bool
  | _, [] => true
  | lo, (i, v) :: l =>
    (match lo with | none => true | some b => decide (b < i)) && decide (v ≠ d i) && wfFrom d (some i) l

/-- The canonical form. -/
def wf [DecidableEq α] (d : Nat → α) (l : Store α) : Bool := wfFrom d none l

/-- n consecutive values. -/
def gets (d : α) (k : Nat) : Nat → Store α → List α
  | 0, _ => []
  | n + 1, l => get d k l :: gets d (k + 1) n l

/-- Writes consecutive values. -/
def puts [DecidableEq α] (d : α) (k : Nat) : List α → Store α → Store α
  | [], l => l
  | v :: vs, l => puts d (k + 1) vs (put d k v l)

/-- Removes every key from `lo` to `hi − 1`. -/
def clear (lo hi : Nat) (l : Store α) : Store α := l.filter (fun e => !(decide (lo ≤ e.1) && decide (e.1 < hi)))

end Sys2Proof.Machine.Store
end

