-- ==== Sys2Proof/Machine/Objects.lean ====
section
/-! DEFINITION. The base dictionary: every entry of the object tables of spec/ (R42 to R46) with its address, type,
access class, size, default and, where the range column is one numeric span, that span. The tables of the chapters:
R61, R64, R85, R129, R171, R173, R203, R205, R231, R260, R299, R329, R330, R349, R350, R383 to R386, R412, R444, R445,
R460, R461, R482 to R484, R508 to R510, R527, R528, R542 to R544. -/
namespace Sys2Proof.Machine

/-- The block an index lies in (R42). -/
inductive Space where
  | dev | site | quad | bnd | port
  deriving DecidableEq, Repr, Inhabited

/-- The types of R46. -/
inductive ObjType where
  | bool | uint | sint | vstr | dom
  deriving DecidableEq, Repr, Inhabited

/-- The access classes of R48. -/
inductive Access where
  | ro | con | wo | rw | rwi | rwg | rwx
  deriving DecidableEq, Repr, Inhabited

/-- One row of an object table: the offset in its block (the index itself at device level), the sub-indices it spans,
type, access, size in bytes, default of each scalar (of each byte for DOM) and numeric range. -/
structure ObjRow where
  space : Space
  off : Nat
  sub1 : Nat
  sub2 : Nat
  type : ObjType
  acc : Access
  size : Nat
  dflt : Nat
  lo : Nat
  hi : Nat
  deriving DecidableEq, Repr, Inhabited

/-- The named objects of the base dictionary, in the order of the spec's chapters. -/
inductive Obj where
  /-- 0x1000 DEV_DICT_REV, R61. -/
  | devDictRev
  /-- 0x1001 DEV_GRADE, R61. -/
  | devGrade
  /-- 0x1008 DEV_NAME, R61. -/
  | devName
  /-- 0x1009 DEV_STEPPING, R61. -/
  | devStepping
  /-- 0x1018:01 DEV_VENDOR_CODE, R61. -/
  | devVendorCode
  /-- 0x1018:02 DEV_PRODUCT_CODE, R61. -/
  | devProductCode
  /-- 0x1018:03 DEV_STEPPING_CODE, R61. -/
  | devSteppingCode
  /-- 0x1018:04 DEV_SERIAL, R61. -/
  | devSerial
  /-- 0x2000:01 DEV_STATE, R61. -/
  | devState
  /-- 0x2000:02 DEV_COMMAND, R61. -/
  | devCommand
  /-- 0x2000:03 DEV_FAULT_CAUSE, R61. -/
  | devFaultCause
  /-- 0x2000:04 CONTROL_OWNER, R61. -/
  | controlOwner
  /-- 0x2000:05 GROUP_COMMIT, R61. -/
  | groupCommit
  /-- 0x2000:06 ABORT, R61. -/
  | abort
  /-- 0x2000:07 DEV_GROUP_STAGED, R61. -/
  | devGroupStaged
  /-- 0x2000:08 DEV_GROUP_RESULT, R61. -/
  | devGroupResult
  /-- SB+0x00 SITE_STATE, R64. -/
  | siteState
  /-- SB+0x01 SITE_BUNDLES, R64. -/
  | siteBundles
  /-- SB+0x02 SITE_COMMAND, R64. -/
  | siteCommand
  /-- SB+0x03:01 SITE_STEP_BASE, R64. -/
  | siteStepBase
  /-- SB+0x03:02 SITE_STEP_COUNT, R64. -/
  | siteStepCount
  /-- SB+0x04 SITE_LOCKSTEP, R64. -/
  | siteLockstep
  /-- SB+0x05:01 SITE_ARM_STATUS, R64. -/
  | siteArmStatus
  /-- SB+0x05:02 SITE_ARM_CHECK, R64. -/
  | siteArmCheck
  /-- SB+0x05:03 SITE_ARM_STEP, R64. -/
  | siteArmStep
  /-- SB+0x05:04 SITE_ARM_OBJECT, R64. -/
  | siteArmObject
  /-- SB+0x06 SITE_STEP_NOW, R64. -/
  | siteStepNow
  /-- SB+0x07 SITE_ABORT_CAUSE, R64. -/
  | siteAbortCause
  /-- BB+0x00 BND_STATE, R85. -/
  | bndState
  /-- BB+0x01 BND_SITE, R85. -/
  | bndSite
  /-- BB+0x02 BND_ABORT_CAUSE, R85. -/
  | bndAbortCause
  /-- BB+0x03:01 BND_ABORT_TIME, R85. -/
  | bndAbortTime
  /-- BB+0x03:02 BND_ABORT_FLAGS, R85. -/
  | bndAbortFlags
  /-- BB+0x04 BND_ABORT_COUNT, R85. -/
  | bndAbortCount
  /-- PB+0x00:01 PORT_EN_DRIVE, R129. -/
  | portEnDrive
  /-- PB+0x00:02 PORT_EN_COMPARE, R129. -/
  | portEnCompare
  /-- PB+0x00:03 PORT_EN_LOAD, R129. -/
  | portEnLoad
  /-- PB+0x00:04 PORT_EN_PMU, R129. -/
  | portEnPmu
  /-- PB+0x00:05 PORT_EN_PINSW, R129. -/
  | portEnPinsw
  /-- PB+0x00:06 PORT_EN_TERM, R129. -/
  | portEnTerm
  /-- PB+0x01 PORT_FE_CONFIG, R129. -/
  | portFeConfig
  /-- PB+0x02:01 PORT_DRV_L0, R129. -/
  | portDrvL0
  /-- PB+0x02:02 PORT_DRV_L1, R129. -/
  | portDrvL1
  /-- PB+0x02:03 PORT_DRV_L2, R129. -/
  | portDrvL2
  /-- PB+0x02:04 PORT_DRV_L3, R129. -/
  | portDrvL3
  /-- PB+0x03 PORT_VTT, R129. -/
  | portVtt
  /-- PB+0x04:01 PORT_CT0, R129. -/
  | portCt0
  /-- PB+0x04:02 PORT_CT1, R129. -/
  | portCt1
  /-- PB+0x04:03 PORT_CT2, R129. -/
  | portCt2
  /-- PB+0x05 PORT_LOAD, R129. -/
  | portLoad
  /-- BB+0x08 BND_POOL_CELLS, R171. -/
  | bndPoolCells
  /-- BB+0x09 BND_POOL_LINK, R171. -/
  | bndPoolLink
  /-- BB+0x0A BND_POOL_MAP, R171. -/
  | bndPoolMap
  /-- BB+0x0B BND_POOL_WAVE, R171. -/
  | bndPoolWave
  /-- BB+0x0C BND_POOL_STATUS, R171. -/
  | bndPoolStatus
  /-- BB+0x10 BND_MEAS_CONFIG, R173. -/
  | bndMeasConfig
  /-- BB+0x11 BND_MEAS_COEF, R173. -/
  | bndMeasCoef
  /-- BB+0x12 BND_MEAS_CONTROL, R173. -/
  | bndMeasControl
  /-- BB+0x13 BND_MEAS_LAST, R173. -/
  | bndMeasLast
  /-- BB+0x14 BND_MEAS_HISTORY, R173. -/
  | bndMeasHistory
  /-- 0x2200:01 DEV_CLK_RUNNING, R203. -/
  | devClkRunning
  /-- 0x2200:02 DEV_CFG_SOURCE, R203. -/
  | devCfgSource
  /-- 0x2200:03 DEV_SYNTH_STATE, R203. -/
  | devSynthState
  /-- 0x2200:04 DEV_SYNTH_LOSS_COUNT, R203. -/
  | devSynthLossCount
  /-- 0x2200:05 DEV_TBREF_OFFSET, R203. -/
  | devTbrefOffset
  /-- 0x2200:06 DEV_TBREF_PRESENT, R203. -/
  | devTbrefPresent
  /-- 0x2200:07 DEV_RIM_OSC_OFFSET, R203. -/
  | devRimOscOffset
  /-- 0x2200:08 DEV_LINE_SETTLED, R203. -/
  | devLineSettled
  /-- 0x2201:01–0C DEV_LINE_RATIO, R203. -/
  | devLineRatio
  /-- 0x2300:01 WARP_ROLE, R205. -/
  | warpRole
  /-- 0x2300:02 DEV_TB_STATE, R205. -/
  | devTbState
  /-- 0x2300:03 TIME_NOW, R205. -/
  | timeNow
  /-- 0x2300:04 DEV_HOLDOVER_ABORT, R205. -/
  | devHoldoverAbort
  /-- 0x2300:05 DEV_EVENT_TIME, R205. -/
  | devEventTime
  /-- 0x2300:06 DEV_EVENT_SEND, R205. -/
  | devEventSend
  /-- 0x2300:07 DEV_WARP_OUT_EN, R205. -/
  | devWarpOutEn
  /-- 0x2300:08 DEV_WARP_DEPTH, R205. -/
  | devWarpDepth
  /-- 0x2300:09 DEV_WARP_ASYM, R205. -/
  | devWarpAsym
  /-- 0x2300:0A DEV_WARP_DELAY, R205. -/
  | devWarpDelay
  /-- 0x2300:0B DEV_TIME_RESIDUAL, R205. -/
  | devTimeResidual
  /-- 0x2300:0C DEV_WARP_CHAR, R205. -/
  | devWarpChar
  /-- 0x2300:0D DEV_WARP_CHAR_RESULT, R205. -/
  | devWarpCharResult
  /-- 0x2301:01–05 DEV_WARP_LINK, R205. -/
  | devWarpLink
  /-- PB+0x10 PORT_MODE, R231. -/
  | portMode
  /-- PB+0x11 PORT_TSET, R231. -/
  | portTset
  /-- PB+0x12:01 PORT_FIX_DRIVE, R231. -/
  | portFixDrive
  /-- PB+0x12:02 PORT_FIX_COMPARE, R231. -/
  | portFixCompare
  /-- PB+0x13 PORT_EDGE_STATUS, R231. -/
  | portEdgeStatus
  /-- PB+0x14 PORT_CYCLE_COUNT, R231. -/
  | portCycleCount
  /-- PB+0x15 PORT_PARK, R231. -/
  | portPark
  /-- PB+0x16 PORT_TSET_CHECK, R231. -/
  | portTsetCheck
  /-- PB+0x18 PORT_SER_CONFIG, R260. -/
  | portSerConfig
  /-- PB+0x19 PORT_SER_TXEQ, R260. -/
  | portSerTxeq
  /-- PB+0x1A PORT_SER_RXEQ, R260. -/
  | portSerRxeq
  /-- PB+0x1B PORT_SER_TIMING, R260. -/
  | portSerTiming
  /-- PB+0x1C PORT_SER_PRBS, R260. -/
  | portSerPrbs
  /-- PB+0x1D PORT_SER_STATUS, R260. -/
  | portSerStatus
  /-- PB+0x1E PORT_SER_ERRORS, R260. -/
  | portSerErrors
  /-- PB+0x1F PORT_SER_BITS, R260. -/
  | portSerBits
  /-- BB+0x18 BND_PE_CTX_CMD, R299. -/
  | bndPeCtxCmd
  /-- BB+0x19 BND_PE_CTX_STATES, R299. -/
  | bndPeCtxStates
  /-- BB+0x1A BND_PE_CTX_IMAGE, R299. -/
  | bndPeCtxImage
  /-- BB+0x1B BND_PE_STATUS, R299. -/
  | bndPeStatus
  /-- BB+0x1C BND_PE_ISSUED, R299. -/
  | bndPeIssued
  /-- BB+0x20 BND_SCHED_STATUS, R329. -/
  | bndSchedStatus
  /-- BB+0x21 BND_SCHED_COUNTS, R329. -/
  | bndSchedCounts
  /-- BB+0x22 BND_DUT_ERRORS, R329. -/
  | bndDutErrors
  /-- BB+0x23 BND_TRAIN_RESULT, R329. -/
  | bndTrainResult
  /-- BB+0x24 BND_SCHED_LAST, R329. -/
  | bndSchedLast
  /-- BB+0x38 BND_INJ_CONFIG, R330. -/
  | bndInjConfig
  /-- BB+0x39 BND_INJ_CONTROL, R330. -/
  | bndInjControl
  /-- BB+0x3A BND_INJ_STATUS, R330. -/
  | bndInjStatus
  /-- PB+0x28 PORT_CMP_CONFIG, R349. -/
  | portCmpConfig
  /-- PB+0x29 PORT_FAIL_COUNT, R349. -/
  | portFailCount
  /-- PB+0x2A PORT_FIRST_FAIL, R349. -/
  | portFirstFail
  /-- PB+0x2B PORT_RAW_STATUS, R349. -/
  | portRawStatus
  /-- BB+0x28 BND_CAP_STATUS, R350. -/
  | bndCapStatus
  /-- BB+0x29 BND_CAP_READ, R350. -/
  | bndCapRead
  /-- BB+0x2A BND_TALLY, R350. -/
  | bndTally
  /-- BB+0x2B BND_CAP_BUNDLE, R350. -/
  | bndCapBundle
  /-- 0x2700:01 CAL_AUTO_ENABLE, R383. -/
  | calAutoEnable
  /-- 0x2700:02 CAL_DELTA_T, R383. -/
  | calDeltaT
  /-- 0x2700:03 CAL_GRADE_FLOOR, R383. -/
  | calGradeFloor
  /-- 0x2700:04 DEV_CAL_SURVEY_ENABLE, R383. -/
  | devCalSurveyEnable
  /-- 0x2700:05 DEV_CAL_LISTEN_LIMIT, R383. -/
  | devCalListenLimit
  /-- 0x2700:06 DEV_CAL_HOLD, R383. -/
  | devCalHold
  /-- 0x2700:07 DEV_CAL_REF_SOURCE, R383. -/
  | devCalRefSource
  /-- 0x2700:08 DEV_CAL_VREF, R383. -/
  | devCalVref
  /-- 0x2700:09 DEV_CAL_ACTIVE, R383. -/
  | devCalActive
  /-- 0x2700:0A DEV_CAL_SUB_MAP, R383. -/
  | devCalSubMap
  /-- 0x2700:0B DEV_CAL_CYCLES, R383. -/
  | devCalCycles
  /-- 0x2700:0C DEV_CAL_FALLBACKS, R383. -/
  | devCalFallbacks
  /-- 0x2700:0D DEV_CAL_COMMIT_PENDING, R383. -/
  | devCalCommitPending
  /-- 0x2700:0E DEV_CAL_COMMITS, R383. -/
  | devCalCommits
  /-- 0x2700:0F DEV_CAL_COMMIT_LOST, R383. -/
  | devCalCommitLost
  /-- 0x2700:10 DEV_CAL_LEDGER_STATE, R383. -/
  | devCalLedgerState
  /-- BB+0x30 BND_BYE_TARGET, R384. -/
  | bndByeTarget
  /-- BB+0x31 BND_CAL_COMMAND, R384. -/
  | bndCalCommand
  /-- BB+0x32 BND_CAL_STATUS, R384. -/
  | bndCalStatus
  /-- PB+0x20 PORT_CAL_REQUEST, R386. -/
  | portCalRequest
  /-- PB+0x21 PORT_CAL_STATE, R386. -/
  | portCalState
  /-- PB+0x22 PORT_CAL_QUALITY, R386. -/
  | portCalQuality
  /-- PB+0x23 PORT_CAL_TRIMS, R386. -/
  | portCalTrims
  /-- PB+0x24 PORT_CAL_SET, R386. -/
  | portCalSet
  /-- PB+0x25 PORT_CAL_COUNT, R386. -/
  | portCalCount
  /-- PB+0x26 PORT_CAL_LAST, R386. -/
  | portCalLast
  /-- PB+0x27 PORT_CAL_HIST, R386. -/
  | portCalHist
  /-- QB+0x00 QD_CLK_DIV, R415. -/
  | qdClkDiv
  /-- QB+0x01 QD_CLK_SEL, R415. -/
  | qdClkSel
  /-- QB+0x02 QD_CLK_STATUS, R415. -/
  | qdClkStatus
  /-- QB+0x03 QD_RESET, R415. -/
  | qdReset
  /-- QB+0x04 QD_PROBE_SEL, R415. -/
  | qdProbeSel
  /-- QB+0x05 QD_TRACE_CTL, R415. -/
  | qdTraceCtl
  /-- QB+0x06 QD_TRACE_STATUS, R415. -/
  | qdTraceStatus
  /-- QB+0x07 QD_TRACE_BUF, R415. -/
  | qdTraceBuf
  /-- QB+0x08 QD_QUEUE_ERR, R415. -/
  | qdQueueErr
  /-- QB+0x09 QD_LANE_STATUS, R415. -/
  | qdLaneStatus
  /-- QB+0x0A QD_FAB_STATUS, R415. -/
  | qdFabStatus
  /-- 0x2400:01 DEV_CFG_COMMAND, R443. -/
  | devCfgCommand
  /-- 0x2400:02 DEV_CFG_STREAM, R443. -/
  | devCfgStream
  /-- 0x2400:03 DEV_CFG_STATE, R443. -/
  | devCfgState
  /-- 0x2400:04 DEV_CFG_ERROR, R443. -/
  | devCfgError
  /-- 0x2400:05 DEV_CFG_ERR_WHERE, R443. -/
  | devCfgErrWhere
  /-- 0x2400:06 DEV_CFG_BYTES, R443. -/
  | devCfgBytes
  /-- 0x2400:07 DEV_CFG_BLOCKS, R443. -/
  | devCfgBlocks
  /-- 0x2400:08 DEV_CFG_FRAMES, R443. -/
  | devCfgFrames
  /-- 0x2400:09 DEV_CFG_UPSETT, R443. -/
  | devCfgUpsett
  /-- 0x2400:0A DEV_CFG_KEYSEL, R443. -/
  | devCfgKeysel
  /-- 0x2400:0B DEV_CFG_WIPE_TIME, R443. -/
  | devCfgWipeTime
  /-- 0x2401:01 DEV_KEY_STATUS, R443. -/
  | devKeyStatus
  /-- 0x2401:02 DEV_KEY_RAM, R443. -/
  | devKeyRam
  /-- 0x2401:03 DEV_KEY_RAM_CLEAR, R443. -/
  | devKeyRamClear
  /-- 0x2401:04 DEV_AUTH_FAIL_COUNT, R443. -/
  | devAuthFailCount
  /-- 0x2402:01 DEV_SENT_STATE, R443. -/
  | devSentState
  /-- 0x2402:02 DEV_SENT_PASSES, R443. -/
  | devSentPasses
  /-- 0x2402:03 DEV_SENT_PASS_TIME, R443. -/
  | devSentPassTime
  /-- 0x2402:04 DEV_SENT_MISMATCHES, R443. -/
  | devSentMismatches
  /-- 0x2402:05 DEV_SENT_LAST_MISMATCH, R443. -/
  | devSentLastMismatch
  /-- 0x2402:06 DEV_SENT_VOTE_UPSETS, R443. -/
  | devSentVoteUpsets
  /-- 0x2402:07 DEV_SENT_ACTION, R443. -/
  | devSentAction
  /-- QB+0x20 QD_PR_COMMAND, R444. -/
  | qdPrCommand
  /-- QB+0x21 QD_PR_STREAM, R444. -/
  | qdPrStream
  /-- QB+0x22 QD_PR_STATE, R444. -/
  | qdPrState
  /-- QB+0x23 QD_PR_ERROR, R444. -/
  | qdPrError
  /-- QB+0x24 QD_PR_ERR_WHERE, R444. -/
  | qdPrErrWhere
  /-- QB+0x25 QD_PR_BYTES, R444. -/
  | qdPrBytes
  /-- QB+0x26 QD_BORDER_STATE, R444. -/
  | qdBorderState
  /-- QB+0x27 QD_REGION_FEEDS, R444. -/
  | qdRegionFeeds
  /-- QB+0x28 QD_PR_COUNT, R444. -/
  | qdPrCount
  /-- 0x2500:01 DEV_NOC_EPOCH, R461. -/
  | devNocEpoch
  /-- 0x2500:02 DEV_NOC_SWAP, R461. -/
  | devNocSwap
  /-- 0x2500:03 DEV_NOC_SWAP_STATE, R461. -/
  | devNocSwapState
  /-- 0x2500:04 DEV_NOC_SWAP_RESULT, R461. -/
  | devNocSwapResult
  /-- 0x2500:05 DEV_NOC_SHADOW, R461. -/
  | devNocShadow
  /-- 0x2500:06 DEV_NOC_ACTIVE, R461. -/
  | devNocActive
  /-- 0x2500:07 DEV_NOC_ISOLATED, R461. -/
  | devNocIsolated
  /-- 0x2500:08 DEV_NOC_CLOSED, R461. -/
  | devNocClosed
  /-- 0x2500:09 DEV_NOC_ABSORBED_WRITES, R461. -/
  | devNocAbsorbedWrites
  /-- 0x2500:0A DEV_NOC_POISONED_READS, R461. -/
  | devNocPoisonedReads
  /-- 0x2500:0B DEV_NOC_STALE_ABSORBED, R461. -/
  | devNocStaleAbsorbed
  /-- 0x2500:0C DEV_NOC_MALFORMED, R461. -/
  | devNocMalformed
  /-- 0x2500:0D DEV_NOC_SWAP_COUNT, R461. -/
  | devNocSwapCount
  /-- 0x2500:0E DEV_NOC_BP_MAX, R461. -/
  | devNocBpMax
  /-- 0x2500:0F DEV_NOC_DRAIN_TIME, R461. -/
  | devNocDrainTime
  /-- 0x2500:10 DEV_NOC_FENCE_TIME, R461. -/
  | devNocFenceTime
  /-- 0x2500:11 DEV_NOC_VC_FLITS, R461. -/
  | devNocVcFlits
  /-- 0x2500:12 DEV_NOC_ROUTER_FAULT, R461. -/
  | devNocRouterFault
  /-- 0x2500:13 DEV_NOC_FLUSH_ABSORBED, R461. -/
  | devNocFlushAbsorbed
  /-- 0x2500:14 DEV_NOC_LATENCY_MAX, R461. -/
  | devNocLatencyMax
  /-- QB+0x80:01–06 QD_NOC_ROUTER_STATUS, R462. -/
  | qdNocRouterStatus
  /-- QB+0x81:01–06 QD_NOC_LINK_ERR, R462. -/
  | qdNocLinkErr
  /-- 0x2600:01 DEV_MEM_DENSITY, R483. -/
  | devMemDensity
  /-- 0x2600:02 DEV_MEM_CAPACITY, R483. -/
  | devMemCapacity
  /-- 0x2600:03 DEV_MEM_CHAN_BYTES, R483. -/
  | devMemChanBytes
  /-- 0x2600:04 DEV_MEM_READY, R483. -/
  | devMemReady
  /-- 0x2600:05 DEV_MEM_ISOLATED, R483. -/
  | devMemIsolated
  /-- 0x2600:06 DEV_MEM_ERASURE, R483. -/
  | devMemErasure
  /-- 0x2600:07 DEV_MEM_CMD, R483. -/
  | devMemCmd
  /-- 0x2600:08 DEV_MEM_CMD_STATE, R483. -/
  | devMemCmdState
  /-- 0x2600:09 DEV_MEM_SCRUB_PERIOD, R483. -/
  | devMemScrubPeriod
  /-- 0x2600:0A DEV_MEM_SCRUB_PASSES, R483. -/
  | devMemScrubPasses
  /-- 0x2600:0B DEV_MEM_SCRUB_VOTE_UPSETS, R483. -/
  | devMemScrubVoteUpsets
  /-- 0x2600:0C DEV_MEM_LANE_THRESHOLD, R483. -/
  | devMemLaneThreshold
  /-- 0x2600:0D DEV_MEM_CORRECTED, R483. -/
  | devMemCorrected
  /-- 0x2600:0E DEV_MEM_UNCORRECTABLE, R483. -/
  | devMemUncorrectable
  /-- 0x2600:0F DEV_MEM_LAST_UNCORR, R483. -/
  | devMemLastUncorr
  /-- 0x2600:10 DEV_MEM_POISON_SENT, R483. -/
  | devMemPoisonSent
  /-- 0x2600:11 DEV_MEM_PROTECTED_WRITES, R483. -/
  | devMemProtectedWrites
  /-- 0x2600:12 DEV_MEM_PROTECTED_LAST, R483. -/
  | devMemProtectedLast
  /-- 0x2600:13 DEV_MEM_RMW, R483. -/
  | devMemRmw
  /-- 0x2600:14 DEV_MEM_LINK_RETRIES, R483. -/
  | devMemLinkRetries
  /-- 0x2600:15 DEV_MEM_DENSITY_MISMATCH, R483. -/
  | devMemDensityMismatch
  /-- 0x2600:16 DEV_MEM_INIT_TIME, R483. -/
  | devMemInitTime
  /-- 0x2600:17 DEV_MEM_PROTECTED_SITES, R483. -/
  | devMemProtectedSites
  /-- 0x2601 DEV_MEM_REGIONS, R483. -/
  | devMemRegions
  /-- QB+0x40:01–03 QD_MEM_STATE, R484. -/
  | qdMemState
  /-- QB+0x41:01–03 QD_MEM_LANE_CORR, R484. -/
  | qdMemLaneCorr
  /-- QB+0x42:01–03 QD_MEM_COUNTS, R484. -/
  | qdMemCounts
  /-- QB+0x43:01–03 QD_MEM_TRAIN, R484. -/
  | qdMemTrain
  /-- QB+0x44:01–03 QD_MEM_TEMP, R484. -/
  | qdMemTemp
  /-- 0x1100:01 DEV_MGT_LINK, R508. -/
  | devMgtLink
  /-- 0x1100:02 DEV_MGT_MAC, R508. -/
  | devMgtMac
  /-- 0x1100:03 DEV_MGT_UDP_PORT, R508. -/
  | devMgtUdpPort
  /-- 0x1100:04 DEV_MGT_HB_TIMEOUT, R508. -/
  | devMgtHbTimeout
  /-- 0x1100:05 DEV_MGT_OWNER_ADDR, R508. -/
  | devMgtOwnerAddr
  /-- 0x1100:06 DEV_MGT_PODL_POWER, R508. -/
  | devMgtPodlPower
  /-- 0x1100:07 DEV_MGT_RIM_POWER, R508. -/
  | devMgtRimPower
  /-- 0x1100:08 DEV_MGT_RIM_FW_REV, R508. -/
  | devMgtRimFwRev
  /-- 0x1100:09 DEV_MGT_FRAME_COUNTS, R508. -/
  | devMgtFrameCounts
  /-- 0x1101 DEV_MGT_LEDGER, R508. -/
  | devMgtLedger
  /-- 0x1102:01–04 DEV_MGT_SUB, R508. -/
  | devMgtSub
  /-- 0x1200:01 DEV_PCIE_LINK, R509. -/
  | devPcieLink
  /-- 0x1200:02 DEV_PCIE_MAX_GEN, R509. -/
  | devPcieMaxGen
  /-- 0x1200:03 DEV_PCIE_MPS, R509. -/
  | devPcieMps
  /-- 0x1200:04 DEV_PCIE_MRRS, R509. -/
  | devPcieMrrs
  /-- 0x1200:05 DEV_PCIE_BAR2_SIZE, R509. -/
  | devPcieBar2Size
  /-- 0x1200:06 DEV_PCIE_DMA_ACTIVE, R509. -/
  | devPcieDmaActive
  /-- 0x1200:07 DEV_PCIE_H2D_BYTES, R509. -/
  | devPcieH2dBytes
  /-- 0x1200:08 DEV_PCIE_D2H_BYTES, R509. -/
  | devPcieD2hBytes
  /-- 0x1200:09 DEV_PCIE_BAR2_RANGE, R509. -/
  | devPcieBar2Range
  /-- 0x1200:0A DEV_PCIE_POISONED, R509. -/
  | devPciePoisoned
  /-- 0x1200:0B DEV_PCIE_AER, R509. -/
  | devPcieAer
  /-- 0x1200:0C DEV_PCIE_LINK_DOWNS, R509. -/
  | devPcieLinkDowns
  /-- 0x1800:01 DEV_EVT_VECTOR, R510. -/
  | devEvtVector
  /-- 0x1800:02 DEV_EVT_HOST_MASK, R510. -/
  | devEvtHostMask
  /-- 0x1800:03 DEV_EVT_HOST_WRITTEN, R510. -/
  | devEvtHostWritten
  /-- 0x1800:04 DEV_EVT_HOST_LOST, R510. -/
  | devEvtHostLost
  /-- 0x1800:05 DEV_EVT_MASKED, R510. -/
  | devEvtMasked
  /-- 0x1800:06 DEV_EVT_MGT_RATE, R510. -/
  | devEvtMgtRate
  /-- 0x1800:07 DEV_EVT_LAST, R510. -/
  | devEvtLast
  /-- 0x1800:08 DEV_EVT_CLASS_COUNT, R510. -/
  | devEvtClassCount
  /-- 0x1801:01–0C DEV_EVT_SITE_VECTOR, R510. -/
  | devEvtSiteVector
  /-- 0x2100:01 DEV_PWR_COMMAND, R527. -/
  | devPwrCommand
  /-- 0x2100:02 DEV_PWR_SEQ_STATE, R527. -/
  | devPwrSeqState
  /-- 0x2100:03 DEV_PWR_STEP, R527. -/
  | devPwrStep
  /-- 0x2100:04 DEV_PWR_EN, R527. -/
  | devPwrEn
  /-- 0x2100:05 DEV_PWR_PG, R527. -/
  | devPwrPg
  /-- 0x2100:06 DEV_PWR_FAULT_CAUSE, R527. -/
  | devPwrFaultCause
  /-- 0x2100:07 DEV_PWR_CYCLES, R527. -/
  | devPwrCycles
  /-- 0x2100:08 DEV_PWR_SEQ_TIME, R527. -/
  | devPwrSeqTime
  /-- 0x2100:09 DEV_PWR_THERMAL_OFF, R527. -/
  | devPwrThermalOff
  /-- 0x2101:01 DEV_TJ_NOW, R527. -/
  | devTjNow
  /-- 0x2101:02 DEV_TJ_MAX, R527. -/
  | devTjMax
  /-- 0x2101:03 DEV_TJ_MIN, R527. -/
  | devTjMin
  /-- 0x2101:04 DEV_TJ_WARN, R527. -/
  | devTjWarn
  /-- 0x2101:05 DEV_TJ_SHUTDOWN, R527. -/
  | devTjShutdown
  /-- 0x2101:06 DEV_THERM_FLAGS, R527. -/
  | devThermFlags
  /-- 0x2101:07 DEV_RIM_TEMP, R527. -/
  | devRimTemp
  /-- 0x2101:08 DEV_TJ_SENSORS, R527. -/
  | devTjSensors
  /-- 0x2101:09 DEV_TJ_WARN_COUNT, R527. -/
  | devTjWarnCount
  /-- 0x2102:01 DEV_PWR_TOTAL, R527. -/
  | devPwrTotal
  /-- 0x2102:02 DEV_RAIL_MEAS, R527. -/
  | devRailMeas
  /-- 0x2102:03 DEV_PWR_PEAK, R527. -/
  | devPwrPeak
  /-- 0x2102:04 DEV_VBAT, R527. -/
  | devVbat
  /-- 0x2102:05 DEV_RIM_VIN, R527. -/
  | devRimVin
  /-- 0x2102:06 DEV_PWR_LIMIT, R527. -/
  | devPwrLimit
  /-- 0x2102:07 DEV_PWR_OVER_COUNT, R527. -/
  | devPwrOverCount
  /-- 0x2102:08 DEV_PWR_ENERGY, R527. -/
  | devPwrEnergy
  /-- QB+0xC0 QD_PWR_COMMAND, R528. -/
  | qdPwrCommand
  /-- QB+0xC1 QD_PWR_STATE, R528. -/
  | qdPwrState
  /-- QB+0xC2:01 QD_TEMP_NOW, R528. -/
  | qdTempNow
  /-- QB+0xC2:02 QD_TEMP_MAX, R528. -/
  | qdTempMax
  /-- QB+0xC3:01–04 QD_PWR_DOMAIN, R528. -/
  | qdPwrDomain
  /-- QB+0xC4 QD_PWR_TOTAL, R528. -/
  | qdPwrTotal
  /-- QB+0xC5 QD_PWR_CYCLES, R528. -/
  | qdPwrCycles
  /-- QB+0xC6 QD_PWR_UP_TIME, R528. -/
  | qdPwrUpTime
  /-- QB+0xC7 QD_THERM_FLAGS, R528. -/
  | qdThermFlags
  /-- QB+0xC8 QD_PWR_FAULT_CAUSE, R528. -/
  | qdPwrFaultCause
  /-- 0x2800:01 DEV_IJ_UNLOCK, R542. -/
  | devIjUnlock
  /-- 0x2800:02 DEV_IJ_STATE, R542. -/
  | devIjState
  /-- 0x2800:03 DEV_IJ_TARGET, R542. -/
  | devIjTarget
  /-- 0x2800:04 DEV_IJ_UNIT, R542. -/
  | devIjUnit
  /-- 0x2800:05 DEV_IJ_COUNT, R542. -/
  | devIjCount
  /-- 0x2800:06 DEV_IJ_INTERVAL, R542. -/
  | devIjInterval
  /-- 0x2800:07 DEV_IJ_SYMBOLS, R542. -/
  | devIjSymbols
  /-- 0x2800:08 DEV_IJ_DURATION, R542. -/
  | devIjDuration
  /-- 0x2800:09 DEV_IJ_CONTROL, R542. -/
  | devIjControl
  /-- 0x2800:0A DEV_IJ_FIRED, R542. -/
  | devIjFired
  /-- 0x2800:0B DEV_IJ_LAST_TIME, R542. -/
  | devIjLastTime
  /-- 0x2800:0C DEV_IJ_LAST_EVENT, R542. -/
  | devIjLastEvent
  /-- 0x2800:0D DEV_IJ_WINDOW, R542. -/
  | devIjWindow
  /-- 0x2800:0E DEV_IJ_ARMS, R542. -/
  | devIjArms
  /-- 0x2900:01 DEV_LOG_NEXT_SEQ, R543. -/
  | devLogNextSeq
  /-- 0x2900:02 DEV_LOG_VALID, R543. -/
  | devLogValid
  /-- 0x2900:03 DEV_LOG_LOST, R543. -/
  | devLogLost
  /-- 0x2900:04 DEV_LOG_MASK, R543. -/
  | devLogMask
  /-- 0x2900:05 DEV_LOG_CLEAR, R543. -/
  | devLogClear
  /-- 0x2900:06 DEV_LOG_QUEUE, R543. -/
  | devLogQueue
  /-- 0x2900:07 DEV_SELFTEST_STATE, R543. -/
  | devSelftestState
  /-- 0x2900:08 DEV_SELFTEST_RESULT, R543. -/
  | devSelftestResult
  /-- 0x2900:09 DEV_LOST_CONTEXTS, R543. -/
  | devLostContexts
  /-- 0x2900:0A DEV_RECOVER_STATE, R543. -/
  | devRecoverState
  /-- 0x2900:0B DEV_FAILED_UNITS, R543. -/
  | devFailedUnits
  /-- 0x2900:0C DEV_LOG_LAST_CODE, R543. -/
  | devLogLastCode
  /-- 0x2901 DEV_LOG, R543. -/
  | devLog
  /-- 0x2902 DEV_LOG_FIRST_SEQ, R543. -/
  | devLogFirstSeq
  /-- PB+0x30 PORT_STATUS, R544. -/
  | portStatus
  /-- PB+0x31 PORT_STATUS_CLEAR, R544. -/
  | portStatusClear
  /-- PB+0x32 PORT_SELFTEST, R544. -/
  | portSelftest
  /-- PB+0x33 PORT_EVENT_COUNT, R544. -/
  | portEventCount
  deriving DecidableEq, Repr, Inhabited

/-- The row of an object. -/
def Obj.row : Obj → ObjRow
  | .devDictRev => ⟨.dev, 0x1000, 0, 0, .uint, .con, 4, 0x00010000, 0, 0xFFFFFFFF⟩
  | .devGrade => ⟨.dev, 0x1001, 0, 0, .uint, .con, 1, 0, 0, 0xFF⟩
  | .devName => ⟨.dev, 0x1008, 0, 0, .vstr, .con, 3, 0, 0, 0x0⟩
  | .devStepping => ⟨.dev, 0x1009, 0, 0, .vstr, .con, 2, 0, 0, 0x0⟩
  | .devVendorCode => ⟨.dev, 0x1018, 1, 1, .uint, .con, 4, 0x0000475A, 0, 0xFFFFFFFF⟩
  | .devProductCode => ⟨.dev, 0x1018, 2, 2, .uint, .con, 4, 0, 0, 0xFFFFFFFF⟩
  | .devSteppingCode => ⟨.dev, 0x1018, 3, 3, .uint, .con, 4, 0x000000B0, 0, 0xFFFFFFFF⟩
  | .devSerial => ⟨.dev, 0x1018, 4, 4, .uint, .con, 4, 0, 0, 0xFFFFFFFF⟩
  | .devState => ⟨.dev, 0x2000, 1, 1, .uint, .ro, 1, 1, 0, 0xFF⟩
  | .devCommand => ⟨.dev, 0x2000, 2, 2, .uint, .wo, 1, 0, 1, 0x5⟩
  | .devFaultCause => ⟨.dev, 0x2000, 3, 3, .uint, .ro, 2, 0x0000, 0, 0xFFFF⟩
  | .controlOwner => ⟨.dev, 0x2000, 4, 4, .uint, .rw, 1, 0, 0, 0x2⟩
  | .groupCommit => ⟨.dev, 0x2000, 5, 5, .uint, .wo, 1, 0, 1, 0x2⟩
  | .abort => ⟨.dev, 0x2000, 6, 6, .uint, .wo, 2, 0, 0, 0xFFFF⟩
  | .devGroupStaged => ⟨.dev, 0x2000, 7, 7, .uint, .ro, 2, 0, 0, 0xFFFF⟩
  | .devGroupResult => ⟨.dev, 0x2000, 8, 8, .uint, .ro, 4, 0, 0, 0xFFFFFFFF⟩
  | .siteState => ⟨.site, 0x0, 0, 0, .uint, .ro, 1, 0, 0, 0xFF⟩
  | .siteBundles => ⟨.site, 0x1, 0, 0, .uint, .rwi, 2, 0x0000, 0, 0xFFF⟩
  | .siteCommand => ⟨.site, 0x2, 0, 0, .uint, .wo, 1, 0, 1, 0x6⟩
  | .siteStepBase => ⟨.site, 0x3, 1, 1, .uint, .rwg, 8, 0, 0, 0xFFFFFFFFFFFFFFFF⟩
  | .siteStepCount => ⟨.site, 0x3, 2, 2, .uint, .rwg, 2, 0, 0, 0x100⟩
  | .siteLockstep => ⟨.site, 0x4, 0, 0, .uint, .rwg, 1, 0, 0, 0xFF⟩
  | .siteArmStatus => ⟨.site, 0x5, 1, 1, .uint, .ro, 1, 0x00, 0, 0xFF⟩
  | .siteArmCheck => ⟨.site, 0x5, 2, 2, .uint, .ro, 1, 0, 0, 0xFF⟩
  | .siteArmStep => ⟨.site, 0x5, 3, 3, .uint, .ro, 2, 0, 0, 0xFFFF⟩
  | .siteArmObject => ⟨.site, 0x5, 4, 4, .uint, .ro, 4, 0, 0, 0xFFFFFFFF⟩
  | .siteStepNow => ⟨.site, 0x6, 0, 0, .uint, .ro, 2, 0, 0, 0xFFFF⟩
  | .siteAbortCause => ⟨.site, 0x7, 0, 0, .uint, .ro, 2, 0x0000, 0, 0xFFFF⟩
  | .bndState => ⟨.bnd, 0x0, 0, 0, .uint, .ro, 1, 0, 0, 0xFF⟩
  | .bndSite => ⟨.bnd, 0x1, 0, 0, .uint, .ro, 1, 0xFF, 0, 0xFF⟩
  | .bndAbortCause => ⟨.bnd, 0x2, 0, 0, .uint, .ro, 2, 0x0000, 0, 0xFFFF⟩
  | .bndAbortTime => ⟨.bnd, 0x3, 1, 1, .uint, .ro, 8, 0, 0, 0xFFFFFFFFFFFFFFFF⟩
  | .bndAbortFlags => ⟨.bnd, 0x3, 2, 2, .uint, .ro, 1, 0x00, 0, 0xFF⟩
  | .bndAbortCount => ⟨.bnd, 0x4, 0, 0, .uint, .ro, 4, 0, 0, 0xFFFFFFFF⟩
  | .portEnDrive => ⟨.port, 0x0, 1, 1, .bool, .rwi, 1, 0, 0, 0x1⟩
  | .portEnCompare => ⟨.port, 0x0, 2, 2, .bool, .rwi, 1, 0, 0, 0x1⟩
  | .portEnLoad => ⟨.port, 0x0, 3, 3, .bool, .rwi, 1, 0, 0, 0x1⟩
  | .portEnPmu => ⟨.port, 0x0, 4, 4, .bool, .rwi, 1, 0, 0, 0x1⟩
  | .portEnPinsw => ⟨.port, 0x0, 5, 5, .bool, .rwi, 1, 0, 0, 0x1⟩
  | .portEnTerm => ⟨.port, 0x0, 6, 6, .bool, .rwi, 1, 0, 0, 0x1⟩
  | .portFeConfig => ⟨.port, 0x1, 0, 0, .uint, .rwi, 8, 0x0000000000000000, 0, 0xFFFFFFFFFFFFFFFF⟩
  | .portDrvL0 => ⟨.port, 0x2, 1, 1, .uint, .rwi, 4, 0x00000000, 0, 0xFFFFFFFF⟩
  | .portDrvL1 => ⟨.port, 0x2, 2, 2, .uint, .rwi, 4, 0x00000000, 0, 0xFFFFFFFF⟩
  | .portDrvL2 => ⟨.port, 0x2, 3, 3, .uint, .rwi, 4, 0x00000000, 0, 0xFFFFFFFF⟩
  | .portDrvL3 => ⟨.port, 0x2, 4, 4, .uint, .rwi, 4, 0x00000000, 0, 0xFFFFFFFF⟩
  | .portVtt => ⟨.port, 0x3, 0, 0, .uint, .rwi, 4, 0x00000000, 0, 0xFFFFFFFF⟩
  | .portCt0 => ⟨.port, 0x4, 1, 1, .uint, .rwi, 4, 0x00000000, 0, 0xFFFFFFFF⟩
  | .portCt1 => ⟨.port, 0x4, 2, 2, .uint, .rwi, 4, 0x00000000, 0, 0xFFFFFFFF⟩
  | .portCt2 => ⟨.port, 0x4, 3, 3, .uint, .rwi, 4, 0x00000000, 0, 0xFFFFFFFF⟩
  | .portLoad => ⟨.port, 0x5, 0, 0, .uint, .rwi, 8, 0x0000000000000000, 0, 0xFFFFFFFFFFFFFFFF⟩
  | .bndPoolCells => ⟨.bnd, 0x8, 0, 0, .dom, .rwi, 256, 0, 0, 0x0⟩
  | .bndPoolLink => ⟨.bnd, 0x9, 0, 0, .uint, .rwi, 4, 0x00000000, 0, 0xFFFFFFFF⟩
  | .bndPoolMap => ⟨.bnd, 0xA, 0, 0, .dom, .ro, 80, 0, 0, 0x0⟩
  | .bndPoolWave => ⟨.bnd, 0xB, 0, 0, .dom, .rwx, 32, 0, 0, 0x0⟩
  | .bndPoolStatus => ⟨.bnd, 0xC, 0, 0, .uint, .ro, 8, 0, 0, 0xFFFFFFFFFFFFFFFF⟩
  | .bndMeasConfig => ⟨.bnd, 0x10, 0, 0, .uint, .rwi, 4, 0x00000000, 0, 0xFFFFFFFF⟩
  | .bndMeasCoef => ⟨.bnd, 0x11, 0, 0, .dom, .rwx, 512, 0, 0, 0x0⟩
  | .bndMeasControl => ⟨.bnd, 0x12, 0, 0, .uint, .rwx, 4, 0x00000000, 0, 0xFFFFFFFF⟩
  | .bndMeasLast => ⟨.bnd, 0x13, 0, 0, .uint, .ro, 8, 0, 0, 0xFFFFFFFFFFFFFFFF⟩
  | .bndMeasHistory => ⟨.bnd, 0x14, 0, 0, .dom, .ro, 8208, 0, 0, 0x0⟩
  | .devClkRunning => ⟨.dev, 0x2200, 1, 1, .uint, .ro, 8, 0x0E00000000000000, 0, 0xFFFFFFFFFFFFFFFF⟩
  | .devCfgSource => ⟨.dev, 0x2200, 2, 2, .uint, .ro, 1, 0, 0, 0xFF⟩
  | .devSynthState => ⟨.dev, 0x2200, 3, 3, .uint, .ro, 1, 0, 0, 0xFF⟩
  | .devSynthLossCount => ⟨.dev, 0x2200, 4, 4, .uint, .ro, 4, 0, 0, 0xFFFFFFFF⟩
  | .devTbrefOffset => ⟨.dev, 0x2200, 5, 5, .sint, .ro, 4, 0, 0, 0xFFFFFFFF⟩
  | .devTbrefPresent => ⟨.dev, 0x2200, 6, 6, .bool, .ro, 1, 0, 0, 0x1⟩
  | .devRimOscOffset => ⟨.dev, 0x2200, 7, 7, .sint, .ro, 4, 0, 0, 0xFFFFFFFF⟩
  | .devLineSettled => ⟨.dev, 0x2200, 8, 8, .uint, .ro, 2, 0x0000, 0, 0xFFFF⟩
  | .devLineRatio => ⟨.dev, 0x2201, 1, 12, .uint, .rwi, 8, 0x0000000200010001, 0, 0xFFFFFFFFFFFFFFFF⟩
  | .warpRole => ⟨.dev, 0x2300, 1, 1, .uint, .rwi, 1, 0, 0, 0x2⟩
  | .devTbState => ⟨.dev, 0x2300, 2, 2, .uint, .ro, 1, 0, 0, 0xFF⟩
  | .timeNow => ⟨.dev, 0x2300, 3, 3, .uint, .ro, 8, 0, 0, 0xFFFFFFFFFFFFFFFF⟩
  | .devHoldoverAbort => ⟨.dev, 0x2300, 4, 4, .bool, .rwi, 1, 0, 0, 0x1⟩
  | .devEventTime => ⟨.dev, 0x2300, 5, 5, .uint, .rwx, 8, 0, 0, 0xFFFFFFFFFFFFFFFF⟩
  | .devEventSend => ⟨.dev, 0x2300, 6, 6, .uint, .wo, 2, 0, 0, 0xFFFF⟩
  | .devWarpOutEn => ⟨.dev, 0x2300, 7, 7, .uint, .rwx, 1, 0x00, 0, 0xF⟩
  | .devWarpDepth => ⟨.dev, 0x2300, 8, 8, .uint, .ro, 1, 0xFF, 0, 0xFF⟩
  | .devWarpAsym => ⟨.dev, 0x2300, 9, 9, .sint, .rwi, 4, 0, 0, 0xFFFFFFFF⟩
  | .devWarpDelay => ⟨.dev, 0x2300, 10, 10, .uint, .ro, 4, 0, 0, 0xFFFFFFFF⟩
  | .devTimeResidual => ⟨.dev, 0x2300, 11, 11, .sint, .ro, 4, 0, 0, 0xFFFFFFFF⟩
  | .devWarpChar => ⟨.dev, 0x2300, 12, 12, .uint, .wo, 1, 0, 0, 0xFF⟩
  | .devWarpCharResult => ⟨.dev, 0x2300, 13, 13, .uint, .ro, 4, 0, 0, 0xFFFFFFFF⟩
  | .devWarpLink => ⟨.dev, 0x2301, 1, 5, .uint, .ro, 4, 0x00000000, 0, 0xFFFFFFFF⟩
  | .portMode => ⟨.port, 0x10, 0, 0, .uint, .rwi, 1, 0, 0, 0x2⟩
  | .portTset => ⟨.port, 0x11, 0, 0, .dom, .rwi, 8192, 0, 0, 0x0⟩
  | .portFixDrive => ⟨.port, 0x12, 1, 1, .uint, .rwi, 4, 0, 0, 0x8C000⟩
  | .portFixCompare => ⟨.port, 0x12, 2, 2, .uint, .rwi, 4, 0, 0, 0x8C000⟩
  | .portEdgeStatus => ⟨.port, 0x13, 0, 0, .uint, .ro, 4, 0x00000000, 0, 0xFFFFFFFF⟩
  | .portCycleCount => ⟨.port, 0x14, 0, 0, .uint, .ro, 8, 0, 0, 0xFFFFFFFFFFFFFFFF⟩
  | .portPark => ⟨.port, 0x15, 0, 0, .uint, .rwi, 1, 0, 0, 0x1⟩
  | .portTsetCheck => ⟨.port, 0x16, 0, 0, .uint, .ro, 4, 0x00000000, 0, 0xFFFFFFFF⟩
  | .portSerConfig => ⟨.port, 0x18, 0, 0, .uint, .rwi, 8, 0x0000000000000000, 0, 0xFFFFFFFFFFFFFFFF⟩
  | .portSerTxeq => ⟨.port, 0x19, 0, 0, .uint, .rwx, 8, 0x0000000000000080, 0, 0xFFFFFFFFFFFFFFFF⟩
  | .portSerRxeq => ⟨.port, 0x1A, 0, 0, .dom, .rwx, 16, 0, 0, 0x0⟩
  | .portSerTiming => ⟨.port, 0x1B, 0, 0, .uint, .rwi, 8, 0x0000000000000000, 0, 0xFFFFFFFFFFFFFFFF⟩
  | .portSerPrbs => ⟨.port, 0x1C, 0, 0, .uint, .rwi, 4, 0x00000000, 0, 0xFFFFFFFF⟩
  | .portSerStatus => ⟨.port, 0x1D, 0, 0, .uint, .ro, 8, 0x0000000000000000, 0, 0xFFFFFFFFFFFFFFFF⟩
  | .portSerErrors => ⟨.port, 0x1E, 0, 0, .uint, .ro, 8, 0, 0, 0xFFFFFFFFFFFFFFFF⟩
  | .portSerBits => ⟨.port, 0x1F, 0, 0, .uint, .ro, 8, 0, 0, 0xFFFFFFFFFFFFFFFF⟩
  | .bndPeCtxCmd => ⟨.bnd, 0x18, 0, 0, .uint, .wo, 8, 0, 0, 0xFFFFFFFFFFFFFFFF⟩
  | .bndPeCtxStates => ⟨.bnd, 0x19, 0, 0, .dom, .ro, 4096, 0, 0, 0x0⟩
  | .bndPeCtxImage => ⟨.bnd, 0x1A, 0, 0, .dom, .ro, 262144, 0, 0, 0x0⟩
  | .bndPeStatus => ⟨.bnd, 0x1B, 0, 0, .uint, .ro, 8, 0, 0, 0xFFFFFFFFFFFFFFFF⟩
  | .bndPeIssued => ⟨.bnd, 0x1C, 0, 0, .uint, .ro, 8, 0, 0, 0xFFFFFFFFFFFFFFFF⟩
  | .bndSchedStatus => ⟨.bnd, 0x20, 0, 0, .uint, .ro, 8, 0, 0, 0xFFFFFFFFFFFFFFFF⟩
  | .bndSchedCounts => ⟨.bnd, 0x21, 0, 0, .dom, .ro, 64, 0, 0, 0x0⟩
  | .bndDutErrors => ⟨.bnd, 0x22, 0, 0, .uint, .ro, 8, 0, 0, 0xFFFFFFFFFFFFFFFF⟩
  | .bndTrainResult => ⟨.bnd, 0x23, 0, 0, .dom, .ro, 64, 0, 0, 0x0⟩
  | .bndSchedLast => ⟨.bnd, 0x24, 0, 0, .uint, .ro, 8, 0, 0, 0xFFFFFFFFFFFFFFFF⟩
  | .bndInjConfig => ⟨.bnd, 0x38, 0, 0, .dom, .rwi, 32, 0, 0, 0x0⟩
  | .bndInjControl => ⟨.bnd, 0x39, 0, 0, .uint, .rwx, 1, 0, 0, 0x2⟩
  | .bndInjStatus => ⟨.bnd, 0x3A, 0, 0, .uint, .ro, 8, 0, 0, 0xFFFFFFFFFFFFFFFF⟩
  | .portCmpConfig => ⟨.port, 0x28, 0, 0, .uint, .rwi, 4, 0x00000000, 0, 0xFFFFFFFF⟩
  | .portFailCount => ⟨.port, 0x29, 0, 0, .uint, .ro, 8, 0, 0, 0xFFFFFFFFFFFFFFFF⟩
  | .portFirstFail => ⟨.port, 0x2A, 0, 0, .dom, .ro, 32, 0, 0, 0x0⟩
  | .portRawStatus => ⟨.port, 0x2B, 0, 0, .uint, .ro, 8, 0, 0, 0xFFFFFFFFFFFFFFFF⟩
  | .bndCapStatus => ⟨.bnd, 0x28, 0, 0, .dom, .ro, 32, 0, 0, 0x0⟩
  | .bndCapRead => ⟨.bnd, 0x29, 0, 0, .uint, .rwx, 8, 0, 0, 0xFFFFFFFFFFFFFFFF⟩
  | .bndTally => ⟨.bnd, 0x2A, 0, 0, .dom, .ro, 65536, 0, 0, 0x0⟩
  | .bndCapBundle => ⟨.bnd, 0x2B, 0, 0, .uint, .ro, 8, 0, 0, 0xFFFFFFFFFFFFFFFF⟩
  | .calAutoEnable => ⟨.dev, 0x2700, 1, 1, .bool, .rwx, 1, 0, 0, 0x1⟩
  | .calDeltaT => ⟨.dev, 0x2700, 2, 2, .uint, .rwx, 1, 8, 1, 0x28⟩
  | .calGradeFloor => ⟨.dev, 0x2700, 3, 3, .uint, .rwx, 1, 96, 0, 0xFF⟩
  | .devCalSurveyEnable => ⟨.dev, 0x2700, 4, 4, .bool, .rwx, 1, 0, 0, 0x1⟩
  | .devCalListenLimit => ⟨.dev, 0x2700, 5, 5, .uint, .rwx, 2, 20, 1, 0x3E8⟩
  | .devCalHold => ⟨.dev, 0x2700, 6, 6, .bool, .rwx, 1, 0, 0, 0x1⟩
  | .devCalRefSource => ⟨.dev, 0x2700, 7, 7, .uint, .ro, 1, 0, 0, 0xFF⟩
  | .devCalVref => ⟨.dev, 0x2700, 8, 8, .sint, .ro, 4, 0, 0, 0xFFFFFFFF⟩
  | .devCalActive => ⟨.dev, 0x2700, 9, 9, .uint, .ro, 2, 0x0000, 0, 0xFFFF⟩
  | .devCalSubMap => ⟨.dev, 0x2700, 10, 10, .uint, .ro, 2, 0x0000, 0, 0xFFFF⟩
  | .devCalCycles => ⟨.dev, 0x2700, 11, 11, .uint, .ro, 4, 0, 0, 0xFFFFFFFF⟩
  | .devCalFallbacks => ⟨.dev, 0x2700, 12, 12, .uint, .ro, 4, 0, 0, 0xFFFFFFFF⟩
  | .devCalCommitPending => ⟨.dev, 0x2700, 13, 13, .uint, .ro, 1, 0, 0, 0xFF⟩
  | .devCalCommits => ⟨.dev, 0x2700, 14, 14, .uint, .ro, 4, 0, 0, 0xFFFFFFFF⟩
  | .devCalCommitLost => ⟨.dev, 0x2700, 15, 15, .uint, .ro, 4, 0, 0, 0xFFFFFFFF⟩
  | .devCalLedgerState => ⟨.dev, 0x2700, 16, 16, .uint, .ro, 1, 0, 0, 0xFF⟩
  | .bndByeTarget => ⟨.bnd, 0x30, 0, 0, .uint, .rwi, 1, 0xFF, 0, 0xFF⟩
  | .bndCalCommand => ⟨.bnd, 0x31, 0, 0, .uint, .wo, 2, 0, 0, 0xFFFF⟩
  | .bndCalStatus => ⟨.bnd, 0x32, 0, 0, .uint, .ro, 8, 0x0000000F0F000000, 0, 0xFFFFFFFFFFFFFFFF⟩
  | .portCalRequest => ⟨.port, 0x20, 0, 0, .uint, .rwx, 1, 0, 0, 0x2⟩
  | .portCalState => ⟨.port, 0x21, 0, 0, .uint, .ro, 4, 0x00000000, 0, 0xFFFFFFFF⟩
  | .portCalQuality => ⟨.port, 0x22, 0, 0, .dom, .ro, 16, 0, 0, 0x0⟩
  | .portCalTrims => ⟨.port, 0x23, 0, 0, .dom, .ro, 32, 0, 0, 0x0⟩
  | .portCalSet => ⟨.port, 0x24, 0, 0, .dom, .ro, 2176, 0, 0, 0x0⟩
  | .portCalCount => ⟨.port, 0x25, 0, 0, .uint, .ro, 4, 0, 0, 0xFFFFFFFF⟩
  | .portCalLast => ⟨.port, 0x26, 0, 0, .uint, .ro, 8, 0, 0, 0xFFFFFFFFFFFFFFFF⟩
  | .portCalHist => ⟨.port, 0x27, 0, 0, .dom, .ro, 1024, 0, 0, 0x0⟩
  | .qdClkDiv => ⟨.quad, 0x0, 0, 0, .uint, .rwi, 8, 0x0001000100010001, 0, 0xFFFFFFFFFFFFFFFF⟩
  | .qdClkSel => ⟨.quad, 0x1, 0, 0, .uint, .rwx, 2, 0x3210, 0, 0xFFFF⟩
  | .qdClkStatus => ⟨.quad, 0x2, 0, 0, .uint, .ro, 4, 0x00000000, 0, 0xFFFFFFFF⟩
  | .qdReset => ⟨.quad, 0x3, 0, 0, .uint, .rwx, 1, 0x00, 0, 0xF⟩
  | .qdProbeSel => ⟨.quad, 0x4, 0, 0, .dom, .rwx, 16, 0, 0, 0x0⟩
  | .qdTraceCtl => ⟨.quad, 0x5, 0, 0, .uint, .rwx, 8, 0, 0, 0xFFFFFFFFFFFFFFFF⟩
  | .qdTraceStatus => ⟨.quad, 0x6, 0, 0, .uint, .ro, 8, 0, 0, 0xFFFFFFFFFFFFFFFF⟩
  | .qdTraceBuf => ⟨.quad, 0x7, 0, 0, .dom, .ro, 8200, 0, 0, 0x0⟩
  | .qdQueueErr => ⟨.quad, 0x8, 0, 0, .dom, .ro, 768, 0, 0, 0x0⟩
  | .qdLaneStatus => ⟨.quad, 0x9, 0, 0, .dom, .ro, 96, 0, 0, 0x0⟩
  | .qdFabStatus => ⟨.quad, 0xA, 0, 0, .uint, .ro, 8, 0, 0, 0xFFFFFFFFFFFFFFFF⟩
  | .devCfgCommand => ⟨.dev, 0x2400, 1, 1, .uint, .wo, 1, 0, 1, 0x1⟩
  | .devCfgStream => ⟨.dev, 0x2400, 2, 2, .dom, .wo, 1048576, 0, 0, 0x0⟩
  | .devCfgState => ⟨.dev, 0x2400, 3, 3, .uint, .ro, 1, 0, 0, 0xFF⟩
  | .devCfgError => ⟨.dev, 0x2400, 4, 4, .uint, .ro, 1, 0, 0, 0xFF⟩
  | .devCfgErrWhere => ⟨.dev, 0x2400, 5, 5, .uint, .ro, 4, 0, 0, 0xFFFFFFFF⟩
  | .devCfgBytes => ⟨.dev, 0x2400, 6, 6, .uint, .ro, 8, 0, 0, 0xFFFFFFFFFFFFFFFF⟩
  | .devCfgBlocks => ⟨.dev, 0x2400, 7, 7, .uint, .ro, 4, 0, 0, 0xFFFFFFFF⟩
  | .devCfgFrames => ⟨.dev, 0x2400, 8, 8, .uint, .ro, 4, 0, 0, 0xFFFFFFFF⟩
  | .devCfgUpsett => ⟨.dev, 0x2400, 9, 9, .uint, .ro, 4, 0x000000E4, 0, 0xFFFFFFFF⟩
  | .devCfgKeysel => ⟨.dev, 0x2400, 10, 10, .uint, .ro, 1, 0, 0, 0xFF⟩
  | .devCfgWipeTime => ⟨.dev, 0x2400, 11, 11, .uint, .ro, 4, 0, 0, 0xFFFFFFFF⟩
  | .devKeyStatus => ⟨.dev, 0x2401, 1, 1, .uint, .ro, 1, 0, 0, 0xFF⟩
  | .devKeyRam => ⟨.dev, 0x2401, 2, 2, .dom, .wo, 32, 0, 0, 0x0⟩
  | .devKeyRamClear => ⟨.dev, 0x2401, 3, 3, .bool, .wo, 1, 0, 1, 0x1⟩
  | .devAuthFailCount => ⟨.dev, 0x2401, 4, 4, .uint, .ro, 4, 0, 0, 0xFFFFFFFF⟩
  | .devSentState => ⟨.dev, 0x2402, 1, 1, .uint, .ro, 1, 0, 0, 0xFF⟩
  | .devSentPasses => ⟨.dev, 0x2402, 2, 2, .uint, .ro, 4, 0, 0, 0xFFFFFFFF⟩
  | .devSentPassTime => ⟨.dev, 0x2402, 3, 3, .uint, .ro, 4, 0, 0, 0xFFFFFFFF⟩
  | .devSentMismatches => ⟨.dev, 0x2402, 4, 4, .uint, .ro, 4, 0, 0, 0xFFFFFFFF⟩
  | .devSentLastMismatch => ⟨.dev, 0x2402, 5, 5, .uint, .ro, 4, 0, 0, 0xFFFFFFFF⟩
  | .devSentVoteUpsets => ⟨.dev, 0x2402, 6, 6, .uint, .ro, 4, 0, 0, 0xFFFFFFFF⟩
  | .devSentAction => ⟨.dev, 0x2402, 7, 7, .uint, .rwx, 1, 0, 0, 0x1⟩
  | .qdPrCommand => ⟨.quad, 0x20, 0, 0, .uint, .wo, 1, 0, 0, 0xFF⟩
  | .qdPrStream => ⟨.quad, 0x21, 0, 0, .dom, .wo, 1048576, 0, 0, 0x0⟩
  | .qdPrState => ⟨.quad, 0x22, 0, 0, .uint, .ro, 2, 0x0000, 0, 0xFFFF⟩
  | .qdPrError => ⟨.quad, 0x23, 0, 0, .uint, .ro, 1, 0, 0, 0xFF⟩
  | .qdPrErrWhere => ⟨.quad, 0x24, 0, 0, .uint, .ro, 4, 0, 0, 0xFFFFFFFF⟩
  | .qdPrBytes => ⟨.quad, 0x25, 0, 0, .uint, .ro, 8, 0, 0, 0xFFFFFFFFFFFFFFFF⟩
  | .qdBorderState => ⟨.quad, 0x26, 0, 0, .dom, .ro, 2048, 0, 0, 0x0⟩
  | .qdRegionFeeds => ⟨.quad, 0x27, 0, 0, .uint, .ro, 4, 0, 0, 0xFFFFFFFF⟩
  | .qdPrCount => ⟨.quad, 0x28, 0, 0, .uint, .ro, 4, 0, 0, 0xFFFFFFFF⟩
  | .devNocEpoch => ⟨.dev, 0x2500, 1, 1, .uint, .ro, 1, 0, 0, 0xFF⟩
  | .devNocSwap => ⟨.dev, 0x2500, 2, 2, .uint, .wo, 1, 0, 1, 0x2⟩
  | .devNocSwapState => ⟨.dev, 0x2500, 3, 3, .uint, .ro, 1, 0, 0, 0xFF⟩
  | .devNocSwapResult => ⟨.dev, 0x2500, 4, 4, .uint, .ro, 4, 0, 0, 0xFFFFFFFF⟩
  | .devNocShadow => ⟨.dev, 0x2500, 5, 5, .dom, .rwx, 1536, 0, 0, 0x0⟩
  | .devNocActive => ⟨.dev, 0x2500, 6, 6, .dom, .ro, 1536, 0, 0, 0x0⟩
  | .devNocIsolated => ⟨.dev, 0x2500, 7, 7, .uint, .ro, 8, 0, 0, 0xFFFFFFFFFFFFFFFF⟩
  | .devNocClosed => ⟨.dev, 0x2500, 8, 8, .uint, .ro, 1, 0x00, 0, 0xFF⟩
  | .devNocAbsorbedWrites => ⟨.dev, 0x2500, 9, 9, .uint, .ro, 8, 0, 0, 0xFFFFFFFFFFFFFFFF⟩
  | .devNocPoisonedReads => ⟨.dev, 0x2500, 10, 10, .uint, .ro, 8, 0, 0, 0xFFFFFFFFFFFFFFFF⟩
  | .devNocStaleAbsorbed => ⟨.dev, 0x2500, 11, 11, .uint, .ro, 4, 0, 0, 0xFFFFFFFF⟩
  | .devNocMalformed => ⟨.dev, 0x2500, 12, 12, .uint, .ro, 4, 0, 0, 0xFFFFFFFF⟩
  | .devNocSwapCount => ⟨.dev, 0x2500, 13, 13, .uint, .ro, 4, 0, 0, 0xFFFFFFFF⟩
  | .devNocBpMax => ⟨.dev, 0x2500, 14, 14, .uint, .ro, 1, 0, 0, 0xFF⟩
  | .devNocDrainTime => ⟨.dev, 0x2500, 15, 15, .uint, .ro, 4, 0, 0, 0xFFFFFFFF⟩
  | .devNocFenceTime => ⟨.dev, 0x2500, 16, 16, .uint, .ro, 4, 0, 0, 0xFFFFFFFF⟩
  | .devNocVcFlits => ⟨.dev, 0x2500, 17, 17, .dom, .ro, 64, 0, 0, 0x0⟩
  | .devNocRouterFault => ⟨.dev, 0x2500, 18, 18, .uint, .ro, 4, 0, 0, 0xFFFFFFFF⟩
  | .devNocFlushAbsorbed => ⟨.dev, 0x2500, 19, 19, .uint, .ro, 4, 0, 0, 0xFFFFFFFF⟩
  | .devNocLatencyMax => ⟨.dev, 0x2500, 20, 20, .uint, .ro, 4, 0, 0, 0xFFFFFFFF⟩
  | .qdNocRouterStatus => ⟨.quad, 0x80, 1, 6, .uint, .ro, 4, 0, 0, 0xFFFFFFFF⟩
  | .qdNocLinkErr => ⟨.quad, 0x81, 1, 6, .uint, .ro, 4, 0, 0, 0xFFFFFFFF⟩
  | .devMemDensity => ⟨.dev, 0x2600, 1, 1, .uint, .ro, 1, 0, 0, 0xFF⟩
  | .devMemCapacity => ⟨.dev, 0x2600, 2, 2, .uint, .ro, 8, 0, 0, 0xFFFFFFFFFFFFFFFF⟩
  | .devMemChanBytes => ⟨.dev, 0x2600, 3, 3, .uint, .ro, 8, 0, 0, 0xFFFFFFFFFFFFFFFF⟩
  | .devMemReady => ⟨.dev, 0x2600, 4, 4, .uint, .ro, 2, 0x0000, 0, 0xFFFF⟩
  | .devMemIsolated => ⟨.dev, 0x2600, 5, 5, .uint, .ro, 2, 0x0000, 0, 0xFFFF⟩
  | .devMemErasure => ⟨.dev, 0x2600, 6, 6, .uint, .ro, 2, 0x0000, 0, 0xFFFF⟩
  | .devMemCmd => ⟨.dev, 0x2600, 7, 7, .uint, .wo, 2, 0, 0, 0xFFFF⟩
  | .devMemCmdState => ⟨.dev, 0x2600, 8, 8, .uint, .ro, 1, 0, 0, 0xFF⟩
  | .devMemScrubPeriod => ⟨.dev, 0x2600, 9, 9, .uint, .rwx, 4, 3600, 0, 0xFFFFFFFF⟩
  | .devMemScrubPasses => ⟨.dev, 0x2600, 10, 10, .uint, .ro, 4, 0, 0, 0xFFFFFFFF⟩
  | .devMemScrubVoteUpsets => ⟨.dev, 0x2600, 11, 11, .uint, .ro, 4, 0, 0, 0xFFFFFFFF⟩
  | .devMemLaneThreshold => ⟨.dev, 0x2600, 12, 12, .uint, .rwx, 2, 16, 1, 0xFFFF⟩
  | .devMemCorrected => ⟨.dev, 0x2600, 13, 13, .uint, .ro, 8, 0, 0, 0xFFFFFFFFFFFFFFFF⟩
  | .devMemUncorrectable => ⟨.dev, 0x2600, 14, 14, .uint, .ro, 8, 0, 0, 0xFFFFFFFFFFFFFFFF⟩
  | .devMemLastUncorr => ⟨.dev, 0x2600, 15, 15, .uint, .ro, 8, 0, 0, 0xFFFFFFFFFFFFFFFF⟩
  | .devMemPoisonSent => ⟨.dev, 0x2600, 16, 16, .uint, .ro, 8, 0, 0, 0xFFFFFFFFFFFFFFFF⟩
  | .devMemProtectedWrites => ⟨.dev, 0x2600, 17, 17, .uint, .ro, 8, 0, 0, 0xFFFFFFFFFFFFFFFF⟩
  | .devMemProtectedLast => ⟨.dev, 0x2600, 18, 18, .uint, .ro, 8, 0, 0, 0xFFFFFFFFFFFFFFFF⟩
  | .devMemRmw => ⟨.dev, 0x2600, 19, 19, .uint, .ro, 8, 0, 0, 0xFFFFFFFFFFFFFFFF⟩
  | .devMemLinkRetries => ⟨.dev, 0x2600, 20, 20, .uint, .ro, 8, 0, 0, 0xFFFFFFFFFFFFFFFF⟩
  | .devMemDensityMismatch => ⟨.dev, 0x2600, 21, 21, .uint, .ro, 2, 0x0000, 0, 0xFFFF⟩
  | .devMemInitTime => ⟨.dev, 0x2600, 22, 22, .uint, .ro, 4, 0, 0, 0xFFFFFFFF⟩
  | .devMemProtectedSites => ⟨.dev, 0x2600, 23, 23, .uint, .ro, 2, 0x0000, 0, 0xFFFF⟩
  | .devMemRegions => ⟨.dev, 0x2601, 0, 0, .dom, .rwx, 1024, 0, 0, 0x0⟩
  | .qdMemState => ⟨.quad, 0x40, 1, 3, .uint, .ro, 4, 0x00000000, 0, 0xFFFFFFFF⟩
  | .qdMemLaneCorr => ⟨.quad, 0x41, 1, 3, .dom, .ro, 64, 0, 0, 0x0⟩
  | .qdMemCounts => ⟨.quad, 0x42, 1, 3, .dom, .ro, 40, 0, 0, 0x0⟩
  | .qdMemTrain => ⟨.quad, 0x43, 1, 3, .dom, .ro, 64, 0, 0, 0x0⟩
  | .qdMemTemp => ⟨.quad, 0x44, 1, 3, .sint, .ro, 2, 0, 0, 0xFFFF⟩
  | .devMgtLink => ⟨.dev, 0x1100, 1, 1, .uint, .ro, 1, 0, 0, 0xFF⟩
  | .devMgtMac => ⟨.dev, 0x1100, 2, 2, .uint, .con, 8, 0, 0, 0xFFFFFFFFFFFFFFFF⟩
  | .devMgtUdpPort => ⟨.dev, 0x1100, 3, 3, .uint, .rw, 2, 47710, 1024, 0xFFFF⟩
  | .devMgtHbTimeout => ⟨.dev, 0x1100, 4, 4, .uint, .rw, 2, 2000, 100, 0xEA60⟩
  | .devMgtOwnerAddr => ⟨.dev, 0x1100, 5, 5, .dom, .ro, 16, 0, 0, 0x0⟩
  | .devMgtPodlPower => ⟨.dev, 0x1100, 6, 6, .uint, .ro, 2, 0, 0, 0xFFFF⟩
  | .devMgtRimPower => ⟨.dev, 0x1100, 7, 7, .uint, .ro, 2, 0, 0, 0xFFFF⟩
  | .devMgtRimFwRev => ⟨.dev, 0x1100, 8, 8, .uint, .ro, 4, 0, 0, 0xFFFFFFFF⟩
  | .devMgtFrameCounts => ⟨.dev, 0x1100, 9, 9, .dom, .ro, 16, 0, 0, 0x0⟩
  | .devMgtLedger => ⟨.dev, 0x1101, 0, 0, .dom, .ro, 8388608, 0, 0, 0x0⟩
  | .devMgtSub => ⟨.dev, 0x1102, 1, 4, .dom, .ro, 32, 0, 0, 0x0⟩
  | .devPcieLink => ⟨.dev, 0x1200, 1, 1, .uint, .ro, 4, 0, 0, 0xFFFFFFFF⟩
  | .devPcieMaxGen => ⟨.dev, 0x1200, 2, 2, .uint, .rw, 1, 5, 1, 0x5⟩
  | .devPcieMps => ⟨.dev, 0x1200, 3, 3, .uint, .ro, 2, 128, 0, 0xFFFF⟩
  | .devPcieMrrs => ⟨.dev, 0x1200, 4, 4, .uint, .ro, 2, 512, 0, 0xFFFF⟩
  | .devPcieBar2Size => ⟨.dev, 0x1200, 5, 5, .uint, .ro, 8, 0x10000000, 0, 0xFFFFFFFFFFFFFFFF⟩
  | .devPcieDmaActive => ⟨.dev, 0x1200, 6, 6, .uint, .ro, 2, 0x0000, 0, 0xFFFF⟩
  | .devPcieH2dBytes => ⟨.dev, 0x1200, 7, 7, .uint, .ro, 8, 0, 0, 0xFFFFFFFFFFFFFFFF⟩
  | .devPcieD2hBytes => ⟨.dev, 0x1200, 8, 8, .uint, .ro, 8, 0, 0, 0xFFFFFFFFFFFFFFFF⟩
  | .devPcieBar2Range => ⟨.dev, 0x1200, 9, 9, .uint, .ro, 4, 0, 0, 0xFFFFFFFF⟩
  | .devPciePoisoned => ⟨.dev, 0x1200, 10, 10, .uint, .ro, 4, 0, 0, 0xFFFFFFFF⟩
  | .devPcieAer => ⟨.dev, 0x1200, 11, 11, .uint, .ro, 4, 0, 0, 0xFFFFFFFF⟩
  | .devPcieLinkDowns => ⟨.dev, 0x1200, 12, 12, .uint, .ro, 4, 0, 0, 0xFFFFFFFF⟩
  | .devEvtVector => ⟨.dev, 0x1800, 1, 1, .dom, .rw, 64, 0xFF, 0, 0x0⟩
  | .devEvtHostMask => ⟨.dev, 0x1800, 2, 2, .uint, .rw, 8, 0, 0, 0xFFFFFFFFFFFFFFFF⟩
  | .devEvtHostWritten => ⟨.dev, 0x1800, 3, 3, .uint, .ro, 4, 0, 0, 0xFFFFFFFF⟩
  | .devEvtHostLost => ⟨.dev, 0x1800, 4, 4, .uint, .ro, 4, 0, 0, 0xFFFFFFFF⟩
  | .devEvtMasked => ⟨.dev, 0x1800, 5, 5, .uint, .ro, 4, 0, 0, 0xFFFFFFFF⟩
  | .devEvtMgtRate => ⟨.dev, 0x1800, 6, 6, .uint, .rw, 2, 1000, 1, 0x2710⟩
  | .devEvtLast => ⟨.dev, 0x1800, 7, 7, .dom, .ro, 548, 0, 0, 0x0⟩
  | .devEvtClassCount => ⟨.dev, 0x1800, 8, 8, .dom, .ro, 256, 0, 0, 0x0⟩
  | .devEvtSiteVector => ⟨.dev, 0x1801, 1, 12, .uint, .rw, 1, 0xFF, 0, 0xFF⟩
  | .devPwrCommand => ⟨.dev, 0x2100, 1, 1, .uint, .wo, 1, 0, 1, 0x2⟩
  | .devPwrSeqState => ⟨.dev, 0x2100, 2, 2, .uint, .ro, 1, 0, 0, 0xFF⟩
  | .devPwrStep => ⟨.dev, 0x2100, 3, 3, .uint, .ro, 1, 0xFF, 0, 0xFF⟩
  | .devPwrEn => ⟨.dev, 0x2100, 4, 4, .uint, .ro, 1, 0x00, 0, 0xFF⟩
  | .devPwrPg => ⟨.dev, 0x2100, 5, 5, .uint, .ro, 1, 0x00, 0, 0xFF⟩
  | .devPwrFaultCause => ⟨.dev, 0x2100, 6, 6, .uint, .ro, 2, 0x0000, 0, 0xFFFF⟩
  | .devPwrCycles => ⟨.dev, 0x2100, 7, 7, .uint, .ro, 4, 0, 0, 0xFFFFFFFF⟩
  | .devPwrSeqTime => ⟨.dev, 0x2100, 8, 8, .uint, .ro, 4, 0, 0, 0xFFFFFFFF⟩
  | .devPwrThermalOff => ⟨.dev, 0x2100, 9, 9, .bool, .rwx, 1, 1, 0, 0x1⟩
  | .devTjNow => ⟨.dev, 0x2101, 1, 1, .sint, .ro, 2, 0, 0, 0xFFFF⟩
  | .devTjMax => ⟨.dev, 0x2101, 2, 2, .sint, .ro, 2, 0, 0, 0xFFFF⟩
  | .devTjMin => ⟨.dev, 0x2101, 3, 3, .sint, .ro, 2, 0, 0, 0xFFFF⟩
  | .devTjWarn => ⟨.dev, 0x2101, 4, 4, .uint, .rwx, 1, 95, 60, 0x69⟩
  | .devTjShutdown => ⟨.dev, 0x2101, 5, 5, .uint, .con, 1, 115, 0, 0xFF⟩
  | .devThermFlags => ⟨.dev, 0x2101, 6, 6, .uint, .ro, 1, 0x00, 0, 0xFF⟩
  | .devRimTemp => ⟨.dev, 0x2101, 7, 7, .sint, .ro, 2, 0, 0, 0xFFFF⟩
  | .devTjSensors => ⟨.dev, 0x2101, 8, 8, .dom, .ro, 32, 0, 0, 0x0⟩
  | .devTjWarnCount => ⟨.dev, 0x2101, 9, 9, .uint, .ro, 4, 0, 0, 0xFFFFFFFF⟩
  | .devPwrTotal => ⟨.dev, 0x2102, 1, 1, .uint, .ro, 4, 0, 0, 0xFFFFFFFF⟩
  | .devRailMeas => ⟨.dev, 0x2102, 2, 2, .dom, .ro, 96, 0, 0, 0x0⟩
  | .devPwrPeak => ⟨.dev, 0x2102, 3, 3, .uint, .ro, 4, 0, 0, 0xFFFFFFFF⟩
  | .devVbat => ⟨.dev, 0x2102, 4, 4, .uint, .ro, 2, 0, 0, 0xFFFF⟩
  | .devRimVin => ⟨.dev, 0x2102, 5, 5, .uint, .ro, 2, 0, 0, 0xFFFF⟩
  | .devPwrLimit => ⟨.dev, 0x2102, 6, 6, .uint, .rwx, 2, 275, 50, 0x113⟩
  | .devPwrOverCount => ⟨.dev, 0x2102, 7, 7, .uint, .ro, 4, 0, 0, 0xFFFFFFFF⟩
  | .devPwrEnergy => ⟨.dev, 0x2102, 8, 8, .uint, .ro, 8, 0, 0, 0xFFFFFFFFFFFFFFFF⟩
  | .qdPwrCommand => ⟨.quad, 0xC0, 0, 0, .uint, .wo, 1, 0, 1, 0x2⟩
  | .qdPwrState => ⟨.quad, 0xC1, 0, 0, .uint, .ro, 1, 0, 0, 0xFF⟩
  | .qdTempNow => ⟨.quad, 0xC2, 1, 1, .sint, .ro, 2, 0, 0, 0xFFFF⟩
  | .qdTempMax => ⟨.quad, 0xC2, 2, 2, .sint, .ro, 2, 0, 0, 0xFFFF⟩
  | .qdPwrDomain => ⟨.quad, 0xC3, 1, 4, .uint, .ro, 4, 0, 0, 0xFFFFFFFF⟩
  | .qdPwrTotal => ⟨.quad, 0xC4, 0, 0, .uint, .ro, 4, 0, 0, 0xFFFFFFFF⟩
  | .qdPwrCycles => ⟨.quad, 0xC5, 0, 0, .uint, .ro, 4, 0, 0, 0xFFFFFFFF⟩
  | .qdPwrUpTime => ⟨.quad, 0xC6, 0, 0, .uint, .ro, 4, 0, 0, 0xFFFFFFFF⟩
  | .qdThermFlags => ⟨.quad, 0xC7, 0, 0, .uint, .ro, 1, 0x00, 0, 0xFF⟩
  | .qdPwrFaultCause => ⟨.quad, 0xC8, 0, 0, .uint, .ro, 2, 0x0000, 0, 0xFFFF⟩
  | .devIjUnlock => ⟨.dev, 0x2800, 1, 1, .uint, .wo, 1, 0, 0, 0xFF⟩
  | .devIjState => ⟨.dev, 0x2800, 2, 2, .uint, .ro, 1, 0, 0, 0xFF⟩
  | .devIjTarget => ⟨.dev, 0x2800, 3, 3, .uint, .rwx, 1, 0, 0, 0xA⟩
  | .devIjUnit => ⟨.dev, 0x2800, 4, 4, .uint, .rwx, 2, 0, 0, 0xFFFF⟩
  | .devIjCount => ⟨.dev, 0x2800, 5, 5, .uint, .rwx, 2, 1, 1, 0xFFFF⟩
  | .devIjInterval => ⟨.dev, 0x2800, 6, 6, .uint, .rwx, 4, 1000, 1, 0xF4240⟩
  | .devIjSymbols => ⟨.dev, 0x2800, 7, 7, .uint, .rwx, 1, 1, 1, 0x8⟩
  | .devIjDuration => ⟨.dev, 0x2800, 8, 8, .uint, .rwx, 2, 100, 1, 0x1388⟩
  | .devIjControl => ⟨.dev, 0x2800, 9, 9, .uint, .wo, 1, 0, 1, 0x2⟩
  | .devIjFired => ⟨.dev, 0x2800, 10, 10, .uint, .ro, 4, 0, 0, 0xFFFFFFFF⟩
  | .devIjLastTime => ⟨.dev, 0x2800, 11, 11, .uint, .ro, 8, 0, 0, 0xFFFFFFFFFFFFFFFF⟩
  | .devIjLastEvent => ⟨.dev, 0x2800, 12, 12, .uint, .ro, 2, 0x0000, 0, 0xFFFF⟩
  | .devIjWindow => ⟨.dev, 0x2800, 13, 13, .uint, .rwx, 2, 60, 1, 0xE10⟩
  | .devIjArms => ⟨.dev, 0x2800, 14, 14, .uint, .ro, 4, 0, 0, 0xFFFFFFFF⟩
  | .devLogNextSeq => ⟨.dev, 0x2900, 1, 1, .uint, .ro, 4, 0, 0, 0xFFFFFFFF⟩
  | .devLogValid => ⟨.dev, 0x2900, 2, 2, .uint, .ro, 2, 0, 0, 0xFFFF⟩
  | .devLogLost => ⟨.dev, 0x2900, 3, 3, .uint, .ro, 4, 0, 0, 0xFFFFFFFF⟩
  | .devLogMask => ⟨.dev, 0x2900, 4, 4, .uint, .rw, 8, 0xFFFFFFFFFFFFFFFF, 0, 0xFFFFFFFFFFFFFFFF⟩
  | .devLogClear => ⟨.dev, 0x2900, 5, 5, .uint, .wo, 1, 0, 1, 0x1⟩
  | .devLogQueue => ⟨.dev, 0x2900, 6, 6, .uint, .ro, 1, 0, 0, 0xFF⟩
  | .devSelftestState => ⟨.dev, 0x2900, 7, 7, .uint, .ro, 1, 0, 0, 0xFF⟩
  | .devSelftestResult => ⟨.dev, 0x2900, 8, 8, .dom, .ro, 32, 0, 0, 0x0⟩
  | .devLostContexts => ⟨.dev, 0x2900, 9, 9, .dom, .ro, 6144, 0, 0, 0x0⟩
  | .devRecoverState => ⟨.dev, 0x2900, 10, 10, .uint, .ro, 8, 0, 0, 0xFFFFFFFFFFFFFFFF⟩
  | .devFailedUnits => ⟨.dev, 0x2900, 11, 11, .dom, .ro, 24, 0, 0, 0x0⟩
  | .devLogLastCode => ⟨.dev, 0x2900, 12, 12, .uint, .ro, 2, 0x0000, 0, 0xFFFF⟩
  | .devLog => ⟨.dev, 0x2901, 0, 0, .dom, .ro, 262144, 0, 0, 0x0⟩
  | .devLogFirstSeq => ⟨.dev, 0x2902, 0, 0, .uint, .ro, 4, 0, 0, 0xFFFFFFFF⟩
  | .portStatus => ⟨.port, 0x30, 0, 0, .uint, .ro, 4, 0x00000000, 0, 0xFFFFFFFF⟩
  | .portStatusClear => ⟨.port, 0x31, 0, 0, .uint, .wo, 1, 0, 1, 0x1⟩
  | .portSelftest => ⟨.port, 0x32, 0, 0, .dom, .ro, 16, 0, 0, 0x0⟩
  | .portEventCount => ⟨.port, 0x33, 0, 0, .uint, .ro, 4, 0, 0, 0xFFFFFFFF⟩

/-- The objects of the dev block. -/
def Obj.devObjs : List Obj :=
  ([.devDictRev, .devGrade, .devName, .devStepping, .devVendorCode, .devProductCode, .devSteppingCode, .devSerial, .devState, .devCommand, .devFaultCause, .controlOwner, .groupCommit, .abort, .devGroupStaged, .devGroupResult, .devClkRunning, .devCfgSource, .devSynthState, .devSynthLossCount, .devTbrefOffset, .devTbrefPresent, .devRimOscOffset, .devLineSettled, .devLineRatio, .warpRole, .devTbState, .timeNow, .devHoldoverAbort, .devEventTime] : List Obj)
  ++ ([.devEventSend, .devWarpOutEn, .devWarpDepth, .devWarpAsym, .devWarpDelay, .devTimeResidual, .devWarpChar, .devWarpCharResult, .devWarpLink, .calAutoEnable, .calDeltaT, .calGradeFloor, .devCalSurveyEnable, .devCalListenLimit, .devCalHold, .devCalRefSource, .devCalVref, .devCalActive, .devCalSubMap, .devCalCycles, .devCalFallbacks, .devCalCommitPending, .devCalCommits, .devCalCommitLost, .devCalLedgerState, .devCfgCommand, .devCfgStream, .devCfgState, .devCfgError, .devCfgErrWhere] : List Obj)
  ++ ([.devCfgBytes, .devCfgBlocks, .devCfgFrames, .devCfgUpsett, .devCfgKeysel, .devCfgWipeTime, .devKeyStatus, .devKeyRam, .devKeyRamClear, .devAuthFailCount, .devSentState, .devSentPasses, .devSentPassTime, .devSentMismatches, .devSentLastMismatch, .devSentVoteUpsets, .devSentAction, .devNocEpoch, .devNocSwap, .devNocSwapState, .devNocSwapResult, .devNocShadow, .devNocActive, .devNocIsolated, .devNocClosed, .devNocAbsorbedWrites, .devNocPoisonedReads, .devNocStaleAbsorbed, .devNocMalformed, .devNocSwapCount] : List Obj)
  ++ ([.devNocBpMax, .devNocDrainTime, .devNocFenceTime, .devNocVcFlits, .devNocRouterFault, .devNocFlushAbsorbed, .devNocLatencyMax, .devMemDensity, .devMemCapacity, .devMemChanBytes, .devMemReady, .devMemIsolated, .devMemErasure, .devMemCmd, .devMemCmdState, .devMemScrubPeriod, .devMemScrubPasses, .devMemScrubVoteUpsets, .devMemLaneThreshold, .devMemCorrected, .devMemUncorrectable, .devMemLastUncorr, .devMemPoisonSent, .devMemProtectedWrites, .devMemProtectedLast, .devMemRmw, .devMemLinkRetries, .devMemDensityMismatch, .devMemInitTime, .devMemProtectedSites] : List Obj)
  ++ ([.devMemRegions, .devMgtLink, .devMgtMac, .devMgtUdpPort, .devMgtHbTimeout, .devMgtOwnerAddr, .devMgtPodlPower, .devMgtRimPower, .devMgtRimFwRev, .devMgtFrameCounts, .devMgtLedger, .devMgtSub, .devPcieLink, .devPcieMaxGen, .devPcieMps, .devPcieMrrs, .devPcieBar2Size, .devPcieDmaActive, .devPcieH2dBytes, .devPcieD2hBytes, .devPcieBar2Range, .devPciePoisoned, .devPcieAer, .devPcieLinkDowns, .devEvtVector, .devEvtHostMask, .devEvtHostWritten, .devEvtHostLost, .devEvtMasked, .devEvtMgtRate] : List Obj)
  ++ ([.devEvtLast, .devEvtClassCount, .devEvtSiteVector, .devPwrCommand, .devPwrSeqState, .devPwrStep, .devPwrEn, .devPwrPg, .devPwrFaultCause, .devPwrCycles, .devPwrSeqTime, .devPwrThermalOff, .devTjNow, .devTjMax, .devTjMin, .devTjWarn, .devTjShutdown, .devThermFlags, .devRimTemp, .devTjSensors, .devTjWarnCount, .devPwrTotal, .devRailMeas, .devPwrPeak, .devVbat, .devRimVin, .devPwrLimit, .devPwrOverCount, .devPwrEnergy, .devIjUnlock] : List Obj)
  ++ ([.devIjState, .devIjTarget, .devIjUnit, .devIjCount, .devIjInterval, .devIjSymbols, .devIjDuration, .devIjControl, .devIjFired, .devIjLastTime, .devIjLastEvent, .devIjWindow, .devIjArms, .devLogNextSeq, .devLogValid, .devLogLost, .devLogMask, .devLogClear, .devLogQueue, .devSelftestState, .devSelftestResult, .devLostContexts, .devRecoverState, .devFailedUnits, .devLogLastCode, .devLog, .devLogFirstSeq] : List Obj)

/-- The objects of the site block. -/
def Obj.siteObjs : List Obj :=
  [.siteState, .siteBundles, .siteCommand, .siteStepBase, .siteStepCount, .siteLockstep, .siteArmStatus, .siteArmCheck, .siteArmStep, .siteArmObject, .siteStepNow, .siteAbortCause]

/-- The objects of the quad block. -/
def Obj.quadObjs : List Obj :=
  ([.qdClkDiv, .qdClkSel, .qdClkStatus, .qdReset, .qdProbeSel, .qdTraceCtl, .qdTraceStatus, .qdTraceBuf, .qdQueueErr, .qdLaneStatus, .qdFabStatus, .qdPrCommand, .qdPrStream, .qdPrState, .qdPrError, .qdPrErrWhere, .qdPrBytes, .qdBorderState, .qdRegionFeeds, .qdPrCount, .qdNocRouterStatus, .qdNocLinkErr, .qdMemState, .qdMemLaneCorr, .qdMemCounts, .qdMemTrain, .qdMemTemp, .qdPwrCommand, .qdPwrState, .qdTempNow] : List Obj)
  ++ ([.qdTempMax, .qdPwrDomain, .qdPwrTotal, .qdPwrCycles, .qdPwrUpTime, .qdThermFlags, .qdPwrFaultCause] : List Obj)

/-- The objects of the bnd block. -/
def Obj.bndObjs : List Obj :=
  ([.bndState, .bndSite, .bndAbortCause, .bndAbortTime, .bndAbortFlags, .bndAbortCount, .bndPoolCells, .bndPoolLink, .bndPoolMap, .bndPoolWave, .bndPoolStatus, .bndMeasConfig, .bndMeasCoef, .bndMeasControl, .bndMeasLast, .bndMeasHistory, .bndPeCtxCmd, .bndPeCtxStates, .bndPeCtxImage, .bndPeStatus, .bndPeIssued, .bndSchedStatus, .bndSchedCounts, .bndDutErrors, .bndTrainResult, .bndSchedLast, .bndInjConfig, .bndInjControl, .bndInjStatus, .bndCapStatus] : List Obj)
  ++ ([.bndCapRead, .bndTally, .bndCapBundle, .bndByeTarget, .bndCalCommand, .bndCalStatus] : List Obj)

/-- The objects of the port block. -/
def Obj.portObjs : List Obj :=
  ([.portEnDrive, .portEnCompare, .portEnLoad, .portEnPmu, .portEnPinsw, .portEnTerm, .portFeConfig, .portDrvL0, .portDrvL1, .portDrvL2, .portDrvL3, .portVtt, .portCt0, .portCt1, .portCt2, .portLoad, .portMode, .portTset, .portFixDrive, .portFixCompare, .portEdgeStatus, .portCycleCount, .portPark, .portTsetCheck, .portSerConfig, .portSerTxeq, .portSerRxeq, .portSerTiming, .portSerPrbs, .portSerStatus] : List Obj)
  ++ ([.portSerErrors, .portSerBits, .portCmpConfig, .portFailCount, .portFirstFail, .portRawStatus, .portCalRequest, .portCalState, .portCalQuality, .portCalTrims, .portCalSet, .portCalCount, .portCalLast, .portCalHist, .portStatus, .portStatusClear, .portSelftest, .portEventCount] : List Obj)

/-- The objects of a block. -/
def Obj.ofSpace : Space → List Obj
  | .dev => Obj.devObjs
  | .site => Obj.siteObjs
  | .quad => Obj.quadObjs
  | .bnd => Obj.bndObjs
  | .port => Obj.portObjs

/-- Number of units that carry a block (R42). -/
def Space.units : Space → Nat
  | .dev => 1
  | .site => 12
  | .quad => 4
  | .bnd => 12
  | .port => 108

/-- The base index of a unit's block (R16, R42). -/
def Space.base : Space → Nat → Nat
  | .dev, _ => 0
  | .site, u => 0x2A00 + 0x10 * u
  | .quad, u => 0x3000 + 0x100 * u
  | .bnd, u => 0x3400 + 0x40 * u
  | .port, u => 0x4000 + 0x40 * u

/-- The block, unit and offset that an index lies in (R42). -/
def locate (index : Nat) : Option (Space × Nat × Nat) :=
  if index < 0x2A00 then some (.dev, 0, index)
  else if index < 0x2AC0 then some (.site, (index - 0x2A00) / 0x10, (index - 0x2A00) % 0x10)
  else if index < 0x3000 then none
  else if index < 0x3400 then some (.quad, (index - 0x3000) / 0x100, (index - 0x3000) % 0x100)
  else if index < 0x3700 then some (.bnd, (index - 0x3400) / 0x40, (index - 0x3400) % 0x40)
  else if index < 0x4000 then none
  else if index < 0x5B00 then some (.port, (index - 0x4000) / 0x40, (index - 0x4000) % 0x40)
  else none

/-- The index of an object of a unit. -/
def Obj.index (o : Obj) (unit : Nat := 0) : Nat := o.row.space.base unit + o.row.off

/-- The key of an entry in the dictionary's stores: index and sub-index as one number; `k` counts the sub-indices of a
multi-value row from 0. -/
def Obj.key (o : Obj) (unit : Nat := 0) (k : Nat := 0) : Nat := o.index unit * 256 + (o.row.sub1 + k)

/-- What an address names (R39, R40). -/
inductive Target where
  /-- no such index: NO_OBJECT -/
  | noObject
  /-- the index exists, the sub-index does not: NO_SUB -/
  | noSub
  /-- sub-index 0x00 of a multi-value index: a CON U8 that reads the highest sub-index (R39) -/
  | count (n : Nat)
  /-- an entry of the base dictionary -/
  | entry (o : Obj) (unit : Nat) (k : Nat)
  deriving DecidableEq, Repr, Inhabited

/-- The base-dictionary entry that an address names (R39 to R42). -/
def target (a : Addr) : Target :=
  match locate a.index.toNat with
  | none => .noObject
  | some (sp, unit, off) =>
    let here := (Obj.ofSpace sp).filter (fun o => o.row.off == off)
    if here.isEmpty then .noObject
    else match here.find? (fun o => o.row.sub1 ≤ a.sub.toNat && a.sub.toNat ≤ o.row.sub2) with
      | some o => .entry o unit (a.sub.toNat - o.row.sub1)
      | none =>
        if a.sub = 0 then .count (here.foldl (fun m o => max m o.row.sub2) 0) else .noSub

end Sys2Proof.Machine
end

