-- ==== Sys2Proof/Machine/State.lean ====
section
/-! DEFINITION. The state of the T96 block as plain data: the dictionary's registers, every structure behind it that
the spec names, the queue of waiting commands, and the state after reset (log 1 to 6). -/
namespace Sys2Proof.Machine

/-! ## What the block sends -/

/-- An event as it is raised (R529, R506): code, scope kind and unit, arguments, extension, whether the Rim itself
raises it (R532), and its TIME count. -/
structure Event where
  code : Nat
  kind : Nat := 0
  unit : Nat := 0
  arg0 : Nat := 0
  arg1 : Nat := 0
  ext : List Byte := []
  rim : Bool := false
  time : Nat := 0
  deriving DecidableEq, Repr, Inhabited

/-- A Warp ordered set of event type (R189, R191). -/
structure WarpSet where
  type : Nat
  group : Nat
  seq : Nat
  time : Nat
  deriving DecidableEq, Repr, Inhabited

/-- What the block sends while it executes one command. -/
inductive Msg where
  /-- a service reply frame (R485, R487): flags FIRST and LAST, block prefix where the service has one -/
  | reply (dst : Src) (seq : BitVec 16) (service : Nat) (addr : Addr) (first last : Bool) (status : Nat)
      (blk : Option (Nat × Nat)) (data : List Byte)
  /-- an EVENT frame to a subscription slot's address and port (R507) -/
  | event (dst : BitVec 128) (port : BitVec 16) (frame : List Byte)
  /-- an MSI-X message (R500) -/
  | msix (vector : Nat)
  /-- a write into host memory: DMA data, completions, event-ring entries (R497, R501); `poison` sets the TLP bit -/
  | hostWrite (addr : Nat) (data : List Byte) (poison : Bool)
  /-- the completion of a BAR2 read (R493) -/
  | bar2Data (data : List Byte) (poison : Bool)
  /-- the data bytes of an event set on Warp-out n, or up on Warp-in (R96, R189, R191) -/
  | warp (out : Option (Fin 4)) (data : List Byte)
  /-- the data bytes of an echo set on UP of Warp-in (R189, R194) -/
  | warpEcho (data : List Byte)
  /-- the data bytes of a time code set on Warp-out n (R189) -/
  | warpTime (out : Fin 4) (data : List Byte)
  /-- a response at a quadrant's NoC fabric port (R408) -/
  | fabricPort (quad : QuadNo) (tag : Nat) (status : Nat) (data : List Byte)
  /-- lines MEAS and MEAS_TOGGLE of a bundle at the fabric (R159, R402) -/
  | measLine (bundle : Nat) (record : Word) (toggle : Bool)
  /-- a user-object write presented to the design (R409) -/
  | userWrite (addr : Addr) (data : List Byte)
  /-- ICMPv6 echo reply and neighbor advertisement of the Rim (R503) -/
  | echoReply (dst : BitVec 128) (data : List Byte)
  | neighborAdv (dst : BitVec 128)
  /-- the head flit of an edge router's answer; the granules of a RD_RSP are zero (R448, R458) -/
  | nocAnswer (head : BitVec 96)
  /-- DUT command that a site's scheduler sends at a CK edge: rank, command code, bank, address, and the parity of its
  standard where the step has CA_PARITY (R308, R323) -/
  | dutCommand (site : Nat) (ck : Int) (rank cmd bank addr : Nat) (parity : Option Bool)
  /-- write burst that a site places on DQ from a CK edge: bit i of each beat is lane i; empty under 3B2S; the CRC of its
  standard where one is appended, and whether it is inverted (R313, R323, R327) -/
  | dutBurst (site : Nat) (ck : Int) (beats : List Nat) (crc : Option (Nat × Bool))
  /-- data that a read of the memory system returns to its requester; `poison` marks an uncorrectable granule (R471) -/
  | memData (data : List Byte) (poison : List Bool)
  deriving DecidableEq, Repr

/-! ## Dictionary service (R39 to R73, R485 to R489) -/

/-- The register file of the dictionary: scalars by `Obj.key`, DOM bytes by `Obj.key * 2^24 + offset`. -/
structure Dict where
  regs : Store Word := []
  doms : Store Byte := []
  deriving DecidableEq, Repr, Inhabited

/-- An open BLOCK_WRITE (R487). -/
structure Transfer where
  src : Src
  addr : Addr
  start : Nat
  total : Nat
  data : List Byte
  /-- `elapsed` at its latest segment -/
  since : Nat := 0
  deriving DecidableEq, Repr, Inhabited

/-- What an accepted service that is not yet answered waits for (R31, R73, R185, R273, R395, R409, R426, R456). -/
inductive Waits where
  | arm (site : SiteNo)
  | line (bundle : BundleNo)
  | clkDiv (quad : QuadNo)
  | ctxCmd (bundle : BundleNo)
  | unload
  | chunk
  | swap
  | user (addr : Addr) (data : List Byte)
  deriving DecidableEq, Repr, Inhabited

/-- An accepted service that is not yet answered. -/
structure OpenService where
  rq : Rq
  service : Nat
  addr : Addr
  waits : Waits
  /-- `elapsed` at its acceptance (R73) -/
  since : Nat := 0
  /-- the host's link has gone down since: the answer is discarded (R494) -/
  discard : Bool := false
  deriving DecidableEq, Repr, Inhabited

/-- A stored reply for a repeated management request (R489). -/
structure Stored where
  addr : BitVec 128
  seq : BitVec 16
  frames : List Msg
  deriving DecidableEq, Repr

/-- The dictionary service's own state. -/
structure Control where
  /-- staging set by entry key: the value staged (R56) -/
  staged : Store (Option Word) := []
  /-- address that holds management ownership; none while unclaimed or not management (R54) -/
  ownerAddr : Option (BitVec 128) := none
  /-- `elapsed` at the owning controller's latest frame, or at the hand-over that left ownership unclaimed (R54) -/
  heard : Nat := 0
  transfers : List Transfer := []
  services : List OpenService := []
  /-- newest first (R489) -/
  replies : List Stored := []
  /-- scope codes and CFG cycle of the ABORTs taken in the latest CFG cycle that an ABORT shared (R32) -/
  aborts : List (Nat × Nat) := []
  deriving DecidableEq, Repr

/-! ## Events and the log (R506, R507, R529 to R533) -/

/-- A subscription slot (R507). -/
structure Subscription where
  addr : BitVec 128
  port : BitVec 16
  mask : BitVec 64
  lease : Nat
  /-- `elapsed` at the SUBSCRIBE that gave the lease -/
  since : Nat := 0
  /-- SEQ of the next event; whether one was sent -/
  seq : Nat := 0
  sent : Bool := false
  /-- `elapsed` at the start of the second in which events are counted against DEV_EVT_MGT_RATE, and their count -/
  winStart : Nat := 0
  winCount : Nat := 0
  deriving DecidableEq, Repr, Inhabited

/-- Event engine and log queue. -/
structure Events where
  /-- events of the command being executed, not yet delivered -/
  now : List Event := []
  /-- events raised since RESET_N (R510) -/
  count : Nat := 0
  /-- latest EVENT frame raised -/
  last : List Byte := []
  classCount : Store Nat := []
  subs : List (Option Subscription) := [none, none, none, none]
  /-- events waiting for the Rim, oldest first (R533) -/
  logQueue : List Event := []
  deriving DecidableEq, Repr, Inhabited

/-! ## Device (R75 to R79, R87 to R100, R537, R538) -/

structure Device where
  /-- event code of a device-wide fault that was entered and not cleared (R75, R77) -/
  fault : Option Nat := none
  /-- a device-scope abort is in progress: its cause (R75) -/
  aborting : Option Nat := none
  /-- the fault that the device enters when this abort completes (R76) -/
  faultNext : Option Nat := none
  /-- DEV_SELFTEST_STATE before the self-test that runs -/
  selfTestBefore : Nat := 0
  /-- frames are being wiped (R78), and `elapsed` when that began -/
  wiping : Bool := false
  wipeSince : Nat := 0
  selfTest : Bool := false
  abortNLow : Bool := false
  resetNLow : Bool := false
  deriving DecidableEq, Repr, Inhabited

/-- Fused and board-given values (log 5). -/
structure Fuses where
  grade32 : Bool := false
  serial : BitVec 32 := 0
  mac : BitVec 48 := 0
  rimFw : BitVec 32 := 0
  efuseKey : Option (List Byte) := none
  encryptOnly : Bool := false
  /-- density code of the GDDR7 device fitted on each channel: 0 16 Gbit, 1 24 Gbit, 2 32 Gbit (R465, R484) -/
  density : Store (Fin 3) := []
  /-- personality code capacity and others are fixed by the spec; utility bank voltage 3.3 V rather than 1.8 V -/
  bankA33 : Bool := false
  bankB33 : Bool := false
  deriving DecidableEq, Repr, Inhabited

/-! ## Ports (R101 to R131, R209 to R232, R544) -/

/-- A drive event of the formatter, at its instant in vernier steps: a new level, or the driver off or on (R220, R221). -/
structure DriveEvent where
  at' : Nat
  level : Option (Fin 4) := none
  off : Option Bool := none
  /-- voltage that a serializer launches in place of the level; `some none` goes back to the level (R239) -/
  volts : Option (Option Rat) := none
  deriving DecidableEq, Repr, Inhabited

/-- One port's own state beside its dictionary registers. -/
structure PortFe where
  /-- DACs in their 5 µs blank (R113, R118): 0–3 L0–L3, 4 VTT, 5–7 CT0–CT2, 8 VCOM, 9 PMU force -/
  blanks : List (Fin 10) := []
  /-- `elapsed` at the start of each DAC's latest blank -/
  blankAt : Store Nat := []
  /-- level that the driver holds: index of L0–L3 (R107) -/
  level : Fin 4 := 0
  /-- the driver was off at the end of the last cycle and stays off until the next run (R215) -/
  off : Bool := false
  /-- voltage that the serializer holds in place of the level (R239, R241) -/
  volts : Option Rat := none
  /-- the port was mapped in a cycle of this run (R225) -/
  mapped : Bool := false
  /-- drive events that `level` and `off` do not hold yet, in the order of their instants -/
  events : List DriveEvent := []
  pmuLimit : Bool := false
  drvLimit : Bool := false
  pmuSeen : Bool := false
  drvSeen : Bool := false
  testFail : Bool := false
  deriving DecidableEq, Repr, Inhabited

/-! ## Analogue pool and measurement chain (R137 to R175) -/

/-- A wave DAC beside its registers (R154 to R158). -/
structure WaveOsc where
  /-- ACC on the latest WAVE edge -/
  acc : Nat := 0
  /-- first TIME count whose WAVE edge clears ACC, while a clear waits (R157) -/
  clearAt : Option Nat := none
  /-- the 16-bit sample at the output, which an underrun repeats (R143, R158) -/
  y : Int := 0
  /-- samples that the fabric wrote and no WAVE edge has taken, oldest first, at most 16 (R403) -/
  fifo : List Int := []
  underrun : Bool := false
  deriving DecidableEq, Repr, Inhabited

/-- What a pool cell remembers (R141, R144, R145), voltages in units of 2^-40 V: an integrator's output or a held voltage in
`x`, the two states of a biquad in `x` and `z`, a comparator's decision and its latched copy. -/
structure CellMem where
  x : Int := 0
  z : Int := 0
  hi : Bool := false
  latched : Bool := false
  deriving DecidableEq, Repr, Inhabited

/-- The pool of one bundle beside BND_POOL_CELLS and BND_POOL_WAVE. -/
structure Pool where
  /-- node code that terminal t of cell n holds, by 8n + t; 0x3F open (R149, R153) -/
  links : Store Nat := []
  /-- cells whose OUT is clamped in a 5 µs blank (R146) -/
  blanks : List (Fin 16) := []
  /-- `elapsed` at the start of each cell's latest blank -/
  blankAt : Store Nat := []
  wd0 : WaveOsc := {}
  wd1 : WaveOsc := {}
  /-- what the cells remember, by cell -/
  mem : Store CellMem := []
  interlocks : Nat := 0
  deriving DecidableEq, Repr, Inhabited

/-- A cross-fade in progress: outputs already formed, length, target bank (R167). -/
structure Fade where
  k : Nat
  len : Nat
  target : Bool
  deriving DecidableEq, Repr, Inhabited

/-- The measurement chain of one bundle (R159 to R170). -/
structure Meas where
  /-- taps written by BND_MEAS_COEF, by 64 × bank + index; unwritten taps are the vendor's (R165, log 12) -/
  taps : Store (Option (BitVec 32)) := []
  active : Bool := false
  fade : Option Fade := none
  queued : Option (Bool × Nat) := none
  /-- the sinc stage: its integrators, the values that its combs took at the previous output, modulator periods since the
  filter was cleared, whether an input of this conversion period was out of range (R159, R161) -/
  sums : List Rat := []
  combs : List Rat := []
  taken : Nat := 0
  outside : Bool := false
  /-- sinc outputs, in codes, that no chain output has used yet, oldest first, with their OVERRANGE -/
  waiting : List (Rat × Bool) := []
  /-- settled sinc outputs since the synchronising reset, newest first, at most 64: the FIR's history -/
  hist : List Rat := []
  /-- sinc outputs used since the synchronising reset -/
  sincN : Nat := 0
  outN : Nat := 0
  /-- bank that becomes active at the next output, the FIR being bypassed (R167) -/
  instant : Option Bool := none
  syncTime : Nat := 0
  writeCount : Nat := 0
  syncCount : Nat := 0
  ring : Store Word := []
  deriving DecidableEq, Repr, Inhabited

/-! ## Timebase and Warp (R178 to R207) -/

/-- A scheduled or received event that has not reached its count (R198, R199). -/
structure Sched where
  type : Nat
  group : Nat
  time : Nat
  deriving DecidableEq, Repr, Inhabited

/-- One Warp link's status (R207): 0 is Warp-in, 1 to 4 are WO0 to WO3. -/
structure WarpLink where
  signal : Bool := false
  locked : Bool := false
  lost : Bool := false
  peerAligned : Bool := false
  masterHoldover : Bool := false
  depthExceeded : Bool := false
  errors : Nat := 0
  peerDepth : Nat := 0
  /-- last event set acted on, to ignore its duplicate (R190) -/
  last : Option WarpSet := none
  /-- time code sets with a bad CRC since the last good one (R193) -/
  bad : Nat := 0
  /-- TIME of the last good time code set, or echo at a Warp-out (R193; log 143) -/
  heard : Nat := 0
  deriving DecidableEq, Repr, Inhabited

structure Timebase where
  state : Nat := 0
  /-- vernier steps within the TIME tick (R15, R194) -/
  frac : Nat := 0
  /-- CFG has moved to ROOT/64 (R181) -/
  cfgOnRoot : Bool := false
  /-- synthesizer (R203) -/
  synth : Nat := 0
  /-- TIME has started since main-rail power-up or RESET_N (R182) -/
  started : Bool := false
  sched : List Sched := []
  /-- t3 − t2 of the time code set numbered SEQ, for its LOOP (R194) -/
  turns : Store Nat := []
  /-- SEQ and t2 of the time code sets whose echo is still to be sent (R194) -/
  echoes : List (Nat × Nat) := []
  /-- TIME of the time code set sent with each SEQ (R189, R194) -/
  codes : Store Nat := []
  /-- SEQ of the next time code set sent (R189) -/
  codeSeq : Nat := 0
  /-- LOOP_SEQ and LOOP of each Warp-out (R189, R194) -/
  loops : Store (Nat × Nat) := []
  /-- ROOT is re-locking to Warp-in, and the Warp-outs are quiet (R201) -/
  relock : Bool := false
  links : Store WarpLink := []
  /-- SEQ of the next event set sent (R189) -/
  txSeq : Nat := 0
  /-- offsets after correction, newest first, at most 64 (R194) -/
  offsets : List Int := []
  /-- D_DN in fs (R194) -/
  delay : Int := 0
  /-- outputs quieted by injection, and `elapsed` at which each sends again (R541) -/
  quiet : List (Fin 4) := []
  quietTill : Store Nat := []
  /-- fixture measurement in progress, and `elapsed` at its write (R197) -/
  charOut : Option (Fin 4) := none
  charSince : Nat := 0
  deriving DecidableEq, Repr, Inhabited

/-! ## Power (R512 to R521) -/

/-- Phases of R514 and R515. -/
inductive SeqPhase where
  | off | step (k : Fin 8) | release | on | abort | hold | down (k : Fin 8)
  deriving DecidableEq, Repr, Inhabited

structure RimState where
  /-- RIM_VIN is valid and the Rim has started -/
  powered : Bool := true
  seq : SeqPhase := .on
  /-- `elapsed` at the start of that phase, at the latest accepted POWER_UP, and when the rails were last off (R514 to R517) -/
  since : Nat := 0
  upSince : Nat := 0
  offAt : Nat := 0
  en : BitVec 8 := 0
  pg : BitVec 8 := 0
  /-- internal main reset (R514, R515) -/
  mainReset : Bool := false
  /-- a thermal power-down waits for its abort (R516) -/
  thermalOff : Bool := false
  /-- the last power-down was thermal (R517) -/
  thermalDown : Bool := false
  /-- step at which the last sequence failed (R527) -/
  failedStep : Option (Fin 8) := none
  /-- link of the management line (R503) -/
  link : Nat := 0
  rx : Nat := 0
  rxDropped : Nat := 0
  tx : Nat := 0
  evDropped : Nat := 0
  /-- cause logged at the next Rim start-up (R516) -/
  lineLost : Bool := false
  deriving DecidableEq, Repr, Inhabited

/-- Thermal sampling (R521). -/
structure Thermal where
  sensors : List (BitVec 16) := []
  /-- consecutive samples of each sensor at or above 115 °C -/
  hot : List Nat := []
  warn : Bool := false
  overTemp : Bool := false
  underTemp : Bool := false
  shutdown : Bool := false
  /-- a sample has been taken since RESET_N -/
  sampled : Bool := false
  /-- quadrants in WARN, OVER_TEMP, UNDER_TEMP (R528) -/
  qWarn : List Bool := [false, false, false, false]
  deriving DecidableEq, Repr, Inhabited

/-! ## Internal fault injection (R539 to R541) -/

structure Inject where
  state : Nat := 0
  /-- 0x5A was the last value written to DEV_IJ_UNLOCK, and `elapsed` at that write; `elapsed` at the unlock (R539) -/
  first : Bool := false
  firstAt : Nat := 0
  openedAt : Nat := 0
  left : Nat := 0
  /-- `elapsed` at which the next injection falls (R540) -/
  due : Nat := 0
  /-- the next event of a class other than 10 is recorded -/
  watch : Bool := false
  /-- next management frames that the Rim discards or takes as failing their checksum -/
  rxDrop : Nat := 0
  txDrop : Nat := 0
  corrupt : Nat := 0
  /-- injections that wait for the next set, granule or flit of their target, as (target, unit) -/
  armed : List (Nat × Nat) := []
  deriving DecidableEq, Repr, Inhabited

/-! ## PCIe (R490 to R501) -/

/-- A service slot of BAR0 (R491, R492). -/
structure Slot where
  /-- 0 IDLE, 1 BUSY, 2 DONE -/
  state : Nat := 0
  reply : List Byte := []
  /-- BLOCK_READ segments not yet released -/
  segments : List (List Byte) := []
  vector : BitVec 8 := 0
  deriving DecidableEq, Repr, Inhabited

/-- A DMA descriptor (R496). -/
structure Desc where
  hostAddr : Nat := 0
  devAddr : Nat := 0
  len : Nat := 0
  op : Nat := 0
  flags : Nat := 0
  cookie : Nat := 0
  /-- host address of the descriptor in its ring -/
  index : Nat := 0
  /-- result already known, for a loader chunk or a format error -/
  result : Option Nat := none
  deriving DecidableEq, Repr, Inhabited

/-- A DMA queue (R495). -/
structure Queue where
  base : Nat := 0
  size : Nat := 0
  ctrl : BitVec 32 := 0
  tail : Nat := 0
  head : Nat := 0
  halted : Bool := false
  err : Nat := 0
  completed : Nat := 0
  /-- descriptors started and not completed, oldest first -/
  inFlight : List Desc := []
  /-- ENABLE was cleared while a descriptor is in progress -/
  closing : Bool := false
  deriving DecidableEq, Repr, Inhabited

structure Pcie where
  slots : Store Slot := []
  queues : Store Queue := []
  /-- MSI-X vectors unmasked by the host, and pending bits (R500) -/
  unmasked : BitVec 64 := 0
  pendingBits : BitVec 64 := 0
  evtBase : Nat := 0
  evtSize : Nat := 0
  evtEnable : Bool := false
  evtHead : Nat := 0
  evtTail : Nat := 0
  evtSeq : Nat := 0
  deriving DecidableEq, Repr, Inhabited

/-! ## Serial lanes (R233 to R265) -/

/-- A pattern checker (R253). -/
structure Checker where
  locked : Bool := false
  /-- register, or for SSPRQ the next place -/
  reg : Nat := 0
  /-- bits that have seeded it -/
  seeded : Nat := 0
  /-- consecutive error-free bits since -/
  good : Nat := 0
  /-- bits and errors of the window -/
  window : Nat := 0
  bad : Nat := 0
  /-- PORT_SER_BITS and ERRORS -/
  bits : Nat := 0
  errors : Nat := 0
  deriving DecidableEq, Repr, Inhabited

/-- A symbol given to the FFE and not yet launched: its instant, its index, the taps in force at it (R239). -/
structure TxSymbol where
  at' : Nat
  sym : Nat
  taps : List Int
  deriving DecidableEq, Repr, Inhabited

/-- The transmit side of a lane (R237 to R242, R250 to R252). -/
structure LaneTx where
  /-- taps in force: PRE2, PRE1, POST1, POST2; and those of an accepted write with its WORD cycle (R240) -/
  taps : List Int := [0, 0, 0, 0]
  next : Option (Nat × List Int) := none
  /-- PRBS register or SSPRQ place, once seeded (R252) -/
  gen : Option Nat := none
  /-- coded bits that wait, scrambler register, running disparity positive, last precoded symbol -/
  bits : List Bool := []
  scr : Option Nat := none
  rd : Bool := false
  prev : Nat := 0
  /-- the two symbols launched last, newest last; `none` is idle -/
  past : List (Option Nat) := [none, none]
  ahead : List TxSymbol := []
  /-- instant at which the symbols given end, in vernier steps -/
  stop : Nat := 0
  deriving DecidableEq, Repr, Inhabited

/-- The receive side of a lane (R243 to R253). -/
structure LaneRx where
  /-- an accepted PORT_SER_RXEQ write with its WORD cycle, until it is in force (R244) -/
  next : Option (Nat × List Byte) := none
  /-- slicer offset trims in volts (R244) -/
  trims : List Rat := []
  /-- voltages sensed, newest first, for the CTLE; decisions as places from −1 to 1, newest first, for the DFE -/
  sensed : List Rat := []
  decided : List Rat := []
  /-- last received symbol before precoding is undone (R251) -/
  prev : Nat := 0
  /-- symbols received since the first lock of the step (R244) -/
  symbols : Nat := 0
  /-- received bits that wait, descrambler register, running disparity positive -/
  bits : List Bool := []
  scr : Option Nat := none
  rd : Bool := false
  /-- characters or blocks decoded toward the next RX FIFO entry: K or header, and data (R404) -/
  chars : List (Nat × Nat) := []
  /-- the character before was COM, which begins an ordered set (R246) -/
  com : Bool := false
  /-- entries that found the RX FIFO full and are not counted yet (R404) -/
  lost : Nat := 0
  /-- instant of the last symbol received, in vernier steps -/
  upTo : Nat := 0
  check : Checker := {}
  deriving DecidableEq, Repr, Inhabited

/-- One lane beside PORT_SER_CONFIG, TXEQ, RXEQ, TIMING and PRBS. -/
structure Lane where
  signal : Bool := false
  locked : Bool := false
  /-- the lane has locked in this step (R244, R246, R249) -/
  everLocked : Bool := false
  markerAligned : Bool := false
  groupAligned : Bool := false
  deskewFail : Bool := false
  adaptDone : Bool := false
  superseded : Bool := false
  txUnderrun : Bool := false
  fill : Nat := 0
  deskew : Nat := 0
  lockLosses : Nat := 0
  codeErrors : Nat := 0
  tx : LaneTx := {}
  rx : LaneRx := {}
  /-- PB+0x1D to 0x1F as the Cut phase froze them, until the next ARM (R258) -/
  frozen : Option (Nat × Nat × Nat) := none
  /-- WORD cycle of the last dictionary and fabric writes of the taps (R240) -/
  eqDict : Option Nat := none
  eqFabric : Option Nat := none
  /-- fabric interface: entries of the TX and RX FIFO, oldest first, and the counts of QD_LANE_STATUS (R404, R405) -/
  txFifo : List (BitVec 288) := []
  rxFifo : List (BitVec 288) := []
  rxOverflow : Nat := 0
  eqReject : Nat := 0
  deriving DecidableEq, Repr, Inhabited
/-! ## Contexts (R267 to R271) -/

/-- STATE of a context (R269). -/
inductive CtxSt where
  | free | loaded | ready | waiting | done | aborted | lost | fault
  deriving DecidableEq, Repr, Inhabited

/-- WAIT_CAUSE of a context (R269). -/
inductive WaitCause where
  | none | transaction | timer | drain | fabric | slot | halting
  deriving DecidableEq, Repr, Inhabited

/-- FAULT_CODE of a context (R269). -/
inductive CtxFault where
  | none | illegalOpcode | illegalField | pcRange | ckptRange | spawnState | vectorEnd | programData
  deriving DecidableEq, Repr, Inhabited

/-- The row accumulator of a context: bank, row, the runs as (start, length), and beats entered (R339). -/
structure RowAcc where
  bank : Nat
  x : Nat
  run0 : Option (Nat × Nat) := none
  run1 : Option (Nat × Nat) := none
  beats : Nat := 0
  step : Nat := 0
  /-- TIME and vernier steps of the last compare included -/
  time : Nat := 0
  sub : Nat := 0
  deriving DecidableEq, Repr, Inhabited

/-- A checkpoint being written: its first granule's byte address and its 128 bytes (R296, R297). -/
structure CkptWrite where
  addr : Nat
  bytes : List Byte
  deriving DecidableEq, Repr, Inhabited

/-- A context: the fields of its image (R268) and what the engine keeps beside them. -/
structure Context where
  st : CtxSt := .free
  cause : WaitCause := .none
  faultCode : CtxFault := .none
  fail : Bool := false
  d0 : BitVec 64 := 0
  d1 : BitVec 64 := 0
  seed : BitVec 32 := 0
  ckptPtr : BitVec 32 := 0
  yMax : BitVec 16 := 0
  ckptSeq : BitVec 16 := 0
  pc : BitVec 24 := 0
  retPc : BitVec 24 := 0
  lc0 : BitVec 32 := 0
  lc1 : BitVec 32 := 0
  lc2 : BitVec 32 := 0
  lc3 : BitVec 32 := 0
  x : BitVec 24 := 0
  y : BitVec 16 := 0
  bank : BitVec 8 := 0
  xMax : BitVec 24 := 0
  bankMax : BitVec 8 := 0
  /-- WORD cycles left of a TIMER wait (R283) -/
  timer : Nat := 0
  /-- checkpoint writes in progress, oldest first -/
  ckpts : List CkptWrite := []
  rows : Option RowAcc := none
  deriving DecidableEq, Repr, Inhabited

/-! ## A site's run (R211 to R216, R275 to R294) -/

/-- A step's snapshot, taken at the arm (R25): its entry and its descriptors. -/
structure StepRec where
  entry : List Byte := []
  colPlan : List Byte := []
  pinMaps : List Byte := []
  sigMap : List Byte := []
  timing : List Byte := []
  ucode : List Byte := []
  deriving DecidableEq, Repr, Inhabited

/-- What governs a compare, from its instruction (R335), and what its record carries (R338). -/
structure Governs where
  cid : Nat
  step : Nat := 1
  mode : Nat := 0
  masks : Nat := 0
  x : Nat := 0
  y : Nat := 0
  bank : Nat := 0
  deriving DecidableEq, Repr, Inhabited

/-- One cycle of the formatter queue (R213, R287): what each column's code is formed from. -/
structure Cycle where
  gov : Governs
  tset : Nat
  pmap : Nat
  hold : Bool
  w : BitVec 64
  e : BitVec 64
  de : Bool
  ce : Bool
  /-- stored vector that its VECTOR columns take -/
  vec : Option Nat := none
  /-- first cycle of an instruction with CAL_BOUNDARY (R278) -/
  boundary : Bool := false
  deriving DecidableEq, Repr, Inhabited

/-- One WORD cycle of GENERATOR symbols (R288): data and expected words, with their second words. -/
structure SerWord where
  gov : Governs
  w : BitVec 64
  w2 : BitVec 64
  e : BitVec 64
  e2 : BitVec 64
  ce : Bool
  /-- every lane repeats its symbols of the previous word (R287) -/
  hold : Bool := false
  /-- it begins a boundary (R278) -/
  boundary : Bool := false
  /-- once it is driven: launch of symbol 0 of the stream in vernier steps, before TX_SKEW, and the number of its own first
  symbol (R238) -/
  origin : Nat := 0
  first : Nat := 0
  /-- expected symbols of each comparing lane (R247) -/
  exps : List (Nat × List Nat) := []
  deriving DecidableEq, Repr, Inhabited

/-- One port's strobes of a cycle that are still to be settled: what its timing set and code give, the instants of S0 and S1
in vernier steps, and what the DUT presents at them (R222, R229). -/
structure StrobeItem where
  port : Nat
  format : Nat
  kind : Nat
  /-- cycle code; none for a parked port -/
  code : Option Nat
  s0 : Nat
  s1 : Nat
  obs : PortObs
  deriving DecidableEq, Repr, Inhabited

/-- The strobes of one cycle (R336). -/
structure CycleBeat where
  gov : Governs
  items : List StrobeItem
  deriving DecidableEq, Repr, Inhabited

/-- The cycle in progress: its timing set, the ports that it maps, and its end in vernier steps (R231, R232). -/
structure OpenCycle where
  tset : Nat
  mapped : List Nat
  stop : Nat
  deriving DecidableEq, Repr, Inhabited

/-- The run of a site. -/
structure Run where
  steps : List StepRec := []
  /-- step in force, 1-based; 0 before the first -/
  step : Nat := 0
  /-- step start instant, and TIME spent PAUSED since (R294) -/
  stepStart : Nat := 0
  paused : Nat := 0
  /-- launch of cycle 0 of the step (R212) -/
  cycle0 : Nat := 0
  /-- the step start instant is known: in a later step, an instruction has issued (R212) -/
  begun : Bool := false
  /-- cycle 0 has begun -/
  cycling : Bool := false
  /-- cycle in progress, and cycles whose strobes have not all come, oldest first -/
  current : Option OpenCycle := none
  beats : List CycleBeat := []
  /-- start of the next cycle in vernier steps (R211) -/
  nextCycle : Nat := 0
  cycles : List Cycle := []
  /-- code of each column in the previous cycle, 0 to 63 (R287) -/
  codes : Store Nat := []
  words : List SerWord := []
  /-- instant from which WORD cycles of symbols count, in vernier steps, and the WORD cycles driven since (R238) -/
  wordOrigin : Nat := 0
  wordCount : Nat := 0
  /-- words of instructions that have been taken since (R247) -/
  wordTaken : Nat := 0
  /-- the word driven last, which HOLD repeats -/
  lastWord : Option SerWord := none
  /-- WORD cycles driven whose compare positions have not come yet -/
  expects : List SerWord := []
  /-- a SERIAL port has been given symbols in this step (R242) -/
  symbols : Bool := false
  /-- next stored vector (R287) -/
  vec : Nat := 0
  lastCid : Option Nat := none
  hold : Bool := false
  /-- instruction granules in the pattern cache, by granule address; data and whether uncorrectable (R291) -/
  cache : Store (Option (List Byte × Bool)) := []
  /-- first granules of the lines held, oldest first -/
  lines : List Nat := []
  /-- TRIG_TOGGLE line of the fabric interface (R278, R403) -/
  trig : Bool := false
  /-- a boundary for calibration has been reached and no cycle or symbol has followed (R357) -/
  boundary : Bool := false
  deriving DecidableEq, Repr, Inhabited

/-- The engine of one bundle. -/
structure Engine where
  /-- BND_PE_ISSUED -/
  issued : Nat := 0
  /-- contexts staged by a LOAD, FREE or RESTORE that is not answered yet (R273) -/
  staged : List (Nat × Context) := []
  deriving DecidableEq, Repr, Inhabited

/-! ## Capture (R336 to R350) -/

/-- A fail record as formed, without its SEQ (R337). -/
structure Record where
  time : Nat := 0
  sub : Nat := 0
  cid : Nat := 0xFFFF
  x : Nat := 0
  y : Nat := 0
  bank : Nat := 0
  ports : Nat := 0
  exp : Nat := 0
  act0 : Nat := 0
  act1 : Nat := 0
  pos : Nat := 0
  cont : Bool := false
  step : Nat := 0
  type : Nat := 0
  /-- runs of a ROW record: its bytes 18–25 -/
  runs : List Nat := []
  deriving DecidableEq, Repr, Inhabited

/-- A context's tally (R346). -/
structure Tally where
  fails : Nat := 0
  x : Nat := 0
  y : Nat := 0
  bank : Nat := 0
  step : Nat := 0
  rows : Nat := 0
  deriving DecidableEq, Repr, Inhabited

/-- The capture unit of one bundle. -/
structure Capture where
  fifo : List Record := []
  formed : Nat := 0
  fifoDrops : Nat := 0
  fifoPeak : Nat := 0
  tally : Store Tally := []
  /-- checkpoint index: CKPT_PTR of each context (R536) -/
  index : Store (BitVec 32) := []
  deriving DecidableEq, Repr, Inhabited

/-- Raw capture of one port (R347): bytes stored of its segment, bits of a serial port's last partial byte. -/
structure Raw where
  active : Bool := false
  full : Bool := false
  bytes : Nat := 0
  /-- symbols' bits not yet a whole byte -/
  part : Nat := 0
  partBits : Nat := 0
  deriving DecidableEq, Repr, Inhabited

/-- The ring of a site, in the capture unit of its lowest bundle (R342 to R345). -/
structure Ring where
  write : Nat := 0
  /-- records with a count that are not committed, by count -/
  flying : List (Nat × List Byte) := []
  dropped : Nat := 0
  /-- records lost since the last marker, and the TIME of the first -/
  lost : Nat := 0
  lostTime : Nat := 0
  incomplete : Bool := false
  full : Bool := false
  wrapped : Bool := false
  rawFull : Bool := false
  ended : Bool := false
  lostAtAbort : Nat := 0
  /-- END marker that waits for space: its argument, its step and the TIME of the end of the run (R335, R345) -/
  endDue : Option (Nat × Nat × Nat) := none
  /-- count of the END marker that is written and not committed -/
  endCount : Option Nat := none
  deriving DecidableEq, Repr, Inhabited

/-! ## The command scheduler (R308 to R328) -/

/-- A transaction of the queue: its slot, the generator's state at issue and what governs its compares (R289,
R309). -/
structure Txn where
  gov : Governs
  cmd : Nat
  rank : Nat := 0
  arg : Nat := 0
  bank : Nat := 0
  x : Nat := 0
  y : Nat := 0
  lfsr : Bool := false
  w : BitVec 64 := 0
  e : BitVec 64 := 0
  seed : BitVec 32 := 0
  invert : Bool := false
  expD1 : Bool := false
  /-- injection applied to it: 0 none, 1 DROP, 2 CORRUPT, 4 DELAY, 8 REORDER (R327) -/
  inject : Nat := 0
  /-- CK periods of a DELAY, and the earliest edge that it counts from, once an edge has found it free to issue -/
  delay : Nat := 0
  ready : Option Int := none
  /-- its injection trigger has not been evaluated yet (R326) -/
  fresh : Bool := false
  /-- instant of its arrival in vernier steps (R309) -/
  since : Nat := 0
  /-- it would violate the bank model without any injection (R327) -/
  bad : Bool := false
  /-- pattern of a command that a training sequence sent (R320) -/
  pattern : Option Nat := none
  deriving DecidableEq, Repr, Inhabited

/-- The bank model (R311): open row + 1 of a bank by 32 × rank + bank, ranks in power-down and in self-refresh. -/
structure Banks where
  rows : Store Nat := []
  down : List Nat := []
  refresh : List Nat := []
  deriving DecidableEq, Repr, Inhabited

/-- A command sent, for the timing table: its CK edge in the present step's count, rank and bank (R310 to R315). -/
structure Sent where
  ck : Int
  cmd : Nat
  rank : Nat
  bank : Nat
  arg : Nat := 0
  /-- timing table of the step that sent it, where a later step has replaced it (R314) -/
  old : List Byte := []
  /-- what governs it, its row and burst as X and Y, where an instruction supplied it (R324, R338) -/
  gov : Option Governs := none
  /-- its EDC or read CRC is inverted before the check (R327) -/
  forced : Bool := false
  deriving DecidableEq, Repr, Inhabited

/-- A read or MRR whose burst is expected (R313). -/
structure Burst where
  txn : Txn
  ck : Int
  deriving DecidableEq, Repr, Inhabited

/-- A refresh sequence that the scheduler inserts (R318). -/
structure Insert where
  rank : Nat
  /-- bank that a REFSB names; none for REF -/
  bank : Option Nat := none
  /-- older transactions of the rank that a forced refresh waits for -/
  after : Nat := 0
  forced : Bool := false
  /-- commands left once it has begun, as (command, bank, row) -/
  left : Option (List (Nat × Nat × Nat)) := none
  deriving DecidableEq, Repr, Inhabited

/-- An open sweep of a training sequence (R321). -/
structure Sweep where
  target : Nat
  points : Nat
  step : Nat
  /-- next word after SWEEP -/
  body : Nat
  point : Nat := 0
  /-- offsets of its ports before it, and the (port, point) pairs at which a compare failed (R321) -/
  before : List (Nat × Int) := []
  bad : List (Nat × Nat) := []
  deriving DecidableEq, Repr, Inhabited

/-- A training sequence in progress (R319 to R321). -/
structure Training where
  number : Nat
  /-- transaction of a TRAIN slot; none under INIT -/
  txn : Option Txn := none
  /-- slots that a built-in sequence still sends -/
  todo : List Nat := []
  /-- microcode: next word, loop counts by word, sweeps innermost first, pattern, CK periods of a WAIT -/
  pc : Nat := 0
  loops : Store Nat := []
  sweeps : List Sweep := []
  pattern : Nat := 0
  waiting : Nat := 0
  /-- instant at which its WAIT began, in vernier steps -/
  waitAt : Nat := 0
  deriving DecidableEq, Repr, Inhabited

/-- The scheduler of a site. -/
structure Scheduler where
  /-- transactions waiting, oldest first, at most 64 with the window's -/
  queue : List Txn := []
  /-- transactions collected by REORDER, in arrival order (R327) -/
  window : List Txn := []
  banks : Banks := {}
  /-- the bank model as it would be without injection, after the transactions that have arrived (R327) -/
  shadow : Banks := {}
  /-- commands sent, newest first -/
  sent : List Sent := []
  /-- refresh debt by 32 × rank + bank; an all-bank debt at bank 0 (R317) -/
  debt : Store Int := []
  /-- instant of CK edge 0 of the run's first step, and of the last rise of each rank's debt, in vernier steps (R317) -/
  edge0 : Nat := 0
  rises : Store Rat := []
  /-- instant at which the REORDER window opened (R327) -/
  windowAt : Nat := 0
  inserts : List Insert := []
  training : Option Training := none
  /-- bursts expected, oldest first -/
  bursts : List Burst := []
  counts : List Nat := [0, 0, 0, 0, 0, 0, 0, 0]
  last : Nat := 0
  armEntry : Nat := 0
  armRule : Nat := 0
  /-- BND_DUT_ERRORS: CA_PARITY_ALERTS, WCRC_ERRORS, RCRC_EDC_ERRORS, MRR_MISMATCH -/
  errors : List Nat := [0, 0, 0, 0]
  /-- instant up to which CK and WCK have been driven, in vernier steps (R305) -/
  clocked : Nat := 0
  /-- DUT reset has been released by INIT (R305) -/
  released : Bool := false
  deriving DecidableEq, Repr, Inhabited

/-- Trained offsets of a pin (R321, R329). -/
structure Trained where
  tx : Int := 0
  rx : Int := 0
  eye : Nat := 0
  state : Nat := 0
  seq : Nat := 0
  deriving DecidableEq, Repr, Inhabited

/-- DUT-side injection of a lead bundle beside BND_INJ_CONFIG and BND_INJ_CONTROL (R325 to R330). -/
structure DutInject where
  hits : Nat := 0
  lfsr : BitVec 16 := 0
  oneShot : Bool := false
  fired : Nat := 0
  violations : Nat := 0
  deriving DecidableEq, Repr, Inhabited

/-! ## Calibration (R352 to R387) -/

/-- A point of the ledger, without the class that its set gives (R367). -/
structure Point where
  trims : Trims := {}
  temp : Int := 0
  source : Nat := 0
  quality : List Byte := []
  time : Nat := 0
  deriving DecidableEq, Repr, Inhabited

/-- One port's and class's set as the engine holds it (R369), with the FLAGS it is committed under. -/
structure CalSet where
  points : List Point := []
  flags : Nat := 0
  time : Nat := 0
  deriving DecidableEq, Repr, Inhabited

/-- One copy of a set in the ledger (R374). -/
structure SetCopy where
  gen : Nat := 0
  valid : Bool := false
  set : CalSet := {}
  deriving DecidableEq, Repr, Inhabited

/-- The two copies, A and B. -/
structure SetPair where
  a : SetCopy
  b : SetCopy
  deriving DecidableEq, Repr, Inhabited

/-- What a port takes its trims from (R366, R368, R370). -/
structure InForce where
  trims : Trims := {}
  temp : Int := 0
  cls : Nat := 0
  source : Nat := 0
  /-- no valid set in the class in force, taken from another class, temperature outside the points -/
  noSet : Bool := true
  nearest : Bool := false
  outside : Bool := false
  deriving DecidableEq, Repr, Inhabited

/-- Calibration state of one port. -/
structure PortCal where
  held : Bool := false
  /-- the bye-stake serves the port's pin in a cycle -/
  replaced : Bool := false
  substituted : Bool := false
  failed : Bool := false
  /-- triggers pending: 1 TEMPERATURE, 2 QUALITY, 3 NO_SET, 4 HOST, 5 CLEAR -/
  pending : List (Fin 6) := []
  /-- PORT_CAL_REQUEST -/
  request : Nat := 0
  trigger : Nat := 0
  internalStim : Bool := false
  lowDensity : Bool := false
  /-- PORT_CAL_QUALITY and PORT_CAL_HIST; empty reads as all zero -/
  quality : List Byte := []
  hist : List Byte := []
  inForce : InForce := {}
  /-- recomputed trims that wait for the site's next boundary (R366) -/
  next : Option InForce := none
  deriving DecidableEq, Repr, Inhabited

/-- A cycle of one bundle (R358, R361): the slot 0–7, or 8 for the bye-stake itself; its PHASE code. -/
structure CalCycle where
  slot : Nat
  phase : Nat
  live : Bool
  internal : Bool := false
  /-- started from a survey's statistics (R372) -/
  surveyed : Bool := false
  stats : Option ListenStats := none
  /-- triggers that started it and the request among them, which an early end puts back (R382) -/
  kinds : List (Fin 6) := []
  request : Nat := 0
  /-- Prepare has ended and Listen waits for DEV_CAL_HOLD -/
  ready : Bool := false
  /-- TIME count at which its phase began -/
  since : Nat := 0
  deriving DecidableEq, Repr, Inhabited

/-- Calibration state of one bundle. -/
structure BundleCal where
  cycle : Option CalCycle := none
  lastResult : Nat := 0
  byeFailed : Bool := false
  /-- latest temperature sample, 1/16 °C; none before the first -/
  temp : Option Int := none
  /-- slot that a survey listens to, and the slot that the last survey listened to (R372) -/
  surveying : Option Nat := none
  surveyLast : Nat := 7
  /-- TIME count at which the survey listen began -/
  surveySince : Nat := 0
  /-- statistics of a survey that raised QUALITY, by slot (R372) -/
  survey : Option (Nat × ListenStats) := none
  deriving DecidableEq, Repr, Inhabited

/-- The engine in the hub. -/
structure CalEngine where
  /-- VREF_EXT is the reference in use (R353) -/
  vref : Bool := false
  /-- sets held by the engine, by 4 × port + class -/
  sets : Store (Option CalSet) := []
  /-- TEMP of the latest point formed since RESET_N, by 4 × port + class (R354) -/
  latest : Store (Option Int) := []
  /-- sets that wait for a place in the Rim's queue, by 4 × port + class, oldest first (R373, log 159) -/
  handing : List (Nat × CalSet) := []
  loaded : Bool := false
  deriving DecidableEq, Repr, Inhabited

/-- The Rim's ledger (R373 to R376, R532). -/
structure Ledger where
  /-- set pairs by 4 × port + class; unlisted, the shipment contents (log 6) -/
  pairs : Store SetPair := []
  /-- sets that wait for a commit, by 4 × port + class, oldest first -/
  queue : List (Nat × CalSet) := []
  /-- the set being committed, to copy B when set -/
  committing : Option (Nat × CalSet × Bool) := none
  /-- log entries written, by sequence modulo 4,096; empty where none was -/
  log : Store (List Byte) := []
  next : Nat := 0
  first : Nat := 0
  deriving DecidableEq, Repr, Inhabited

/-- The shipment points (R376). -/
def shipmentPoints : List Point := [{ temp := 400 }, { temp := 880 }, { temp := 1360 }]

/-- The ledger's contents at shipment: copy A of every set valid with generation 1, copy B all zero (R376). -/
def shipmentPair : SetPair :=
  { a := { gen := 1, valid := true, set := { points := shipmentPoints } }, b := {} }

/-! ## Fabric (R388 to R416) -/

/-- A clock tree (R392 to R396). -/
structure Tree where
  /-- divider in force -/
  src : Fin 4 := 0
  /-- divider that a switch in progress goes to -/
  switch : Option (Fin 4) := none
  /-- fabric select lines and fabric reset line -/
  lines : Fin 4 := 0
  fabReset : Bool := false
  /-- the user reset is asserted at the tree's flip-flops, and rising edges since both its sources cleared (R396) -/
  reset : Bool := false
  edges : Nat := 0
  deriving DecidableEq, Repr, Inhabited

/-- States of a region (R444). -/
inductive RegionSt where
  | empty | wiping | receiving | upsett | ready
  deriving DecidableEq, Repr, Inhabited

/-- A region of a quadrant (R390, R432 to R439). -/
structure Region where
  st : RegionSt := .empty
  /-- border latches closed -/
  closed : Bool := true
  /-- user flip-flops held in global set/reset -/
  gsr : Bool := true
  /-- queue-RAM writes enabled -/
  writes : Bool := false
  /-- trees reach the region -/
  clocks : Bool := false
  /-- utility I/O and personality connections released -/
  outputs : Bool := false
  /-- rising edges of each tree until its flip-flops leave INIT (R433) -/
  lags : List Nat := []
  /-- what each signal that leaves the region was when the latches closed, signal s in bit s (R438) -/
  latched : Nat := 0
  deriving DecidableEq, Repr, Inhabited

/-- A queue controller (R398 to R401). RAM 0 is the lower one, RAM 1 the upper. -/
structure QueueCtl where
  /-- entries that were written since the upsett, RAM k's entry e at 128k + e; the others hold their initial contents -/
  mem : Store (Option (BitVec 288)) := []
  /-- what the last read of each side delivered, whether it was corrected on the latest edge, whether it is poisoned -/
  out0 : BitVec 288 := 0
  out1 : BitVec 288 := 0
  fixed0 : Bool := false
  fixed1 : Bool := false
  poison0 : Bool := false
  poison1 : Bool := false
  /-- FIFO: entries written and read, and the edges of its own clock after which each side learns of an operation of the
  other -/
  writes : Nat := 0
  reads : Nat := 0
  toWrite : List Nat := []
  toRead : List Nat := []
  deriving DecidableEq, Repr, Inhabited

/-- The trace of a quadrant (R411). -/
structure TraceBuf where
  /-- QD_TRACE_CTL of the ARM -/
  ctl : Nat := 0
  armed : Bool := false
  triggered : Bool := false
  done : Bool := false
  /-- samples, newest first, at most 4,096 -/
  samples : List (BitVec 16) := []
  taken : Nat := 0
  /-- samples taken when the trigger sample came -/
  trigAt : Nat := 0
  trigTime : Nat := 0
  /-- TRIG_TOGGLE of the chosen bundle at the previous sample -/
  toggle : Bool := false
  /-- FORCE is written: the next sample is the trigger -/
  forced : Bool := false
  /-- TIME of the newest sample -/
  last : Nat := 0
  deriving DecidableEq, Repr, Inhabited

/-- Power of a quadrant's domain (R518 to R520). -/
inductive QuadPower where
  | on | closing | off | switching | restoring
  deriving DecidableEq, Repr, Inhabited

/-- A quadrant. -/
structure Quad where
  power : QuadPower := .on
  /-- `elapsed` at the start of that phase, and at the latest accepted POWER_UP (R519, R520) -/
  since : Nat := 0
  upSince : Nat := 0
  /-- trees by number; tree r comes up on divider r (R416) -/
  trees : Store Tree := []
  /-- ratios being brought into force (R395) -/
  divNext : Option Nat := none
  regions : Store Region := []
  trace : TraceBuf := {}
  /-- QD_PROBE_SEL in force, all zero when empty, and the writes of it that wait for an edge, each with the TIME count from which
  it may act (R410) -/
  probes : List Byte := []
  probeDue : List (Nat × List Byte) := []
  /-- K0 and K1 of the logic cells that do not hold their INIT (R388) -/
  cells : Store (Option (Bool × Bool)) := []
  /-- queue controllers by number (R398) -/
  ctls : Store QueueCtl := []
  /-- queue errors: controller m, counter k at 4m + k -/
  queueErr : Store Nat := []
  /-- requests of the fabric port that are outstanding (R407, R408) -/
  requests : List FabricReq := []
  protectedWrites : Nat := 0
  poisonedReads : Nat := 0
  uioMismatch : BitVec 16 := 0
  /-- last power-up failed -/
  failed : Bool := false
  /-- values that reads of a closed quadrant return, by entry key (R72) -/
  held : Store (Option Nat) := []
  deriving DecidableEq, Repr, Inhabited

/-! ## Configuration loader (R417 to R444) -/

/-- What a load writes: the device, or one region (R425, R437). -/
inductive LoadKind where
  | full
  | part (quad : QuadNo) (region : Fin 4)
  deriving DecidableEq, Repr, Inhabited

/-- How far a load is. -/
inductive LoadPhase where
  | wipe | receive | upsett
  deriving DecidableEq, Repr, Inhabited

/-- The stream parser (R420 to R424). -/
structure Parse where
  /-- bytes of the stream not parsed yet, and of a ciphertext block not complete yet -/
  buf : List Byte := []
  synced : Bool := false
  /-- every stream byte before the first TAG packet (R422) -/
  header : List Byte := []
  inBody : Bool := false
  devId : Bool := false
  keySel : Option Nat := none
  nonce : List Byte := []
  mask : BitVec 32 := 0
  ctl : BitVec 32 := 0
  /-- next block: LEN and tag, once its TAG packet is read -/
  tag : Option (Nat × List Byte) := none
  block : Nat := 0
  lastBlock : Bool := false
  /-- body bytes that authenticated and are not parsed yet -/
  body : List Byte := []
  /-- FADR; none past the last frame of Q3 -/
  fadr : Option Nat := some 0
  /-- CRC-32C register over the body bytes since the last CHECK packet -/
  crc : BitVec 32 := 0xFFFFFFFF
  /-- frames of the FDATA packet being read that are still to come -/
  frames : Nat := 0
  /-- BORDER settings received, by 4 × quadrant + region -/
  borders : Store (List Byte) := []
  upsett : Nat := 0xE4
  deriving DecidableEq, Repr, Inhabited

/-- A load in progress. -/
structure Load where
  kind : LoadKind
  phase : LoadPhase
  parse : Parse := {}
  /-- upsett steps performed, and `elapsed` when the last of them took effect or the upsett began (R432) -/
  steps : Nat := 0
  stepTime : Nat := 0
  /-- `elapsed` at the acceptance of the load and of each chunk (R428) -/
  chunkAt : Nat := 0
  deriving DecidableEq, Repr, Inhabited

/-- The loader, the frames and the keys. -/
structure Loader where
  load : Option Load := none
  /-- a full load's upsett has completed and the configuration has not been wiped -/
  loaded : Bool := false
  /-- frames by address; empty where blank -/
  frames : Store (List Byte) := []
  /-- VBAT key RAM, where it holds a valid key -/
  keyRam : Option (List Byte) := none
  /-- CFG_ERR_N is asserted -/
  errPin : Bool := false
  /-- shadow values that the design accepted since the load, by 256 × index + sub (R409) -/
  shadows : Store (Option Word) := []
  /-- the sentinel has completed a pass of an earlier configuration since RESET_N -/
  scanned : Bool := false
  /-- TIME count at which the sentinel began at the first frame, and the passes that it completed before (R440, R442) -/
  scanFrom : Nat := 0
  passes : Nat := 0
  /-- regions being wiped again after a failed partial load -/
  rewipe : List (QuadNo × Fin 4) := []
  deriving DecidableEq, Repr, Inhabited

/-- LOADING: a full load is in progress (R75, R425). -/
def Loader.loading (l : Loader) : Bool :=
  match l.load with
  | some w => w.kind == .full
  | none => false

/-! ## NoC and memory (R445 to R484) -/

/-- The on-chip network. -/
structure Noc where
  /-- tables A and B, by 64 × router + destination; unlisted, the default table (R452, R453) -/
  tableA : Store Byte := []
  tableB : Store Byte := []
  epoch : Bool := false
  /-- DEV_NOC_SWAP_STATE -/
  swap : Fin 3 := 0
  /-- `elapsed` at the start of that phase of a swap (R456) -/
  swapSince : Nat := 0
  /-- links down, as 4 × router + link (N, S, E, W); those that injection holds down and `elapsed` at which each retrains (R541);
  RETRIES by the same number -/
  down : List (Fin 96) := []
  held : List (Fin 96) := []
  heldTill : Store Nat := []
  retries : Store Nat := []
  faults : List (Fin 24) := []
  /-- `elapsed` when a link went down, by its number, and when a router failed, at 96 + router (R457) -/
  since : Store Nat := []
  deriving DecidableEq, Repr, Inhabited

/-- STATE of a memory channel (R484). -/
inductive ChanSt where
  | off | init | ready | erasure | isolated
  deriving DecidableEq, Repr, Inhabited

/-- A memory channel (R463 to R484). -/
structure Chan where
  st : ChanSt := .off
  /-- `elapsed` when its training began (R464) -/
  initSince : Nat := 0
  /-- CAUSE of QD_MEM_STATE -/
  cause : Nat := 0
  lane : Option (Fin 32) := none
  laneCorr : Store Nat := []
  corrected : Nat := 0
  uncorrectable : Nat := 0
  bytesRead : Nat := 0
  bytesWritten : Nat := 0
  /-- link CRC retries (R463) -/
  linkRetries : Nat := 0
  train : Store (BitVec 16) := []
  /-- TIME and lane of the attributed corrections, and TIME of the uncorrectable granules, of the last second (R479,
  R480) -/
  recent : List (Nat × Nat) := []
  recentBad : List Nat := []
  /-- next group of the scrub pass (R478) -/
  scrub : Nat := 0
  /-- a pass that SCRUB_NOW began runs (R481) -/
  scrubNow : Bool := false
  /-- a RETRAIN runs (R481) -/
  retraining : Bool := false
  deriving DecidableEq, Repr, Inhabited


/-! ## Sites and bundles -/

/-- SITE_STATE (R64). -/
inductive SiteSt where
  | none | ready | armed | running | paused | aborting | fault
  deriving DecidableEq, Repr, Inhabited

/-- An abort of a site that has not closed (R91). -/
structure AbortRec where
  cause : Nat
  time : Nat
  /-- `elapsed` when the abort began, from which the flush has 7.5 µs (R91) -/
  since : Nat := 0
  pin : Bool := false
  warp : Bool := false
  /-- scope of its ABORT_DONE: none inside a device-scope abort, else kind and unit -/
  scope : Option (Nat × Nat) := none
  /-- bundles with contexts that became LOST (R84), and those whose calibration it stopped (R95) -/
  lost : List Nat := []
  cal : List Nat := []
  deriving DecidableEq, Repr, Inhabited

structure Site where
  st : SiteSt := .none
  /-- ARM in validation, not yet answered (R31) -/
  validating : Option Rq := none
  /-- TIME count at which an accepted START takes effect (R187, R199) -/
  startAt : Option Nat := none
  /-- PAUSE accepted, takes effect at the next instruction issue (R83) -/
  pausing : Bool := false
  /-- TIME at which the pause took effect, and whether it has become a boundary -/
  pausedAt : Nat := 0
  pauseBoundary : Bool := false
  /-- RESUME accepted (R83) -/
  resuming : Bool := false
  /-- TIME at which cycles begin again (R215) -/
  resumeAt : Option Nat := none
  /-- between two steps (R33) -/
  transition : Bool := false
  abort : Option AbortRec := none
  /-- the discard pass runs (R535) -/
  discarding : Option (List Nat) := none
  run : Run := {}
  ring : Ring := {}
  sched : Scheduler := {}
  deriving DecidableEq, Repr

structure Bundle where
  failed : Bool := false
  /-- its self-test has passed since it failed (R79) -/
  passed : Bool := false
  pool : Pool := {}
  meas : Meas := {}
  /-- P and Q of a LINE that is being brought into force (R185) -/
  lineNext : Option Nat := none
  pe : Engine := {}
  cap : Capture := {}
  cal : BundleCal := {}
  inj : DutInject := {}
  deriving DecidableEq, Repr

structure Port where
  fe : PortFe := {}
  lane : Lane := {}
  cal : PortCal := {}
  raw : Raw := {}
  train : Trained := {}
  deriving DecidableEq, Repr

/-! ## The block -/

/-- The state of the block. -/
structure State where
  /-- commands that wait, first in, first out -/
  pending : List Instr := []
  /-- what the last command sent -/
  out : List Msg := []
  /-- the TIME counter (R182, R202) and whether it runs -/
  time : Nat := 0
  timeRuns : Bool := false
  /-- TIME ticks of real time that idle steps have let pass, whether TIME runs or not: the model's own clock for the times that the
  spec gives in seconds (log 141) -/
  elapsed : Nat := 0
  /-- free values drawn so far (log 4) -/
  freeCount : Nat := 0
  dict : Dict := {}
  ctl : Control := {}
  evt : Events := {}
  dev : Device := {}
  fuses : Fuses := {}
  sites : Store Site := []
  bnds : Store Bundle := []
  ports : Store Port := []
  ctxs : Store Context := []
  tb : Timebase := {}
  rim : RimState := {}
  therm : Thermal := {}
  ij : Inject := {}
  pcie : Pcie := {}
  quads : Store Quad := []
  cfg : Loader := {}
  noc : Noc := {}
  mem : Store Byte := []
  memChk : Store (BitVec 32) := []
  chans : Store Chan := []
  cal : CalEngine := {}
  ledger : Ledger := {}
  deriving DecidableEq, Repr

/-- Why a step can stop. No meaning of the model raises one: every command of the table has an effect that the spec
describes (see NOTES.md, Stops). -/
inductive Fault where
  /-- raised by nothing; a state that no rule of the spec reaches would stop here (safe) -/
  | noSuchState
  deriving DecidableEq, Repr

/-- Why a command is not executed. -/
inductive Refusal where
  /-- raised by an arm of `exec` whose command has no meaning yet (safe) -/
  | notModelled (mnemonic : String)
  deriving DecidableEq, Repr

/-- Right after the release of RESET_N with the main rails on: DORMANT, no root, every object at its default (R50,
R99; log 1, 5, 6). -/
def State.reset : State :=
  { rim := { en := 0xFF, pg := 0xFF } }

end Sys2Proof.Machine
end

