-- ==== Sys2Proof/Machine/Ops.lean ====
section
/-! DEFINITION. The named operations over the state that every family uses: the dictionary's registers, the units, the
device state, ownership, replies, and raising and delivering events. -/
namespace Sys2Proof.Machine

/-- The outcome type of a meaning. -/
abbrev Out := Host.Outcome State Fault Refusal

/-! ## Registers (R46, R50) -/

/-- What an unlisted register reads as: the object's default (R50). -/
def Obj.dflt (o : Obj) : Word := Word.of o.row.dflt

/-- A scalar object's value. -/
def State.reg (s : State) (o : Obj) (u : Nat := 0) (k : Nat := 0) : Word :=
  Store.get o.dflt (o.key u k) s.dict.regs

/-- A scalar object's value as a number. -/
def State.rd (s : State) (o : Obj) (u : Nat := 0) (k : Nat := 0) : Nat := (s.reg o u k).toNat

/-- Sets a scalar object. -/
def State.setReg (s : State) (o : Obj) (v : Word) (u : Nat := 0) (k : Nat := 0) : State :=
  { s with dict := { s.dict with regs := Store.put o.dflt (o.key u k) v s.dict.regs } }

/-- Sets a scalar object to a number. -/
def State.wr (s : State) (o : Obj) (v : Nat) (u : Nat := 0) (k : Nat := 0) : State := s.setReg o (Word.of v) u k

/-- One more, stopping at the maximum of the object's size (R203, R460, R509, R542, R543). -/
def State.bump (s : State) (o : Obj) (u : Nat := 0) (k : Nat := 0) (by' : Nat := 1) : State :=
  s.wr o (min (s.rd o u k + by') (2 ^ (8 * o.row.size) - 1)) u k

/-- The key of a byte of a DOM object. -/
def Obj.domKey (o : Obj) (u k off : Nat) : Nat := o.key u k * 2 ^ 24 + off

/-- What an unwritten byte of a DOM object reads as. -/
def Obj.domDflt (o : Obj) : Byte := BitVec.ofNat 8 o.row.dflt

/-- n bytes of a DOM object. -/
def State.dom (s : State) (o : Obj) (u k off n : Nat) : List Byte :=
  Store.gets o.domDflt (o.domKey u k off) n s.dict.doms

/-- A little-endian field of a DOM object. -/
def State.domNat (s : State) (o : Obj) (u k off n : Nat) : Nat := leNat (s.dom o u k off n)

/-- Writes bytes of a DOM object. -/
def State.setDom (s : State) (o : Obj) (u k off : Nat) (bytes : List Byte) : State :=
  { s with dict := { s.dict with doms := Store.puts o.domDflt (o.domKey u k off) bytes s.dict.doms } }

/-! ## Units -/

def State.site (s : State) (i : Nat) : Site := Store.get {} i s.sites
def State.setSite (s : State) (i : Nat) (f : Site → Site) : State :=
  { s with sites := Store.put {} i (f (s.site i)) s.sites }
def State.bnd (s : State) (b : Nat) : Bundle := Store.get {} b s.bnds
def State.setBnd (s : State) (b : Nat) (f : Bundle → Bundle) : State :=
  { s with bnds := Store.put {} b (f (s.bnd b)) s.bnds }
def State.port (s : State) (p : Nat) : Port := Store.get {} p s.ports
def State.setPort (s : State) (p : Nat) (f : Port → Port) : State :=
  { s with ports := Store.put {} p (f (s.port p)) s.ports }
def State.ctx (s : State) (c : Nat) : Context := Store.get {} c s.ctxs
def State.setCtx (s : State) (c : Nat) (f : Context → Context) : State :=
  { s with ctxs := Store.put {} c (f (s.ctx c)) s.ctxs }
def State.quad (s : State) (q : Nat) : Quad := Store.get {} q s.quads
def State.setQuad (s : State) (q : Nat) (f : Quad → Quad) : State :=
  { s with quads := Store.put {} q (f (s.quad q)) s.quads }
def State.chan (s : State) (m : Nat) : Chan := Store.get {} m s.chans
def State.setChan (s : State) (m : Nat) (f : Chan → Chan) : State :=
  { s with chans := Store.put {} m (f (s.chan m)) s.chans }
def State.slot (s : State) (i : Nat) : Slot := Store.get {} i s.pcie.slots
def State.setSlot (s : State) (i : Nat) (f : Slot → Slot) : State :=
  { s with pcie := { s.pcie with slots := Store.put {} i (f (s.slot i)) s.pcie.slots } }
def State.queue (s : State) (i : Nat) : Queue := Store.get {} i s.pcie.queues
def State.setQueue (s : State) (i : Nat) (f : Queue → Queue) : State :=
  { s with pcie := { s.pcie with queues := Store.put {} i (f (s.queue i)) s.pcie.queues } }

/-- A free value of the given width, and the count drawn (log 4). -/
def State.free (s : State) (n : Nat) : Nat × State :=
  ((Config.freeValue s.freeCount).toNat % 2 ^ n, { s with freeCount := s.freeCount + 1 })

/-- The numbers below n, rising. -/
def upto (n : Nat) : List Nat := List.range n

/-- Applies an operation for each number of a list, in order. -/
def State.each (s : State) (l : List Nat) (f : Nat → State → State) : State := l.foldl (fun t i => f i t) s

/-- A change only where a condition holds; an event that cannot arise in a state changes nothing (log 3). -/
def State.onlyIf (s : State) (c : Bool) (f : State → State) : State := if c then f s else s

/-! ## Sites, bundles and ports (R5 to R9, R64, R85) -/

/-- Bundles whose bit is set. -/
def bitsOf (mask n : Nat) : List Nat := (upto n).filter (fun i => mask.testBit i)

/-- The bundles of a site (SITE_BUNDLES). -/
def State.bundlesOf (s : State) (i : Nat) : List Nat := bitsOf (s.rd .siteBundles i) 12

/-- The site that holds a bundle (BND_SITE). -/
def State.siteOf (s : State) (b : Nat) : Option Nat := (upto 12).find? (fun i => (s.rd .siteBundles i).testBit b)

/-- The bundle of a port: P(8b + k) or bye-stake P(96 + b) (R6). -/
def bundleOfPort (p : Nat) : Nat := if p < 96 then p / 8 else p - 96

/-- The DUT ports of a bundle, rising. -/
def dutPorts (b : Nat) : List Nat := (upto 8).map (fun k => 8 * b + k)

/-- The ports of a bundle, bye-stake last. -/
def portsOfBundle (b : Nat) : List Nat := dutPorts b ++ [96 + b]

/-- The DUT ports of a site, rising. -/
def State.dutPortsOf (s : State) (i : Nat) : List Nat := (s.bundlesOf i).flatMap dutPorts

/-- The ports of a site with the bye-stakes of its bundles. -/
def State.portsOf (s : State) (i : Nat) : List Nat := (s.bundlesOf i).flatMap portsOfBundle

/-- The site that holds a port's bundle. -/
def State.siteOfPort (s : State) (p : Nat) : Option Nat := s.siteOf (bundleOfPort p)

/-- The site that holds the bundle of a context. -/
def State.siteOfCtx (s : State) (c : Nat) : Option Nat := s.siteOf (c / 4096)

/-- The quadrant of a bundle (R8). -/
def quadOfBundle (b : Nat) : Nat := b / 3

/-- ARMED, RUNNING or PAUSED. -/
def SiteSt.active : SiteSt → Bool
  | .armed | .running | .paused => true
  | _ => false

/-- READY or not formed: the inert scope of R48. -/
def SiteSt.inert : SiteSt → Bool
  | .none | .ready => true
  | _ => false

def SiteSt.code : SiteSt → Nat
  | .none => 0 | .ready => 1 | .armed => 2 | .running => 3 | .paused => 4 | .aborting => 5 | .fault => 6

def State.siteSt (s : State) (i : Nat) : SiteSt := (s.site i).st
def State.anySite (s : State) (p : SiteSt → Bool) : Bool := (upto 12).any (fun i => p (s.siteSt i))

/-! ## Power and device state (R75, R99, R100, R504) -/

/-- The main rails are on and the sequencer has reported it (R76). -/
def State.railsOn (s : State) : Bool :=
  match s.rim.seq with | .on | .abort | .hold => s.rim.powered | _ => false

/-- The main die runs: rails on, RESET_N high, no internal main reset. -/
def State.alive (s : State) : Bool := s.railsOn && !s.dev.resetNLow && !s.rim.mainReset

/-- The quadrant is CLOSING or powered down. -/
def State.quadClosed (s : State) (q : Nat) : Bool := (s.quad q).power != .on

/-- Vernier steps of one TIME tick: 16 ROOT periods of 2,048 steps (R15). -/
def stepsPerTick : Nat := 32768

/-- TIME in vernier steps. -/
def State.now (s : State) : Nat := s.time * stepsPerTick + s.tb.frac

/-- WARP_ROLE. -/
def State.role (s : State) : Nat := s.rd .warpRole

/-- ROOT locked in the sense of R179. -/
def State.rootLocked (s : State) : Bool := s.tb.state == 1 || s.tb.state == 2 || s.tb.state == 5

/-- ROOT is present (R179: absent in NO_ROOT and LINK_ACQUIRING). -/
def State.rootPresent (s : State) : Bool := !(s.tb.state == 0 || s.tb.state == 3)

/-- DEV_STATE: the first condition of R75 that holds. -/
def State.devState (s : State) : Nat :=
  if !s.railsOn then 0
  else if s.dev.resetNLow || s.rim.mainReset then 1
  else if s.dev.fault.isSome then 9
  else if s.dev.aborting.isSome then 8
  else if s.role == 2 && (s.tb.state == 3 || s.tb.state == 4 || s.tb.state == 6) then 7
  else if s.cfg.loading then 2
  else if !s.cfg.loaded then 1
  else if s.anySite (fun t => t == .running || t == .aborting) then 5
  else if s.anySite (· == .paused) then 6
  else if s.anySite (· == .armed) then 4
  else 3

/-! ## Status codes (R74) -/

/-- The status codes of R74. -/
inductive Status where
  | ok | noObject | noSub | readOnly | writeOnly | typeLen | range | state | locked | busy | lenZero | lenOver
  | groupFail | interlock | timeout | aborted | hwFault | tcClosed | authFail
  deriving DecidableEq, Repr, Inhabited

def Status.code : Status → Nat
  | .ok => 0x00 | .noObject => 0x01 | .noSub => 0x02 | .readOnly => 0x03 | .writeOnly => 0x04 | .typeLen => 0x05
  | .range => 0x06 | .state => 0x07 | .locked => 0x08 | .busy => 0x09 | .lenZero => 0x0A | .lenOver => 0x0B
  | .groupFail => 0x0C | .interlock => 0x0D | .timeout => 0x0E | .aborted => 0x0F | .hwFault => 0x10
  | .tcClosed => 0x11 | .authFail => 0x12

/-- The first of two checks that refuses. -/
def Status.and (a b : Status) : Status := if a = .ok then b else a

/-- The status when a condition that must hold does not. -/
def require (c : Bool) (st : Status) : Status := if c then .ok else st

/-- The first check of a list that refuses (R71). -/
def firstRefusal (l : List Status) : Status := (l.find? (· ≠ .ok)).getD .ok

/-! ## Ownership (R52 to R55) -/

def isHost : Src → Bool
  | .host _ => true
  | .mgt _ _ => false

/-- The requester may write under R52 and R54. -/
def State.owns (s : State) (src : Src) : Bool :=
  match src with
  | .host _ => s.rd .controlOwner == 2
  | .mgt a _ => s.rd .controlOwner == 1 && s.ctl.ownerAddr == some a

/-! ## Messages and replies (R485 to R489, R492, R500) -/

def State.send (s : State) (m : Msg) : State := { s with out := s.out ++ [m] }

/-- Signals an MSI-X vector: one message, or its pending bit while it is masked (R500). -/
def State.msix (s : State) (v : Nat) : State :=
  if s.pcie.unmasked.getLsbD v then s.send (.msix v)
  else { s with pcie := { s.pcie with pendingBits := s.pcie.pendingBits ||| (1#64 <<< v) } }

/-- The bytes of a reply frame (R485, R487). -/
def frameBytes (flags : Nat) (seq : BitVec 16) (service : Nat) (a : Addr) (len status : Nat) (payload : List Byte) :
    List Byte :=
  [0x01#8, BitVec.ofNat 8 flags] ++ leBytes 2 seq.toNat ++ [BitVec.ofNat 8 service] ++ leBytes 2 a.index.toNat
    ++ [a.sub] ++ leBytes 2 len ++ [BitVec.ofNat 8 status, 0#8] ++ payload

def blkBytes : Option (Nat × Nat) → List Byte
  | none => []
  | some (o, t) => leBytes 4 o ++ leBytes 4 t

/-- Frames that the Rim sends on the management line: injection discards the next ones, the rest are counted (R508,
R541). -/
def State.transmit (s : State) (msgs : List Msg) : State :=
  let dropped := min s.ij.txDrop msgs.length
  { s with
    out := s.out ++ msgs.drop dropped
    ij := { s.ij with txDrop := s.ij.txDrop - dropped }
    rim := { s.rim with tx := min (s.rim.tx + (msgs.length - dropped)) 0xFFFFFFFF } }

/-- Sends reply frames to their requester. A management reply is kept, one of the last 8 of its address (R489); a host
reply goes to its slot's reply area, and the slot becomes DONE and signals its vector (R492). -/
def State.replyAll (s : State) (rq : Rq) (service : Nat) (a : Addr)
    (frames : List (Status × Option (Nat × Nat) × List Byte)) : State :=
  let n := frames.length
  let numbered := frames.zip (upto n)
  let msgs := numbered.map (fun (f, i) =>
    Msg.reply rq.src rq.seq service a (i == 0) (i + 1 == n) f.1.code f.2.1 f.2.2)
  match rq.src with
  | .mgt addr _ =>
    let s := s.transmit msgs
    { s with ctl := { s.ctl with replies :=
        let mine := (s.ctl.replies.filter (fun r => r.addr == addr)).take 7
        let others := s.ctl.replies.filter (fun r => r.addr != addr)
        { addr := addr, seq := rq.seq, frames := msgs } :: mine ++ others } }
  | .host slot =>
    let s := { s with out := s.out ++ msgs }
    let bytes := numbered.map (fun (f, i) =>
      frameBytes (1 + (if i == 0 then 2 else 0) + (if i + 1 == n then 4 else 0)) rq.seq service a f.2.2.length f.1.code
        (blkBytes f.2.1 ++ f.2.2))
    if (s.slot slot).state == 1 then
      let s := s.setSlot slot (fun t => { t with state := 2, reply := bytes.headD [], segments := bytes.drop 1 })
      let v := (s.slot slot).vector
      if v.getLsbD 7 then s.msix (v.toNat % 64) else s
    else s

/-- One reply frame. -/
def State.reply (s : State) (rq : Rq) (service : Nat) (a : Addr) (st : Status) (data : List Byte := [])
    (blk : Option (Nat × Nat) := none) : State :=
  s.replyAll rq service a [(st, blk, if st = .ok then data else [])]

/-- Service codes of R486. -/
def svcRead : Nat := 1
def svcWrite : Nat := 2
def svcBlockRead : Nat := 3
def svcBlockWrite : Nat := 4
def svcCommit : Nat := 5
def svcAbort : Nat := 6
def svcSubscribe : Nat := 7
def svcEvent : Nat := 8
def svcHeartbeat : Nat := 9
def svcIdentify : Nat := 10

/-- Records an accepted service that is answered later. -/
def State.openService (s : State) (rq : Rq) (service : Nat) (a : Addr) (w : Waits) : State :=
  { s with ctl := { s.ctl with services := s.ctl.services ++ [{ rq := rq, service := service, addr := a, waits := w, since := s.elapsed }] } }

/-- Answers a service that was open; what the host's link has lost is discarded (R494). -/
def State.answer (s : State) (o : OpenService) (st : Status) : State :=
  if o.discard then s else s.reply o.rq o.service o.addr st

/-- Answers the open services that wait for `w`. -/
def State.complete (s : State) (w : Waits) (st : Status) : State :=
  let mine := s.ctl.services.filter (fun o => o.waits == w)
  let s := { s with ctl := { s.ctl with services := s.ctl.services.filter (fun o => o.waits != w) } }
  mine.foldl (fun t o => t.answer o st) s

/-! ## Events (R506, R529 to R533) -/

/-- The class of an event code (R529). -/
def eventClass (code : Nat) : Nat := code / 1024 % 64

/-- SCOPE field (R506). -/
def Event.scope (e : Event) : Nat := e.kind * 4096 + e.unit

/-- Payload of an EVENT frame: 24 bytes and the extension (R506). -/
def Event.payload (e : Event) : List Byte :=
  leBytes 2 e.code ++ leBytes 2 e.scope ++ leBytes 8 e.time ++ leBytes 4 e.arg0 ++ leBytes 8 e.arg1 ++ e.ext

/-- An EVENT frame with the SEQ of its destination (R506). -/
def Event.frame (e : Event) (seq : Nat) : List Byte :=
  frameBytes 6 (BitVec.ofNat 16 seq) svcEvent ⟨0, 0⟩ (24 + e.ext.length) 0 e.payload

/-- Raises an event: it is delivered at the end of the command (R531). -/
def State.raise (s : State) (code : Nat) (kind : Nat := 0) (unit : Nat := 0) (arg0 : Nat := 0) (arg1 : Nat := 0)
    (ext : List Byte := []) (rim : Bool := false) : State :=
  { s with evt := { s.evt with now := s.evt.now ++
      [{ code := code, kind := kind, unit := unit, arg0 := arg0 % 2 ^ 32, arg1 := arg1 % 2 ^ 64, ext := ext, rim := rim,
         time := s.time }] } }

/-- `a` is delivered before `b`: ABORT_DONE last, then ascending SCOPE, then ascending code (R531). -/
def Event.before (a b : Event) : Bool :=
  let da := a.code == 0x0400
  let db := b.code == 0x0400
  if da != db then db
  else if a.scope != b.scope then decide (a.scope < b.scope)
  else decide (a.code ≤ b.code)

/-- Insertion that keeps events of equal rank in the order raised. -/
def insertEvent (e : Event) : List Event → List Event
  | [] => [e]
  | x :: l => if x.before e then x :: insertEvent e l else e :: x :: l

/-- The delivery order of the events of one CFG cycle (R531). -/
def sortEvents (l : List Event) : List Event := l.foldl (fun acc e => insertEvent e acc) []

/-- Vector of an event (R506): its site's vector, or its class's. -/
def State.eventVector (s : State) (e : Event) : Option Nat :=
  let cls := s.domNat .devEvtVector 0 0 (eventClass e.code) 1
  let v := if e.kind == 1 && e.unit < 12 && s.rd .devEvtSiteVector 0 e.unit != 0xFF
    then s.rd .devEvtSiteVector 0 e.unit else cls
  if v == 0xFF then none else some v

/-- The host ring selects this event's class (R501). -/
def State.hostSelects (s : State) (e : Event) : Bool :=
  s.pcie.evtEnable && (s.reg .devEvtHostMask).getLsbD (eventClass e.code)

/-- A pad entry where too few entries remain before the ring's end (R501). -/
def State.ringPad (s : State) (pad : Bool) : State :=
  if pad then s.send (.hostWrite (s.pcie.evtBase + 64 * s.pcie.evtHead) [0#8] false) else s

/-- The head moves past an event's entries, and DEV_EVT_HOST_WRITTEN counts it (R501). -/
def State.ringAdvance (s : State) (head : Nat) : State :=
  ({ s with pcie := { s.pcie with evtHead := head, evtSeq := (s.pcie.evtSeq + 1) % 65536 } } : State).bump .devEvtHostWritten

/-- The vector of an event is signalled, where it has one (R506). -/
def State.signal (s : State) (e : Event) : State :=
  match s.eventVector e with
  | some v => s.msix v
  | none => s

/-- Writes an event to the host ring, with a pad entry where too few entries remain, or counts it lost (R501). -/
def State.hostRing (s : State) (e : Event) : State :=
  let frame := e.frame s.pcie.evtSeq
  let need := ceilDiv frame.length 64
  let size := s.pcie.evtSize
  let head := s.pcie.evtHead
  let free := if size == 0 then 0 else (s.pcie.evtTail + size - head - 1) % size
  let pad := if head + need > size then size - head else 0
  let at' := if pad > 0 then 0 else head
  if !s.hostSelects e then s
  else if free < need + pad then s.bump .devEvtHostLost
  else ((((s.ringPad (decide (pad > 0))).send (.hostWrite (s.pcie.evtBase + 64 * at') frame false)).ringAdvance
    ((at' + need) % size))).signal e

/-- TIME ticks of one second (R202: one tick is 4/7 ns). -/
def ticksPerSecond : Nat := 1750000000

/-- TIME ticks of one millisecond, and of one microsecond. -/
def ticksPerMs : Nat := 1750000
def ticksPerUs : Nat := 1750

/-- At least so many ticks of real time have passed since an instant (log 141). -/
def State.passed (s : State) (since ticks : Nat) : Bool := decide (since + ticks ≤ s.elapsed)

/-- Microseconds of real time since an instant. -/
def State.microsSince (s : State) (since : Nat) : Nat := (s.elapsed - since) / ticksPerUs

/-- The slot selects this event's class (R507). -/
def Subscription.selects (e : Event) (p : Subscription) : Bool := p.mask.getLsbD (eventClass e.code)

/-- Events counted against the rate in the second that an instant falls into (R507). -/
def Subscription.inSecond (now : Nat) (p : Subscription) : Nat :=
  if p.winStart + ticksPerSecond ≤ now then 0 else p.winCount

/-- A subscription once an event of its classes has come (R507). -/
def Subscription.served (now : Nat) (p : Subscription) : Subscription :=
  { p with seq := (p.seq + 1) % 65536, sent := true,
           winStart := if p.winStart + ticksPerSecond ≤ now then now else p.winStart,
           winCount := p.inSecond now + 1 }

def State.setSub (s : State) (i : Nat) (p : Option Subscription) : State :=
  { s with evt := { s.evt with subs := s.evt.subs.set i p } }

/-- An event that a subscriber's rate leaves out is counted (R507, R508). -/
def State.dropEvent (s : State) : State :=
  { s with rim := { s.rim with evDropped := min (s.rim.evDropped + 1) 0xFFFFFFFF } }

/-- Sends an event to one subscription slot, dropping what is beyond DEV_EVT_MGT_RATE per second (R507). -/
def State.toSlot (s : State) (e : Event) (i : Nat) : State :=
  match (s.evt.subs[i]?).join with
  | none => s
  | some p =>
    if !p.selects e then s
    else if p.inSecond s.elapsed < s.rd .devEvtMgtRate then
      (s.setSub i (some (p.served s.elapsed))).onlyIf s.rim.powered (·.transmit [.event p.addr p.port (e.frame p.seq)])
    else (s.setSub i (some (p.served s.elapsed))).dropEvent

/-- The Rim logs this event (R532). -/
def State.logSelects (s : State) (e : Event) : Bool := e.rim || (s.reg .devLogMask).getLsbD (eventClass e.code)

/-- Puts an event into the Rim's queue of 64, or counts it lost (R533). -/
def State.toLog (s : State) (e : Event) : State :=
  if !s.logSelects e then s
  else if s.evt.logQueue.length < 64 then
    { s with evt := { s.evt with logQueue := s.evt.logQueue ++ [e] } }
  else s.bump .devLogLost

/-- Some destination selects this event (R510). -/
def State.selected (s : State) (e : Event) : Bool :=
  s.hostSelects e || s.logSelects e || s.evt.subs.any (fun o => (o.map (·.selects e)).getD false)

/-- The main die counts an event and keeps it as the latest (R510, R533). -/
def State.countEvent (s : State) (e : Event) : State :=
  let cls := eventClass e.code
  ({ s with evt := { s.evt with
    count := s.evt.count + 1,
    classCount := Store.put 0 cls (min (Store.get 0 cls s.evt.classCount + 1) 0xFFFFFFFF) s.evt.classCount,
    last := e.frame (s.evt.count + 1) } } : State).wr .devLogLastCode e.code

/-- The port's count of its events, and the record of an injection (R531, R541). -/
def State.noteEvent (s : State) (e : Event) : State :=
  let s := s.onlyIf (e.kind == 3) (·.bump .portEventCount e.unit)
  s.onlyIf (s.ij.watch && eventClass e.code != 10)
    (fun s => { s.wr .devIjLastEvent e.code with ij := { s.ij with watch := false } })

/-- Delivers one event (R531): counts, the port's count, the injection's record, host ring, subscribers, log. While the
main die is off or in reset only the Rim's own deliveries happen (R507). -/
def State.deliverOne (s : State) (e : Event) : State :=
  let s := s.onlyIf s.alive (fun t =>
    (((t.countEvent e).noteEvent e).onlyIf (!s.selected e) (·.bump .devEvtMasked)).hostRing e)
  s.onlyIf (s.alive || e.rim) (fun s => (s.each (upto 4) (fun i t => t.toSlot e i)).toLog e)

/-- Delivers the events of the command, in the order of R531. -/
def State.deliver (s : State) : State :=
  let l := sortEvents s.evt.now
  l.foldl (fun t e => t.deliverOne e) { s with evt := { s.evt with now := [] } }

/-! ## Running a command -/

/-- What a command leaves as it is, whatever its effect: the queue of the commands that wait behind it, and the fused and
board-given values (log 5). -/
def State.keepFixed (s t : State) : State := { t with pending := s.pending, fuses := s.fuses }

/-- One command: what it sends starts empty, and its events are delivered at its end (R531). -/
def run (f : State → State) (s : State) : Out := .next (s.keepFixed (f { s with out := [] }).deliver)

end Sys2Proof.Machine
end

