-- ==== Sys2Proof/Machine/Coding.lean ====
section
/-! DEFINITION. What a serial lane's hard logic does to a stream, as plain functions: symbol alphabets, precoding, PRBS
patterns and their checker, scramblers, 8B10B and 128B130B, the FFE (R234 to R255, R404). -/
namespace Sys2Proof.Machine

/-! ## Configuration (R261) -/

/-- Fields of PORT_SER_CONFIG (R261). -/
structure SerConfig where
  pair : Bool
  mod : Nat
  mapping : Nat
  precode : Bool
  pcs : Nat
  scramble : Nat
  idle : Nat
  txSource : Nat
  txInvert : Bool
  rxInvert : Bool
  fwdDiv : Bool
  rxClk : Nat
  rxSink : Nat
  lossAbort : Bool
  strobeK : Nat
  group : Nat
  deriving DecidableEq, Repr, Inhabited

def serConfigOf (w : Word) : SerConfig :=
  { pair := w.getLsbD 0, mod := w.fld 8 2, mapping := w.fld 10 2, precode := w.getLsbD 12, pcs := w.fld 13 3,
    scramble := w.fld 16 2, idle := w.fld 18 2, txSource := w.fld 20 3, txInvert := w.getLsbD 23,
    rxInvert := w.getLsbD 24, fwdDiv := w.getLsbD 25, rxClk := w.fld 26 2, rxSink := w.fld 28 3,
    lossAbort := w.getLsbD 31, strobeK := w.fld 32 4, group := w.fld 36 4 }

def State.ser (s : State) (p : Nat) : SerConfig := serConfigOf (s.reg .portSerConfig p)

/-- The port runs in SERIAL mode. -/
def State.isSerial (s : State) (p : Nat) : Bool := s.rd .portMode p == 2
def State.isEdge (s : State) (p : Nat) : Bool := s.rd .portMode p == 1

/-! ## Symbols (R234, R235) -/

/-- M, the size of the alphabet. -/
def SerConfig.alphabet (c : SerConfig) : Nat := match c.mod with | 0 => 2 | 1 => 3 | _ => 4

/-- The driver level of a symbol index. -/
def symbolLevel (mod sym : Nat) : Fin 4 :=
  match mod, sym with
  | 0, 0 => 0
  | 0, _ => 3
  | 1, 0 => 0
  | 1, 1 => 1
  | 1, _ => 3
  | _, n => Fin.ofNat 4 n

/-- The complement symbol M − 1 − s. -/
def SerConfig.complement (c : SerConfig) (sym : Nat) : Nat := c.alphabet - 1 - sym

/-- Symbol of a PAM4 bit pair, GRAY or BINARY, the first bit most significant. -/
def pam4Symbol (mapping v : Nat) : Nat := if mapping == 1 then v else match v with | 2 => 3 | 3 => 2 | n => n

/-- A TERNARY symbol of two bits; the pair 3 is none of the symbols 0 to 2, and what it sends is open (log 150). -/
def ternarySymbol (v : Nat) : Nat := if v < 3 then v else Config.strayTernary.toNat % 3

/-- The two PAM3 symbols of three bits under 3B2S, as JESD239 maps data (log 9). -/
def threeToTwo (v : Nat) : List Nat :=
  let x := (Config.threeBits (BitVec.ofNat 3 v)).toNat % 9
  [x / 3, x % 3]

/-- Number of a list of bits, the first most significant. -/
def bitsMsb (l : List Bool) : Nat := l.foldl (fun a b => 2 * a + b.toNat) 0

/-- Bits per WORD cycle that a lane's 64 symbols carry (R234, R288); TERNARY takes two bits for each symbol (log 150). -/
def SerConfig.wordBits (c : SerConfig) : Nat :=
  match c.mod, c.mapping with
  | 0, _ => 64
  | 1, 0 => 96
  | _, _ => 128

/-- The symbols that bits give (R234): one bit each for NRZ, a pair for PAM4 and TERNARY, two symbols for three bits under
3B2S. -/
def SerConfig.symbolsOf (c : SerConfig) (l : List Bool) : List Nat :=
  match c.mod, c.mapping with
  | 0, _ => l.map Bool.toNat
  | 1, 0 => (upto (l.length / 3)).flatMap (fun k => threeToTwo (bitsMsb ((l.drop (3 * k)).take 3)))
  | 1, _ => (upto (l.length / 2)).map (fun k => ternarySymbol (bitsMsb ((l.drop (2 * k)).take 2)))
  | _, m => (upto (l.length / 2)).map (fun k => pam4Symbol m (bitsMsb ((l.drop (2 * k)).take 2)))

/-- n bits of a number, the first most significant. -/
def msbBits (n v : Nat) : List Bool := (upto n).map (fun k => v.testBit (n - 1 - k))

/-- n bits of a number, the first least significant. -/
def lsbBits (n v : Nat) : List Bool := (upto n).map (fun k => v.testBit k)

/-- Number of a list of bits, the first least significant. -/
def bitsLsb (l : List Bool) : Nat := l.foldr (fun b a => 2 * a + b.toNat) 0

/-- The bits that received symbols carry: the inverse of `symbolsOf`. A pair of PAM3 symbols that 3B2S does not use carries
open bits (log 9). -/
def SerConfig.bitsOf (c : SerConfig) (l : List Nat) : List Bool :=
  match c.mod, c.mapping with
  | 0, _ => l.map (fun v => v != 0)
  | 1, 0 => (upto (l.length / 2)).flatMap (fun k =>
      let pair := (l.drop (2 * k)).take 2
      msbBits 3 (((upto 8).find? (fun v => threeToTwo v == pair)).getD Config.strayThree.toNat))
  | 1, _ => l.flatMap (msbBits 2)
  | _, m => l.flatMap (fun v => msbBits 2 (pam4Symbol m v))

/-! ## Precoding (R251) -/

/-- y_n = (x_n − y_(n−1)) mod 4 over symbols, and the last y. -/
def precodeSymbols (y : Nat) : List Nat → List Nat × Nat
  | [] => ([], y)
  | x :: l =>
    let y' := (x + 4 - y % 4) % 4
    let (r, last) := precodeSymbols y' l
    (y' :: r, last)

/-- x_n = (y_n + y_(n−1)) mod 4 over received symbols, and the last y. -/
def unprecodeSymbols (y : Nat) : List Nat → List Nat × Nat
  | [] => ([], y)
  | y' :: l =>
    let (r, last) := unprecodeSymbols y' l
    ((y' + y) % 4 :: r, last)

/-- PRECODE acts (R251). -/
def SerConfig.precodes (c : SerConfig) : Bool := c.precode && c.mod == 2

/-! ## Pattern generators and checker (R252, R253) -/

/-- Taps of the generator polynomials as register positions, and the register length (R252). -/
def prbsTaps : Nat → Nat × List Nat
  | 0 => (7, [7, 6])
  | 1 => (9, [9, 5])
  | 2 => (11, [11, 9])
  | 3 => (13, [13, 12, 2, 1])
  | 4 => (15, [15, 14])
  | 5 => (23, [23, 18])
  | _ => (31, [31, 28])

/-- One step of a Fibonacci LFSR: the feedback bit, which is sent, and the next register (R252). -/
def prbsStep (code reg : Nat) : Bool × Nat :=
  let (n, taps) := prbsTaps code
  let fb := taps.foldl (fun acc t => acc != reg.testBit (t - 1)) false
  (fb, (2 * reg + (if fb then 1 else 0)) % 2 ^ n)

/-- All ones in a generator's register, its seed at symbol 0 of the first step (R252). -/
def prbsSeed (code : Nat) : Nat := 2 ^ (prbsTaps code).1 - 1

/-- The next k bits of a pattern from a register, and the register after them. -/
def prbsBits (code : Nat) : Nat → Nat → List Bool × Nat
  | 0, reg => ([], reg)
  | k + 1, reg =>
    let (b, reg') := prbsStep code reg
    let (l, last) := prbsBits code k reg'
    (b :: l, last)

/-- The next k symbols of SSPRQ from a place in its 65,535 (R252; the sequence is IEEE 802.3's, log 9). -/
def ssprqSymbols (k at' : Nat) : List Nat × Nat :=
  ((upto k).map (fun j => (Config.ssprq ((at' + j) % 65535)).toNat), (at' + k) % 65535)

/-- Bits of the window in which a checker counts for its loss of lock, and the errors that lose it (R253). -/
def checkWindow : Nat := 4096
def checkLoss : Nat := 512

/-- The checker loses lock or its seed fails: it seeds itself again. -/
def Checker.reseed (c : Checker) : Checker := { c with locked := false, reg := 0, seeded := 0, good := 0, window := 0, bad := 0 }

/-- One checked bit beside its prediction: consecutive good bits before lock, then bits and errors and the window (R253). A
window ends after 4,096 bits and the next begins (log 151). -/
def Checker.count (c : Checker) (need : Nat) (err : Bool) (n : Nat) : Checker :=
  if !c.locked then
    if err then c.reseed
    else if need ≤ c.good + n then { c with locked := true, good := need, window := 0, bad := 0 }
    else { c with good := c.good + n }
  else
    let bad := c.bad + (if err then 1 else 0)
    let c := { c with bits := min (c.bits + n) (2 ^ 64 - 1), errors := if err then min (c.errors + 1) (2 ^ 40 - 1) else c.errors }
    if checkLoss ≤ bad then c.reseed
    else if checkWindow ≤ c.window + n then { c with window := 0, bad := 0 }
    else { c with window := c.window + n, bad := bad }

/-- One received bit at a PRBS checker: it fills the register, then meets the prediction. -/
def Checker.bit (code : Nat) (c : Checker) (b : Bool) : Checker :=
  let n := (prbsTaps code).1
  if c.seeded < n then { c with reg := (2 * c.reg + b.toNat) % 2 ^ n, seeded := c.seeded + 1 }
  else
    let (want, reg) := prbsStep code c.reg
    { c with reg := reg }.count (2 * n) (want != b) 1

/-- One received symbol at an SSPRQ checker: the first one seeds a place in the sequence, which is open (log 9); lock comes
after 2 × 65,535 symbols without an error (R253). -/
def Checker.symbol (c : Checker) (sym place : Nat) : Checker :=
  if c.seeded == 0 then { c with reg := (place + 1) % 65535, seeded := 1 }
  else
    let err := (Config.ssprq c.reg).toNat != sym
    let c := { c with reg := (c.reg + 1) % 65535 }
    if c.locked then (c.count 1 err 1).count 1 false 1 else c.count 131070 err 1

/-! ## Scramblers (R250) -/

/-- One bit of the keystream of SCRAMBLE 1, x^16 + x^5 + x^4 + x^3 + 1, or 2, x^23 + x^21 + x^16 + x^8 + x^5 + x^2 + 1: the
highest bit of a Galois register, and the register after it (log 152). -/
def scrambleBit (mode reg : Nat) : Bool × Nat :=
  let n := if mode == 1 then 16 else 23
  let mask := if mode == 1 then 0x39 else 0x210125
  let out := reg.testBit (n - 1)
  (out, ((2 * reg) % 2 ^ n) ^^^ (if out then mask else 0))

/-- Bits scrambled or descrambled, and the register after them. -/
def scrambleBits (mode : Nat) : Nat → List Bool → List Bool × Nat
  | reg, [] => ([], reg)
  | reg, b :: l =>
    let (k, reg') := scrambleBit mode reg
    let (r, last) := scrambleBits mode reg' l
    ((b != k) :: r, last)

/-- Seed of a lane's scrambler: all ones for SCRAMBLE 1; for SCRAMBLE 2 one seed for each lane, whose number at a port no rule
gives (log 152). -/
def scrambleSeed (mode port : Nat) : Nat := if mode == 1 then 0xFFFF else (Config.laneSeed port).toNat

/-- Bits of a stream under SCRAMBLE; 0 leaves them as they are. -/
def SerConfig.scrambled (c : SerConfig) (reg : Nat) (l : List Bool) : List Bool × Nat :=
  if c.scramble == 0 then (l, reg) else scrambleBits c.scramble reg l

/-! ## 8B10B (R250): IEEE 802.3 clause 36 -/

/-- The 6-bit group abcdei of 5 bits EDCBA at negative running disparity, the first bit most significant. -/
def sixBits : List Nat :=
  [0b100111, 0b011101, 0b101101, 0b110001, 0b110101, 0b101001, 0b011001, 0b111000,
   0b111001, 0b100101, 0b010101, 0b110100, 0b001101, 0b101100, 0b011100, 0b010111,
   0b011011, 0b100011, 0b010011, 0b110010, 0b001011, 0b101010, 0b011010, 0b111010,
   0b110011, 0b100110, 0b010110, 0b110110, 0b001110, 0b101110, 0b011110, 0b101011]

/-- The 4-bit group fghj of 3 bits HGF of a data character at negative running disparity. -/
def fourBits : List Nat := [0b1011, 0b1001, 0b0101, 0b1100, 0b1101, 0b1010, 0b0110, 0b1110]
/-- That of a K character. -/
def fourBitsK : List Nat := [0b1011, 0b0110, 0b1010, 0b1100, 0b1101, 0b0101, 0b1001, 0b0111]

/-- Ones of a number of at most 10 bits. -/
def ones (v : Nat) : Nat := (upto 10).foldl (fun a k => a + (v.testBit k).toNat) 0

/-- A group of n bits under a running disparity, positive or not, and the disparity after it: a group of unequal ones and
zeros, and the groups 111000 and 1100 of equal ones, are complemented under positive disparity. -/
def disparityGroup (n v : Nat) (pos : Bool) : Nat × Bool :=
  let even := 2 * ones v == n
  let flips := !even || v == 0b111000 && n == 6 || v == 0b1100 && n == 4
  (if pos && flips then 2 ^ n - 1 - v else v, if even then pos else !pos)

/-- The code group of a character, data or K, 10 bits with a first, and the running disparity after it. -/
def encode8b10b (k : Bool) (byte : Nat) (pos : Bool) : Nat × Bool :=
  let x := byte % 32
  let y := byte / 32 % 8
  let (six, rd) := disparityGroup 6 (if k && x == 28 then 0b001111 else sixBits.getD x 0) pos
  let alt := y == 7 && ((!rd && [17, 18, 20].contains x) || (rd && [11, 13, 14].contains x))
  if k then
    let v := fourBitsK.getD y 0
    (16 * six + (if rd then 15 - v else v), if 2 * ones v == 4 then rd else !rd)
  else
    let (four, rd') := disparityGroup 4 (if alt then 0b0111 else fourBits.getD y 0) rd
    (16 * six + four, rd')

/-- K characters that 8B10B has: K28.0 to K28.7, K23.7, K27.7, K29.7 and K30.7. -/
def kCharacters : List Nat := [0x1C, 0x3C, 0x5C, 0x7C, 0x9C, 0xBC, 0xDC, 0xFC, 0xF7, 0xFB, 0xFD, 0xFE]

/-- The character of a code group under a running disparity: K or data, and its byte; none is a code or disparity error. -/
def decode8b10b (group : Nat) (pos : Bool) : Option (Bool × Nat) :=
  match kCharacters.find? (fun b => (encode8b10b true b pos).1 == group) with
  | some b => some (true, b)
  | none => ((upto 256).find? (fun b => (encode8b10b false b pos).1 == group)).map (fun b => (false, b))

/-- The comma K28.5 (R250). -/
def comma : Nat := 0xBC
/-- The SKP character K28.0 of PCI Express. -/
def skpChar : Nat := 0x1C

/-- A character through SCRAMBLE 1: data is scrambled least significant bit first; K characters are not; COM resets the
register, and SKP leaves it (R250, log 152). -/
def scrambleChar (mode : Nat) (reg : Nat) (k : Bool) (byte : Nat) : Nat × Nat :=
  if mode == 0 then (byte, reg)
  else if k && byte == comma then (byte, scrambleSeed 1 0)
  else if k && byte == skpChar then (byte, reg)
  else
    let (l, reg') := scrambleBits mode reg (lsbBits 8 byte)
    (if k then byte else bitsLsb l, reg')

/-- Characters through the scrambler and the encoder: the bits to send, the scrambler and the disparity after them. -/
def encodeChars (mode : Nat) : Nat → Bool → List (Bool × Nat) → List Bool × Nat × Bool
  | reg, rd, [] => ([], reg, rd)
  | reg, rd, (k, b) :: l =>
    let (b', reg') := scrambleChar mode reg k b
    let (g, rd') := encode8b10b k b' rd
    let (rest, r) := encodeChars mode reg' rd' l
    (msbBits 10 g ++ rest, r)

/-! ## 128B130B (R250): PCI Express from 8.0 GT/s -/

/-- Sync headers of a block: 2 of a data block, 1 of an ordered set, the first bit sent least significant (log 152). -/
def headerData : Nat := 2
def headerSet : Nat := 1

/-- The EIEOS block, 0x00 and 0xFF in turn. -/
def eieos : Nat := (upto 8).foldl (fun a k => a + 0xFF * 2 ^ (16 * k + 8)) 0

/-- A block through SCRAMBLE 2 and its header: data blocks are scrambled; an ordered set is not, EIEOS resets the register and
one of SKP symbols leaves it (R250, log 152). -/
def blockBits (mode : Nat) (port reg header data : Nat) : List Bool × Nat :=
  let plain := lsbBits 128 data
  let (l, reg') :=
    if mode == 0 then (plain, reg)
    else if header == headerData then scrambleBits mode reg plain
    else if data == eieos then (plain, scrambleSeed mode port)
    else if data % 256 == 0xAA then (plain, reg)
    else (plain, (scrambleBits mode reg plain).2)
  (lsbBits 2 header ++ l, reg')

/-! ## One TX FIFO entry of the fabric interface (R404) -/

/-- The bits that an entry of 256 data and 32 control bits sends through the encoder and scrambler in force; the scrambler and
the running disparity after it. -/
def SerConfig.entryBits (c : SerConfig) (port reg : Nat) (rd : Bool) (e : BitVec 288) : List Bool × Nat × Bool :=
  let data := e.toNat % 2 ^ 256
  let ctl := e.toNat / 2 ^ 256
  match c.pcs with
  | 0 =>
    let (l, reg') := c.scrambled reg (lsbBits 256 data)
    (l, reg', rd)
  | 1 => encodeChars c.scramble reg rd ((upto 32).map (fun n => (ctl.testBit n, data / 2 ^ (8 * n) % 256)))
  | _ =>
    let (a, r1) := blockBits c.scramble port reg (ctl % 4) (data % 2 ^ 128)
    let (b, r2) := blockBits c.scramble port r1 (ctl / 4 % 4) (data / 2 ^ 128)
    (a ++ b, r2, rd)

/-- Data 0x00 as an entry: what IDLE CODE sends (R241). -/
def SerConfig.zeroEntry (c : SerConfig) : BitVec 288 :=
  if c.pcs == 2 then BitVec.ofNat 288 ((headerData + 4 * headerData) * 2 ^ 256) else 0

/-! ## FFE (R239) -/

/-- MAIN of four taps. -/
def mainTap (taps : List Int) : Int := 128 - ((taps.map Int.natAbs).foldl (· + ·) 0 : Nat)

/-- Σ c_i × a_(n−i) for the taps PRE2, PRE1, POST1, POST2, from a_(n−2) to a_(n+2) (R239). -/
def ffeSum (taps : List Int) (a : List Rat) : Rat :=
  let k (i : Nat) : Rat := (taps.getD i 0 : Int)
  let x (i : Nat) : Rat := a.getD i 0
  (k 0 * x 4 + k 1 * x 3 + (mainTap taps : Int) * x 2 + k 2 * x 1 + k 3 * x 0) / 128

/-- V_n from L0 and L3 in volts (R239). -/
def ffeVolts (l0 l3 : Rat) (taps : List Int) (a : List Rat) : Rat := (l0 + l3) / 2 + (l3 - l0) / 2 * ffeSum taps a

/-- a of a level: its place between L0 and L3 (R239); 0 where the two are equal. -/
def ffeUnit (l0 l3 l : Rat) : Rat := if l3 == l0 then 0 else (l - (l0 + l3) / 2) / ((l3 - l0) / 2)

/-! ## Status words (R265) -/

/-- PORT_SER_STATUS of a lane. -/
def Lane.status (l : Lane) : Nat :=
  let bit (b : Bool) (n : Nat) := if b then 2 ^ n else 0
  l.lockLosses * 2 ^ 48 + l.fill * 2 ^ 32 + l.deskew * 2 ^ 16 + bit l.txUnderrun 8 + bit l.superseded 7
    + bit l.deskewFail 6 + bit l.groupAligned 5 + bit l.markerAligned 4 + bit l.rx.check.locked 3 + bit l.adaptDone 2
    + bit l.locked 1 + bit l.signal 0

/-- PORT_SER_ERRORS of a lane. -/
def Lane.errorWord (l : Lane) : Nat := l.rx.check.errors * 2 ^ 24 + l.codeErrors * 2 ^ 8

/-- PORT_SER_STATUS, ERRORS and BITS as they read: as the Cut phase froze them, until the next ARM (R258). -/
def Lane.words (l : Lane) : Nat × Nat × Nat := l.frozen.getD (l.status, l.errorWord, l.rx.check.bits)

end Sys2Proof.Machine
end

