-- ==== Sys2Proof/Machine/FrontEnd.lean ====
section
/-! DEFINITION. The port front end (R101 to R131): enables and how they combine, level codes and windows, spans and
blanks, the PMU, limits, and PORT_STATUS (R544). -/
namespace Sys2Proof.Machine

/-! ## Levels (R110 to R112) -/

/-- Volts of a level word in units of 31.25 µV (R111). -/
def levelUnits (w : Nat) : Int :=
  let c := w % 65536
  match w / 65536 % 4 with
  | 0 => 2 * signed 16 c
  | 1 => signed 16 c
  | 2 => c
  | _ => 2 * (c : Int)

def levelSpan (w : Nat) : Nat := w / 65536 % 4

/-- The range a window gives a level, in the same units (R112). `wide` is WINDOW = 1, the low-speed window. -/
def levelFits (o : Obj) (wide : Bool) (w : Nat) : Bool :=
  let v := levelUnits w
  let within (lo hi : Int) := decide (lo ≤ v) && decide (v ≤ hi)
  match o with
  | .portVtt => within (-16000) 64000
  | .portLoad => within (-32000) 128000
  | _ => if wide then within (-32000) 128000 else within (-16000) 64000

/-- The level objects of R112 but VCOM, with the DAC number of R113. -/
def levelObjs : List (Obj × Nat) :=
  [(.portDrvL0, 0), (.portDrvL1, 1), (.portDrvL2, 2), (.portDrvL3, 3), (.portVtt, 4), (.portCt0, 5), (.portCt1, 6),
   (.portCt2, 7)]

def dacOf (o : Obj) : Nat :=
  match levelObjs.find? (fun e => e.1 == o) with
  | some e => e.2
  | none => if o == .portLoad then 8 else 9

/-- WINDOW of PORT_FE_CONFIG. -/
def State.lowSpeed (s : State) (p : Nat) : Bool := (s.reg .portFeConfig p).getLsbD 48

/-! ## Enables (R101 to R108) -/

/-- The six enables of a port: drive, compare, load, PMU, pin switch, termination. -/
structure Enables where
  drive : Bool
  compare : Bool
  load : Bool
  pmu : Bool
  pinsw : Bool
  term : Bool
  deriving DecidableEq, Repr, Inhabited

def State.enables (s : State) (p : Nat) : Enables :=
  { drive := s.rd .portEnDrive p == 1, compare := s.rd .portEnCompare p == 1, load := s.rd .portEnLoad p == 1,
    pmu := s.rd .portEnPmu p == 1, pinsw := s.rd .portEnPinsw p == 1, term := s.rd .portEnTerm p == 1 }

/-- The enables with the one that an object names set to v. -/
def Enables.set (e : Enables) (o : Obj) (v : Bool) : Enables :=
  match o with
  | .portEnDrive => { e with drive := v }
  | .portEnCompare => { e with compare := v }
  | .portEnLoad => { e with load := v }
  | .portEnPmu => { e with pmu := v }
  | .portEnPinsw => { e with pinsw := v }
  | .portEnTerm => { e with term := v }
  | _ => e

/-- The combinations that R106 allows. -/
def Enables.legal (e : Enables) : Bool := !(e.term && e.load) && !(e.pmu && (e.drive || e.term || e.load))

/-- A source of the front end on the port node (R105). -/
def Enables.source (e : Enables) : Bool := e.drive || e.term || e.load || e.pmu

/-- All six enables are 0. -/
def Enables.none (e : Enables) : Bool := !(e.drive || e.compare || e.load || e.pmu || e.pinsw || e.term)

/-- A port that the calibration engine holds (R109). -/
def State.held (s : State) (p : Nat) : Bool := (s.port p).cal.held

/-- Inert (R108). -/
def State.inert (s : State) (p : Nat) : Bool := (s.enables p).none && !s.held p

/-- Node code of a port in its bundle's matrix (R147). -/
def nodeOfPort (p : Nat) : Nat := if p < 96 then p % 8 else 8

/-- The port at a port node of a bundle. -/
def portOfNode (b node : Nat) : Nat := if node < 8 then 8 * b + node else 96 + b

/-- Node that terminal t of cell n holds; 0x3F open (R153). -/
def State.linkOf (s : State) (b cell t : Nat) : Nat := Store.get 0x3F (8 * cell + t) (s.bnd b).pool.links

/-- MODE of a pool cell (R138). -/
def State.cellMode (s : State) (b cell : Nat) : Nat := s.domNat .bndPoolCells b 0 (16 * cell) 1

/-- A pool cell is a source on a node: a linked OUT, or a linked IN1 of an AF cell in TIA (R150). -/
def State.cellSource (s : State) (b cell node : Nat) : Bool :=
  s.linkOf b cell 0 == node || (cell < 6 && s.cellMode b cell == 2 && s.linkOf b cell 2 == node)

/-- Some pool cell is a source on a node. -/
def State.poolSource (s : State) (b node : Nat) : Bool := (upto 16).any (fun c => s.cellSource b c node)

/-- The port has a source on its node; a pool source counts as drive (R103, R150). -/
def State.nodeDriven (s : State) (p : Nat) (e : Enables) : Bool :=
  e.source || s.poolSource (bundleOfPort p) (nodeOfPort p)

/-- Slot that a bye-stake has replaced permanently (R378). -/
def State.subSlot (s : State) (b : Nat) : Option Nat := (upto 8).find? (fun k => (s.port (8 * b + k)).cal.substituted)

/-- BND_BYE_TARGET as it reads: the substituted slot, or what was written (R379, R384). -/
def State.byeSlot (s : State) (b : Nat) : Nat := (s.subSlot b).getD (s.rd .bndByeTarget b)

/-- Port whose pin the spare element of a bye-stake is chosen for. -/
def State.byeTarget (s : State) (b : Nat) : Option Nat :=
  if s.byeSlot b < 8 then some (8 * b + s.byeSlot b) else none

/-- With these enables of port p, the rule of R103 holds at the pin that p shares with its bye-stake or target. -/
def State.pinRule (s : State) (p : Nat) (e : Enables) : Bool :=
  let b := bundleOfPort p
  match s.byeTarget b with
  | none => true
  | some dut =>
    let bye := 96 + b
    let eDut := if p == dut then e else s.enables dut
    let eBye := if p == bye then e else s.enables bye
    !(eDut.pinsw && eBye.pinsw && s.nodeDriven dut eDut && s.nodeDriven bye eBye)

/-- DEV_STATE in which front-end writes are refused (R126). -/
def State.feClosed (s : State) : Bool :=
  let d := s.devState
  d == 2 || d == 8 || d == 9

/-! ## The pin switch (R101, R104, R358, R361, R378) -/

/-- The calibration element of a port or a bye-stake is closed: in Prepare the bye-stake's, from Move to the end of
Calibrate the port's, in an offline cycle that of its port (R352, R358, R361). -/
def State.calElement (s : State) (p : Nat) : Bool :=
  let b := bundleOfPort p
  match (s.bnd b).cal.cycle with
  | none => false
  | some c => if p == 96 + b && c.live then c.phase == 1
              else portOfNode b c.slot == p && (c.phase == 4 || (c.phase == 7 && !c.live))

/-- The main element of a DUT port is closed: as PORT_EN_PINSW says, and while the port rejoins; held open when the port has
been replaced for good or FAILED, and never closed with the calibration element (R101, R104, R358, R378). -/
def State.mainElement (s : State) (p : Nat) : Bool :=
  let rejoins := match (s.bnd (bundleOfPort p)).cal.cycle with
    | some c => c.live && portOfNode (bundleOfPort p) c.slot == p && (c.phase == 5 || c.phase == 6)
    | none => false
  decide (p < 96) && !s.calElement p && !(s.port p).cal.substituted && !(s.port p).cal.failed
    && ((s.enables p).pinsw || rejoins)

/-- The slot toward whose pin the spare elements of a bundle close: of a live cycle from Listen to Return, of a survey listen,
or the bye-stake's target under its own pin-switch enable (R101, R358, R372). One slot at most. -/
def State.spareSlot (s : State) (b : Nat) : Option Nat :=
  let own := if (s.enables (96 + b)).pinsw && !(s.bnd b).cal.byeFailed && !s.calElement (96 + b)
    then (s.byeTarget b).map (· % 8) else none
  match (s.bnd b).cal.cycle, (s.bnd b).cal.surveying with
  | some c, _ => if c.live && decide (2 ≤ c.phase) then some c.slot else own
  | none, some k => some k
  | none, none => own

/-- The spare element toward a DUT port's pin is closed. -/
def State.spareElement (s : State) (p : Nat) : Bool :=
  decide (p < 96) && s.spareSlot (bundleOfPort p) == some (p % 8)

/-- The port whose front-end objects a port node runs from: for a bye-stake that listens, serves or substitutes, the DUT port
(R360, R379). -/
def State.feOf (s : State) (p : Nat) : Nat :=
  let b := bundleOfPort p
  if p < 96 then p else
    match (s.bnd b).cal.cycle, (s.bnd b).cal.surveying, s.subSlot b with
    | some c, _, _ => if c.live && decide (2 ≤ c.phase) then 8 * b + c.slot else p
    | none, some k, _ => 8 * b + k
    | none, none, some k => 8 * b + k
    | none, none, none => p

/-- The enables that act at a port node: the objects, but for the two nodes of a live cycle or a survey (R358, R359). -/
def State.acting (s : State) (p : Nat) : Enables :=
  let b := bundleOfPort p
  let e := s.enables p
  let compareOnly (on : Bool) : Enables := { (default : Enables) with compare := on, pinsw := e.pinsw }
  match (s.bnd b).cal.cycle, (s.bnd b).cal.surveying with
  | some c, _ =>
    if !c.live then e
    else if p == portOfNode b c.slot then
      if c.phase == 4 then default else if 5 ≤ c.phase then compareOnly e.compare else e
    else if p == 96 + b then
      if 4 ≤ c.phase then s.enables (portOfNode b c.slot) else if 2 ≤ c.phase then compareOnly true else e
    else e
  | none, some _ => if p == 96 + b then compareOnly true else e
  | none, none => e

/-! ## Checks of front-end writes -/

def isEnable (o : Obj) : Bool :=
  [Obj.portEnDrive, .portEnCompare, .portEnLoad, .portEnPmu, .portEnPinsw, .portEnTerm].contains o

def isLevel (o : Obj) : Bool := levelObjs.any (fun e => e.1 == o)

/-- Step 8 of R71 for a front-end object: R102, R103, R106, R109, R112, R113, R118, R126. A PORT_LOAD write that leaves VCOM as
it is served during VCOM's blank (log 136). -/
def feState (s : State) (o : Obj) (p : Nat) (v : Nat) : Status :=
  let blank (d : Fin 10) := (s.port p).fe.blanks.contains d
  let now := s.enables p
  (require (!s.feClosed) .state).and <|
  (require (!s.held p) .busy).and <|
  if isEnable o then
    let e := now.set o (v == 1)
    if v != 1 then .ok else
      firstRefusal
        [require (e.legal) .state,
         require (!(o == .portEnTerm && s.lowSpeed p)) .state,
         require (!(o == .portEnPinsw && p ≥ 96 && (s.byeTarget (p - 96)).isNone)) .state,
         require (s.pinRule p e) .state,
         require ((s.port p).fe.blanks.isEmpty) .busy]
  else if o == .portFeConfig then
    let w := Word.of v
    let old := s.reg .portFeConfig p
    let forceChanges := w.fld 0 19 != old.fld 0 19
    firstRefusal
      [require (!(w.getLsbD 19 != old.getLsbD 19 && now.pmu)) .state,
       require (!(w.getLsbD 48 && now.term)) .state,
       require (!(w.getLsbD 18 != old.getLsbD 18) || s.inert p) .state,
       require (!(blank 9 && forceChanges)) .busy]
  else if isLevel o || o == .portLoad then
    let d := dacOf o
    let old := s.rd o p
    let sameVcom := o == .portLoad && v % 2 ^ 18 == old % 2 ^ 18
    firstRefusal
      [require (levelSpan v == levelSpan old || s.inert p) .state,
       require (sameVcom || !((s.port p).fe.blanks.any (fun x => x.val == d))) .busy]
  else .ok

/-- The PMU fields of PORT_FE_CONFIG lie in their sets (R115 to R117, R123, R130). -/
def feConfigFields (w : Word) : Bool :=
  let force := signed 18 (w.fld 0 18)
  let gain := w.getLsbD 18
  let fi := w.getLsbD 19
  let imp := signed 5 (w.fld 24 5)
  let lo := w.fld 40 8
  let hi := w.fld 32 8
  w.fld 49 15 == 0 && w.fld 29 3 == 0 && w.fld 23 1 == 0 && decide (w.fld 20 3 ≤ 4)
    && decide (-10 ≤ imp) && decide (imp ≤ 10) && decide (lo + hi ≤ 240)
    && !(fi && gain) && !(!fi && gain && decide (force < -65536))

/-- Step 9 of R71 for a front-end object: R111, R112, R115 to R117, R123, R125, R130, R131. -/
def feRange (s : State) (o : Obj) (p : Nat) (v : Nat) : Status :=
  if o == .portFeConfig then
    let w := Word.of v
    let wide := w.getLsbD 48
    require (feConfigFields w
      && levelObjs.all (fun e => levelFits e.1 wide (s.rd e.1 p))
      && levelFits .portLoad wide (s.rd .portLoad p % 2 ^ 18)) .range
  else if isLevel o then
    require (v / 2 ^ 18 == 0 && levelFits o (s.lowSpeed p) v) .range
  else if o == .portLoad then
    require ((Word.of v).fld 18 14 == 0 && decide ((Word.of v).fld 32 16 ≤ 48000)
      && decide ((Word.of v).fld 48 16 ≤ 48000) && levelFits .portLoad (s.lowSpeed p) (v % 2 ^ 18)) .range
  else .ok

/-- Step 10 of R71: an enable that would add a source to a node that a pool cell drives (R105). -/
def feInterlock (s : State) (o : Obj) (p : Nat) (v : Nat) : Status :=
  let adds := v == 1 && [Obj.portEnDrive, .portEnTerm, .portEnLoad, .portEnPmu].contains o
  require (!(adds && s.poolSource (bundleOfPort p) (nodeOfPort p))) .interlock

/-- After the checks: a port that its bye-stake has replaced, and a FAILED one, answer HW_FAULT to a write of 1 (R104,
R378). -/
def feAfter (s : State) (o : Obj) (p : Nat) (v : Nat) : Status :=
  require (!(isEnable o && v == 1 && ((s.port p).cal.replaced || (s.port p).cal.failed))) .hwFault

/-- The effect of an accepted front-end write (R107, R113, R117, R118). -/
def feEffect (o : Obj) (p : Nat) (v : Nat) (s : State) : State :=
  let old := s.rd o p
  let s' := s.wr o v p
  let addBlank (d : Fin 10) (t : State) := t.setPort p (fun q => { q with fe := { q.fe with
    blanks := d :: q.fe.blanks, blankAt := Store.put 0 d.val s.elapsed q.fe.blankAt } })
  if o == .portEnDrive then
    s'.setPort p (fun q => { q with fe := { q.fe with level := 0, off := false, volts := none, events := [], drvLimit := q.fe.drvLimit && v == 1 } })
  else if o == .portEnPmu then
    s'.setPort p (fun q => { q with fe := { q.fe with pmuLimit := q.fe.pmuLimit && v == 1 } })
  else if o == .portFeConfig then
    let s' := s'.setPort p (fun q => { q with fe := { q.fe with pmuLimit := false } })
    if (Word.of v).getLsbD 18 != (Word.of old).getLsbD 18 then addBlank 9 s' else s'
  else if isLevel o || o == .portLoad then
    if levelSpan v != levelSpan old then addBlank (Fin.ofNat 10 (dacOf o)) s' else s'
  else s'

/-- PB+0x00:01–06 of a port all 0 (R92). -/
def State.clearEnables (s : State) (p : Nat) : State :=
  let s := [Obj.portEnDrive, .portEnCompare, .portEnLoad, .portEnPmu, .portEnPinsw, .portEnTerm].foldl
    (fun t o => t.wr o 0 p) s
  s.setPort p (fun q => { q with fe := { q.fe with pmuLimit := false, drvLimit := false } })

/-! ## PORT_STATUS (R544) -/

/-- The port reads FAILED: a DUT port that failed, or a bye-stake (R378, R380). -/
def State.portFailed (s : State) (p : Nat) : Bool :=
  (s.port p).cal.failed || (decide (96 ≤ p) && (s.bnd (p - 96)).cal.byeFailed)

/-- PORT_STATUS as it reads now. -/
def State.portStatus (s : State) (p : Nat) : Nat :=
  let q := s.port p
  let bit (b : Bool) (n : Nat) := if b then 2 ^ n else 0
  bit q.fe.pmuLimit 0 + bit q.fe.drvLimit 1 + bit q.cal.substituted 2 + bit (s.portFailed p) 3 + bit q.cal.held 4
    + bit q.fe.pmuSeen 8 + bit q.fe.drvSeen 9 + bit q.fe.testFail 10

/-! ## Voltages and currents at a port node (R111, R115 to R125) -/

/-- Volts of a level word (R111). -/
def levelVolts (w : Nat) : Rat := (levelUnits w : Rat) / 32000

/-- A value scaled about 0 by parts per million, and moved by millionths (R365). -/
def scaled (ppm millionths : Int) (v : Rat) : Rat := v * (1 + (ppm : Rat) / 1000000) + (millionths : Rat) / 1000000

/-- A programmed level with the trims of its DAC: DRV_GAIN and DRV_OFS on driver levels, an offset on the others (R365,
log 137). -/
def trimmedLevel (t : Trims) (o : Obj) (v : Rat) : Rat :=
  match o with
  | .portVtt => scaled 0 t.vttOfs v
  | .portLoad => scaled 0 t.vcomOfs v
  | .portCt0 => scaled 0 t.ct0Ofs v
  | .portCt1 => scaled 0 t.ct1Ofs v
  | .portCt2 => scaled 0 t.ct2Ofs v
  | _ => scaled t.drvGain t.drvOfs v

/-- The trims in force of a port node (R366). -/
def State.trims (s : State) (n : Nat) : Trims := (s.port n).cal.inForce.trims

/-- Output of a level DAC of port node n that runs from the objects of port p: 0 V in its blank, else the code with n's own
trims (R111, R113, R114, R360, R365). -/
def State.dacVolts (s : State) (o : Obj) (p n : Nat) : Rat :=
  if (s.port p).fe.blanks.any (fun d => d.val == dacOf o) then 0 else trimmedLevel (s.trims n) o (levelVolts (s.rd o p % 2 ^ 18))

/-- The object of driver level L0–L3. -/
def levelObj (l : Fin 4) : Obj := [Obj.portDrvL0, .portDrvL1, .portDrvL2, .portDrvL3].getD l.val .portDrvL0

/-- Volts of driver level L0–L3 of node n. -/
def State.driverVolts (s : State) (p n : Nat) (l : Fin 4) : Rat := s.dacVolts (levelObj l) p n

/-- Driver impedance of node n in ohms, the termination's too (R123, R124, R365). -/
def State.driverOhms (s : State) (p n : Nat) : Rat :=
  50 + signed 5 ((s.reg .portFeConfig p).fld 24 5) + ((s.trims n).drvImp : Rat) / 1000

/-- V_DAC of the PMU of node n, with the trims of its force; 0 V in its blank (R115, R118, R365). -/
def State.pmuVolts (s : State) (p n : Nat) : Rat :=
  let w := s.reg .portFeConfig p
  if (s.port p).fe.blanks.any (fun d => d.val == 9) then 0
  else scaled (s.trims n).pmuGain (s.trims n).pmuOfs
    ((signed 18 (w.fld 0 18) : Rat) * (5 / 2) * (if w.getLsbD 18 then 2 else 1) / 131072)

/-- I_FS of a PMU range, in amperes (R116). -/
def fullScale (range : Nat) : Rat :=
  match range with
  | 0 => 2 / 1000000
  | 1 => 20 / 1000000
  | 2 => 200 / 1000000
  | 3 => 2 / 1000
  | _ => 32 / 1000

def State.pmuFullScale (s : State) (p : Nat) : Rat := fullScale ((s.reg .portFeConfig p).fld 20 3)

/-- The current that the PMU forces in FI, into the pin: I_FS at 2.5 V of its DAC (R116); none while that is in its blank
(R118). -/
def State.pmuAmps (s : State) (p n : Nat) : Rat := s.pmuVolts p n * s.pmuFullScale p * 2 / 5

/-- The clamp pair V_CL and V_CH (R117). -/
def State.pmuClamps (s : State) (p : Nat) : Rat × Rat :=
  let w := s.reg .portFeConfig p
  (-(5 / 2) + (w.fld 40 8 : Rat) * 3 / 100, 5 - (w.fld 32 8 : Rat) * 3 / 100)

/-- What stands on a node: a source behind a resistance with a current limit, a current within two clamps, or the active
load. -/
inductive NodeSource where
  | thevenin (volts ohms : Rat) (limit : Option Rat)
  | current (amps lo hi : Rat)
  | load (vcom source sink : Rat)
  deriving DecidableEq, Repr, Inhabited

/-- How a node settles: its volts where something drives it, the current that its source sends into it, and whether the source
is at a limit. -/
structure Settled where
  volts : Option Rat
  amps : Rat := 0
  limited : Bool := false
  deriving DecidableEq, Repr, Inhabited

/-- The current of the active load at a node voltage, positive into the pin: the source current below VCOM, minus the sink
current above, linear within 100 mV of it (R125, log 137). -/
def loadAmps (vcom source sink v : Rat) : Rat :=
  if v ≤ vcom - 1 / 10 then source
  else if vcom + 1 / 10 ≤ v then -sink
  else source - (source + sink) * (v - (vcom - 1 / 10)) * 5

/-- Where the load settles against a source of v volts behind r ohms: the crossing of the load law with the resistance. -/
def loadVolts (vcom source sink v r : Rat) : Rat :=
  let low := v + source * r
  let high := v - sink * r
  if low ≤ vcom - 1 / 10 then low
  else if vcom + 1 / 10 ≤ high then high
  else
    let slope := (source + sink) * 5
    (v + r * (source + slope * (vcom - 1 / 10))) / (1 + r * slope)

/-- A node settles between its own source and the DUT (R117, R121, R122, R125). -/
def settle (own : Option NodeSource) (dut : Option PinDrive) : Settled :=
  match own, dut with
  | none, none => ⟨none, 0, false⟩
  | none, some d => ⟨some d.volts, 0, false⟩
  | some (.thevenin v _ _), none => ⟨some v, 0, false⟩
  | some (.thevenin v z limit), some d =>
    if v == d.volts then ⟨some v, 0, false⟩
    else if z + d.ohms == 0 then
      match limit with
      | some l => ⟨some d.volts, if d.volts < v then l else -l, true⟩
      | none => ⟨none, 0, false⟩
    else
      let i := (v - d.volts) / (z + d.ohms)
      let i' := match limit with
        | some l => clampRat (-l) l i
        | none => i
      ⟨some (d.volts + i' * d.ohms), i', i' != i⟩
  | some (.current i lo hi), none =>
    if 0 < i then ⟨some hi, 0, true⟩ else if i < 0 then ⟨some lo, 0, true⟩ else ⟨none, 0, false⟩
  | some (.current i lo hi), some d =>
    if d.ohms == 0 then ⟨some d.volts, i, false⟩
    else
      let v := clampRat lo hi (d.volts + i * d.ohms)
      ⟨some v, (v - d.volts) / d.ohms, v != d.volts + i * d.ohms⟩
  | some (.load vcom source sink), none =>
    if source + sink == 0 then ⟨none, 0, false⟩
    else ⟨some (vcom - 1 / 10 + source / ((source + sink) * 5)), 0, false⟩
  | some (.load vcom source sink), some d =>
    let v := loadVolts vcom source sink d.volts d.ohms
    ⟨some v, loadAmps vcom source sink v, false⟩

/-- The front end's source on a port node while its driver presents `drive` (R105, R106, R115 to R125). The driver's output
current limit is the typical one of R132, the termination's that of R124 (log 137). -/
def State.feSource (s : State) (p : Nat) (drive : Option Rat) : Option NodeSource :=
  let e := s.acting p
  let q := s.feOf p
  let w := s.reg .portFeConfig q
  if e.pmu then
    if w.getLsbD 19 then some (.current (s.pmuAmps q p) (s.pmuClamps q).1 (s.pmuClamps q).2)
    else some (.thevenin (s.pmuVolts q p) 0 (some (s.pmuFullScale q * 11 / 10)))
  else
    match drive with
    | some v => some (.thevenin v (s.driverOhms q p) (some (60 / 1000)))
    | none =>
      if e.term then some (.thevenin (s.dacVolts .portVtt q p) (s.driverOhms q p) (some (40 / 1000)))
      else if e.load then
        let l := s.reg .portLoad q
        some (.load (s.dacVolts .portLoad q p) ((l.fld 32 16 : Rat) / 2000000) ((l.fld 48 16 : Rat) / 2000000))
      else none

/-- The formatter's level and the driver's off state at an instant: what is held, and the drive events up to then. -/
def PortFe.stateAt (f : PortFe) (t : Nat) : Fin 4 × Bool :=
  (f.events.filter (fun e => decide (e.at' ≤ t))).foldl (fun x e => (e.level.getD x.1, e.off.getD x.2)) (f.level, f.off)

/-- The voltage that the serializer launches or holds at an instant in place of a level (R239, R241). -/
def PortFe.voltsAt (f : PortFe) (t : Nat) : Option Rat :=
  (f.events.filter (fun e => decide (e.at' ≤ t))).foldl (fun v e => e.volts.getD v) f.volts

/-- What the driver of a port node presents at an instant, while it is enabled and not off: the serializer's voltage, or its
level (R107, R215, R221, R239). -/
def State.driveAt (s : State) (t p : Nat) : Option Rat :=
  let q := s.feOf p
  let x := (s.port q).fe.stateAt t
  if (s.acting p).drive && !x.2 then some (((s.port q).fe.voltsAt t).getD (s.driverVolts q p x.1)) else none

/-- What it presents now. -/
def State.staticDrive (s : State) (p : Nat) : Option Rat := s.driveAt s.now p

/-- The other port node that can meet at a port's pin: its bye-stake, or the DUT port that a bye-stake stands for. -/
def State.pinPartner (s : State) (p : Nat) : Option Nat :=
  let b := bundleOfPort p
  if p < 96 then some (96 + b) else (s.spareSlot b).map (8 * b + ·)

/-- The element that joins a port node to its pin is closed. -/
def State.joined (s : State) (p : Nat) : Bool :=
  if p < 96 then s.mainElement p else (s.spareSlot (bundleOfPort p)).isSome

/-- The DUT pin of a port node; a bye-stake's is the pin of its slot. -/
def State.pinOf (s : State) (p : Nat) : Nat :=
  if p < 96 then p else 8 * bundleOfPort p + (s.spareSlot (bundleOfPort p)).getD 0

/-- The pin-electronics source on a port node: its own, or that of the node that meets it at the pin (R103). -/
def State.pinSource (s : State) (p : Nat) (drive : Nat → Option Rat) : Option NodeSource :=
  match s.feSource p (drive p) with
  | some x => some x
  | none =>
    match s.pinPartner p with
    | some r => if s.joined p && s.joined r && (decide (96 ≤ p) || s.spareElement p) then s.feSource r (drive r) else none
    | none => none

/-! ## Events of the front end -/

/-- SPAN_BLANK_END: after 5 µs the DAC leaves its blank and goes to its code (R113, R118). -/
def execSpanBlankEnd (p : PortNo) (dac : Fin 10) : State → Out :=
  run (fun s => s.onlyIf (s.passed (Store.get 0 dac.val (s.port p).fe.blankAt) (5 * ticksPerUs)) (fun s =>
    s.setPort p (fun q => { q with fe := { q.fe with blanks := q.fe.blanks.filter (· != dac) } })))

/-- How a port node settles with no pool source on it, against what the DUT presents at its pin. -/
def State.portSettled (s : State) (p : Nat) (dut : Option PinDrive) : Settled :=
  settle (s.feSource p (s.staticDrive p)) (if s.joined p then dut else none)

/-- PMU_LIMIT_REACHED: an enabled PMU at its limit against what the DUT presents sets its flag and the sticky bit (R117,
R544). -/
def execPmuLimitReached (x : PinSeen) : State → Out :=
  run (fun s => s.onlyIf ((s.enables x.port).pmu && (s.portSettled x.port x.dut).limited) (fun s =>
    s.setPort x.port (fun q => { q with fe := { q.fe with pmuLimit := true, pmuSeen := true } })))

/-- DRV_LIMIT_REACHED: a driver at its current limit against what the DUT presents sets DRV_LIMIT and DRV_LIMIT_SEEN (R124,
R132, R544). -/
def execDrvLimitReached (x : PinSeen) : State → Out :=
  run (fun s => s.onlyIf (((s.acting x.port).drive || (s.acting x.port).term) && (s.portSettled x.port x.dut).limited) (fun s =>
    s.setPort x.port (fun q => { q with fe := { q.fe with drvLimit := true, drvSeen := true } })))

/-- The sticky bits of PORT_STATUS cleared (R544). -/
def clearSticky (p : Nat) (s : State) : State :=
  s.setPort p (fun q => { q with fe := { q.fe with pmuSeen := false, drvSeen := false, testFail := false } })

end Sys2Proof.Machine
end

