-- ==== Sys2Proof/Machine/Weave.lean ====
section
/-! DEFINITION. The weave code: a shortened Reed–Solomon (36, 32) code over GF(2^8), its check bytes and its two
decoding modes (R466, R468), and CRC-32C (R419, R532). -/
namespace Sys2Proof.Machine

/-! ## GF(2^8) with field polynomial 0x11D (R466) -/

/-- Multiplication by α. -/
def gfTwice (a : Byte) : Byte := (a <<< 1) ^^^ (if a.getLsbD 7 then 0x1D#8 else 0#8)

/-- α^n · a. -/
def gfShift (a : Byte) : Nat → Byte
  | 0 => a
  | n + 1 => gfTwice (gfShift a n)

/-- The product: the sum of a · α^i over the set bits i of b. -/
def gfMul (a b : Byte) : Byte :=
  (List.range 8).foldl (fun acc i => if b.getLsbD i then acc ^^^ gfShift a i else acc) 0#8

/-- α^n. -/
def gfExp (n : Nat) : Byte := gfShift 1#8 n

/-- The inverse, a^254; 0 for 0. -/
def gfInv (a : Byte) : Byte :=
  let a2 := gfMul a a
  let a4 := gfMul a2 a2
  let a8 := gfMul a4 a4
  let a16 := gfMul a8 a8
  let a32 := gfMul a16 a16
  let a64 := gfMul a32 a32
  let a128 := gfMul a64 a64
  gfMul (gfMul (gfMul a2 a4) (gfMul a8 a16)) (gfMul (gfMul a32 a64) a128)

/-! ## Check bytes (R466) -/

/-- Remainder of a polynomial division by g(x) = x^4 + 0x0F x^3 + 0x36 x^2 + 0x78 x + 0x40, highest coefficient first:
the remainder's coefficients of x^3 to x^0. -/
def weaveStep (r : Byte × Byte × Byte × Byte) (d : Byte) : Byte × Byte × Byte × Byte :=
  let f := d ^^^ r.1
  (r.2.1 ^^^ gfMul f 0x0F#8, r.2.2.1 ^^^ gfMul f 0x36#8, r.2.2.2 ^^^ gfMul f 0x78#8, gfMul f 0x40#8)

/-- The check bytes c0 to c3 of 32 data bytes. -/
def weaveCheck (data : List Byte) : List Byte :=
  let r := data.foldl weaveStep (0#8, 0#8, 0#8, 0#8)
  [r.1, r.2.1, r.2.2.1, r.2.2.2]

/-- The codeword of a granule. -/
def weaveWord (data : List Byte) : List Byte := data ++ weaveCheck data

/-- Syndrome j: the received polynomial at α^j, by Horner's rule. -/
def syndrome (j : Nat) (cw : List Byte) : Byte := cw.foldl (fun acc b => gfMul acc (gfExp j) ^^^ b) 0#8

/-! ## Decoding (R468, R470) -/

/-- What a decoder answers: the codeword, the symbols it changed, and whether the granule is uncorrectable. -/
structure Decoded where
  word : List Byte
  fixed : List Nat
  bad : Bool
  deriving DecidableEq, Repr, Inhabited

/-- Changes one symbol by a difference. -/
def addAt (cw : List Byte) (i : Nat) (d : Byte) : List Byte := cw.set i ((cw.getD i 0#8) ^^^ d)

/-- Locator of symbol i: α^(35 − i). -/
def locator (i : Nat) : Byte := gfExp (35 - i)

/-- DEFAULT mode: corrects one symbol in error (R468). -/
def decodeDefault (cw : List Byte) : Decoded :=
  let s0 := syndrome 0 cw
  let s1 := syndrome 1 cw
  let s2 := syndrome 2 cw
  let s3 := syndrome 3 cw
  if s0 = 0#8 ∧ s1 = 0#8 ∧ s2 = 0#8 ∧ s3 = 0#8 then ⟨cw, [], false⟩
  else
    match (List.range 36).find? (fun i =>
      let x := locator i
      s0 != 0#8 && s1 == gfMul s0 x && s2 == gfMul s1 x && s3 == gfMul s2 x) with
    | some i => ⟨addAt cw i s0, [i], false⟩
    | none => ⟨cw, [], true⟩

/-- The symbols of granule g of a group that travel on a lane (R470). -/
def laneSymbols (g lane : Nat) : List Nat := (List.range 36).filter (fun s => (36 * g + s) % 32 == lane)

/-- The lane of symbol s of granule g (R470). -/
def symbolLane (g s : Nat) : Nat := (36 * g + s) % 32

/-- Solves for at most two erased symbols once no other symbol is in error. -/
def fillErased (cw : List Byte) : List Nat → List Byte
  | [] => cw
  | [a] => addAt cw a (syndrome 0 cw)
  | a :: b :: _ =>
    let xa := locator a
    let xb := locator b
    let s0 := syndrome 0 cw
    let vb := gfMul (syndrome 1 cw ^^^ gfMul xa s0) (gfInv (xa ^^^ xb))
    addAt (addAt cw b vb) a (s0 ^^^ vb)

/-- The word has every syndrome 0. -/
def isCodeword (cw : List Byte) : Bool :=
  syndrome 0 cw == 0#8 && syndrome 1 cw == 0#8 && syndrome 2 cw == 0#8 && syndrome 3 cw == 0#8

/-- The error value at symbol i when symbols `er` are erased and i alone is in error, from the erasure-reduced
syndromes; none where they do not name i. -/
def errorAt (cw : List Byte) (er : List Nat) (i : Nat) : Option Byte :=
  let step (l : List Byte) (x : Byte) : List Byte := (l.zip (l.drop 1)).map (fun e => e.2 ^^^ gfMul x e.1)
  let reduced := er.foldl (fun l a => step l (locator a)) ((List.range 4).map (fun j => syndrome j cw))
  let x := locator i
  let fits := (reduced.zip (reduced.drop 1)).all (fun e => e.2 == gfMul e.1 x)
  let c := er.foldl (fun acc a => gfMul acc (x ^^^ locator a)) 1#8
  let v := gfMul (reduced.headD 0#8) (gfInv c)
  if fits && v != 0#8 then some v else none

/-- ERASURE mode: the erased symbols together with one further symbol, else as DEFAULT (R468). The rebuilt symbols are
not among the corrected ones (R469). -/
def decodeErasure (er : List Nat) (cw : List Byte) : Decoded :=
  let plain := fillErased cw er
  if isCodeword plain then ⟨plain, [], false⟩
  else
    match (List.range 36).findSome? (fun i =>
      if er.contains i then none
      else match errorAt cw er i with
        | none => none
        | some v =>
          let w := fillErased (addAt cw i v) er
          if isCodeword w then some (w, i) else none) with
    | some (w, i) => ⟨w, [i], false⟩
    | none => decodeDefault cw

/-! ## CRC-32C (R419) -/

/-- One bit of the reflected CRC with polynomial 0x82F63B78. -/
def crcBit (c : BitVec 32) : BitVec 32 := (c >>> 1) ^^^ (if c.getLsbD 0 then 0x82F63B78#32 else 0#32)

/-- One byte. -/
def crcByte (c : BitVec 32) (b : Byte) : BitVec 32 :=
  (List.range 8).foldl (fun x _ => crcBit x) (c ^^^ b.setWidth 32)

/-- CRC-32C of bytes, initial value and final XOR of all ones. -/
def crc32c (data : List Byte) : BitVec 32 := ~~~ (data.foldl crcByte (BitVec.allOnes 32))

end Sys2Proof.Machine
end

