-- ==== Sys2Proof/Machine/Cells.lean ====
section
/-! DEFINITION. What the loaded design is made of: the clock trees that drive it, its logic cells, multiplexer and carry chains
and routing wires, its queue controllers, and the lines of R402 between it and the hard units (R388 to R404, R438). -/
namespace Sys2Proof.Machine

/-! ## Trees and regions (R390, R392 to R397) -/

/-- Tree r of quadrant q; it comes up on divider r. -/
def State.tree (s : State) (q r : Nat) : Tree := Store.get { src := Fin.ofNat 4 r } r (s.quad q).trees
def State.setTree (s : State) (q r : Nat) (f : Tree → Tree) : State :=
  s.setQuad q (fun t => { t with trees := Store.put { src := Fin.ofNat 4 r } r (f (s.tree q r)) t.trees })

/-- Field r of QD_CLK_SEL: STOP, SEL_SRC and SRC. -/
def State.clkSel (s : State) (q r : Nat) : Nat := s.rd .qdClkSel q / 16 ^ r % 16
def State.treeStop (s : State) (q r : Nat) : Bool := (s.clkSel q r).testBit 3
def State.treeBySrc (s : State) (q r : Nat) : Bool := !(s.clkSel q r).testBit 2

/-- The tree clocks: ROOT is present, the domain is on, and no STOP. -/
def State.treeRuns (s : State) (q r : Nat) : Bool :=
  s.alive && s.tb.cfgOnRoot && s.rootPresent && !s.quadClosed q && !s.treeStop q r

/-- Ratio N of a tree's divider. -/
def State.treeRatio (s : State) (q r : Nat) : Nat := s.rd .qdClkDiv q / 2 ^ (16 * (s.tree q r).src.val) % 512

/-- The user reset that is asked for (R396). -/
def State.resetAsked (s : State) (q r : Nat) : Bool := (s.reg .qdReset q).getLsbD r || (s.tree q r).fabReset

/-- The present TIME count is a rising edge of a tree (R393). -/
def State.treeRises (s : State) (q r : Nat) : Bool := s.treeRuns q r && s.time % (4 * max (s.treeRatio q r) 1) == 0

/-- Region r of quadrant q. -/
def State.region (s : State) (q r : Nat) : Region := Store.get {} r (s.quad q).regions
def State.setRegion (s : State) (q r : Nat) (f : Region → Region) : State :=
  s.setQuad q (fun t => { t with regions := Store.put {} r (f (Store.get {} r t.regions)) t.regions })

/-- Region of a cell and of a queue controller (R390). -/
def regionOfCell (n : Nat) : Nat := n / 16384
def regionOfQueue (m : Nat) : Nat := m / 24

/-- The flip-flops of a region that a tree clocks are held at INIT: by global set/reset, until the second rising edge of the
tree after the upsett, or by the tree's user reset until the second one after its sources cleared; on that edge itself they
capture (R396, R433, log 156). -/
def State.heldAtInit (s : State) (q r tree : Nat) : Bool :=
  let g := s.region q r
  let rises := s.treeRises q tree
  let t := s.tree q tree
  g.gsr || !g.clocks || decide (rises.toNat < g.lags.getD tree 0)
    || (t.reset && !(rises && !s.resetAsked q tree && decide (1 ≤ t.edges)))

/-! ## Frames (R418) -/

def frameAddr (q t c m : Nat) : Nat := q * 2 ^ 18 + t * 2 ^ 15 + c * 2 ^ 6 + m

/-- The bytes of the frames of one type in columns `lo` to `lo + n − 1` of a quadrant, each after its address. -/
def State.framesOf (s : State) (q t lo n : Nat) : List Byte :=
  (s.cfg.frames.filter (fun e => decide (frameAddr q t lo 0 ≤ e.1) && decide (e.1 < frameAddr q t (lo + n) 0))).flatMap
    (fun e => leBytes 4 e.1 ++ e.2)

/-- The LOGIC and the ROUTING frames of a region. -/
def State.logicFrames (s : State) (q r : Nat) : List Byte := s.framesOf q 0 (128 * r) 128
def State.routingFrames (s : State) (q r : Nat) : List Byte := s.framesOf q 1 (128 * r) 128

/-- The POOL, PERSONALITY and CLOCK frames of a quadrant, which attach the lines of R402. -/
def State.attachFrames (s : State) (q : Nat) : List Byte := s.framesOf q 3 0 3 ++ s.framesOf q 4 0 24 ++ s.framesOf q 5 0 1

/-- Entry e of queue RAM k as its QRAM_INIT frames have it; a blank frame is zeros (R398, R418, log 156). -/
def State.initialEntry (s : State) (q k e : Nat) : BitVec 288 :=
  let at' := 36 * e
  let frame (m : Nat) := Store.get [] (frameAddr q 2 k m) s.cfg.frames
  BitVec.ofNat 288 (leNat ((upto 36).map (fun i => (frame ((at' + i) / 512)).getD ((at' + i) % 512) 0#8)))

/-! ## What the frames choose (R388, R391, R398) -/

def State.cellSetting (s : State) (q n : Nat) : CellSetting :=
  Config.cellSetting (s.logicFrames q (regionOfCell n)) (n % 16384)

def State.queueSetting (s : State) (q m : Nat) : QueueSetting :=
  Config.queueSetting (s.logicFrames q (regionOfQueue m) ++ s.routingFrames q (regionOfQueue m)) (m % 24)

/-- The frames that hold the select fields of the wires at a sink. -/
def State.framesAt (s : State) (q : Nat) : FabSink → List Byte
  | .input n _ => s.routingFrames q (regionOfCell n)
  | .select n _ => s.routingFrames q (regionOfCell n)
  | .queue m _ _ => s.routingFrames q (regionOfQueue m)
  | .border r _ => s.routingFrames q r
  | .bundle _ _ => s.attachFrames q
  | .lane _ _ | .probe _ _ | .pin _ _ => s.attachFrames q

def State.netSource (s : State) (q : Nat) (k : FabSink) : FabNet := Config.netSource (s.framesAt q k) k

/-! ## Lines into the design (R402) -/

/-- ABORT_IND of a bundle: its site is ABORTING, or its last abort began less than 1 µs ago. -/
def State.abortInd (s : State) (b : Nat) : Bool :=
  (match s.siteOf b with | some i => s.siteSt i == .aborting | none => false)
  || (decide (0 < s.rd .bndAbortCount b) && decide (s.time < s.rd .bndAbortTime b + 1750))

/-- TRIG_TOGGLE of a bundle: its site's line, where it is the lead bundle (R402). -/
def State.trigToggle (s : State) (b : Nat) : Bool :=
  match s.siteOf b with
  | some i => (s.bundlesOf i).headD 0 == b && (s.site i).run.trig
  | none => false

def State.cellMem (s : State) (b cell : Nat) : CellMem := Store.get {} cell (s.bnd b).pool.mem

/-- Output of a comparator cell: its decision, or in LATCHED the latched one (R144). -/
def State.cpOut (s : State) (b cell : Nat) : Bool :=
  match s.cellMode b cell with
  | 1 => (s.cellMem b cell).hi
  | 2 => (s.cellMem b cell).latched
  | _ => false

/-- Depth of the lane FIFOs (R404) and of a wave DAC's (R403). -/
def laneDepth : Nat := 32
def waveDepth : Nat := 16

/-- The bundle's site is in a state. -/
def State.siteIs (s : State) (b : Nat) (st : SiteSt) : Bool := (s.siteOf b).any (fun i => s.siteSt i == st)

/-- A line that the device gives the design (R402). -/
def State.lineTo (s : State) (q : Nat) : FabLine → Bool
  | .time i => s.time.testBit i
  | .abortInd b => s.abortInd b
  | .run b => s.siteIs b .running
  | .paused b => s.siteIs b .paused
  | .step b i => (s.siteOf b).any (fun k => (s.rd .siteStepNow k).testBit i)
  | .trigToggle b => s.trigToggle b
  | .cpOut b k => s.cpOut b (12 + k)
  | .meas b i => (s.reg .bndMeasLast b).getLsbD i
  | .measToggle b => (s.bnd b).meas.writeCount % 2 == 1
  | .laneRx p i => ((s.port p).lane.rxFifo.headD 0).getLsbD i
  | .laneRxReady p => !(s.port p).lane.rxFifo.isEmpty
  | .laneTxReady p => decide ((s.port p).lane.txFifo.length < laneDepth)
  | .laneSignal p => (s.port p).lane.signal
  | .eqSuperseded p => (s.port p).lane.superseded
  | .other n => Config.outerLine q n s.time

/-! ## Cells and chains (R388, R389) -/

/-- Entry of a table that its inputs, the lowest first, select. -/
def lookUp (table : Nat) (l : List Bool) : Bool := table.testBit (l.foldr (fun b a => 2 * a + b.toNat) 0)

/-- The inputs of a cell from the values of its wires. -/
def inputs (n k : Nat) (v : FabSink → Bool) : List Bool := (upto k).map (fun i => v (.input n i))

/-- The first table output: F6 of the whole table, or FA of its lower half (R388). -/
def tableA (c : CellSetting) (n : Nat) (v : FabSink → Bool) : Bool :=
  if c.split then lookUp (c.table.toNat % 2 ^ 32) (inputs n 5 v) else lookUp c.table.toNat (inputs n 6 v)

/-- The second table output: FB of the upper half; a WHOLE cell has none (log 156). -/
def tableB (c : CellSetting) (n : Nat) (v : FabSink → Bool) (t : Nat) : Bool :=
  if c.split then lookUp (c.table.toNat / 2 ^ 32) (inputs n 5 v) else Config.fabricOpen t

/-- Carry into a cell: that of the cell below, through a chain of at most 256 cells, else the value that its setting names
(R388, R389). -/
def carryIn (c : Nat → CellSetting) (v : FabSink → Bool) : Nat → Nat → Bool
  | 0, n => (c n).carry
  | k + 1, n =>
    if (c n).chained && n != 0 && !Config.columnFoot n then
      let a := v (.input (n - 1) 0)
      let b := v (.input (n - 1) 1)
      let i := carryIn c v k (n - 1)
      (a && b) || (a && i) || (b && i)
    else (c n).carry

/-- The carry sum of a cell. -/
def carrySum (c : Nat → CellSetting) (v : FabSink → Bool) (n : Nat) : Bool :=
  (v (.input n 0) ^^ v (.input n 1)) ^^ carryIn c v 255 n

/-- K0 and K1 of a cell. -/
def State.flops (s : State) (q n : Nat) : Bool × Bool :=
  match Store.get none n (s.quad q).cells with
  | some k => k
  | none => ((s.cellSetting q n).init0, (s.cellSetting q n).init1)

/-- An output of a cell from the values of its wires. -/
def State.cellOut (s : State) (q n : Nat) (second : Bool) (v : FabSink → Bool) : Bool :=
  let c := s.cellSetting q n
  if second then (if c.reg1 then (s.flops q n).2 else tableB c n v s.time)
  else if c.reg0 then (s.flops q n).1 else tableA c n v

/-- A wide multiplexer over 2^depth adjacent cells of one group of 8 (R389). -/
def State.wideMux (s : State) (q : Nat) (v : FabSink → Bool) : Nat → Nat → Bool
  | 0, n => tableA (s.cellSetting q n) n v
  | d + 1, n => if v (.select n (d + 1)) then s.wideMux q v d (n + 2 ^ d) else s.wideMux q v d n

/-! ## Queue controllers (R398 to R401) -/

def State.queueCtl (s : State) (q m : Nat) : QueueCtl := Store.get {} m (s.quad q).ctls

/-- Entries as each side of a FIFO knows them: one that the other side has not told of is counted by the writer and not by the
reader. -/
def QueueCtl.atWrite (c : QueueCtl) : Nat := c.writes - (c.reads - c.toWrite.length)
def QueueCtl.atRead (c : QueueCtl) : Nat := c.writes - c.toRead.length - c.reads

def QueueCtl.full (c : QueueCtl) : Bool := decide (256 ≤ c.atWrite)
def QueueCtl.empty (c : QueueCtl) : Bool := c.atRead == 0

/-- Lines of a controller to the design: 0 to 287 the data that the last read delivered, 288 CORRECTED, 289 POISON; of a FIFO
290 FULL, 291 AFULL, 292 EMPTY, 293 AEMPTY (log 156). -/
def QueueCtl.line (c : QueueCtl) (k : QueueSetting) (upper : Bool) (n : Nat) : Bool :=
  if n < 288 then (if upper then c.out1 else c.out0).getLsbD n
  else match n with
    | 288 => if upper then c.fixed1 else c.fixed0
    | 289 => if upper then c.poison1 else c.poison0
    | 290 => c.full
    | 291 => decide (k.afull ≤ c.atWrite)
    | 292 => c.empty
    | 293 => decide (c.atRead ≤ k.aempty)
    | _ => false

/-! ## Wires (R391, R438) -/

/-- A signal that leaves a region whose latches are closed: as its setting says (R438). -/
def State.latch (s : State) (q r sig : Nat) : Bool :=
  match s.domNat .qdBorderState q 0 (512 * r + sig / 4) 1 / 4 ^ (sig % 4) % 4 with
  | 1 => false
  | 2 => true
  | _ => (s.region q r).latched.testBit sig

/-- Value of the wire that ends at a sink, through at most `fuel` wires. -/
def State.wire (s : State) (q : Nat) : Nat → FabSink → Bool
  | 0, _ => Config.fabricOpen s.time
  | f + 1, k =>
    match s.netSource q k with
    | .zero => false
    | .cell n second => s.cellOut q n second (s.wire q f)
    | .mux n d => decide (d ≤ 3) && n % 2 ^ d == 0 && s.wideMux q (s.wire q f) d n
    | .queue m upper n => (s.queueCtl q m).line (s.queueSetting q m) upper n
    | .border r sig => if (s.region q r).closed then s.latch q r sig else s.wire q f (.border r sig)
    | .line l => s.lineTo q l

/-- Value of the wire at a sink; no wire of a design without a loop passes through more cells than there are. -/
def State.wireAt (s : State) (q : Nat) (k : FabSink) : Bool := s.wire q 65537 k

/-- The design is there: a configuration is in force, and it has frames. -/
def State.designed (s : State) : Bool := s.cfg.loaded && !s.cfg.frames.isEmpty

/-- Line n of the design into bundle b, and into the lane interface of port p; 0 without a configuration (R402, log 130). -/
def State.lineIn (s : State) (b n : Nat) : Bool := s.designed && s.wireAt (b / 3) (.bundle b n)
def State.laneIn (s : State) (p n : Nat) : Bool := s.designed && s.wireAt (p / 24) (.lane p n)

/-- n lines from line `lo` on, as a number. -/
def lineField (lo n : Nat) (v : Nat → Bool) : Nat := (upto n).foldr (fun i a => 2 * a + (v (lo + i)).toNat) 0

/-- The tree of a line's interface rises at the present count. -/
def State.lineRises (s : State) (q : Nat) (k : FabSink) : Bool :=
  s.treeRises q (Config.lineTree (s.attachFrames q) k).val

/-! ## One TIME tick (R388, R396, R400, R401, R433) -/

/-- What a cell's flip-flops hold after the present count (R388, R396): INIT while they are held or their set/reset is
asserted, else on a rising edge with the clock enable what they capture. -/
def State.cellNext (s : State) (q n : Nat) : Option (Bool × Bool) :=
  let c := s.cellSetting q n
  let v := s.wireAt q
  let old := Store.get none n (s.quad q).cells
  let rises := s.treeRises q c.tree.val
  if s.heldAtInit q (regionOfCell n) c.tree.val then none
  else if v (.input n 8) && (c.async || rises) then none
  else if !(rises && v (.input n 7)) then old
  else
    let k0 := if c.bypass0 then v (.input n 6) else tableA c n v
    let k1 := match c.from1 with
      | 0 => tableB c n v s.time
      | 1 => carrySum (s.cellSetting q) v n
      | _ => if c.split then v (.input n 5) else Config.fabricOpen s.time
    some (k0, k1)

/-- Pins of a controller's RAM: data, write enable, read enable, write address, read address (log 156). -/
def pinWrite : Nat := 288
def pinRead : Nat := 289
def pinWriteAddr : Nat := 290
def pinReadAddr : Nat := 297

/-- What the write side stores for the data that the design supplies (R398). -/
def storedEntry (k : QueueSetting) (d : BitVec 288) : BitVec 288 :=
  if k.encode then BitVec.ofNat 288 (leNat (weaveWord (leBytes 32 d.toNat))) else d

/-- An entry as the read side delivers it, whether it was corrected, and whether it is poisoned (R398, R401). -/
def deliveredEntry (k : QueueSetting) (d : BitVec 288) : BitVec 288 × Bool × Bool :=
  if !k.decode then (d, false, false)
  else
    let x := decodeDefault (leBytes 36 d.toNat)
    (BitVec.ofNat 288 (leNat x.word), !x.fixed.isEmpty, x.bad)

/-- Entry at a place of a controller's RAMs. -/
def State.entryAt (s : State) (q m place : Nat) : BitVec 288 :=
  (Store.get none place (s.queueCtl q m).mem).getD (s.initialEntry q (2 * m + place / 128) (place % 128))

/-- Counts an error of a queue controller: 0 CORRECTED, 1 UNCORRECTABLE, 2 OVERFLOW, 3 UNDERFLOW (R415). -/
def State.countQueue (s : State) (q m k : Nat) (hit : Bool) : State :=
  if !hit then s else
    s.setQuad q (fun t => { t with queueErr := Store.put 0 (4 * m + k) (min (Store.get 0 (4 * m + k) t.queueErr + 1) 0xFFFF) t.queueErr })

def State.setCtl (s : State) (q m : Nat) (f : QueueCtl → QueueCtl) : State :=
  s.setQuad q (fun t => { t with ctls := Store.put {} m (f (s.queueCtl q m)) t.ctls })

/-- What a read delivers reaches the lines of a side. -/
def QueueCtl.give (c : QueueCtl) (upper : Bool) (x : BitVec 288 × Bool × Bool) : QueueCtl :=
  if upper then { c with out1 := x.1, fixed1 := x.2.1, poison1 := x.2.2 }
  else { c with out0 := x.1, fixed0 := x.2.1, poison0 := x.2.2 }

/-- A read delivers an entry: the data, CORRECTED and POISON, and the counters. -/
def State.queueRead (s : State) (q m : Nat) (upper : Bool) (d : BitVec 288) : State :=
  let x := deliveredEntry (s.queueSetting q m) d
  ((s.setCtl q m (fun c => c.give upper x)).countQueue q m 0 x.2.1).countQueue q m 1 x.2.2

/-- One RAM of a PAIR_RAM at the present count; `old` is the state before it (R398, R399). -/
def State.pairTick (old : State) (q m : Nat) (upper : Bool) (s : State) : State :=
  let k := old.queueSetting q m
  let v (n : Nat) := old.wireAt q (.queue m upper n)
  let base := if upper then 128 else 0
  let wEdge := old.treeRises q k.writeTree.val
  let rEdge := old.treeRises q k.readTree.val
  let w := wEdge && v pinWrite && (old.region q (regionOfQueue m)).writes
  let wp := base + lineField pinWriteAddr 7 v
  let rp := base + lineField pinReadAddr 7 v
  let s := if rEdge then s.setCtl q m (fun c => if upper then { c with fixed1 := false } else { c with fixed0 := false }) else s
  let s := if rEdge && v pinRead then
      s.queueRead q m upper (if w && wp == rp then Config.readMeetsWrite s.time else old.entryAt q m rp)
    else s
  if w then s.setCtl q m (fun c => { c with mem := Store.put none wp (some (storedEntry k (BitVec.ofNat 288 (lineField 0 288 v)))) c.mem })
  else s

/-- Operations of the other side come one edge nearer; those that have come are known (R400). -/
def nearer (l : List Nat) : List Nat := (l.map (· - 1)).filter (· != 0)

/-- Edges until the other side learns of an operation: one to three (R400, log 156). -/
def State.flagLag (s : State) : Nat × State :=
  let (n, s) := s.free 2
  (1 + n % 3, s)

/-- The write side of a FIFO at a rising edge of its clock (R400). -/
def State.fifoWrite (old : State) (q m : Nat) (s : State) : State :=
  let k := old.queueSetting q m
  let v (n : Nat) := old.wireAt q (.queue m false n)
  let s := s.setCtl q m (fun c => { c with toWrite := nearer c.toWrite })
  if !(v pinWrite && (old.region q (regionOfQueue m)).writes) then s
  else if (old.queueCtl q m).full then s.countQueue q m 2 true
  else
    let (lag, s) := s.flagLag
    s.setCtl q m (fun c => { c with
      mem := Store.put none (c.writes % 256) (some (storedEntry k (BitVec.ofNat 288 (lineField 0 288 v)))) c.mem
      writes := c.writes + 1, toRead := c.toRead ++ [lag] })

/-- The read side of a FIFO at a rising edge of its clock (R400, R401). -/
def State.fifoRead (old : State) (q m : Nat) (s : State) : State :=
  let v (n : Nat) := old.wireAt q (.queue m false n)
  let c := old.queueCtl q m
  let s := s.setCtl q m (fun c => { c with toRead := nearer c.toRead, fixed0 := false })
  if !v pinRead then s
  else if c.empty then s.countQueue q m 3 true
  else
    let (lag, s) := s.flagLag
    (s.setCtl q m (fun c => { c with reads := c.reads + 1, toWrite := c.toWrite ++ [lag] })).queueRead q m false
      (old.entryAt q m (c.reads % 256))

/-- A queue controller at the present count; a reset of its trees empties its FIFO (R396, log 156). -/
def State.queueTick (old : State) (q m : Nat) (s : State) : State :=
  let k := old.queueSetting q m
  let r := regionOfQueue m
  if !(old.region q r).clocks then s
  else if !k.fifo then old.pairTick q m true (old.pairTick q m false s)
  else if old.heldAtInit q r k.writeTree.val || old.heldAtInit q r k.readTree.val then
    s.setCtl q m (fun c => { c with writes := 0, reads := 0, toWrite := [], toRead := [] })
  else
    let s := if old.treeRises q k.readTree.val then old.fifoRead q m s else s
    if old.treeRises q k.writeTree.val then old.fifoWrite q m s else s

/-- Lines of the design into a bundle (R402), by number: INT_RST of the AF cells, TH_HOLD, TH_SEL, WD_SAMPLE and WD_WRITE. -/
def lineIntRst (cell : Nat) : Nat := cell
def lineThHold (th : Nat) : Nat := 8 + th
def lineThSel (th bit : Nat) : Nat := 12 + 2 * th + bit
def lineWdSample (wd : Nat) : Nat := 16 + 16 * wd
def lineWdWrite (wd : Nat) : Nat := 48 + wd
/-- Lines of the design into a lane interface (R402): the TX entry, its write, and the read of the RX FIFO. -/
def lineTxWrite : Nat := 288
def lineRxRead : Nat := 289

/-- A wave DAC of a bundle. -/
def State.osc (s : State) (b wd : Nat) : WaveOsc := if wd == 0 then (s.bnd b).pool.wd0 else (s.bnd b).pool.wd1

def State.setOsc (s : State) (b wd : Nat) (f : WaveOsc → WaveOsc) : State :=
  s.setBnd b (fun x => { x with pool :=
    if wd == 0 then { x.pool with wd0 := f x.pool.wd0 } else { x.pool with wd1 := f x.pool.wd1 } })

/-- WD_WRITE at a rising edge of its tree: the sample enters the FIFO; a write to the full FIFO is ignored (R403). -/
def State.waveWrite (old : State) (b wd : Nat) (s : State) : State :=
  if !(old.lineRises (b / 3) (.bundle b (lineWdWrite wd)) && old.lineIn b (lineWdWrite wd)) then s else
    let x := signed 16 (lineField (lineWdSample wd) 16 (old.lineIn b))
    s.setOsc b wd (fun o => if o.fifo.length < waveDepth then { o with fifo := o.fifo ++ [x] } else o)

/-- The cells of a quadrant after the present count. -/
def State.cellsTick (old : State) (q : Nat) : Store (Option (Bool × Bool)) :=
  (upto 65536).filterMap (fun n => (old.cellNext q n).map (fun k => (n, some k)))

/-- The design in a quadrant at a new TIME count: cells, queue controllers and its writes to the wave DACs, each from the state
`old` before it. -/
def State.designTick (old : State) (q : Nat) (s : State) : State :=
  let cells := old.cellsTick q
  let s := s.setQuad q (fun t => { t with cells := cells })
  let s := s.each (upto 96) (fun m s => old.queueTick q m s)
  s.each (upto 3) (fun j s => s.each (upto 2) (fun wd s => old.waveWrite (3 * q + j) wd s))

/-- The trees of a quadrant at a new TIME count: a rising edge brings the release of a user reset and of a region nearer, and the
second one releases it (R396, R433). -/
def State.treeEdge (s : State) (q r : Nat) : State :=
  let s := if (s.tree q r).reset && !s.resetAsked q r then
      s.setTree q r (fun t => if 1 ≤ t.edges then { t with reset := false, edges := 0 } else { t with edges := t.edges + 1 })
    else s
  s.setQuad q (fun t => { t with regions := t.regions.map (fun e =>
    (e.1, if e.2.clocks then { e.2 with lags := e.2.lags.set r (e.2.lags.getD r 0 - 1) } else e.2)) })

/-- Something of a quadrant waits for a tree's edges. -/
def Quad.waitsForEdges (t : Quad) : Bool := t.trees.any (fun e => e.2.reset) || t.regions.any (fun e => e.2.lags.any (· != 0))

/-- The fabric at a new TIME count; nothing of it moves but at a FAB-input edge or by an asynchronous reset (R393). -/
def State.fabricTick (old s : State) : State :=
  s.each (upto 4) (fun q s =>
    if s.quadClosed q then s else
      let s := if old.designed then old.designTick q s else s
      if (s.quad q).waitsForEdges then
        s.each (upto 4) (fun r s => if s.treeRises q r then s.treeEdge q r else s)
      else s)

/-! ## A region is configured anew (R399, R401, R433, R437, R438) -/

/-- Cells, RAM contents, FIFOs and error counters of a region as an upsett leaves them (R399, R401, R433). -/
def State.freshRegion (s : State) (q r : Nat) : State :=
  s.setQuad q (fun t => { t with
    cells := Store.clear (16384 * r) (16384 * r + 16384) t.cells
    ctls := Store.clear (24 * r) (24 * r + 24) t.ctls
    queueErr := Store.clear (96 * r) (96 * r + 96) t.queueErr })

/-- What each signal that leaves a region is, as bits (R438). -/
def State.signals (s : State) (q r : Nat) : Nat :=
  if s.designed then lineField 0 2048 (fun i => s.wireAt q (.border r i)) else 0

end Sys2Proof.Machine
end

