-- ==== Sys2Proof/Machine/Pool.lean ====
section
/-! DEFINITION. The bundle analogue pool and the measurement chain (R137 to R175). -/
namespace Sys2Proof.Machine

/-! ## Cells (R137 to R146) -/

/-- Kinds of cells (R137). -/
inductive CellKind where
  | af | fd | wd | cp | th
  deriving DecidableEq, Repr, Inhabited

def cellKind (n : Nat) : CellKind :=
  if n < 6 then .af else if n < 10 then .fd else if n < 12 then .wd else if n < 14 then .cp else .th

/-- The cell has analogue terminal t: 0 OUT, 1 IN0, 2 IN1, 3 IN2, 4 IN3 (R137, R147). -/
def hasTerminal (cell t : Nat) : Bool :=
  match cellKind cell with
  | .af => decide (t ≤ 2)
  | .fd | .wd => t == 0
  | .cp => t == 1 || t == 2
  | .th => decide (t ≤ 4)

/-- W0 of a cell obeys its layout: reserved bits are 0, the mode exists, and the fields that the mode uses lie in their
sets (R138, R140, R142 to R145). -/
def cellWordOk (cell : Nat) (w : Word) : Bool :=
  let mode := w.fld 0 8
  match cellKind cell with
  | .af =>
    w.fld 46 18 == 0 && decide (mode ≤ 6) &&
    (match mode with
     | 1 => decide (w.fld 8 4 ≤ 8)
     | 2 => decide (w.fld 12 4 ≤ 5)
     | 3 => decide (w.fld 16 3 ≤ 4) && decide (w.fld 19 2 ≤ 2)
     | 4 | 5 | 6 => decide (w.fld 8 4 ≤ 3) && decide (w.fld 21 13 ≤ 5103) && decide (32 ≤ w.fld 34 12)
         && decide (w.fld 34 12 ≤ 2048)
     | _ => true)
  | .fd =>
    w.fld 34 30 == 0 && w.fld 9 7 == 0 && decide (mode ≤ 1)
      && !(mode == 1 && w.getLsbD 8 && decide (signed 18 (w.fld 16 18) < -65536))
  | .wd => w.fld 10 54 == 0 && decide (mode ≤ 3) && (mode == 0 || decide (w.fld 8 2 ≤ 2))
  | .cp => w.fld 29 35 == 0 && decide (mode ≤ 2)
  | .th => w.fld 11 53 == 0 && decide (mode ≤ 2)

/-- W0 of a cell as written. -/
def State.cellWord (s : State) (b cell : Nat) : Word := Word.of (s.domNat .bndPoolCells b 0 (16 * cell) 8)

/-- The new W0 of cell may come into force with the links as they are (R146). GAIN of an FD cell and FS of a WD cell count as
changed in every MODE, OFF included (log 131). -/
def cellChangeOk (s : State) (b cell : Nat) (w : Word) : Bool :=
  let old := s.cellWord b cell
  let outLinked := s.linkOf b cell 0 != 0x3F
  let modeChange := w.fld 0 8 != old.fld 0 8
  let tia := (w.fld 0 8 == 2) != (old.fld 0 8 == 2)
  !(modeChange && outLinked) &&
  !(cellKind cell == .af && tia && s.linkOf b cell 2 != 0x3F) &&
  !(cellKind cell == .fd && w.getLsbD 8 != old.getLsbD 8 && outLinked) &&
  !(cellKind cell == .wd && w.fld 8 2 != old.fld 8 2 && outLinked)

/-- The cells and words that a block write of BND_POOL_CELLS carries. -/
def cellsOf (off : Nat) (data : List Byte) : List (Nat × List Byte) :=
  (upto (data.length / 16)).map (fun i => (off / 16 + i, (data.drop (16 * i)).take 16))

def poolCellsState (s : State) (b off : Nat) (data : List Byte) : Status :=
  require (!(off % 16 == 0 && data.length % 16 == 0) ||
    (cellsOf off data).all (fun e => cellChangeOk s b e.1 (Word.of (leNat (e.2.take 8))))) .state

def poolCellsRange (off : Nat) (data : List Byte) : Status :=
  require (off % 16 == 0 && data.length % 16 == 0 &&
    (cellsOf off data).all (fun e => cellWordOk e.1 (Word.of (leNat (e.2.take 8))) && leNat (e.2.drop 8) == 0)) .range

/-! ## Wave DACs (R154 to R157) -/

/-- Fields of a wave DAC's 16 bytes (R156). -/
structure WaveRegs where
  ftw : Nat
  pofs : Nat
  ampl : Nat
  offset : Int
  ctrl : Nat
  rest : Nat
  deriving DecidableEq, Repr, Inhabited

def waveRegs (bytes : List Byte) : WaveRegs :=
  { ftw := leNat (bytes.take 6), pofs := leNat ((bytes.drop 6).take 2), ampl := leNat ((bytes.drop 8).take 2),
    offset := signed 16 (leNat ((bytes.drop 10).take 2)), ctrl := leNat ((bytes.drop 12).take 1),
    rest := leNat ((bytes.drop 13).take 3) }

def State.wave (s : State) (b wd : Nat) : WaveRegs := waveRegs (s.dom .bndPoolWave b 0 (16 * wd) 16)

/-- First multiple of n at or after t. -/
def alignUp (t n : Nat) : Nat := ceilDiv t n * n

/-- Sine terms in fixed point, scale 2^64: ((((1 − x²/(2k(2k+1)))…) by Horner from k down. -/
def sineHorner (x2 : Int) : Nat → Int
  | 0 => 2 ^ 64
  | k + 1 =>
    let n : Int := 2 * (12 - k) * (2 * (12 - k) + 1)
    2 ^ 64 - (x2 * sineHorner x2 k / 2 ^ 64) / n

/-- T[j] of R155: round(262,143 sin(2π(j + 0.5)/16,384)), from π to 64 fractional bits. -/
def sineTable (j : Nat) : Int :=
  let pi64 : Int := 57952155664616982739
  let x : Int := pi64 * (2 * (j : Int) + 1) / 16384
  let x2 : Int := x * x / 2 ^ 64
  let sin64 : Int := x * sineHorner x2 12 / 2 ^ 64
  (262143 * sin64 + 2 ^ 63) / 2 ^ 64

/-- The DDS sample y of a phase ACC (R155). -/
def ddsSample (acc : Nat) (r : WaveRegs) : Int :=
  let θ := (acc / 2 ^ 32 + r.pofs) % 2 ^ 16
  let i := θ / 4 % 4096
  let v := match θ / 2 ^ 14 with
    | 0 => sineTable i
    | 1 => sineTable (4095 - i)
    | 2 => -sineTable i
    | _ => -sineTable (4095 - i)
  clampInt (-32768) 32767 (roundDiv (v * r.ampl) (2 ^ 18) + r.offset)

/-- The wave registers that a block write would leave for each wave DAC it touches lie in their sets (R154, R156). -/
def poolWaveRange (s : State) (b off : Nat) (data : List Byte) : Status :=
  let old := s.dom .bndPoolWave b 0 0 32
  let new := old.take off ++ data ++ old.drop (off + data.length)
  let ok (bytes : List Byte) :=
    let r := waveRegs bytes
    decide (r.ftw ≤ 0x666666666666) && decide (r.ampl ≤ 32767) && decide (r.ctrl < 4) && r.rest == 0
  require ((!(decide (off < 16)) || ok (new.take 16)) && (!(decide (16 < off + data.length)) || ok (new.drop 16))) .range

/-- The sample that a wave DAC forms on the WAVE edge at a TIME count, with ACC as it is then (R143, R155, R158). -/
def State.waveSample (s : State) (b wd acc t : Nat) : Int :=
  let r := s.wave b wd
  match s.cellMode b (10 + wd) with
  | 1 => ddsSample acc r
  | 2 => (s.osc b wd).fifo.headD (s.osc b wd).y
  | 3 => r.offset
  | _ => (s.osc b wd).y

/-- ACC on the WAVE edge at a TIME count: cleared where a clear is due, else one FTW further in DDS (R154, R157). -/
def State.waveAcc (s : State) (b wd t : Nat) : Nat :=
  let o := s.osc b wd
  if o.clearAt.any (fun e => decide (e ≤ t)) then 0
  else if s.cellMode b (10 + wd) == 1 then (o.acc + (s.wave b wd).ftw) % 2 ^ 48 else o.acc

/-- The WAVE edge at a TIME count, a multiple of 4 (R154 to R158). In STREAM it takes a sample of the FIFO; with none, the last one
is repeated and STREAM_UNDERRUN is set (R158, R403). -/
def State.waveEdge (s : State) (b wd t : Nat) : State :=
  if s.cellMode b (10 + wd) == 0 && (s.osc b wd).clearAt.isNone then s else
    let acc := s.waveAcc b wd t
    let y := s.waveSample b wd acc t
    let streams := s.cellMode b (10 + wd) == 2
    s.setOsc b wd (fun o => { o with
      acc := acc, y := y, clearAt := o.clearAt.bind (fun e => if e ≤ t then none else some e)
      fifo := if streams then o.fifo.drop 1 else o.fifo, underrun := o.underrun || (streams && o.fifo.isEmpty) })

/-- ACC is cleared on the first WAVE edge at or after a TIME count; where that edge is past, ACC counts from it (R157). -/
def State.clearAcc (s : State) (b wd t : Nat) : State :=
  let e := alignUp t 4
  s.setOsc b wd (fun o =>
    if s.time < e then { o with clearAt := some e }
    else
      let acc := if s.cellMode b (10 + wd) == 1 then (s.wave b wd).ftw * (s.time / 4 - e / 4) % 2 ^ 48 else 0
      let y := if s.cellMode b (10 + wd) == 2 then o.y else s.waveSample b wd acc (s.time / 4 * 4)
      { o with clearAt := none, acc := acc, y := y })

/-- The effect of an accepted BND_POOL_WAVE write: the next WAVE edge forms its sample from every field that the write
carries, and a clear is due on that edge (R157, R158). -/
def poolWaveEffect (b off : Nat) (data : List Byte) (s : State) : State :=
  let s := s.setDom .bndPoolWave b 0 off data
  let touched (wd : Nat) := decide (off < 16 * wd + 16) && decide (16 * wd < off + data.length)
  s.each [0, 1] (fun wd s =>
    if !touched wd then s else
      let r := s.wave b wd
      let s := s.setDom .bndPoolWave b 0 (16 * wd + 12) [BitVec.ofNat 8 (r.ctrl / 2 * 2)]
      let s := s.setOsc b wd (fun o => { o with underrun := false })
      if r.ctrl % 2 == 1 then s.clearAcc b wd (s.time + 1) else s)

/-- The effect of an accepted BND_POOL_CELLS write: fields in force, blanks of FD GAIN and WD FS, which a change of that
field starts in every mode (R146, log 131). A cell whose MODE changes remembers nothing (log 132). -/
def poolCellsEffect (b off : Nat) (data : List Byte) (s : State) : State :=
  let changed := (cellsOf off data).filterMap (fun e =>
    let w := Word.of (leNat (e.2.take 8))
    let old := s.cellWord b e.1
    let fd := cellKind e.1 == .fd && w.getLsbD 8 != old.getLsbD 8
    let wd := cellKind e.1 == .wd && w.fld 8 2 != old.fld 8 2
    if fd || wd then some (Fin.ofNat 16 e.1) else none)
  let moved := (cellsOf off data).filterMap (fun e =>
    if (Word.of (leNat (e.2.take 8))).fld 0 8 != (s.cellWord b e.1).fld 0 8 then some e.1 else none)
  let s := s.setDom .bndPoolCells b 0 off data
  s.setBnd b (fun x => { x with pool := { x.pool with
    blanks := changed ++ x.pool.blanks, blankAt := changed.foldl (fun m c => Store.put 0 c.val s.elapsed m) x.pool.blankAt, mem := moved.foldl (fun m c => Store.put {} c {} m) x.pool.mem } })

/-! ## The switch matrix (R147 to R153) -/

/-- The fields of BND_POOL_LINK (R148). -/
structure LinkReq where
  close : Bool
  terminal : Nat
  cell : Nat
  node : Nat
  deriving DecidableEq, Repr, Inhabited

def linkReq (v : Nat) : LinkReq :=
  { close := v.testBit 24, terminal := v / 65536 % 8, cell := v / 256 % 16, node := v % 64 }

/-- The word that requests a link (R148). -/
def linkWord (close : Bool) (node cell terminal : Nat) : Nat :=
  (if close then 2 ^ 24 else 0) + terminal * 65536 + cell * 256 + node

/-- The link request names a node and terminal that exist (R147, R148). -/
def poolLinkRange (v : Nat) : Status :=
  let r := linkReq v
  let reserved := v / 2 ^ 25 == 0 && v / 2 ^ 19 % 32 == 0 && v / 2 ^ 12 % 16 == 0 && v / 2 ^ 6 % 4 == 0
  let node := decide (r.node ≤ 9) ||
    (r.terminal != 0 && ((decide (0x10 ≤ r.node) && decide (r.node ≤ 0x1F) && r.node != 0x1C && r.node != 0x1D)
      || r.node == 0x20 || r.node == 0x21))
  require (reserved && decide (r.terminal ≤ 4) && hasTerminal r.cell r.terminal && (!r.close || node)) .range

/-- The terminal would be a source on a node (R150). -/
def linkIsSource (s : State) (b : Nat) (r : LinkReq) : Bool :=
  r.terminal == 0 || (decide (r.cell < 6) && r.terminal == 2 && s.cellMode b r.cell == 2)

def poolLinkState (s : State) (b v : Nat) : Status :=
  let r := linkReq v
  let now := s.linkOf b r.cell r.terminal
  let onPort := decide (r.node ≤ 8)
  let p := portOfNode b r.node
  if !r.close then .ok
  else if now == r.node then require (!(onPort && s.held p)) .busy
  else
    firstRefusal
      [require (!(r.terminal == 0 && now != 0x3F)) .state,
       require (!(onPort && s.held p)) .busy,
       require (!(r.terminal == 0 && (s.bnd b).pool.blanks.any (fun c => c.val == r.cell))) .busy]

/-- A second source on a node is refused (R105, R150). -/
def poolLinkInterlock (s : State) (b v : Nat) : Status :=
  let r := linkReq v
  if !r.close || s.linkOf b r.cell r.terminal == r.node || !linkIsSource s b r || decide (9 < r.node) then .ok else
    let pool := (upto 16).any (fun c => s.cellSource b c r.node)
    let port := decide (r.node ≤ 8) && (s.enables (portOfNode b r.node)).source
    require (!(pool || port)) .interlock

/-- A pool source on a port node counts as drive for R103: a close that would break that rule is refused (log 20). -/
def poolLinkPin (s : State) (b v : Nat) : Status :=
  let r := linkReq v
  if !r.close || !linkIsSource s b r || decide (8 < r.node) then .ok else
    let p := portOfNode b r.node
    require (s.pinRule p ((s.enables p).set .portEnDrive true)) .state

def poolLinkEffect (b v : Nat) (s : State) : State :=
  let r := linkReq v
  let s := s.wr .bndPoolLink v b
  s.setBnd b (fun x =>
    let l := Store.put 0x3F (8 * r.cell + r.terminal) (if r.close then r.node else 0x3F) x.pool.links
    { x with pool := { x.pool with links := l } })

/-- One more INTERLOCK refusal of the bundle (R150, R172). -/
def countInterlock (b : Nat) (s : State) : State :=
  s.setBnd b (fun x => { x with pool := { x.pool with interlocks := min (x.pool.interlocks + 1) 0xFFFFFFFF } })

/-- BND_POOL_MAP byte i (R153). -/
def State.poolMap (s : State) (b i : Nat) : Byte :=
  let cell := i / 5
  let t := i % 5
  if hasTerminal cell t then BitVec.ofNat 8 (s.linkOf b cell t) else 0xFF#8

/-- Opens every link between a cell terminal and the port node of p, in the Cut phase (R152). -/
def State.openPortLinks (s : State) (p : Nat) : State :=
  s.setBnd (bundleOfPort p) (fun x => { x with pool := { x.pool with
    links := x.pool.links.filter (fun e => e.2 != nodeOfPort p) } })

/-! ## Measurement chain (R159 to R170) -/

/-- A preset's stages: sinc5 with the FIR or sinc3 without, the sinc decimation, the averager's length (R159). -/
structure Preset where
  sinc5 : Bool
  decimation : Nat
  average : Nat
  deriving DecidableEq, Repr, Inhabited

def preset : Nat → Preset
  | 0 => ⟨false, 32, 1⟩
  | 1 => ⟨false, 128, 1⟩
  | 2 => ⟨true, 256, 1⟩
  | 3 => ⟨true, 1024, 1⟩
  | _ => ⟨true, 1024, 8⟩

/-- Stages of the sinc filter. -/
def Preset.order (p : Preset) : Nat := if p.sinc5 then 5 else 3

/-- Sinc decimation: with SCS the full OSR, which the FIR no longer shares (R162). -/
def Preset.periods (p : Preset) (scs : Bool) : Nat := if scs && p.sinc5 then 2 * p.decimation else p.decimation

def State.measPreset (s : State) (b : Nat) : Preset := preset ((s.reg .bndMeasConfig b).fld 0 3)
def State.measScs (s : State) (b : Nat) : Bool := (s.reg .bndMeasConfig b).getLsbD 3

/-- Tap i of a bank: as written, or the vendor's (R165). -/
def State.tap (s : State) (b : Nat) (bank : Bool) (i : Nat) : Int :=
  let k := (if bank then 64 else 0) + i
  signed 32 (((Store.get none k (s.bnd b).meas.taps).getD (Config.vendorTap i)).toNat)

/-- Bytes of BND_MEAS_COEF as they read. -/
def State.coefBytes (s : State) (b off n : Nat) : List Byte :=
  ((leBytes' s b).drop off).take n
where
  /-- all 512 bytes -/
  leBytes' (s : State) (b : Nat) : List Byte :=
    (upto 128).flatMap (fun k => leBytes 4 (unsigned 32 (s.tap b (decide (64 ≤ k)) (k % 64))))

/-- The FIR sum of a bank over a history, newest first (R165). -/
def firSum (s : State) (b : Nat) (bank : Bool) (hist : List Rat) : Rat :=
  ((hist.take 64).zip (upto 64)).foldl (fun acc e => acc + e.1 * ((s.tap b bank e.2 : Rat) / 8388608)) 0

/-- The saturation of R161 to the range of the 24-bit code, and whether it acted. -/
def saturate24 (v : Rat) : Rat × Bool :=
  let c := clampRat (-8388608) 8388607 v
  (c, c != v)

/-- A synchronising reset whose MOD edge is `edge` (R163, R168). -/
def State.syncReset (s : State) (b edge : Nat) : State :=
  s.setBnd b (fun x =>
    let m := x.meas
    let active := match m.fade, m.queued with
      | _, some (t, _) => t
      | some f, none => f.target
      | none, none => m.instant.getD m.active
    { x with meas := { m with
        active := active, fade := none, queued := none, instant := none, sums := [], combs := [], taken := 0,
        outside := false, waiting := [], hist := [], sincN := 0, outN := 0, syncTime := edge, syncCount := (m.writeCount + 1) % 2 ^ 32 } })

/-- First MOD edge after a TIME count (R163). -/
def nextMod (t : Nat) : Nat := (t / 128 + 1) * 128

/-- COMMAND SWAP to a bank with fade length L (R167, R168). With the FIR bypassed a swap that names the bank now active
replaces an instant swap that still waits, so that the bank stays: the table of R167 has two rows that it matches
(log 133). -/
def State.measSwap (s : State) (b : Nat) (target : Bool) (len : Nat) (afterReset : Bool) : State :=
  let bypassed := !(s.measPreset b).sinc5 || s.measScs b
  s.setBnd b (fun x =>
    let m := x.meas
    { x with meas :=
      if m.fade.isSome then { m with queued := some (target, len) }
      else if afterReset then { m with active := target }
      else if bypassed then { m with instant := some target }
      else if target == m.active then m
      else { m with fade := some ⟨0, len, target⟩ } })

def measConfigRange (v : Nat) : Status := require (v / 32 == 0 && decide (v % 8 ≤ 4)) .range

/-- A chain input exists (R160). -/
def measInputOk (i : Nat) : Bool :=
  decide (i ≤ 0x17) || (decide (0x20 ≤ i) && decide (i ≤ 0x2F) && i != 0x2C && i != 0x2D)

def measControlRange (v : Nat) : Status :=
  let cmd := v / 2 ^ 12 % 4
  let len := v % 512
  require (v / 2 ^ 22 % 128 == 0 && v / 2 ^ 14 % 4 == 0 && v / 2 ^ 10 % 4 == 0 && measInputOk (v / 2 ^ 16 % 64)
    && cmd != 3 && !(cmd == 2 && !(decide (8 ≤ len) && decide (len ≤ 256)))) .range

def measConfigEffect (b v : Nat) (s : State) : State := (s.wr .bndMeasConfig v b).syncReset b (nextMod s.time)

/-- The word of BND_MEAS_CONTROL that stays: INPUT, TARGET_BANK and FADE_LEN; COMMAND reads 0 (R175). -/
def measControlKept (v : Nat) : Nat := v / 2 ^ 16 % 64 * 2 ^ 16 + v % 1024

def measControlEffect (b v : Nat) (s : State) : State :=
  let old := (s.reg .bndMeasControl b).fld 16 6
  let input := v / 2 ^ 16 % 64
  let cmd := v / 2 ^ 12 % 4
  let resets := input != old || cmd == 1
  let s := s.wr .bndMeasControl (measControlKept v) b
  let s := if resets then s.syncReset b (nextMod s.time) else s
  if cmd == 2 then s.measSwap b (v.testBit 9) (v % 512) resets else s

/-- BND_MEAS_CONTROL as it reads (R175). -/
def State.measControlWord (s : State) (b : Nat) : Nat :=
  let m := (s.bnd b).meas
  s.rd .bndMeasControl b + (if m.active then 2 ^ 29 else 0)
    + (match m.queued with | some (t, _) => 2 ^ 31 + (if t then 2 ^ 30 else 0) | none => 0)

/-- The banks of BND_MEAS_COEF that a block write touches (R166). -/
def coefTouches (off n : Nat) (bank : Bool) : Bool := if bank then decide (256 < off + n) else decide (off < 256)

/-- Step 8 for a block write of BND_MEAS_COEF: the active bank and a fade give STATE, the bank of a queued request BUSY,
which R71 puts in one step (R166, log 134). -/
def measCoefState (s : State) (b off n : Nat) : Status :=
  let m := (s.bnd b).meas
  firstRefusal
    [require (!coefTouches off n m.active) .state,
     require (!(match m.queued with | some (t, _) => coefTouches off n t | none => false)) .busy,
     require (m.fade.isNone) .state]

/-- The 512 bytes that a block write of BND_MEAS_COEF would leave. -/
def State.coefAfter (s : State) (b off : Nat) (data : List Byte) : List Byte :=
  s.coefBytes b 0 off ++ data ++ s.coefBytes b (off + data.length) (512 - off - data.length)

/-- The taps of 512 bytes. -/
def tapsOf (bytes : List Byte) : List (BitVec 32) :=
  (upto 128).map (fun k => BitVec.ofNat 32 (leNat ((bytes.drop (4 * k)).take 4)))

def measCoefRange (s : State) (b off : Nat) (data : List Byte) : Status :=
  let touched := (tapsOf (s.coefAfter b off data)).zip (upto 128) |>.filter (fun e =>
    decide (off < 4 * e.2 + 4) && decide (4 * e.2 < off + data.length))
  require (touched.all (fun e => decide (-8388608 ≤ signed 32 e.1.toNat) && decide (signed 32 e.1.toNat ≤ 8388607))) .range

def measCoefEffect (b off : Nat) (data : List Byte) (s : State) : State :=
  let touched := (tapsOf (s.coefAfter b off data)).zip (upto 128) |>.filter (fun e =>
    decide (off < 4 * e.2 + 4) && decide (4 * e.2 < off + data.length))
  s.setBnd b (fun x =>
    let l := touched.foldl (fun l e => Store.put none e.2 (some e.1) l) x.meas.taps
    { x with meas := { x.meas with taps := l } })

/-- How many sinc outputs the next chain output takes (R162, R164). -/
def State.sincNeeded (s : State) (b : Nat) : Nat :=
  let p := s.measPreset b
  if s.measScs b then p.average
  else if !p.sinc5 then 1
  else 2 * p.average + (if (s.bnd b).meas.outN == 0 then 4 else 0)

/-- The terms of one chain output for one bank: FIR outputs over the sinc outputs in order, with their validity, or the
sinc outputs themselves where the FIR is bypassed. Returns the terms and the history (R162 to R165). -/
def measTerms (s : State) (b : Nat) (bank : Bool) (fir : Bool) :
    List Rat → Nat → List Rat → List (Rat × Bool) × List Rat
  | [], _, hist => ([], hist)
  | x :: xs, n, hist =>
    if !fir then
      let (t, h) := measTerms s b bank fir xs (n + 1) hist
      ((x, true) :: t, h)
    else if n < 4 then measTerms s b bank fir xs (n + 1) hist
    else
      let hist' := x :: hist.take 63
      let settled := n + 1 - 4
      let (t, h) := measTerms s b bank fir xs (n + 1) hist'
      if settled % 2 == 0 then ((firSum s b bank hist', decide (64 ≤ settled)) :: t, h) else (t, h)

/-- Value of an output from its terms: the mean of the FIR sums, each saturated, at full precision, and whether something
saturated (R159, R161, R164). Only the record's CODE is rounded (log 135). -/
def measValue (terms : List (Rat × Bool)) : Rat × Bool :=
  let scaled := terms.map (fun e => saturate24 e.1)
  let sum := scaled.foldl (fun a e => a + e.1) (0 : Rat)
  let m := saturate24 (sum / (max terms.length 1 : Nat))
  (m.1, scaled.any (·.2) || m.2)

/-- The sinc stage takes the input of one modulator period, in codes (R159, R161, R162): the integrators run on every
period; at the decimation the combs give an output. Under SCS an output takes `order` conversion periods and the filter is
then cleared. -/
def Meas.sample (m : Meas) (p : Preset) (scs : Bool) (v : Rat) : Meas :=
  let (x, o) := saturate24 v
  let order := p.order
  let sums := ((padList order m.sums).foldl (fun (l, c) a => let a := a + c; (l ++ [a], a)) (([] : List Rat), x)).1
  let taken := m.taken + 1
  let d := p.periods scs
  let outside := m.outside || o
  if taken % d != 0 then { m with sums := sums, taken := taken, outside := outside }
  else
    let (combs, y) := (padList order m.combs).foldl (fun (l, v) prev => (l ++ [v], v - prev))
      (([] : List Rat), sums.getLastD 0)
    let out := y / ((d ^ order : Nat) : Rat)
    let m := { m with outside := false }
    if !scs then { m with sums := sums, combs := combs, taken := taken, waiting := m.waiting ++ [(out, outside)] }
    else if taken < order * d then { m with sums := sums, combs := combs, taken := taken, outside := outside }
    else { m with sums := [], combs := [], taken := 0, waiting := m.waiting ++ [(out, outside)] }
where
  /-- n values, zeros after those that there are -/
  padList (n : Nat) (l : List Rat) : List Rat := l ++ List.replicate (n - l.length) 0

/-- Appends a result record (R169, R170). -/
def State.measRecord (s : State) (b : Nat) (valid outside bank fading : Bool) (code : Int) : State :=
  let m := (s.bnd b).meas
  let n := (m.writeCount + 1) % 2 ^ 32
  let bit (c : Bool) (k : Nat) := if c then 2 ^ k else 0
  let rec' := n % 2 ^ 24 * 2 ^ 40 + (s.reg .bndMeasControl b).fld 16 6 * 2 ^ 32 + bit valid 31 + bit outside 30
    + bit bank 29 + bit fading 28 + bit (s.measScs b) 27 + unsigned 24 code
  let s := (s.wr .bndMeasLast rec' b).send (.measLine b (Word.of rec') (n % 2 == 1))
  s.setBnd b (fun x => { x with meas := { x.meas with
    writeCount := n, ring := Store.put 0 ((n + 1023) % 1024) (Word.of rec') x.meas.ring } })

/-- BND_MEAS_HISTORY as it reads (R170). -/
def State.measHistory (s : State) (b : Nat) : List Byte :=
  let m := (s.bnd b).meas
  leBytes 8 m.syncTime ++ leBytes 4 m.writeCount ++ leBytes 4 m.syncCount
    ++ (Store.gets 0 0 1024 m.ring).flatMap (fun w => leBytes 8 w.toNat)

/-- A fade or instant swap moves on by one output (R167). -/
def State.measAdvance (s : State) (b : Nat) : State :=
  let m := (s.bnd b).meas
  match m.fade with
  | none => s
  | some f =>
    if f.k + 1 < f.len then s.setBnd b (fun x => { x with meas := { m with fade := some { f with k := f.k + 1 } } })
    else
      let s := s.setBnd b (fun x => { x with meas := { m with fade := none, active := f.target, queued := none } })
      match m.queued with
      | some (t, l) => s.measSwap b t l false
      | none => s

/-- The chain completes an output from the sinc outputs since the last one (R161 to R170). -/
def measOutputEffect (b : Nat) (s : State) : State :=
  let need := s.sincNeeded b
  if (s.bnd b).meas.waiting.length < need then s else
    let s := match (s.bnd b).meas.instant with
      | some t => s.setBnd b (fun x => { x with meas := { x.meas with active := t, instant := none } })
      | none => s
    let m := (s.bnd b).meas
    let fir := (s.measPreset b).sinc5 && !s.measScs b
    let used := m.waiting.take need
    let xs := used.map (·.1)
    let (told, hist) := measTerms s b m.active fir xs m.sincN m.hist
    let (vOld, oOld) := measValue told
    let valid := if fir then told.all (·.2) else s.measScs b || decide (3 ≤ m.outN + 1)
    let (y, outside, bank, fading) := match m.fade with
      | none => (vOld, oOld, m.active, false)
      | some f =>
        let (vNew, oNew) := measValue (measTerms s b f.target fir xs m.sincN m.hist).1
        let k := f.k + 1
        if k < f.len then (((k : Rat) * vNew + ((f.len - k : Nat) : Rat) * vOld) / (f.len : Nat), oOld || oNew, m.active, true)
        else (vNew, oNew, f.target, false)
    let s := s.setBnd b (fun x => { x with meas := { x.meas with
      hist := hist, sincN := m.sincN + need, outN := m.outN + 1, waiting := m.waiting.drop need } })
    let s := s.measRecord b valid (used.any (·.2) || outside) bank fading (clampInt (-8388608) 8388607 (roundRat y))
    s.measAdvance b

/-! ## Synchronisation by Warp (R157, R163, R191) -/

/-- A SYNC event at a TIME count acts on every wave DAC and measurement chain that asks for it. -/
def State.syncUnits (s : State) (t : Nat) : State :=
  s.each (upto 12) (fun b s =>
    let s := if (s.reg .bndMeasConfig b).getLsbD 4 then s.syncReset b (alignUp t 128) else s
    s.each [0, 1] (fun wd s => if (s.wave b wd).ctrl / 2 % 2 == 1 then s.clearAcc b wd t else s))

/-! ## Events -/

/-- POOL_BLANK_END: 5 µs after the change (R146). -/
def execPoolBlankEnd (b : BundleNo) (cell : Fin 16) : State → Out :=
  run (fun s => s.onlyIf (s.passed (Store.get 0 cell.val (s.bnd b).pool.blankAt) (5 * ticksPerUs)) (fun s =>
    s.setBnd b (fun x => { x with pool := { x.pool with blanks := x.pool.blanks.filter (· != cell) } })))

/-- MEAS_OUTPUT (R161 to R170): nothing before the modulator periods of R164 have passed (log 3). -/
def execMeasOutput (b : BundleNo) (_ : Unit) : State → Out := run (measOutputEffect b)

/-- STREAM_UNDERRUN: a WAVE edge has found no sample; the cell repeats the last one and its bit is set (R158). -/
def execStreamUnderrun (b : BundleNo) (wd : Fin 2) : State → Out :=
  run (fun s => s.onlyIf (s.cellMode b (10 + wd.val) == 2 && (s.osc b wd.val).fifo.isEmpty) (fun s =>
    s.setOsc b wd.val (fun o => { o with underrun := true })))

end Sys2Proof.Machine
end

