-- ==== Sys2Proof/Machine/Analogue.lean ====
section
/-! DEFINITION. The analogue side of the pool: how nodes and cell outputs settle, what cells remember from one TIME tick to
the next, the live flags of BND_POOL_STATUS, the sources of the measurement chain and its modulator (R137 to R164). -/
namespace Sys2Proof.Machine

/-! ## Nodes and cells (R139 to R147) -/

/-- Volts in the units that cells remember, 2^-40 V. -/
def toUnits (v : Rat) : Int := (v * 1099511627776).floor
def ofUnits (x : Int) : Rat := (x : Rat) / 1099511627776

/-- Volts at a terminal of a cell: 0 V unlinked (R139); `v` gives the volts of a node code. -/
def State.termVolts (s : State) (b cell t : Nat) (v : Nat → Rat) : Rat :=
  let n := s.linkOf b cell t
  if n == 0x3F then 0 else v n

/-- Input that a track-hold cell selects (R145). -/
def State.thInput (s : State) (b cell : Nat) : Nat :=
  let w := s.cellWord b cell
  if w.getLsbD 10 then
    (if s.lineIn b (lineThSel (cell - 14) 0) then 1 else 0) + (if s.lineIn b (lineThSel (cell - 14) 1) then 2 else 0)
  else w.fld 8 2

/-- A track-hold cell holds (R145). -/
def State.holding (s : State) (b cell : Nat) : Bool := s.cellMode b cell == 2 && s.lineIn b (lineThHold (cell - 14))

/-- TIA: OUT = V(IN0) − I × RF, where I flows from a node of `vs` volts behind `ohms` into IN1, which stands at `v0` (R141);
without a resistance the output goes to its limit. -/
def tiaVolts (v0 vs ohms rf : Rat) : Rat :=
  if vs == v0 then v0 else if ohms == 0 then (if v0 < vs then -1000 else 1000) else v0 - (vs - v0) / ohms * rf

/-- What flows into the IN1 of a TIA comes from: the DUT at a joined pin, or a cell output (R141, R150). -/
def State.tiaSource (s : State) (b cell : Nat) (dut : Nat → Option PinDrive) (v : Nat → Rat) : Option (Rat × Rat) :=
  let n := s.linkOf b cell 2
  if n ≤ 8 then
    let p := portOfNode b n
    if s.joined p then (dut (s.pinOf p)).map (fun d => (d.volts, d.ohms)) else none
  else if n == 9 || n == 0x3F then none
  else some (v n, if cellKind (n - 0x10) == .wd then 50 else 0)

/-- Open output of a cell before its limits, from the volts at node codes (R140 to R145). -/
def State.cellOpen (s : State) (b cell : Nat) (dut : Nat → Option PinDrive) (v : Nat → Rat) : Rat :=
  let w := s.cellWord b cell
  let m := s.cellMem b cell
  let vt (t : Nat) := s.termVolts b cell t v
  let h0 : Rat := (2 ^ w.fld 8 4 : Nat)
  if (s.bnd b).pool.blanks.any (fun c => c.val == cell) then 0 else
  match cellKind cell, w.fld 0 8 with
  | .af, 1 => h0 / 2 * (vt 1 - vt 2)
  | .af, 2 =>
    match s.tiaSource b cell dut v with
    | some (vs, r) => tiaVolts (vt 1) vs r (10 ^ (3 + w.fld 12 4) : Nat)
    | none => vt 1
  | .af, 3 => ofUnits m.x
  | .af, 4 => h0 * ofUnits m.x
  | .af, 5 => h0 * (ofUnits m.z * 64 / (w.fld 34 12 : Nat))
  | .af, 6 => h0 * (vt 1 - vt 2 - ofUnits m.z * 64 / (w.fld 34 12 : Nat))
  | .fd, 1 => (signed 18 (w.fld 16 18) : Rat) * (5 / 2) * (if w.getLsbD 8 then 2 else 1) / 131072
  | .wd, _ => (2 ^ w.fld 8 2 : Nat) * (s.osc b (cell - 10)).y / 65536
  | .th, 1 => vt (1 + s.thInput b cell)
  | .th, 2 => if s.holding b cell then ofUnits m.x else vt (1 + s.thInput b cell)
  | _, _ => 0

/-- Output of a cell within −2.5 to +5.0 V (R139). -/
def State.cellVolts (s : State) (b cell : Nat) (dut : Nat → Option PinDrive) (v : Nat → Rat) : Rat :=
  clampRat (-(5 / 2)) 5 (s.cellOpen b cell dut v)

/-- A cell that is not OFF is the source of a node: its linked OUT, with its source impedance and output current limit, or the
IN1 of a TIA, which stands at V(IN0) (R139, R141, R143, R150, R176, log 137). -/
def State.cellOn (s : State) (b node : Nat) : Option Nat :=
  (upto 16).find? (fun c => s.cellMode b c != 0 && s.cellSource b c node)

def State.poolNode (s : State) (b node : Nat) (dut : Nat → Option PinDrive) (v : Nat → Rat) : Option NodeSource :=
  (s.cellOn b node).map (fun c =>
    if s.linkOf b c 0 == node then
      if cellKind c == .wd then .thevenin (s.cellVolts b c dut v) 50 none
      else .thevenin (s.cellVolts b c dut v) 0 (some (25 / 1000))
    else .thevenin (s.termVolts b c 1 v) 0 none)

/-- How node 0 to 9 of a bundle settles at an instant (R122, R147, R150). -/
def State.nodeSettled (s : State) (t b node : Nat) (dut : Nat → Option PinDrive) (v : Nat → Rat) : Settled :=
  let p := portOfNode b node
  let own := match s.poolNode b node dut v with
    | some x => some x
    | none => if node ≤ 8 then s.pinSource p (s.driveAt t) else none
  settle own (if decide (node ≤ 8) && s.joined p then dut (s.pinOf p) else none)

/-- Volts of a node code (R147), through at most `fuel` cells; a node that nothing drives floats, and a loop of cells without
memory has no stated voltage (R122, log 129). -/
def State.nodeVolts (s : State) (b : Nat) (dut : Nat → Option PinDrive) : Nat → Nat → Rat
  | 0, code => Config.floatVolts (64 * b + code) s.time
  | n + 1, code =>
    if code == 0x20 then 0
    else if code == 0x21 then 5 / 2
    else if 0x10 ≤ code then
      let l := s.linkOf b (code - 0x10) 0
      if l != 0x3F then s.nodeVolts b dut n l
      else if s.cellMode b (code - 0x10) == 0 then Config.floatVolts (64 * b + code) s.time
      else s.cellVolts b (code - 0x10) dut (s.nodeVolts b dut n)
    else (s.nodeSettled s.now b code dut (s.nodeVolts b dut n)).volts.getD (Config.floatVolts (64 * b + code) s.time)

/-- What the DUT presents at each pin now. -/
def State.dutNow (s : State) (pin : Nat) : Option PinDrive := Config.dutPin pin s.time

/-- Volts of a node code now; 20 passes go through every cell without memory and the nodes between. -/
def State.volts (s : State) (b code : Nat) : Rat := s.nodeVolts b s.dutNow 20 code

/-- How the node of a port settles at an instant in vernier steps, against what the DUT then presents at its pin. -/
def State.portNodeAt (s : State) (p t : Nat) (dut : Option PinDrive) : Settled :=
  let pin := s.pinOf p
  s.nodeSettled t (bundleOfPort p) (nodeOfPort p) (fun q => if q == pin then dut else s.dutNow q) (s.volts (bundleOfPort p))

/-! ## What cells remember (R141, R144, R145) -/

/-- 2^(1/2), 2^(1/4), … 2^(1/256), in units of 2^-64. -/
def roots : List Nat :=
  [26087635650665564425, 21936999301089678047, 20116317054877281741, 19263451207323153962,
   18850675170876015534, 18647615946650685158, 18546908069882975960, 18496758270674070881]

/-- ω0 times one TIME tick of 4/7 ns, in units of 2^-64, for f0 = 10 Hz × 2^(F0CODE / 256) (R140). -/
def omegaTick (code : Nat) : Nat :=
  let frac := (roots.zip (upto 8)).foldl (fun a e => if (code % 256).testBit (7 - e.2) then a * e.1 / 2 ^ 64 else a) 662310350452
  frac * 2 ^ (code / 256)

/-- A biquad's states one TIME tick later: `x` follows ω0 × z, and `z` follows ω0 × (u − x − z / Q), so that x is the low-pass
and z / Q the band-pass output (R141, log 132). -/
def biquadTick (w : Word) (u : Rat) (m : CellMem) : CellMem :=
  let k : Int := omegaTick (w.fld 21 13)
  let z := m.z + k * (toUnits u - m.x - m.z * 64 / (w.fld 34 12 : Nat)) / 2 ^ 64
  { m with z := z, x := m.x + k * z / 2 ^ 64 }

/-- An integrator's output one TIME tick later: Vd / τ, within the output limits; 0 V in reset (R140, R141, log 132). -/
def intTick (w : Word) (reset : Bool) (vd : Rat) (m : CellMem) : CellMem :=
  if reset then { m with x := 0 }
  else { m with x := clampInt (toUnits (-(5 / 2))) (toUnits 5) (m.x + toUnits (vd / (1750 * 10 ^ w.fld 16 3 : Nat))) }

/-- The decision of a comparator cell: it rises HYST × 1 mV above the reference and falls as far below it (R144, log 132). -/
def compares (hyst : Nat) (was : Bool) (v ref : Rat) : Bool :=
  let h : Rat := (hyst : Rat) / 1000
  if was then decide (ref - h < v) else decide (ref + h < v)

/-- What a cell remembers at a TIME count, one tick after the count before; `edge` is a WAVE edge. -/
def State.cellTick (s : State) (b cell : Nat) (edge : Bool) : CellMem :=
  let w := s.cellWord b cell
  let m := s.cellMem b cell
  let vt (t : Nat) := s.termVolts b cell t (s.volts b)
  match cellKind cell, w.fld 0 8 with
  | .af, 3 => intTick w (w.fld 19 2 == 1 || (w.fld 19 2 == 2 && s.lineIn b (lineIntRst cell))) (vt 1 - vt 2) m
  | .af, 4 | .af, 5 | .af, 6 => biquadTick w (vt 1 - vt 2) m
  | .cp, 0 => {}
  | .cp, _ =>
    let ref := if s.linkOf b cell 2 == 0x3F then levelVolts (w.fld 8 18) else vt 2
    let hi := compares (w.fld 26 3) m.hi (vt 1) ref
    { m with hi := hi, latched := if edge then hi else m.latched }
  | .th, 2 => if s.holding b cell then m else { m with x := toUnits (vt (1 + s.thInput b cell)) }
  | _, _ => m

/-- Cells that are not OFF and remember something. -/
def State.cellsInUse (s : State) (b : Nat) : List Nat :=
  (upto 16).filter (fun c => cellKind c != .fd && cellKind c != .wd && s.cellMode b c != 0)

/-! ## BND_POOL_STATUS (R139, R144, R172) -/

/-- A cell with an output stands at a voltage or current limit (R139). -/
def State.cellLimited (s : State) (b cell : Nat) : Bool :=
  let v := s.nodeVolts b s.dutNow 19
  let open' := s.cellOpen b cell s.dutNow v
  let n := s.linkOf b cell 0
  cellKind cell != .cp && s.cellMode b cell != 0
    && (clampRat (-(5 / 2)) 5 open' != open' || (decide (n ≤ 8) && (s.nodeSettled s.now b n s.dutNow v).limited))

/-- BND_POOL_STATUS (R172). -/
def State.poolStatus (s : State) (b : Nat) : Nat :=
  let bit (c : Bool) (k : Nat) := if c then 2 ^ k else 0
  let p := (s.bnd b).pool
  p.interlocks * 2 ^ 32 + bit p.wd1.underrun 19 + bit p.wd0.underrun 18 + bit (s.cpOut b 13) 17 + bit (s.cpOut b 12) 16
    + (upto 16).foldl (fun a c => a + bit (s.cellLimited b c) c) 0

/-! ## The measurement chain's sources and modulator (R120, R159, R160) -/

/-- A PMU tap of a port: the node's volts, or the current as ±2.5 V at ±I_FS; 0 V while the PMU is off (R120). -/
def State.pmuTap (s : State) (p : Nat) (current : Bool) : Rat :=
  if !(s.acting p).pmu then 0
  else if current then
    (s.portSettled p (s.dutNow (s.pinOf p))).amps * (5 / 2) / s.pmuFullScale (s.feOf p)
  else s.volts (bundleOfPort p) (nodeOfPort p)

/-- Volts at the chain's input (R160). -/
def State.measInput (s : State) (b input : Nat) : Rat :=
  if input ≤ 8 then s.pmuTap (portOfNode b input) false
  else if input ≤ 0x11 then s.pmuTap (portOfNode b (input - 9)) true
  else if input == 0x12 then s.volts b 9
  else if input == 0x13 then 5 / 2
  else if input == 0x14 then 0
  else if input == 0x15 then 1 / 2 + 5 / 1000 * ((((s.bnd b).cal.temp.getD 0 : Int) : Rat) / 16)
  else if input == 0x16 then Config.railVolts 0 s.time / 2
  else if input == 0x17 then Config.railVolts 1 s.time / 2
  else s.volts b (input - 0x10)

/-- CODE of a voltage before rounding (R161). -/
def measCode (v : Rat) : Rat := v * 8388608 / 5

/-- A MOD edge: the modulator of a bundle takes its input, once a synchronising reset's edge is past (R159, R163, R164). -/
def State.modEdge (s : State) (b : Nat) : State :=
  if s.time ≤ (s.bnd b).meas.syncTime then s else
    let v := measCode (s.measInput b ((s.reg .bndMeasControl b).fld 16 6))
    let p := s.measPreset b
    let scs := s.measScs b
    s.setBnd b (fun x => { x with meas := x.meas.sample p scs v })

/-! ## A TIME tick (R154, R163) -/

/-- The analogue side of a bundle at a new TIME count: cells with memory, then the WAVE edge, then the MOD edge. -/
def State.bundleTick (s : State) (b : Nat) : State :=
  let edge := s.time % 4 == 0
  let now := (s.cellsInUse b).map (fun c => (c, s.cellTick b c edge))
  let s := if now.isEmpty then s else
    s.setBnd b (fun x => { x with pool := { x.pool with mem := now.foldl (fun m e => Store.put {} e.1 e.2 m) x.pool.mem } })
  let s := if edge then (s.waveEdge b 0 s.time).waveEdge b 1 s.time else s
  if s.time % 128 == 0 then s.modEdge b else s

/-- The analogue side of every bundle whose quadrant has power at a new TIME count. -/
def State.analogueTick (s : State) : State :=
  if !s.alive then s else s.each (upto 12) (fun b s => if s.quadClosed (quadOfBundle b) then s else s.bundleTick b)

end Sys2Proof.Machine
end

