-- ==== Sys2Proof/Machine/EdgeTiming.lean ====
section
/-! DEFINITION. Edge-mode timing sets, their checks when written and at the arm, and the formatter's level of a cycle
(R209 to R232). -/
namespace Sys2Proof.Machine

/-! ## Timing sets (R217 to R222) -/

/-- A timing-set entry: period, edges (none when disabled), strobe and format codes. -/
structure TSet where
  period : Nat
  d0 : Option Nat
  d1 : Option Nat
  d2 : Option Nat
  d3 : Option Nat
  s0 : Option Nat
  s1 : Option Nat
  strobe : Nat
  format : Nat
  deriving DecidableEq, Repr, Inhabited

/-- An edge word (R218). -/
def edgeWord (w : Nat) : Option Nat := if w.testBit 31 then some (w % 2 ^ 26) else none

def tsetOf (bytes : List Byte) : TSet :=
  let w (i : Nat) := leNat ((bytes.drop (4 * i)).take 4)
  { period := w 0, d0 := edgeWord (w 1), d1 := edgeWord (w 2), d2 := edgeWord (w 3), d3 := edgeWord (w 4),
    s0 := edgeWord (w 5), s1 := edgeWord (w 6), strobe := w 7 / 16 % 4, format := w 7 % 16 }

/-- The reserved bits of an entry are 0 and a disabled edge word has every bit 0 (R218, R219). -/
def tsetBitsOk (bytes : List Byte) : Bool :=
  let w (i : Nat) := leNat ((bytes.drop (4 * i)).take 4)
  let edge (v : Nat) := if v.testBit 31 then v / 2 ^ 26 % 32 == 0 else v == 0
  edge (w 1) && edge (w 2) && edge (w 3) && edge (w 4) && edge (w 5) && edge (w 6) && w 7 / 64 == 0

/-- Offsets rise strictly, the disabled ones left out. -/
def ascends (l : List (Option Nat)) : Bool :=
  let xs := l.filterMap id
  (xs.zip (xs.drop 1)).all (fun e => decide (e.1 < e.2))

/-- The drive edges have the roles of R220. -/
def TSet.drivesOk (t : TSet) : Bool :=
  let inside := [t.d0, t.d1, t.d2, t.d3].all (fun e => match e with | some o => decide (o < t.period) | none => true)
  inside &&
  (match t.format with
   | 0 => t.d0.isNone && t.d1.isNone && t.d2.isNone && t.d3.isNone
   | 1 | 5 | 6 => t.d0.isSome && t.d1.isNone && ascends [t.d2, t.d3]
   | 2 | 3 => t.d0.isSome && t.d1.isSome && ascends [t.d0, t.d1, t.d2] && ascends [t.d2, t.d3]
   | 4 => t.d0.isSome && t.d1.isSome && t.d2.isSome && ascends [t.d0, t.d1, t.d2]
   | _ => false)

/-- The strobes have the roles of R222. -/
def TSet.strobesOk (t : TSet) : Bool :=
  let reach := [t.s0, t.s1].all (fun e => match e with | some o => decide (o < 16 * t.period) | none => true)
  reach &&
  (match t.strobe, t.s0, t.s1 with
   | 0, none, none => true
   | 1, some _, none => true
   | 2, some a, some b => decide (a + 1024 ≤ b)
   | 3, some a, some b => decide (a + 1024 ≤ b)
   | _, _, _ => false)

/-- An entry may be written (R217 to R222). -/
def tsetOk (bytes : List Byte) : Bool :=
  let t := tsetOf bytes
  if t.period == 0 then bytes.all (· == 0)
  else decide (16384 ≤ t.period) && decide (t.period ≤ 57344000) && tsetBitsOk bytes && decide (t.format ≤ 6)
    && t.drivesOk && t.strobesOk

/-- Consecutive pieces of n bytes. -/
def pieces (n : Nat) (data : List Byte) : List (List Byte) :=
  (upto (data.length / n)).map (fun i => (data.drop (n * i)).take n)

/-- A block write of PORT_TSET (R217). -/
def tsetRange (off : Nat) (data : List Byte) : Status :=
  require (off % 32 == 0 && data.length % 32 == 0 && (pieces 32 data).all tsetOk) .range

/-- Timing set a of a port. -/
def State.tset (s : State) (p a : Nat) : TSet := tsetOf (s.dom .portTset p 0 (32 * a) 32)

/-! ## Writes of the edge objects (R209, R210) -/

/-- Step 8 of R71 for PB+0x10–0x16: a bye-stake's own objects, and a held port's (R210). -/
def edgeState (s : State) (o : Obj) (p : Nat) : Status :=
  let byeRefused := [Obj.portMode, .portTset, .portFixDrive, .portFixCompare, .portPark].contains o
  (require (!(p ≥ 96 && byeRefused)) .state).and (require (!s.held p) .busy)

/-! ## LINE ratios (R185, R186, R204) -/

/-- P and Q of a bundle. -/
def State.lineP (s : State) (b : Nat) : Nat := s.rd .devLineRatio 0 b % 2 ^ 13
def State.lineQ (s : State) (b : Nat) : Nat := s.rd .devLineRatio 0 b / 2 ^ 16 % 2 ^ 13

/-- K in ROOT periods (R186). -/
def coincidenceK (p q : Nat) : Nat :=
  let g := Nat.gcd p q
  let p' := p / max g 1
  let q' := q / max g 1
  Nat.lcm (32 * q' / max (Nat.gcd p' 32) 1) 16

/-- Coincidence period of a bundle in TIME ticks (R186). -/
def State.coincidence (s : State) (b : Nat) : Nat := max (coincidenceK (s.lineP b) (s.lineQ b) / 16) 1

/-- First coincidence point of a bundle at or after a TIME count. -/
def State.coincidenceAt (s : State) (b t : Nat) : Nat := alignUp t (s.coincidence b)

/-- The lowest bundle of a site, whose scheduler is the site's (R22). -/
def State.lead (s : State) (i : Nat) : Nat := (s.bundlesOf i).headD 0

/-! ## Arm checks 8 and 9 (R224, R226, R227) -/

/-- The port of a pin that a mapped DUT port stands for: its bye-stake where that has replaced it (R210, R224). -/
def State.server (s : State) (p : Nat) : Nat := if (s.port p).cal.replaced then 96 + bundleOfPort p else p

/-- Drive events of a set, rising. -/
def TSet.drives (t : TSet) : List Nat :=
  ([t.d0, t.d1, t.d2, t.d3].filterMap id).foldl (fun l x =>
    (l.filter (fun y => decide (y ≤ x))) ++ x :: (l.filter (fun y => decide (x < y)))) []

/-- Strobes of a set, S0 first. -/
def TSet.strobes (t : TSet) : List Nat := [t.s0, t.s1].filterMap id

/-- Shortest PERIOD at a LINE ratio (R226). -/
def shortestPeriod (p q : Nat) : Nat := max 16384 (ceilDiv (2048 * q) (max p 1))

/-- Drive-event spacing of a port with the window and the load in force, of the node that serves its pin (R226, R379). -/
def State.spacing (s : State) (p : Nat) : Nat :=
  if (s.acting (s.server p)).load then 71680 else if s.lowSpeed p then 35840 else 1024

/-- A failed arm check 8: port, reason, set a, set b (R227, R232). -/
structure TsetFail where
  port : Nat
  reason : Nat
  a : Nat
  b : Nat
  deriving DecidableEq, Repr, Inhabited

/-- First pass of R227 for one port and set. -/
def tsetSingle (s : State) (ports : List Nat) (p a : Nat) : Option TsetFail :=
  let t := s.tset p a
  let fail (r : Nat) := some (TsetFail.mk p r a a)
  if t.period == 0 then fail 1
  else if ports.any (fun q => (s.tset q a).period != t.period) then fail 2
  else if t.period < shortestPeriod (s.lineP (bundleOfPort p)) (s.lineQ (bundleOfPort p)) then fail 3
  else if (t.drives.zip (t.drives.drop 1)).any (fun e => decide (e.2 - e.1 < s.spacing p)) then fail 4
  else none

/-- Second pass of R227 for one port and ordered pair. -/
def tsetPair (s : State) (p a b : Nat) : Option TsetFail :=
  let ta := s.tset p a
  let tb := s.tset p b
  let gap := match ta.drives.getLast?, tb.drives.head? with
    | some l, some f => decide (ta.period - l + f < s.spacing p)
    | _, _ => false
  let order := match ta.strobes.getLast?, tb.strobes.head? with
    | some l, some f => decide (f + ta.period < l + 1024)
    | _, _ => false
  if gap then some ⟨p, 4, a, b⟩ else if order then some ⟨p, 5, a, b⟩ else none

/-- Arm check 8 over the mapped ports of a step and the sets of its mask (R227). -/
def check8 (s : State) (ports : List Nat) (mask : Nat) : Option TsetFail :=
  let sets := bitsOf mask 256
  ports.findSome? (fun p =>
    match sets.findSome? (tsetSingle s ports p) with
    | some f => some f
    | none => sets.findSome? (fun a => sets.findSome? (fun b => tsetPair s p a b)))

/-- PORT_TSET_CHECK of a failure (R232). -/
def TsetFail.word (f : TsetFail) : Nat := f.reason * 2 ^ 24 + f.b * 2 ^ 8 + f.a

/-- The ports that a pin map names. -/
def mapPorts (map : List Byte) : List Nat := (map.map (·.toNat)).filter (· != 0xFF)

/-- A pin map passes arm check 9: DUT ports of the site's bundles, none twice (R224). -/
def mapOk (duts : List Nat) (map : List Byte) : Bool :=
  let l := mapPorts map
  l.all (fun p => duts.contains p) && decide l.Nodup

/-! ## The formatter (R216, R220, R221, R225) -/

/-- A cycle code (R216). -/
structure CycleCode where
  de : Bool
  data : Nat
  ce : Bool
  exp : Nat
  deriving DecidableEq, Repr, Inhabited

/-- The level that a drive edge sets (R220): for DATA `data` under a format, and for its complement. -/
def dataLevel (format data : Nat) : Fin 4 :=
  match format with
  | 5 => match data with | 0 => 0 | 1 => 1 | _ => 3
  | 6 => Fin.ofNat 4 data
  | _ => if data % 2 == 1 then 3 else 0

def complementLevel (data : Nat) : Fin 4 := if data % 2 == 1 then 0 else 3

/-- The drive edges of a format that set a level, as offset and level, in the order D0, D1, D2 (R220). -/
def levelEdges (t : TSet) (data : Nat) : List (Nat × Fin 4) :=
  let edge (o : Option Nat) (l : Fin 4) := (o.map (fun x => (x, l))).toList
  match t.format with
  | 1 | 5 | 6 => edge t.d0 (dataLevel t.format data)
  | 2 => edge t.d0 (dataLevel 2 data) ++ edge t.d1 0
  | 3 => edge t.d0 (dataLevel 3 data) ++ edge t.d1 3
  | 4 => edge t.d0 (complementLevel data) ++ edge t.d1 (dataLevel 4 data) ++ edge t.d2 (complementLevel data)
  | _ => []

/-- The drive-on point as an offset: D2 where the format uses it so and it is enabled, else the cycle start (R221). -/
def TSet.driveOn (t : TSet) : Nat := if t.format == 4 then 0 else t.d2.getD 0

/-- The driver drives in this cycle at all, and still drives at its end (R221). -/
def drivesInCycle (t : TSet) (c : CycleCode) (enabled : Bool) : Bool := enabled && c.de && t.format != 0
def drivesAtEnd (t : TSet) (c : CycleCode) (enabled : Bool) : Bool := drivesInCycle t c enabled && t.d3.isNone

/-- Events in the order of their instants, those of one instant as they come. -/
def sortDrives (l : List DriveEvent) : List DriveEvent :=
  l.foldl (fun acc e => acc.filter (fun x => decide (x.at' ≤ e.at')) ++ e :: acc.filter (fun x => decide (e.at' < x.at'))) []

/-- The drive events of a cycle that starts at `start`, each earlier by the drive-side fixture delay (R220, R221, R229): the
driver off at the start where the cycle does not drive from there, each level edge, drive-on and drive-off. -/
def cycleDrives (t : TSet) (c : CycleCode) (start fix : Nat) : List DriveEvent :=
  let at' (o : Nat) := start + o - fix
  if !(c.de && t.format != 0) then [{ at' := at' 0, off := some true }]
  else
    let first : List DriveEvent := if t.driveOn == 0 then [] else [{ at' := at' 0, off := some true }]
    sortDrives (first ++ (levelEdges t c.data).map (fun e => { at' := at' e.1, level := some e.2 })
      ++ [{ at' := at' t.driveOn, off := some false }]
      ++ (t.d3.map (fun o => ({ at' := at' o, off := some true } : DriveEvent))).toList)

/-- The port's drive enable, or that of the bye-stake that serves its pin (R210, R221). -/
def State.driving (s : State) (p : Nat) : Bool := (s.enables p).drive || (s.server p != p && (s.enables (s.server p)).drive)

/-- PORT_EDGE_STATUS (R232). -/
def edgeStatus (tset : Nat) (level : Fin 4) (parked driving : Bool) : Nat :=
  tset * 2 ^ 8 + (if 2 ≤ level.val then 4 else 0) + (if parked then 2 else 0) + (if driving then 1 else 0)

/-- Drive events follow those that a port still has. -/
def State.addDrives (s : State) (p : Nat) (l : List DriveEvent) : State :=
  s.setPort p (fun x => { x with fe := { x.fe with events := x.fe.events ++ l } })

/-- One mapped cycle of a port begins (R220, R221, R229). -/
def State.formatMapped (s : State) (p tsetNo : Nat) (c : CycleCode) (start : Nat) : State :=
  let s := s.addDrives p (cycleDrives (s.tset p tsetNo) c start (s.rd .portFixDrive p))
  s.setPort p (fun x => { x with fe := { x.fe with mapped := true } })

/-- One parked cycle of a port begins: under OFF its driver is off from its start; under HOLD it keeps the level of its last
mapped cycle, or the static level of R107 before one (R225). -/
def State.formatParked (s : State) (p : Nat) (start : Nat) : State :=
  let off := s.rd .portPark p == 1 || ((s.port p).fe.mapped && ((s.port p).fe.stateAt start).2)
  s.addDrives p [{ at' := start - s.rd .portFixDrive p, off := some off }]

/-- A cycle of a port completes: what PORT_EDGE_STATUS and PORT_CYCLE_COUNT show (R231, R232). -/
def State.cycleCompletes (s : State) (p tsetNo : Nat) (parked : Bool) (stop : Nat) : State :=
  let x := (s.port p).fe.stateAt stop
  let s := s.wr .portEdgeStatus (edgeStatus tsetNo x.1 parked (s.driving p && !x.2)) p
  s.wr .portCycleCount (s.rd .portCycleCount p + 1) p

/-- Drive events before an instant become what a port holds. -/
def PortFe.commit (f : PortFe) (t : Nat) : PortFe :=
  let past := f.events.filter (fun e => decide (e.at' < t))
  let (l, o) := past.foldl (fun x e => (e.level.getD x.1, e.off.getD x.2)) (f.level, f.off)
  { f with level := l, off := o, volts := past.foldl (fun v e => e.volts.getD v) f.volts, events := f.events.filter (fun e => !decide (e.at' < t)) }

/-! ## Comparator states (R122, R331) -/

/-- The state that a voltage gives (R122, R331): below the lowest threshold of the format 0, and one more above each; under
the window of a binary format 1 above CT2 and 2 between CT0 and CT2. `ct` are the thresholds CT0 to CT2. A voltage equal to a
threshold counts as below it (log 140). -/
def compareState (format : Nat) (window : Bool) (ct : Rat × Rat × Rat) (v : Rat) : Nat :=
  let (c0, c1, c2) := ct
  if format == 5 then (if c1 < v then 2 else if c0 < v then 1 else 0)
  else if format == 6 then (if c2 < v then 3 else if c1 < v then 2 else if c0 < v then 1 else 0)
  else if window then (if c2 < v then 1 else if c0 < v then 2 else 0)
  else if c1 < v then 1 else 0

/-- States that a format can give. -/
def stateCount (format : Nat) (window : Bool) : Nat :=
  if format == 6 then 4 else if format == 5 || window then 3 else 2

/-- Thresholds CT0 to CT2 of a port, with the trims of the node that serves it (R122, R360). -/
def State.thresholds (s : State) (p : Nat) : Rat × Rat × Rat :=
  let v (o : Obj) := s.dacVolts o p (s.server p)
  (v .portCt0, v .portCt1, v .portCt2)

/-- NRZ_MODE of a port (R334). -/
def State.nrzWindow (s : State) (p : Nat) : Bool := (s.reg .portCmpConfig p).getLsbD 1

/-- The comparator state at a DUT port's pin at an instant, of the node that serves it; where nothing drives the node the
state is undefined (R122, R331, R333). -/
def State.stateAt (s : State) (p format t : Nat) (dut : Option PinDrive) : Nat × State :=
  let window := s.nrzWindow p
  match (s.portNodeAt (s.server p) t dut).volts with
  | some v => (compareState format window (s.thresholds p) v, s)
  | none => let (x, s) := s.free 8; (x % stateCount format window, s)

end Sys2Proof.Machine
end

