-- ==== Sys2Proof/Machine/Gddr.lean ====
section
/-! DEFINITION. GDDR7 as the units of the block see it: the address map, site regions, granules with their check bytes,
and the reads and writes that every consumer and originator shares (R30, R463 to R477). -/
namespace Sys2Proof.Machine

/-! ## Address map and capacity (R465, R472, R473) -/

/-- Device capacity in bytes of a density code. -/
def densityBytes : Nat → Nat
  | 0 => 2147483648
  | 1 => 3221225472
  | _ => 4294967296

/-- The smallest density present. -/
def State.density (s : State) : Nat := (upto 12).foldl (fun m c => min m (Store.get 0 c s.fuses.density).val) 2

/-- U: usable bytes of a channel. -/
def State.memU (s : State) : Nat := densityBytes s.density / 288 * 256

/-- 12 × U. -/
def State.memCap (s : State) : Nat := 12 * s.memU

/-- Group in its quadrant. -/
def State.quadGroup (s : State) (a : Nat) : Nat := a % (3 * s.memU) / 256

/-- Channel of a byte address. -/
def State.chanOf (s : State) (a : Nat) : Nat := 3 * (a / (3 * s.memU)) + s.quadGroup a % 3

/-- Group in its channel. -/
def State.chanGroup (s : State) (a : Nat) : Nat := s.quadGroup a / 3

/-- Byte address of group G of channel c: the inverse of the map. -/
def State.groupAddr (s : State) (c g : Nat) : Nat := c / 3 * (3 * s.memU) + (3 * g + c % 3) * 256

/-- The channels that n bytes from a touch (R472). -/
def State.chansOf (s : State) (a n : Nat) : List Nat :=
  if n == 0 then [] else
  let u3 := 3 * s.memU
  (upto 12).filter (fun c =>
    let q := c / 3
    let lo := max a (q * u3)
    let hi := min (a + n) ((q + 1) * u3)
    if hi ≤ lo then false
    else
      let g0 := (lo - q * u3) / 256
      let g1 := (hi - 1 - q * u3) / 256
      decide (g0 + 2 ≤ g1) || g0 % 3 == c % 3 || g1 % 3 == c % 3)

/-! ## Site regions (R475 to R477) -/

/-- An entry of DEV_MEM_REGIONS. -/
structure MemRegion where
  base : Nat
  site : Nat
  len : Nat
  deriving DecidableEq, Repr, Inhabited

def regionOf (bytes : List Byte) : MemRegion :=
  { base := leNat (bytes.take 6), site := leNat ((bytes.drop 6).take 1), len := leNat ((bytes.drop 8).take 8) }

/-- The 64 entries. -/
def State.regions (s : State) : List MemRegion :=
  (upto 64).map (fun i => regionOf (s.dom .devMemRegions 0 0 (16 * i) 16))

/-- The used entries bound to a site. -/
def State.boundRegions (s : State) (i : Nat) : List MemRegion :=
  s.regions.filter (fun r => r.len != 0 && r.site == i)

/-- The regions of a site: its bound entries and the SHARED ones. -/
def State.siteRegions (s : State) (i : Nat) : List MemRegion :=
  s.regions.filter (fun r => r.len != 0 && (r.site == i || r.site == 0xFE))

/-- n bytes from a lie wholly inside one region of a list. -/
def insideOne (l : List MemRegion) (a n : Nat) : Bool :=
  l.any (fun r => decide (r.base ≤ a) && decide (a + n ≤ r.base + r.len))

/-- A region of the site holds the channel (R477). -/
def State.siteHolds (s : State) (i c : Nat) : Bool :=
  (s.siteRegions i).any (fun r => (s.chansOf r.base r.len).contains c)

/-- Sites whose bound regions are protected now (R30). -/
def State.protectedSites (s : State) : List Nat := (upto 12).filter (fun i => (s.siteSt i).active)

/-- A write to this byte address is discarded under R30. -/
def State.isProtected (s : State) (a : Nat) : Bool :=
  let l := s.protectedSites
  s.regions.any (fun r => r.len != 0 && decide (r.base ≤ a) && decide (a < r.base + r.len)
    && (l.contains r.site || (r.site == 0xFE && !l.isEmpty)))

/-! ## Where a request ends (R458, R464, R472) -/

/-- What stands at a byte address for a request. -/
inductive MemSpot where
  | ok | waits | isolated | closed | beyond
  deriving DecidableEq, Repr, Inhabited

def State.spot (s : State) (a : Nat) : MemSpot :=
  if s.memCap ≤ a then .beyond
  else
    let c := s.chanOf a
    if s.quadClosed (c / 3) then .closed
    else match (s.chan c).st with
      | .ready | .erasure => .ok
      | .isolated => .isolated
      | .off | .init => .waits

/-! ## Granules (R466 to R471) -/

/-- The stored bytes and the check differences are in canonical form: addresses strictly rising, no entry equal to what an
unlisted one reads as, which is 0 (R464). -/
def Memory.wf (s : State) : Bool :=
  Store.wf (fun _ => (0 : Byte)) s.mem && Store.wf (fun _ => (0 : BitVec 32)) s.memChk

/-- The data bytes of granule g as stored. -/
def State.granData (s : State) (g : Nat) : List Byte := Store.gets 0 (32 * g) 32 s.mem

/-- The check bytes of granule g as stored. -/
def State.granCheck (s : State) (g : Nat) : List Byte :=
  let d := Store.get 0 g s.memChk
  (weaveCheck (s.granData g)).zipWith (fun c j => c ^^^ (d >>> (8 * j)).setWidth 8) (upto 4)

/-- Sets whole granules' data and forms their check bytes (R467). -/
def State.putGranule (s : State) (g : Nat) (data : List Byte) : State :=
  { s with mem := Store.puts 0 (32 * g) (data.take 32) s.mem, memChk := Store.del g s.memChk }

/-- Sets a granule with check bytes that its originator formed; they are stored as they came (R407, R467). -/
def State.putCodeword (s : State) (g : Nat) (data : List Byte) (check : BitVec 32) : State :=
  let own := weaveCheck (data.take 32)
  let diff := check ^^^ BitVec.ofNat 32 (leNat own)
  { s with mem := Store.puts 0 (32 * g) (data.take 32) s.mem, memChk := Store.put 0 g diff s.memChk }

/-- Stored symbols changed by upsets. -/
def applyUpsets (g : Nat) (ups : List Upset) (cw : List Byte) : List Byte :=
  ups.foldl (fun w u => if u.granule == g then addAt w u.symbol.val u.diff else w) cw

/-- The controller's decode of granule g (R468, R469): DEFAULT, or ERASURE with the declared lane. -/
def State.decodeGranule (s : State) (g : Nat) (ups : List Upset) : Decoded :=
  let mine := ups.filter (fun u => u.granule == g)
  let data := s.granData g
  if mine.isEmpty && Store.get 0 g s.memChk == 0 then ⟨data ++ s.granCheck g, [], false⟩
  else
    let cw := applyUpsets g mine (data ++ s.granCheck g)
    let ch := s.chan (s.chanOf (32 * g))
    match ch.st, ch.lane with
    | .erasure, some lane => decodeErasure (laneSymbols (g % 8) lane.val) cw
    | _, _ => decodeDefault cw

/-- Counts one more, stopping at a maximum. -/
def capped (n by' max' : Nat) : Nat := min (n + by') max'

def max64 : Nat := 2 ^ 64 - 1

/-- Counts a granule's corrections for their lanes, in the running second too (R469, R479). -/
def Chan.correct (c : Chan) (g now : Nat) (fixed : List Nat) : Chan :=
  fixed.foldl (fun c s =>
    let lane := symbolLane (g % 8) s
    { c with laneCorr := Store.put 0 lane (capped (Store.get 0 lane c.laneCorr) 1 65535) c.laneCorr,
             recent := (now, lane) :: c.recent }) c

/-- What lies more than a second back no longer counts (R479, R480). -/
def Chan.window (c : Chan) (now : Nat) : Chan :=
  { c with recent := c.recent.filter (fun e => decide (now < e.1 + ticksPerSecond)),
           recentBad := c.recentBad.filter (fun t => decide (now < t + ticksPerSecond)) }

/-- Counts a decoded granule: corrected, or uncorrectable with its address recorded and MEM_UNCORRECTABLE raised (R469,
R471, R478). -/
def State.countDecoded (s : State) (g : Nat) (d : Decoded) : State :=
  let c := s.chanOf (32 * g)
  if d.bad then
    let s := s.setChan c (fun ch =>
      let ch := ch.window s.time
      { ch with uncorrectable := capped ch.uncorrectable 1 max64, recentBad := s.time :: ch.recentBad })
    let s := (s.bump .devMemUncorrectable).wr .devMemLastUncorr (32 * g)
    s.raise 0x1401 5 c 0 (32 * g)
  else if d.fixed.isEmpty then s
  else
    let s := s.setChan c (fun ch =>
      { ((ch.window s.time).correct g s.time d.fixed) with corrected := capped ch.corrected 1 max64 })
    s.bump .devMemCorrected

/-- One granule as a requester gets it: its 36 bytes and whether they are poisoned. An isolated or closed channel
answers with zero data and POISON, counted by the edge router (R458); a poisoned granule of a channel is forwarded
unchanged and counted (R468). -/
def State.readGranule (s : State) (g : Nat) (ups : List Upset := []) : (List Byte × Bool) × State :=
  match s.spot (32 * g) with
  | .ok =>
    let d := s.decodeGranule g ups
    let s := s.countDecoded g d
    let s := s.setChan (s.chanOf (32 * g)) (fun ch => { ch with bytesRead := capped ch.bytesRead 32 max64 })
    let s := if d.bad then s.bump .devMemPoisonSent else s
    ((d.word, d.bad), s)
  | _ => ((List.replicate 36 0#8, true), s)

/-- n granules in address order. -/
def State.readGranules (s : State) (g : Nat) (ups : List Upset := []) : Nat → List (List Byte × Bool) × State
  | 0 => ([], s)
  | n + 1 =>
    let (r, s) := s.readGranule g ups
    let (rs, s) := s.readGranules (g + 1) ups n
    (r :: rs, s)

/-- What a consumer takes of a granule: its data after its own DEFAULT decode, or none where that fails (R469). -/
def consumed (r : List Byte × Bool) : Option (List Byte) :=
  if r.2 then none
  else
    let d := decodeDefault r.1
    if d.bad then none else some (d.word.take 32)

/-- The data of granule g as a consumer takes it, without counting: for reads that another rule counts. -/
def State.peek (s : State) (g : Nat) : Option (List Byte) :=
  match s.spot (32 * g) with
  | .ok => let d := s.decodeGranule g []; if d.bad then none else some (d.word.take 32)
  | _ => none

/-- n bytes from a byte address, where every granule decodes. -/
def State.peekBytes (s : State) (a n : Nat) : Option (List Byte) :=
  let g0 := a / 32
  let count := if n == 0 then 0 else (a + n - 1) / 32 + 1 - g0
  ((upto count).mapM (fun i => s.peek (g0 + i))).map (fun l => (l.flatten.drop (a % 32)).take n)

/-- Writes whole granules whose check bytes the originator formed, in one pass over their groups: the controller reads
and corrects what a partly covered group held (R471). The answer is false where a granule does not reach memory
(R458). -/
def State.writeGranule (s : State) (g : Nat) (data : List Byte) (check : Option (BitVec 32)) : Bool × State :=
  match s.spot (32 * g) with
  | .ok =>
    let s := match check with
      | some c => s.putCodeword g data c
      | none => s.putGranule g data
    (true, s.setChan (s.chanOf (32 * g)) (fun ch => { ch with bytesWritten := capped ch.bytesWritten 32 max64 }))
  | _ => (false, s)

/-- The granules of a group, corrected and written back around a partial write (R471): one read-modify-write. -/
def State.modifyGroup (s : State) (grp : Nat) (covered : List Nat) (ups : List Upset) : State :=
  let s := s.bump .devMemRmw
  s.each ((upto 8).map (fun i => 8 * grp + i)) (fun g s =>
    let d := s.decodeGranule g ups
    let s := s.countDecoded g d
    if covered.contains g || d.bad || d.fixed.isEmpty then s
    else s.putCodeword g (d.word.take 32) (BitVec.ofNat 32 (leNat (d.word.drop 32))))

/-- Writes the listed granules; groups that are covered in part are read and corrected first (R471). -/
def State.writeSome (s : State) (grans : List (Nat × List Byte × Option (BitVec 32)))
    (ups : List Upset := []) : Bool × State :=
  let covered := grans.map (·.1)
  let groups := (covered.map (· / 8)).eraseDups
  let s := s.each groups (fun grp s =>
    let own := covered.filter (fun x => x / 8 == grp)
    if own.length == 8 || s.spot (256 * grp) != .ok then s else s.modifyGroup grp own ups)
  grans.foldl (fun (ok, s) d =>
    let (o, s) := s.writeGranule d.1 d.2.1 d.2.2
    (ok && o, s)) (true, s)

/-- Writes granules from g on. -/
def State.writeGranules (s : State) (g : Nat) (grans : List (List Byte × Option (BitVec 32)))
    (ups : List Upset := []) : Bool × State :=
  s.writeSome (((upto grans.length).map (g + ·)).zip grans) ups

/-- Cuts data into granules, the last one filled with zeros. -/
def granulesOf (data : List Byte) : List (List Byte × Option (BitVec 32)) :=
  (upto (ceilDiv data.length 32)).map (fun i =>
    let d := (data.drop (32 * i)).take 32
    (d ++ List.replicate (32 - d.length) 0#8, none))

/-- Writes data whose length and address are whole granules, check bytes formed by the writer (R467). -/
def State.store (s : State) (a : Nat) (data : List Byte) : Bool × State := s.writeGranules (a / 32) (granulesOf data)

/-- A write that R30 protects against is discarded, counted and logged (R477). -/
def State.protectedWrite (s : State) (src a : Nat) : State :=
  ((s.bump .devMemProtectedWrites).wr .devMemProtectedLast a).raise 0x1404 0 0 src a

end Sys2Proof.Machine
end

