-- ==== Sys2Proof/Machine/Operands.lean ====
section
/-! DEFINITION. The layouts that commands are read through: instructions (R278 to R286), context images (R268, R269),
step-list entries (R275, R304, R340), transaction slots (R308), signal maps (R305) and timing tables (R315). -/
namespace Sys2Proof.Machine

/-- Bits [lo + n − 1 : lo] of a number. -/
def bits (w lo n : Nat) : Nat := w / 2 ^ lo % 2 ^ n

/-- A little-endian field of a byte list. -/
def fieldAt (l : List Byte) (off n : Nat) : Nat := leNat ((l.drop off).take n)

/-! ## Instructions (R278, R284, R286) -/

/-- The fields of an instruction granule. -/
structure Inst where
  opcode : Nat
  checkpoint : Bool
  calBoundary : Bool
  holdIssue : Bool
  fabTrigger : Bool
  sel : Nat
  target : Nat
  xop : Nat
  yop : Nat
  bop : Nat
  chain : Nat
  cyc : Nat
  dsrc : Nat
  bg : Nat
  inv : Bool
  de : Bool
  ce : Bool
  expD1 : Bool
  dop : Nat
  tset : Nat
  pmap : Nat
  mode : Nat
  masks : Nat
  slot1 : Nat
  slot0 : Nat
  imm : Nat
  /-- every reserved bit is 0 -/
  reserved0 : Bool
  deriving DecidableEq, Repr, Inhabited

def instOf (data : List Byte) : Inst :=
  let w := leNat data
  { opcode := bits w 248 8
    checkpoint := w.testBit 247, calBoundary := w.testBit 246, holdIssue := w.testBit 245, fabTrigger := w.testBit 244
    sel := bits w 236 4, target := bits w 208 24
    xop := bits w 205 3, yop := bits w 202 3, bop := bits w 199 3, chain := bits w 196 3
    cyc := bits w 153 7, dsrc := bits w 150 3, bg := bits w 148 2, inv := w.testBit 147, de := w.testBit 146
    ce := w.testBit 145, expD1 := w.testBit 144, dop := bits w 141 3
    tset := bits w 104 8, pmap := bits w 96 8, mode := bits w 92 4, masks := bits w 80 12
    slot1 := bits w 56 24, slot0 := bits w 32 24, imm := bits w 0 32
    reserved0 := bits w 240 4 == 0 && bits w 232 4 == 0 && bits w 160 36 == 0 && bits w 112 29 == 0 }

/-- Axes that a CHAIN names, fastest first: 0 X, 1 Y, 2 BANK (R284, R285). -/
def chainAxes : Nat → List Nat
  | 1 => [1, 0]
  | 2 => [0, 1]
  | 3 => [1, 0, 2]
  | 4 => [0, 1, 2]
  | 5 => [2, 1, 0]
  | _ => []

/-- The op of an axis. -/
def Inst.op (i : Inst) : Nat → Nat
  | 0 => i.xop
  | 1 => i.yop
  | _ => i.bop

/-- ADDRESS OPS lies in its lists: with a chain, the fastest axis carries INC or DEC and the others HOLD (R284, R285). -/
def Inst.addressOk (i : Inst) : Bool :=
  decide (i.xop ≤ 5) && decide (i.yop ≤ 5) && decide (i.bop ≤ 5) && decide (i.chain ≤ 5) &&
  (match chainAxes i.chain with
   | [] => true
   | f :: _ => (i.op f == 1 || i.op f == 2) && ([0, 1, 2].all (fun a => a == f || i.op a == 0)))

/-- SEL is a value that its opcode gives (R280, R282, R283). -/
def Inst.selOk (i : Inst) : Bool :=
  match i.opcode with
  | 2 => decide (i.sel ≤ 9)
  | 3 | 4 => decide (i.sel ≤ 3)
  | 7 => decide (i.sel ≤ 2)
  | 9 => decide (i.sel ≤ 7)
  | _ => true

/-- Every field but the slots lies in its list (R281, R286, R335). -/
def Inst.fieldsOk (i : Inst) : Bool :=
  i.reserved0 && i.addressOk && i.selOk && decide (i.cyc ≤ 64) && decide (i.dsrc ≤ 4) && decide (i.dop ≤ 6)
    && decide (i.mode ≤ 4)

/-! ## Transaction slots (R308) -/

def slotCmd (v : Nat) : Nat := bits v 19 5
def slotRank (v : Nat) : Nat := bits v 17 2
def slotArg (v : Nat) : Nat := bits v 0 16

/-- The command reads a bank, a row, a burst. -/
def usesBank (cmd : Nat) : Bool := [1, 2, 3, 4, 5, 6, 9].contains cmd
def usesRow (cmd : Nat) : Bool := cmd == 1
def usesCol (cmd : Nat) : Bool := [2, 3, 4, 5].contains cmd

/-- A command whose ARG is 0. -/
def argZero (cmd : Nat) : Bool := decide (cmd ≤ 9)

/-! ## Step-list entries (R275, R304, R340) -/

def StepRec.f (r : StepRec) (off n : Nat) : Nat := fieldAt r.entry off n

def StepRec.progBase (r : StepRec) : Nat := r.f 0 8
def StepRec.progLen (r : StepRec) : Nat := r.f 8 4
def StepRec.pmapCount (r : StepRec) : Nat := r.f 12 2
def StepRec.pmapBase (r : StepRec) : Nat := r.f 16 8
def StepRec.colPlanBase (r : StepRec) : Nat := r.f 24 8
def StepRec.tsetMask (r : StepRec) : Nat := r.f 32 32
/-- ENTRY[b] as (COUNT, FIRST). -/
def StepRec.entryOf (r : StepRec) (b : Nat) : Nat × Nat := (bits (r.f (64 + 4 * b) 4) 16 13, bits (r.f (64 + 4 * b) 4) 0 12)
def StepRec.ckptBase (r : StepRec) : Nat := r.f 112 8
def StepRec.ckptSlots (r : StepRec) : Nat := r.f 120 4
def StepRec.vecBase (r : StepRec) : Nat := r.f 128 8
def StepRec.vecLen (r : StepRec) : Nat := r.f 136 8
def StepRec.stepTicks (r : StepRec) : Nat := r.f 144 8
def StepRec.pers (r : StepRec) : Nat := r.f 160 1
def StepRec.pflags (r : StepRec) : Nat := r.f 161 1
def StepRec.init (r : StepRec) : Nat := r.f 162 1
def StepRec.ranks (r : StepRec) : Nat := r.f 163 1
def StepRec.bgCount (r : StepRec) : Nat := r.f 164 1
def StepRec.banksPerBg (r : StepRec) : Nat := r.f 165 1
def StepRec.banks (r : StepRec) : Nat := r.bgCount * r.banksPerBg
def StepRec.rowBits (r : StepRec) : Nat := r.f 166 1
def StepRec.colBits (r : StepRec) : Nat := r.f 167 1
def StepRec.bl (r : StepRec) : Nat := r.f 168 1
def StepRec.sigMapBase (r : StepRec) : Nat := r.f 176 8
def StepRec.timingBase (r : StepRec) : Nat := r.f 184 8
def StepRec.ucodeBase (r : StepRec) : Nat := r.f 192 8
def StepRec.ucodeLen (r : StepRec) : Nat := r.f 200 4
def StepRec.ringBase (r : StepRec) : Nat := r.f 208 8
def StepRec.ringLen (r : StepRec) : Nat := r.f 216 4
def StepRec.capMode (r : StepRec) : Nat := r.f 220 1
def StepRec.wrapMode (r : StepRec) : Bool := r.capMode % 2 == 1
def StepRec.rawBase (r : StepRec) : Nat := r.f 224 8
def StepRec.rawLen (r : StepRec) : Nat := r.f 232 4
/-- The raw ports listed, in list order. -/
def StepRec.rawPorts (r : StepRec) : List Nat := ((upto 8).map (fun i => r.f (236 + i) 1)).filter (· != 0xFF)
/-- The ports of STREAM_MASK. -/
def StepRec.streamPorts (r : StepRec) : List Nat := bitsOf (r.f 244 12) 96
/-- PERS names a memory personality (R301). -/
def StepRec.isMemory (r : StepRec) : Bool := decide (2 ≤ r.pers) && decide (r.pers ≤ 7)
def StepRec.refAuto (r : StepRec) : Bool := r.isMemory && r.pflags.testBit 0
def StepRec.refPerBank (r : StepRec) : Bool := r.refAuto && r.pflags.testBit 1
def StepRec.caParity (r : StepRec) : Bool := r.pflags.testBit 2
def StepRec.wcrc (r : StepRec) : Bool := r.pflags.testBit 3
def StepRec.rcrc (r : StepRec) : Bool := r.pflags.testBit 4
def StepRec.keepTrain (r : StepRec) : Bool := r.pflags.testBit 5

/-- The ports that any pin map of the step names (R227). -/
def StepRec.mappedPorts (r : StepRec) : List Nat := (upto 96).filter (fun p => (r.pinMaps.map (·.toNat)).contains p)

/-- Pin map m. -/
def StepRec.pinMap (r : StepRec) (m : Nat) : List Byte := (r.pinMaps.drop (128 * m)).take 128

/-- The step runs a cycle stream (R214). -/
def StepRec.hasCycles (r : StepRec) : Bool := r.pinMaps.any (· != 0xFF#8)

/-- Timing-table entry e (R315). -/
def StepRec.timingEntry (r : StepRec) (e : Nat) : Nat := fieldAt r.timing (4 * e) 4

/-- Role and index of the i-th DUT port (R305). -/
def StepRec.role (r : StepRec) (i : Nat) : Nat × Nat := (fieldAt r.sigMap (2 * i) 1, fieldAt r.sigMap (2 * i + 1) 1)


/-- CK_DIV of a personality (R301). -/
def ckDiv : Nat → Nat
  | 5 | 6 => 4
  | 7 => 8
  | _ => 1

/-- S_CK in symbols (R301). -/
def symbolsPerCk (pers : Nat) : Nat := 2 * ckDiv pers

/-- A personality has this slot command: DDR4 lacks REFSB (R301, R308). -/
def hasCommand (pers cmd : Nat) : Bool := decide (1 ≤ cmd) && decide (cmd ≤ 18) && !(pers == 2 && cmd == 9)

/-- The training sequences that a personality has (R319). -/
def hasSequence (r : StepRec) (n : Nat) : Bool :=
  match n with
  | 0x01 | 0x06 | 0x07 | 0x08 => r.isMemory
  | 0x02 => [3, 4, 5, 7].contains r.pers
  | 0x03 => [2, 3].contains r.pers
  | 0x04 => [5, 6, 7].contains r.pers
  | 0x05 => [4, 5, 6, 7].contains r.pers
  | 0x80 => r.isMemory && decide (1 ≤ r.ucodeLen)
  | _ => false

/-- A non-empty slot is one that the step can take, with the address registers of its context (R303, R308, R319). -/
def slotOk (r : StepRec) (v x y bank : Nat) : Bool :=
  let cmd := slotCmd v
  r.isMemory && hasCommand r.pers cmd && !v.testBit 16 && decide (slotRank v < r.ranks)
    && (!usesBank cmd || decide (bank < r.banks))
    && (!usesRow cmd || decide (x < 2 ^ r.rowBits))
    && (!usesCol cmd || decide (y < 2 ^ r.colBits))
    && (!argZero cmd || slotArg v == 0)
    && (cmd != 12 || slotArg v != 0)
    && (cmd != 18 || (slotArg v / 256 == 0 && hasSequence r (slotArg v % 256)))

/-! ## Context images (R268, R269) -/

def CtxSt.code : CtxSt → Nat
  | .free => 0 | .loaded => 1 | .ready => 2 | .waiting => 3 | .done => 4 | .aborted => 5 | .lost => 6 | .fault => 7

def WaitCause.code : WaitCause → Nat
  | .none => 0 | .transaction => 1 | .timer => 2 | .drain => 3 | .fabric => 4 | .slot => 5 | .halting => 6

def CtxFault.code : CtxFault → Nat
  | .none => 0 | .illegalOpcode => 1 | .illegalField => 2 | .pcRange => 3 | .ckptRange => 4 | .spawnState => 5
  | .vectorEnd => 6 | .programData => 7

/-- STATUS, bits [303:288]. -/
def Context.status (c : Context) : Nat :=
  c.st.code * 2 ^ 13 + c.cause.code * 2 ^ 10 + c.faultCode.code * 2 ^ 6 + (if c.fail then 2 ^ 5 else 0)

/-- The 64 bytes of an image. -/
def Context.bytes (c : Context) : List Byte :=
  leBytes 1 c.bankMax.toNat ++ leBytes 3 c.xMax.toNat ++ leBytes 1 c.bank.toNat ++ leBytes 2 c.y.toNat
    ++ leBytes 3 c.x.toNat ++ leBytes 4 c.lc3.toNat ++ leBytes 4 c.lc2.toNat ++ leBytes 4 c.lc1.toNat
    ++ leBytes 4 c.lc0.toNat ++ leBytes 3 c.retPc.toNat ++ leBytes 3 c.pc.toNat
    ++ leBytes 2 0 ++ leBytes 2 c.ckptSeq.toNat ++ leBytes 2 c.status ++ leBytes 2 c.yMax.toNat
    ++ leBytes 4 c.ckptPtr.toNat ++ leBytes 4 c.seed.toNat ++ leBytes 8 c.d1.toNat ++ leBytes 8 c.d0.toNat

/-- A context from an image, LOADED with every other STATUS field 0 (R274). -/
def contextOf (l : List Byte) : Context :=
  { st := .loaded
    bankMax := .ofNat 8 (fieldAt l 0 1), xMax := .ofNat 24 (fieldAt l 1 3), bank := .ofNat 8 (fieldAt l 4 1)
    y := .ofNat 16 (fieldAt l 5 2), x := .ofNat 24 (fieldAt l 7 3), lc3 := .ofNat 32 (fieldAt l 10 4)
    lc2 := .ofNat 32 (fieldAt l 14 4), lc1 := .ofNat 32 (fieldAt l 18 4), lc0 := .ofNat 32 (fieldAt l 22 4)
    retPc := .ofNat 24 (fieldAt l 26 3), pc := .ofNat 24 (fieldAt l 29 3), ckptSeq := .ofNat 16 (fieldAt l 34 2)
    yMax := .ofNat 16 (fieldAt l 38 2), ckptPtr := .ofNat 32 (fieldAt l 40 4), seed := .ofNat 32 (fieldAt l 44 4)
    d1 := .ofNat 64 (fieldAt l 48 8), d0 := .ofNat 64 (fieldAt l 56 8) }

/-- The reserved field [271:256] of an image is 0. -/
def imageReserved0 (l : List Byte) : Bool := fieldAt l 32 2 == 0

/-! ## Column plan (R276) -/

/-- Role and index of column c. -/
def planOf (plan : List Byte) (c : Nat) : Nat × Nat := (fieldAt plan (2 * c) 1, fieldAt plan (2 * c + 1) 1)

/-- Every ROLE and IDX lies in the table of R276. -/
def planOk (plan : List Byte) : Bool :=
  (upto 128).all (fun c =>
    match planOf plan c with
    | (0, i) | (5, i) | (6, i) | (7, i) | (8, i) => i == 0
    | (1, i) => decide (i ≤ 63)
    | (2, i) => decide (i ≤ 23)
    | (3, i) => decide (i ≤ 15)
    | (4, i) => decide (i ≤ 7)
    | _ => false)

end Sys2Proof.Machine
end

