-- ==== Sys2Proof/Machine/Flags.lean ====
section
/-! DEFINITION. What an instruction computes: the address generator with its wrap flags, the data generator, the branch
conditions, and the LFSR (R279, R282, R284 to R289). -/
namespace Sys2Proof.Machine

/-! ## Address generator (R284, R285) -/

/-- INC and DEC of an axis: its value and its wrap flag. -/
def stepAxis (dec : Bool) (a limit : Nat) : Nat × Bool :=
  if dec then (if a = 0 then (limit, true) else (a - 1, false))
  else (if limit ≤ a then (0, true) else (a + 1, false))

/-- One axis under its own op; `v` is what LOAD writes. -/
def axisOp (op a limit v : Nat) : Nat × Bool :=
  match op with
  | 1 => stepAxis false a limit
  | 2 => stepAxis true a limit
  | 3 => (0, false)
  | 4 => (limit, false)
  | 5 => (v, false)
  | _ => (a, false)

/-- X, Y and BANK with their wrap flags. -/
structure Address where
  x : Nat
  y : Nat
  bank : Nat
  xw : Bool := false
  yw : Bool := false
  bw : Bool := false
  deriving DecidableEq, Repr, Inhabited

/-- Steps the axes of a chain in order while each wraps (R285). -/
def stepChain (dec : Bool) (limits : Nat × Nat × Nat) : List Nat → Address → Address
  | [], s => s
  | axis :: rest, s =>
    match axis with
    | 0 => let r := stepAxis dec s.x limits.1
           let s := { s with x := r.1, xw := r.2 }
           if r.2 then stepChain dec limits rest s else s
    | 1 => let r := stepAxis dec s.y limits.2.1
           let s := { s with y := r.1, yw := r.2 }
           if r.2 then stepChain dec limits rest s else s
    | _ => let r := stepAxis dec s.bank limits.2.2
           let s := { s with bank := r.1, bw := r.2 }
           if r.2 then stepChain dec limits rest s else s

/-- The address operations of an instruction. -/
def addressAfter (i : Inst) (c : Context) : Address :=
  let limits := (c.xMax.toNat, c.yMax.toNat, c.bankMax.toNat)
  match chainAxes i.chain with
  | [] =>
    let x := axisOp i.xop c.x.toNat limits.1 (i.imm % 2 ^ 24)
    let y := axisOp i.yop c.y.toNat limits.2.1 (i.imm % 2 ^ 16)
    let b := axisOp i.bop c.bank.toNat limits.2.2 (i.imm % 2 ^ 8)
    { x := x.1, y := y.1, bank := b.1, xw := x.2, yw := y.2, bw := b.2 }
  | f :: rest =>
    stepChain (i.op f == 2) limits (f :: rest) { x := c.x.toNat, y := c.y.toNat, bank := c.bank.toNat }

/-! ## Data generator (R286 to R289) -/

/-- One output bit of the Galois LFSR x^32 + x^22 + x^2 + x + 1: the register's lowest bit, and the next register
(log 22). -/
def lfsrStep (r : BitVec 32) : Bool × BitVec 32 :=
  (r.getLsbD 0, (r >>> 1) ^^^ (if r.getLsbD 0 then 0x80200003#32 else 0#32))

/-- The next n output bits, the first the least significant, and the register after them. -/
def lfsrBits : Nat → BitVec 32 → Nat × BitVec 32
  | 0, r => (0, r)
  | n + 1, r =>
    let (b, r') := lfsrStep r
    let (v, r'') := lfsrBits n r'
    ((if b then 1 else 0) + 2 * v, r'')

/-- 64 copies of the background bit (R287). -/
def background (bg x y : Nat) : BitVec 64 :=
  let bit := match bg with
    | 1 => x % 2 != y % 2
    | 2 => x % 2 == 1
    | 3 => y % 2 == 1
    | _ => false
  if bit then BitVec.allOnes 64 else 0

/-- Data and expected word of one cycle or transaction, and SEED after it (R287). HOLD and VECTOR give D0, as
REG. -/
def genWord (dsrc bg x y : Nat) (inv expD1 : Bool) (d0 d1 : BitVec 64) (seed : BitVec 32) :
    BitVec 64 × BitVec 64 × BitVec 32 :=
  let (w, e, seed) : BitVec 64 × BitVec 64 × BitVec 32 :=
    match dsrc with
    | 2 => let g := background bg x y
           (g ^^^ d0, g ^^^ (if expD1 then d1 else d0), seed)
    | 3 => let (v, r) := lfsrBits 64 seed
           (BitVec.ofNat 64 v, if expD1 then d1 else BitVec.ofNat 64 v, r)
    | _ => (d0, if expD1 then d1 else d0, seed)
  if inv then (~~~ w, ~~~ e, seed) else (w, e, seed)

/-- D0 and D1 after the data operation (R286). -/
def dataAfter (dop : Nat) (d0 d1 : BitVec 64) : BitVec 64 × BitVec 64 :=
  match dop with
  | 1 => (~~~ d0, d1)
  | 2 => (d0.rotateLeft 1, d1)
  | 3 => (d0.rotateRight 1, d1)
  | 4 => (d1, d1)
  | 5 => (d0 ^^^ d1, d1)
  | 6 => (d1, d0)
  | _ => (d0, d1)

/-! ## Branch conditions and SETREG (R282) -/

/-- The condition that SEL names, from the wrap flags of the instruction's own address operation, FAIL and the site's
fabric condition line. -/
def condition (sel : Nat) (xw yw bw fail fab : Bool) : Bool :=
  match sel with
  | 0 => xw
  | 1 => !xw
  | 2 => yw
  | 3 => !yw
  | 4 => bw
  | 5 => !bw
  | 6 => fail
  | 7 => !fail
  | 8 => fab
  | _ => !fab

/-- SETREG register SEL takes IMM (R282). -/
def setRegister (sel : Nat) (imm : BitVec 32) (c : Context) : Context :=
  match sel with
  | 0 => { c with d0 := (c.d0.extractLsb' 32 32) ++ imm }
  | 1 => { c with d0 := imm ++ (c.d0.extractLsb' 0 32) }
  | 2 => { c with d1 := (c.d1.extractLsb' 32 32) ++ imm }
  | 3 => { c with d1 := imm ++ (c.d1.extractLsb' 0 32) }
  | 4 => { c with seed := imm }
  | 5 => { c with xMax := imm.setWidth 24 }
  | 6 => { c with yMax := imm.setWidth 16 }
  | _ => { c with bankMax := imm.setWidth 8 }

/-- Loop counter k. -/
def Context.lc (c : Context) (k : Fin 4) : BitVec 32 :=
  match k with
  | 0 => c.lc0
  | 1 => c.lc1
  | 2 => c.lc2
  | 3 => c.lc3

/-- Sets loop counter k. -/
def Context.setLc (c : Context) (k : Fin 4) (v : BitVec 32) : Context :=
  match k with
  | 0 => { c with lc0 := v }
  | 1 => { c with lc1 := v }
  | 2 => { c with lc2 := v }
  | 3 => { c with lc3 := v }

end Sys2Proof.Machine
end

