-- ==== Sys2Proof/Machine/Ring.lean ====
section
/-! DEFINITION. Fail records, tallies, row accumulators and the ring that holds a site's records (R332 to R350). -/
namespace Sys2Proof.Machine

/-! ## Records (R337, R338) -/

/-- The 32 bytes of a record with ring count c. -/
def Record.bytes (r : Record) (c : Nat) : List Byte :=
  let kind := (if r.cont then 2 ^ 13 else 0) + r.step % 512 * 16 + r.type % 16
  let tail := leBytes 2 kind ++ leBytes 2 (c % 65536)
  let marker := r.type == 8 || r.type == 9
  let head := leBytes 8 r.time ++ (if marker then [0, 0, 0, 0] else leBytes 2 r.sub ++ leBytes 2 r.cid)
  if marker then head ++ leBytes 8 r.x ++ List.replicate 8 0#8 ++ tail
  else
    let addr := leBytes 3 r.x ++ leBytes 2 r.y ++ leBytes 1 r.bank
    if r.type == 7 then head ++ addr ++ r.runs.flatMap (leBytes 2) ++ leBytes 2 r.pos ++ tail
    else head ++ addr ++ leBytes 2 r.ports ++ leBytes 2 r.exp ++ leBytes 2 r.act0 ++ leBytes 2 r.act1
      ++ leBytes 2 r.pos ++ tail

/-- The run of a site, and the step record in force. -/
def State.run' (s : State) (i : Nat) : Run := (s.site i).run
def State.setRun (s : State) (i : Nat) (f : Run → Run) : State := s.setSite i (fun t => { t with run := f t.run })
def State.ring (s : State) (i : Nat) : Ring := (s.site i).ring
def State.setRing (s : State) (i : Nat) (f : Ring → Ring) : State := s.setSite i (fun t => { t with ring := f t.ring })
def Run.stepRec (r : Run) (k : Nat) : StepRec := r.steps.getD (k - 1) {}

/-- The step in force. -/
def State.stepRec (s : State) (i : Nat) : StepRec := (s.run' i).stepRec (s.run' i).step

/-- Step 1, whose ring and raw fields govern the run (R341). -/
def State.step1 (s : State) (i : Nat) : StepRec := (s.run' i).stepRec 1

def State.setCap (s : State) (b : Nat) (f : Capture → Capture) : State := s.setBnd b (fun t => { t with cap := f t.cap })
def State.cap (s : State) (b : Nat) : Capture := (s.bnd b).cap

/-! ## Capture FIFO (R336, R343, R344) -/

/-- A record lost from the ring: counted for the next DROPPED marker (R343). -/
def Ring.drop (r : Ring) (now : Nat) : Ring :=
  { r with dropped := capped r.dropped 1 max64, lost := r.lost + 1, lostTime := if r.lost == 0 then now else r.lostTime }

/-- A record enters its bundle's FIFO of 256, or is dropped (R343, R344, R350). -/
def State.capture (s : State) (i b : Nat) (r : Record) : State :=
  let c := s.cap b
  let s := s.setCap b (fun c => { c with formed := min (c.formed + 1) 0xFFFFFFFF })
  if c.fifo.length < 256 then
    s.setCap b (fun c => { c with fifo := c.fifo ++ [r], fifoPeak := max c.fifoPeak (c.fifo.length + 1) })
  else
    let s := s.setCap b (fun c => { c with fifoDrops := min (c.fifoDrops + 1) 0xFFFF })
    s.setRing i (fun g => g.drop s.time)

/-! ## The ring (R342, R343, R345) -/

/-- Slots of the ring that are free for entries: as many as are asked for in WRAP mode (R343). -/
def State.ringRoom (s : State) (i : Nat) : Nat :=
  let st := s.step1 i
  if st.wrapMode then 2 else st.ringLen - ((s.ring i).write - s.rd .bndCapRead (s.lead i))

/-- Assigns the next count to an entry, which is then on its way to GDDR7 (R342). -/
def State.ringPut (s : State) (i : Nat) (r : Record) : State :=
  let st := s.step1 i
  s.setRing i (fun g => { g with
    flying := g.flying ++ [(g.write, r.bytes g.write)],
    write := g.write + 1,
    wrapped := g.wrapped || (st.wrapMode && decide (st.ringLen ≤ g.write)) })

/-- The DROPPED marker that is pending (R338, R343). -/
def Ring.marker (g : Ring) (step : Nat) : Record := { time := g.lostTime, x := g.lost, type := 8, step := step }

/-- A record reaches the ring writer: it takes a count, with the pending marker before it, or is dropped (R343). -/
def State.ringTake (s : State) (i : Nat) (r : Record) : State :=
  let g := s.ring i
  let room := s.ringRoom i
  if g.lost == 0 then
    if 1 ≤ room then s.ringPut i r else s.setRing i (fun g => { (g.drop r.time) with full := true })
  else if 2 ≤ room then
    let s := s.ringPut i (g.marker r.step)
    let s := s.setRing i (fun g => { g with lost := 0 })
    s.ringPut i r
  else s.setRing i (fun g => { (g.drop r.time) with full := true })

/-- Writes the END marker that is due, and a DROPPED marker before it, as far as there is room (R345). -/
def State.ringEnd (s : State) (i : Nat) : State :=
  match (s.ring i).endDue with
  | none => s
  | some (arg, step, time) =>
    let g := s.ring i
    let s := if g.lost != 0 && decide (1 ≤ s.ringRoom i) then
        (s.ringPut i (g.marker step)).setRing i (fun g => { g with lost := 0 })
      else s
    if (s.ring i).lost == 0 && decide (1 ≤ s.ringRoom i) then
      let n := (s.ring i).write
      let s := s.ringPut i { time := time, x := arg, type := 9, step := step }
      s.setRing i (fun g => { g with endDue := none, endCount := some n })
    else s

/-- A record's write is acknowledged: its bytes are in GDDR7 and its count is committed (R342). A write that is not
acknowledged with OK stays uncommitted (R451). -/
def State.ringCommit (s : State) (i c : Nat) : State :=
  match (s.ring i).flying.find? (fun e => e.1 == c) with
  | none => s
  | some e =>
    let st := s.step1 i
    let (ok, s) := s.store (st.ringBase + 32 * (c % max st.ringLen 1)) e.2
    if ok then s.setRing i (fun g => { g with
      flying := g.flying.filter (fun x => x.1 != c),
      ended := g.ended || g.endCount == some c,
      endCount := if g.endCount == some c then none else g.endCount })
    else s

/-- COMMITTED: the lowest count not committed (R342). -/
def Ring.committed (g : Ring) : Nat := g.flying.foldl (fun m e => min m e.1) g.write

/-- Every record in the FIFOs of a site's bundles reaches the ring writer. -/
def State.drainFifos (s : State) (i : Nat) : State :=
  s.each (s.bundlesOf i) (fun b s =>
    let l := (s.cap b).fifo
    let s := s.setCap b (fun c => { c with fifo := [] })
    l.foldl (fun s r => s.ringTake i r) s)

/-- Every record with a count is committed, where GDDR7 takes it. -/
def State.commitAll (s : State) (i : Nat) : State := ((s.ring i).flying.map (·.1)).foldl (fun s c => s.ringCommit i c) s

/-! ## Tallies and rows (R339, R346) -/

def State.setTally (s : State) (cid : Nat) (f : Tally → Tally) : State :=
  s.setCap (cid / 4096) (fun c => { c with tally := Store.put {} (cid % 4096) (f (Store.get {} (cid % 4096) c.tally)) c.tally })

/-- A failing compare beat in a context's tally (R346). -/
def State.tallyFail (s : State) (g : Governs) : State :=
  if 49152 ≤ g.cid then s
  else s.setTally g.cid (fun t =>
    let t := { t with fails := min (t.fails + 1) 0xFFFFFFFF }
    if t.step == 0 then { t with x := g.x, y := g.y, bank := g.bank, step := g.step } else t)

/-- A run as (start, length), for the ROW record. -/
def runBytes (r : Option (Nat × Nat)) : List Nat :=
  match r with
  | some (a, n) => [a, n]
  | none => [0, 0]

/-- Emits a ROW record from an accumulator into the capture FIFO of the context's bundle (R339). -/
def State.emitRow (s : State) (i cid : Nat) (a : RowAcc) (cont : Bool) : State :=
  let s := s.setTally cid (fun t => { t with rows := min (t.rows + 1) 0xFFFF })
  s.capture i (cid / 4096)
    { time := a.time, sub := a.sub, cid := cid, x := a.x, y := 0, bank := a.bank, pos := a.beats, cont := cont,
      step := a.step, type := 7, runs := runBytes a.run0 ++ runBytes a.run1 }

/-- The final ROW record of a context's accumulator (R339). -/
def State.closeRow (s : State) (i cid : Nat) : State :=
  match (s.ctx cid).rows with
  | none => s
  | some a => (s.emitRow i cid a false).setCtx cid (fun c => { c with rows := none })

/-- Extends a run by Y, where Y is its end or follows it and it is not full (R339). -/
def extendRun (r : Nat × Nat) (y : Nat) : Option (Nat × Nat) :=
  if y + 1 == r.1 + r.2 then some r
  else if y == r.1 + r.2 && decide (r.2 < 65535) then some (r.1, r.2 + 1)
  else none

/-- A failing ROWS beat enters the accumulator of its context (R339). -/
def State.rowBeat (s : State) (i : Nat) (g : Governs) (time sub : Nat) : State :=
  let s := match (s.ctx g.cid).rows with
    | some a => if a.bank == g.bank && a.x == g.x then s else s.closeRow i g.cid
    | none => s
  let a := ((s.ctx g.cid).rows).getD { bank := g.bank, x := g.x }
  let put (s : State) (a : RowAcc) : State := s.setCtx g.cid (fun c => { c with rows := some { a with
    beats := min (a.beats + 1) 65535, step := g.step, time := time, sub := sub } })
  match a.run0, a.run1 with
  | none, _ => put s { a with run0 := some (g.y, 1) }
  | some r, none =>
    match extendRun r g.y with
    | some r' => put s { a with run0 := some r' }
    | none => put s { a with run1 := some (g.y, 1) }
  | some _, some r =>
    match extendRun r g.y with
    | some r' => put s { a with run1 := some r' }
    | none =>
      let s := s.emitRow i g.cid a true
      put s { a with run0 := some (g.y, 1), run1 := none, beats := 0 }

/-- The contexts of a site that hold a row accumulator, rising. -/
def State.openRows (s : State) (i : Nat) : List Nat :=
  (s.ctxs.filter (fun e => e.2.rows.isSome && (s.bundlesOf i).contains (e.1 / 4096))).map (·.1)

/-- Final ROW records of every context of a site: at a step's end and at the Record phase (R339). -/
def State.closeRows (s : State) (i : Nat) : State := (s.openRows i).foldl (fun s c => s.closeRow i c) s

/-! ## What a failing beat does (R335, R336, R346, R349) -/

/-- The compares of one bundle at one instant, after suppression: its failing slots, whether a bye-stake made one of
them, and the symbols of the slots that took part. -/
structure Beat where
  bundle : Nat
  fails : List Nat
  bye : Bool
  exp : Nat
  act0 : Nat
  act1 : Nat
  pos : Nat
  type : Nat
  time : Nat
  sub : Nat
  deriving DecidableEq, Repr, Inhabited

/-- The record of a beat (R337, R338). -/
def Beat.record (b : Beat) (g : Governs) : Record :=
  { time := b.time, sub := b.sub, cid := g.cid, x := g.x, y := g.y, bank := g.bank,
    ports := b.bundle * 2 ^ 9 + (if b.bye then 2 ^ 8 else 0) + (b.fails.map (2 ^ ·)).foldl (· + ·) 0,
    exp := b.exp, act0 := b.act0, act1 := b.act1, pos := b.pos, step := g.step, type := b.type }

/-- PORT_FAIL_COUNT and PORT_FIRST_FAIL of a failing port (R349). -/
def State.portFails (s : State) (b : Beat) (g : Governs) : State :=
  let bytes := (b.record g).bytes 0
  s.each (b.fails.map (8 * b.bundle + ·)) (fun p s =>
    let s := if g.mode ≤ 2 then s.bump .portFailCount p else s
    if g.mode == 0 && (s.dom .portFirstFail p 0 0 32).all (· == 0#8) then s.setDom .portFirstFail p 0 0 bytes else s)

/-- The beats of one compare instant that fail, one for each bundle (R335, R336, R346). -/
def State.failBeats (s : State) (i : Nat) (g : Governs) (beats : List Beat) : State :=
  let beats := beats.filter (fun b => !b.fails.isEmpty)
  match beats with
  | [] => s
  | b :: _ =>
    let s := if g.cid < 49152 && g.mode ≤ 3 then s.setCtx g.cid (fun c => { c with fail := true }) else s
    let s := if g.mode ≤ 2 then s.tallyFail g else s
    let s := beats.foldl (fun s b => s.portFails b g) s
    match g.mode with
    | 0 => beats.foldl (fun s b => s.capture i b.bundle (b.record g)) s
    | 1 => if g.cid < 49152 then s.rowBeat i g b.time b.sub else s
    | _ => s

/-! ## Raw capture (R347) -/

/-- Bytes of one raw port's segment. -/
def StepRec.rawSegment (r : StepRec) : Nat := r.rawLen / max r.rawPorts.length 1 * 32

/-- Position of a port in the raw list. -/
def StepRec.rawIndex (r : StepRec) (p : Nat) : Option Nat := r.rawPorts.findIdx? (· == p)

/-- Stores one byte of a raw port in its segment; a segment that fills stops its port and sets FULL. -/
def State.rawByte (s : State) (i p : Nat) (v : Nat) : State :=
  let st := s.step1 i
  let r := (s.port p).raw
  match st.rawIndex p with
  | none => s
  | some k =>
    if !r.active || r.full then s else
      let a := st.rawBase + k * st.rawSegment + r.bytes
      let s := if s.spot a == .ok then
          { s with mem := Store.put 0 a (BitVec.ofNat 8 v) s.mem, memChk := Store.del (a / 32) s.memChk }
        else s
      let full := decide (st.rawSegment ≤ r.bytes + 1)
      let s := s.setPort p (fun q => { q with raw := { q.raw with bytes := q.raw.bytes + 1, full := full } })
      if full then s.setRing i (fun g => { g with rawFull := true }) else s

/-- PORT_RAW_STATUS (R349). -/
def Raw.word (r : Raw) : Nat := (if r.full then 2 ^ 63 else 0) + (if r.active then 2 ^ 62 else 0) + r.bytes

/-! ## Status words (R350) -/

/-- FLAGS of BND_CAP_STATUS. -/
def Ring.flags (g : Ring) : Nat :=
  let bit (b : Bool) (n : Nat) := if b then 2 ^ n else 0
  bit g.incomplete 0 + bit g.full 1 + bit g.wrapped 2 + bit g.rawFull 3 + bit g.ended 4

/-- The 32 bytes of BND_CAP_STATUS. -/
def Ring.status (g : Ring) : List Byte :=
  leBytes 8 g.write ++ leBytes 8 g.committed ++ leBytes 8 g.dropped ++ leBytes 4 g.flags ++ leBytes 4 g.lostAtAbort

/-- BND_CAP_BUNDLE. -/
def Capture.word (c : Capture) : Nat := c.formed * 2 ^ 32 + c.fifoDrops * 2 ^ 16 + c.fifoPeak

/-- The 16 bytes of a tally (R346). -/
def Tally.bytes (t : Tally) : List Byte :=
  leBytes 4 t.fails ++ leBytes 3 t.x ++ leBytes 2 t.y ++ leBytes 1 t.bank ++ leBytes 2 t.step ++ leBytes 2 t.rows
    ++ [0#8, 0#8]

/-! ## RING_WRITE and BND_CAP_READ (R342, R343, R350) -/

/-- RING_WRITE: the oldest record of a bundle's FIFO reaches the ring writer. -/
def ringWrite (b : Nat) (s : State) : State :=
  match s.siteOf b, (s.cap b).fifo with
  | some i, r :: rest => (s.setCap b (fun c => { c with fifo := rest })).ringTake i r
  | _, _ => s

def execRingWrite (b : BundleNo) : State → Out := run (ringWrite b)

/-- Step 8 for BND_CAP_READ: the lowest bundle of a site only (R350). -/
def capReadState (s : State) (b : Nat) : Status :=
  match s.siteOf b with
  | some i => require (s.lead i == b) .state
  | none => .state

/-- Step 9 for BND_CAP_READ (R350). -/
def capReadRange (s : State) (b v : Nat) : Status :=
  match s.siteOf b with
  | some i => require ((s.step1 i).wrapMode || (decide (s.rd .bndCapRead b ≤ v) && decide (v ≤ (s.ring i).write))) .range
  | none => .ok

/-- An accepted write of BND_CAP_READ frees space, and markers that wait are written; in WRAP mode it has no effect
(R343, R345, R350). -/
def capReadEffect (b v : Nat) (s : State) : State :=
  match s.siteOf b with
  | some i => if (s.step1 i).wrapMode then s else (s.wr .bndCapRead v b).ringEnd i
  | none => s

end Sys2Proof.Machine
end

