-- ==== Sys2Proof/Machine/WarpOut.lean ====
section
/-! DEFINITION. Warp links as senders: which outputs run, event sets down and up, and their status words (R188 to R192,
R207). -/
namespace Sys2Proof.Machine

/-! ## Ordered sets as bytes (R189) -/

/-- CRC-8 of R189 over bytes. -/
def crc8Byte (c : BitVec 8) (b : Byte) : BitVec 8 :=
  (upto 8).foldl (fun x _ => (x <<< 1) ^^^ (if x.getLsbD 7 then 0x07#8 else 0#8)) (c ^^^ b)
def crc8 (l : List Byte) : BitVec 8 := l.foldl crc8Byte 0#8

/-- Data bytes with their check byte. -/
def checked (l : List Byte) : List Byte := l ++ [crc8 l]

/-- The data bytes before the check byte, where a set has its `n` bytes and a good CRC (R189, R190). -/
def checkedOf (n : Nat) (l : List Byte) : Option (List Byte) :=
  if l.length == n && checked (l.take (n - 1)) == l then some (l.take (n - 1)) else none

/-- TYPE, GROUP, SEQ and TIME of an event set. -/
def WarpSet.body (w : WarpSet) : List Byte :=
  leBytes 1 w.type ++ leBytes 1 w.group ++ leBytes 1 w.seq ++ leBytes 8 w.time

/-- FLAGS, SEQ, TIME, LOOP and LOOP_SEQ of a time code set. -/
def TimeCode.body (c : Sys2Proof.TimeCode) : List Byte :=
  leBytes 1 c.flags ++ leBytes 1 c.seq ++ leBytes 8 c.time ++ leBytes 4 c.loop ++ leBytes 1 c.loopSeq

/-- The time code set that 15 data bytes spell. -/
def timeCodeOf (l : List Byte) : Sys2Proof.TimeCode :=
  { flags := leNat (l.take 1), seq := leNat ((l.drop 1).take 1), time := leNat ((l.drop 2).take 8),
    loop := leNat ((l.drop 10).take 4), loopSeq := leNat ((l.drop 14).take 1) }

/-- SEQ and FLAGS of an echo set. -/
def echoBody (seq flags : Nat) : List Byte := leBytes 1 seq ++ leBytes 1 flags

/-! ## Outputs -/

/-- A Warp-out carries transitions (R192, R201, R541). -/
def State.outRuns (s : State) (n : Fin 4) : Bool :=
  s.alive && s.role != 0 && (s.reg .devWarpOutEn).getLsbD n.val && s.rootPresent && !s.tb.relock && !s.tb.quiet.contains n

/-- The Warp-outs that carry transitions. -/
def State.outsRunning (s : State) : List (Fin 4) := ([0, 1, 2, 3] : List (Fin 4)).filter s.outRuns

/-- Sends an event set on one side, twice, back to back (R190). -/
def State.sendTwice (s : State) (out : Option (Fin 4)) (set : WarpSet) : State :=
  (s.send (.warp out (checked set.body))).send (.warp out (checked set.body))

/-- Sends an event set down every running Warp-out (R191). -/
def State.sendDown (s : State) (set : WarpSet) : State := s.outsRunning.foldl (fun t n => t.sendTwice (some n) set) s

/-- Sends an event set to the Warp-in side, toward the master (R96). -/
def State.sendUp (s : State) (set : WarpSet) : State := s.sendTwice none set

/-- A set of this device's own, with its next SEQ (R189, R190). -/
def State.newSet (s : State) (type group time : Nat) : WarpSet × State :=
  ({ type := type, group := group, seq := s.tb.txSeq, time := time },
   { s with tb := { s.tb with txSeq := (s.tb.txSeq + 1) % 256 } })

/-- Sends a set of this device's own down. -/
def State.announce (s : State) (type group time : Nat) : State :=
  let (set, s) := s.newSet type group time
  s.sendDown set

def State.link (s : State) (i : Nat) : WarpLink := Store.get {} i s.tb.links
def State.setLink (s : State) (i : Nat) (f : WarpLink → WarpLink) : State :=
  { s with tb := { s.tb with links := Store.put {} i (f (s.link i)) s.tb.links } }

/-- Link number of the side that a set arrives on: Warp-in, or Warp-out n. -/
def linkOfSide : Option (Fin 4) → Nat
  | none => 0
  | some n => n.val + 1

/-- One more bad set on a link (R207). -/
def State.linkError (s : State) (i : Nat) : State :=
  s.setLink i (fun l => { l with errors := min (l.errors + 1) 0xFFFF })

/-- DEV_WARP_LINK as it reads: sub 01 Warp-in, subs 02–05 the outputs (R207). -/
def State.warpLinkWord (s : State) (i : Nat) : Nat :=
  let l := s.link i
  let en := if i == 0 then s.role == 2 else (s.reg .devWarpOutEn).getLsbD (i - 1)
  let bit (b : Bool) (n : Nat) := if b then 2 ^ n else 0
  l.errors * 2 ^ 16 + bit l.depthExceeded 6 + bit l.masterHoldover 5 + bit l.peerAligned 4 + bit en 3 + bit l.lost 2
    + bit l.locked 1 + bit l.signal 0

/-- DEV_WARP_DEPTH as it reads (R189, R205). -/
def State.warpDepth (s : State) : Nat :=
  if s.role == 1 then (if s.rootLocked then 0 else 0xFF)
  else if s.role == 2 && s.tb.state == 5 then (s.link 0).peerDepth + 1
  else 0xFF

/-- FLAGS of an echo set: ALIGNED and DEPTH (R189). A sender that has no depth sends a free DEPTH (log 144). -/
def State.warpFlags (s : State) : Nat :=
  (if s.tb.state == 5 || (s.role == 1 && s.rootLocked) then 0x40 else 0)
    + (if s.warpDepth == 0xFF then (Config.unalignedDepth s.time).toNat else s.warpDepth)

/-- The master is in HOLDOVER, as far as this device knows (R189, R200). -/
def State.holdover (s : State) : Bool := if s.role == 1 then s.tb.state == 2 else (s.link 0).masterHoldover

/-- FLAGS of a time code set: HOLDOVER too (R189, R200). -/
def State.codeFlags (s : State) : Nat := (if s.holdover then 0x80 else 0) + s.warpFlags

/-! ## Time code sets and echoes that the device sends by itself (R189, R194) -/

/-- One code group in vernier steps: 40 ROOT periods (R188). -/
def groupSteps : Nat := 81920

/-- t3 of a set that arrived at t2: the next code-group boundary at least 64 code groups later (R194; log 145). -/
def echoAt (t2 : Nat) : Nat := alignUp (t2 + 64 * groupSteps) groupSteps

/-- The echo of one time code set leaves at its t3 (R194). -/
def State.sendEcho (s : State) (seq t2 : Nat) : State :=
  if s.now < echoAt t2 then s else
    let s := s.send (.warpEcho (checked (echoBody seq s.warpFlags)))
    { s with tb := { s.tb with
      turns := Store.put 0 seq (echoAt t2 - t2) s.tb.turns, echoes := s.tb.echoes.filter (· != (seq, t2)) } }

/-- The time code set of this TIME on one Warp-out; before the first echo of its child LOOP and LOOP_SEQ are free values
(R189, R194; log 144). -/
def State.sendTimeCode (s : State) (n : Fin 4) : State :=
  let (loop, s) := match s.tb.loops.find? (fun e => e.1 == n.val) with
    | some e => (e.2, s)
    | none =>
      let (v, s) := s.free 40
      ((v % 256, v / 256), s)
  s.send (.warpTime n (checked (TimeCode.body
    { flags := s.codeFlags, seq := s.tb.codeSeq, time := s.time, loop := loop.2, loopSeq := loop.1 })))

/-- A child that has answered no time code set for two periods is lost to its Warp-out (R193, R207; log 143). -/
def State.loseChild (s : State) (i : Nat) : State :=
  let l := s.link i
  if l.locked && decide (l.heard + 2560 ≤ s.time) then
    s.setLink i (fun l => { l with lost := true, signal := false, locked := false, peerAligned := false })
  else s

/-- What the Warp links do by themselves as TIME reaches a count: echoes at their t3, and at each multiple of 1,280 a time
code set on every running Warp-out (R189, R194). -/
def State.warpTick (s : State) : State :=
  let s := s.tb.echoes.foldl (fun s e => s.sendEcho e.1 e.2) s
  if s.time % 1280 != 0 then s else
    let s := s.each [1, 2, 3, 4] (fun i s => s.loseChild i)
    let s := s.outsRunning.foldl (fun s n => s.sendTimeCode n) s
    { s with tb := { s.tb with
      codes := Store.put 0 s.tb.codeSeq s.time s.tb.codes, codeSeq := (s.tb.codeSeq + 1) % 256 } }

/-- The formed site whose SITE_LOCKSTEP is this group (R10, R199). -/
def State.member (s : State) (group : Nat) : Option Nat :=
  if group == 0 then none
  else (upto 12).find? (fun i => s.siteSt i != .none && s.rd .siteLockstep i == group)

/-- A number of vernier steps in femtoseconds: 10^6 fs are 57,344 steps (R15, R194). -/
def fsOfSteps (v : Int) : Int := roundDiv (v * 1000000) 57344
/-- Femtoseconds in vernier steps. -/
def stepsOfFs (v : Int) : Int := roundDiv (v * 57344) 1000000

/-- DEV_TIME_RESIDUAL: the mean of the last 64 offsets, in fs (R194). DESIGN CHOICE (log 146): before 64 offsets exist
the mean of those held, and 0 with none. -/
def State.residual (s : State) : Int :=
  if s.tb.offsets.isEmpty then 0
  else fsOfSteps (roundDiv (s.tb.offsets.foldl (· + ·) 0) s.tb.offsets.length)

end Sys2Proof.Machine
end

