-- ==== Sys2Proof/Machine/Abort.lean ====
section
/-! DEFINITION. Abort: its phases for a site, a bundle and the device, and what each unit does in its Cut and Stop phases
(R62, R87 to R98, R345, R382, R430, R431). -/
namespace Sys2Proof.Machine

/-! ## Cut: ports, lanes, calibration (R91, R92, R95, R258, R404) -/

/-- The Cut phase at a lane: the serializer stops, buffers, lock and alignment are discarded, the fabric FIFOs are emptied;
taps stay, and PB+0x1D to 0x1F are frozen as they stand (R258, R404; log 154). -/
def cutLane (p : Nat) (s : State) : State :=
  s.setPort p (fun q => { q with lane := { q.lane with
    frozen := some (q.lane.frozen.getD (q.lane.status, q.lane.errorWord, q.lane.rx.check.bits))
    signal := false, locked := false, everLocked := false, markerAligned := false, groupAligned := false
    fill := 0, deskew := 0, txFifo := [], rxFifo := []
    tx := { q.lane.tx with bits := [], scr := none, gen := none, rd := false, prev := 0, past := [none, none], ahead := [] }
    rx := { q.lane.rx with sensed := [], decided := [], prev := 0, bits := [], scr := none, rd := false, chars := [], com := false, lost := 0
                           check := q.lane.rx.check.reseed } } })

/-- A port becomes inert: its enables are 0, the pool's links to its node open, its lane stops (R91, R92). -/
def State.cutPort (s : State) (p : Nat) : State :=
  (cutLane p ((s.clearEnables p).openPortLinks p)).setPort p (fun q => { q with fe := { q.fe with events := [], volts := none } })

/-- The DUT port of a slot, and of the bye-stake itself. -/
def portOfSlot (b slot : Nat) : Nat := if slot < 8 then 8 * b + slot else 96 + b

/-- The survey listen of a bundle ends: its port and the bye-stake are let go (R372). -/
def State.endSurvey (s : State) (b : Nat) : State :=
  match (s.bnd b).cal.surveying with
  | none => s
  | some k =>
    let free (q : Port) : Port := { q with cal := { q.cal with held := false } }
    ((s.setPort (8 * b + k) free).setPort (96 + b) free).setBnd b (fun t => { t with cal := { t.cal with
      surveying := none, surveyLast := k } })

/-- A cycle of a bundle ends early: the port and the bye-stake are let go, its triggers are pending again, and the
trims in force stay (R95, R382). -/
def State.endCycle (s : State) (b result : Nat) : State :=
  match (s.bnd b).cal.cycle with
  | none => s.endSurvey b
  | some c =>
    let s := s.setPort (portOfSlot b c.slot) (fun q => { q with cal := { q.cal with
      held := false, replaced := q.cal.substituted, pending := (c.kinds ++ q.cal.pending).eraseDups,
      request := if q.cal.request == 0 then c.request else q.cal.request } })
    let s := s.setPort (96 + b) (fun q => { q with cal := { q.cal with held := false } })
    s.setBnd b (fun t => { t with cal := { t.cal with cycle := none, lastResult := result } })

/-- An abort at a bundle's calibration: whether it was stopped (CAL_INTERRUPTED), and the state after (R95). -/
def State.stopCal (s : State) (b : Nat) : Bool × State :=
  let c := (s.bnd b).cal
  let s := s.setBnd b (fun t => { t with cal := { t.cal with survey := none } })
  (c.cycle.isSome || c.surveying.isSome, s.endCycle b 2)

/-- The Cut phase over bundles: their calibration stops and their ports and bye-stakes become inert. The bundles whose
calibration was stopped are named. -/
def State.cutBundles (s : State) (bs : List Nat) : List Nat × State :=
  bs.foldl (fun (l, s) b =>
    let (hit, s) := s.stopCal b
    let s := s.each (portsOfBundle b) (fun p s => s.cutPort p)
    (if hit then l ++ [b] else l, s)) ([], s)

/-! ## Stop: contexts, formatter, scheduler, injection (R91, R215, R270, R314, R328) -/

/-- A context under an abort: LOST in a failed bundle, otherwise ABORTED where it was READY or WAITING (R84, R270). -/
def Context.abort (c : Context) (failed : Bool) : Context :=
  if failed then (if c.st == .free then c else { c with st := .lost, cause := .none, ckpts := [] })
  else match c.st with
    | .ready | .waiting => { c with st := .aborted, cause := .none, timer := 0 }
    | _ => c

/-- Numbers of the listed contexts of a bundle, FREE ones left out. -/
def State.ctxsOf (s : State) (b : Nat) : List Nat :=
  (s.ctxs.filter (fun e => e.1 / 4096 == b && e.2.st != .free)).map (·.1)

/-- The contexts of a site, rising. -/
def State.siteCtxs (s : State) (i : Nat) : List Nat :=
  let l := s.bundlesOf i
  (s.ctxs.filter (fun e => l.contains (e.1 / 4096) && e.2.st != .free)).map (·.1)

/-- The Stop phase of a site. -/
def State.stopSite (s : State) (i : Nat) : State :=
  let s := s.each (s.siteCtxs i) (fun c s => s.setCtx c (fun x => x.abort (s.bnd (c / 4096)).failed))
  let s := s.setSite i (fun t => { t with
    startAt := none, pausing := false, resuming := false, resumeAt := none, transition := false, pauseBoundary := false,
    run := { t.run with cycles := [], words := [], expects := [], cycling := false, current := none, beats := [], boundary := false },
    sched := { t.sched with queue := [], window := [], inserts := [], training := none, bursts := [] } })
  let lead := s.lead i
  let s := s.wr .bndInjControl 0 lead
  s.setBnd lead (fun t => { t with inj := { t.inj with oneShot := false } })

/-! ## What an abort writes (R85, R86, R91) -/

def abortFlags (pin warp cal lost incomplete : Bool) : Nat :=
  let bit (b : Bool) (n : Nat) := if b then 2 ^ n else 0
  bit pin 4 + bit warp 3 + bit cal 2 + bit lost 1 + bit incomplete 0

/-- The abort objects of a bundle (R85). -/
def State.bundleAborted (s : State) (b cause time flags : Nat) : State :=
  let s := s.wr .bndAbortCause cause b
  let s := s.wr .bndAbortTime time b
  let s := s.wr .bndAbortFlags flags b
  s.bump .bndAbortCount b

/-- BND_ABORT_FLAGS ORed over bundles (R530). -/
def State.orFlags (s : State) (bs : List Nat) : Nat := bs.foldl (fun a b => a ||| s.rd .bndAbortFlags b) 0

/-- ABORT_DONE (R530). -/
def State.abortDone (s : State) (kind unit cause : Nat) (bs : List Nat) : State :=
  s.raise 0x0400 kind unit cause (s.orFlags bs)

/-- A device-scope abort is complete once no site is ABORTING: ABORT_DONE, and a pending fault is entered (R76, R91). -/
def State.deviceDone (s : State) : State :=
  match s.dev.aborting with
  | none => s
  | some cause =>
    if s.anySite (· == .aborting) then s
    else
      let s := s.abortDone 0 0 cause (upto 12)
      { s with dev := { s.dev with aborting := none, fault := s.dev.faultNext.or s.dev.fault, faultNext := none } }

/-- The Close phase at a site (R91): READY, or FAULT with a failed bundle; the cause, the bundle objects and the event
are written; a discard pass follows LOST contexts (R535). -/
def State.closeOne (s : State) (i : Nat) (incomplete : Bool) : State :=
  match (s.site i).abort with
  | none => s
  | some r =>
    let bs := s.bundlesOf i
    let s := s.each bs (fun b s =>
      s.bundleAborted b r.cause r.time (abortFlags r.pin r.warp (r.cal.contains b) (r.lost.contains b) incomplete))
    let s := (s.wr .siteAbortCause r.cause i).wr .siteStepNow 0 i
    let failed := bs.any (fun b => (s.bnd b).failed)
    let s := s.setSite i (fun t => { t with
      st := if failed then .fault else .ready, abort := none,
      discarding := if r.lost.isEmpty then t.discarding else some r.lost })
    let s := if r.lost.isEmpty then s else s.wr .devRecoverState (2 ^ 28 + i * 2 ^ 24)
    match r.scope with
    | some (k, u) => s.abortDone k u r.cause bs
    | none => s

/-- The Close phase of a site, with which a device-scope abort may be complete. -/
def State.closeSite (s : State) (i : Nat) (incomplete : Bool) : State := (s.closeOne i incomplete).deviceDone

/-! ## Group aborts (R97, R199) -/

/-- Cancels the START and PAUSE events of a group that are scheduled; group 0 cancels those of every group (R199). -/
def State.cancelGroup (s : State) (g : Nat) : State :=
  { s with tb := { s.tb with sched := s.tb.sched.filter (fun e => !((g == 0 || e.group == g) && e.type != 1)) } }

/-- A group ABORT toward the master; the master sends it down (R97). -/
def State.groupAbort (s : State) (g : Nat) : State :=
  if s.role == 1 then s.announce 4 g s.time
  else if s.role == 2 then
    let (set, s) := s.newSet 4 g s.time
    s.sendUp set
  else s

/-! ## The abort of a site (R81, R91, R95) -/

/-- Answers an ARM that validates with ABORTED and writes SB+0x05 (R67, R95). -/
def State.armAborted (s : State) (i : Nat) : State :=
  match (s.site i).validating with
  | none => s
  | some _ =>
    let s := s.setSite i (fun t => { t with validating := none })
    let s := (((s.wr .siteArmStatus Status.aborted.code i).wr .siteArmCheck 0 i).wr .siteArmStep 0 i).wr .siteArmObject 0 i
    s.complete (.arm (Fin.ofNat 12 i)) .aborted

/-- How an abort came and where its ABORT_DONE goes. -/
structure AbortBy where
  cause : Nat
  /-- bundles whose contexts become LOST with it (R84, R86) -/
  lost : List Nat := []
  pin : Bool := false
  warp : Bool := false
  /-- trigger instant as a TIME count, where it is not the present one (R214, R216, R242, R294) -/
  at' : Option Nat := none
  /-- a Warp ABORT covers the group already: nothing goes up (R97) -/
  quiet : Bool := false
  /-- scope of its ABORT_DONE; none inside a device-scope abort -/
  scope : Option (Nat × Nat) := none
  deriving DecidableEq, Repr, Inhabited

/-- An abort of bundles that no run has to be stopped for: their calibration and ports, their abort objects, and
ABORT_DONE where the abort has one of its own (R85, R88, R91, R95). -/
def State.abortIdle (s : State) (bs : List Nat) (a : AbortBy) : State :=
  let (cal, s) := s.cutBundles bs
  let s := s.each bs (fun b s =>
    s.bundleAborted b a.cause (a.at'.getD s.time) (abortFlags a.pin a.warp (cal.contains b) (a.lost.contains b) false))
  match a.scope with
  | some (k, u) => s.abortDone k u a.cause bs
  | none => s

/-- The abort of a formed site. In READY and FAULT its state stays (R95). -/
def State.abortFormed (s : State) (i : Nat) (a : AbortBy) : State :=
  let bs := s.bundlesOf i
  match s.siteSt i with
  | .none | .aborting => s
  | .fault | .ready => ((s.armAborted i).wr .siteAbortCause a.cause i).abortIdle bs a
  | st =>
    let (cal, s) := s.cutBundles bs
    let g := s.rd .siteLockstep i
    let s := if g == 0 then s else
      let s := s.cancelGroup g
      if a.quiet || a.warp then s else s.groupAbort g
    let s := s.stopSite i
    let s := s.setSite i (fun t => { t with
      st := .aborting,
      abort := some { cause := a.cause, time := a.at'.getD s.time, since := s.elapsed, pin := a.pin, warp := a.warp, scope := a.scope, lost := a.lost, cal := cal } })
    if st == .armed then s.closeOne i false
    else
      let s := s.closeRows i
      s.setRing i (fun g => { g with endDue := some (a.cause, (s.run' i).step, a.at'.getD s.time) })

/-- The abort of one site with its own ABORT_DONE; `at'` is the trigger instant where it is not the present one. -/
def State.abortSite (s : State) (i : Nat) (cause : Nat) (warp : Bool) (at' : Option Nat := none) : State :=
  s.abortFormed i { cause := cause, warp := warp, at' := at', scope := some (1, i) }

/-- The abort of bundle scope: the site that holds the bundle, or the FREE bundle's ports (R88). -/
def State.abortBundle (s : State) (b : Nat) (cause : Nat) (lost : List Nat := []) : State :=
  let a : AbortBy := { cause := cause, scope := some (2, b), lost := lost }
  match s.siteOf b with
  | some i => s.abortFormed i a
  | none => s.abortIdle [b] a

/-! ## Loads (R78, R429 to R431, R439) -/

/-- A load fails with an error of R429, found at a frame address or block: the device or the region is wiped, the chunk
under way is answered, the event is raised (R430, R439). After a full load every region is behind its latches at once, so
that all user I/O is inert in DORMANT, and the wipe of the frames runs on (R78). -/
def State.failLoad (s : State) (code place : Nat) (answer : Status) : State :=
  match s.cfg.load with
  | none => s
  | some l =>
    let s := if code == 3 || code == 4 || code == 5 then s.bump .devAuthFailCount else s
    let s := s.complete .chunk answer
    let s := { s with cfg := { s.cfg with load := none, errPin := s.cfg.errPin || code != 15 } }
    match l.kind with
    | .full =>
      let s := (s.wr .devCfgError code).wr .devCfgErrWhere place
      let s := s.each (upto 16) (fun k s => s.setRegion (k / 4) (k % 4) (fun _ => {}))
      let s := { s with dev := { s.dev with wiping := true, wipeSince := s.elapsed }, cfg := { s.cfg with loaded := false } }
      s.raise 0x1C01 0 0 code place
    | .part q r =>
      let s := (s.wr .qdPrError code q.val).wr .qdPrErrWhere place q.val
      let s := s.setRegion q.val r.val (fun g => { st := .wiping, latched := g.latched })
      let s := { s with cfg := { s.cfg with rewipe := s.cfg.rewipe ++ [(q, r)] } }
      s.raise 0x1C01 4 q.val code place

/-- A device-scope abort stops a load with ABORTED (R431). -/
def State.stopLoads (s : State) : State := s.failLoad 15 0 .aborted

/-! ## The device-scope abort (R76, R87, R95, R97) -/

/-- The device-scope abort. `quiet`: a Warp ABORT for the whole system goes with it or caused it, and sites send no
group ABORT (R97, log 24). In FAULT it covers every bundle too, and DEV_STATE stays FAULT (R75, R76, R95). -/
def State.abortDevice (s : State) (cause : Nat) (pin warp quiet : Bool) : State :=
  if !s.alive || s.dev.aborting.isSome then s
  else
    let a : AbortBy := { cause := cause, pin := pin, warp := warp, quiet := quiet }
    let s := if s.dev.fault.isSome then s else s.wr .devFaultCause cause
    let s := { s with dev := { s.dev with aborting := some cause } }
    let s := (s.cancelGroup 0).stopLoads
    let s := if s.dev.selfTest then
        { s.wr .devSelftestState s.dev.selfTestBefore with dev := { s.dev with selfTest := false } }
      else s
    let s := s.abortIdle ((upto 12).filter (fun b => (s.siteOf b).isNone)) a
    let s := s.each (upto 12) (fun i s => s.abortFormed i a)
    s.deviceDone

/-- The Flush phase of a site: FIFOs and rows reach the ring, and the END marker follows; true when everything is
committed, an END marker that waits for space apart (R91, R345). -/
def State.flushSite (s : State) (i : Nat) : Bool × State :=
  let s := (s.drainFifos i).ringEnd i
  let s := s.commitAll i
  ((s.ring i).flying.isEmpty, s)

/-- The Flush phase ends unfinished: the capture is INCOMPLETE, the records left are counted, no END marker (R345). -/
def State.flushLate (s : State) (i : Nat) : State :=
  let left := ((s.bundlesOf i).map (fun b => (s.cap b).fifo.length)).foldl (· + ·) 0 + (s.ring i).flying.length
  let s := s.each (s.bundlesOf i) (fun b s => s.setCap b (fun c => { c with fifo := [] }))
  s.setRing i (fun g => { g with
    incomplete := true, endDue := none, endCount := none, lostAtAbort := min (g.lostAtAbort + left) 0xFFFFFFFF })

end Sys2Proof.Machine
end

