-- ==== Sys2Proof/Machine/Health.lean ====
section
/-! DEFINITION. The health of the memory channels: erasure, isolation, and what the counts of the last second bring about
after a command that reads or writes GDDR7 (R479, R480). -/
namespace Sys2Proof.Machine

/-- A channel enters ERASURE with a declared lane: 1 training, 2 rate, 3 host. -/
def State.declare (s : State) (c lane why : Nat) : State :=
  let s := s.setChan c (fun ch => { ch with st := .erasure, lane := some (Fin.ofNat 32 lane), recent := [] })
  s.raise 0x1402 5 c lane why

/-- A channel is isolated: the sites that depend on it abort. -/
def State.isolateChan (s : State) (c cause : Nat) : State :=
  let s := s.setChan c (fun ch => { ch with st := .isolated, cause := cause, recent := [], recentBad := [] })
  let s := s.raise 0x1403 5 c cause
  s.each (upto 12) (fun i s =>
    if (s.siteSt i).active && s.siteHolds i c then s.abortSite i 0x1403 false else s)

/-- Corrections of a lane in the last second. -/
def Chan.laneRate (c : Chan) (lane : Nat) : Nat := (c.recent.filter (fun e => e.2 == lane)).length

/-- What the counts of the last second bring about at a channel. -/
def State.chanHealth (s : State) (c : Nat) : State :=
  let ch := s.chan c
  let limit := s.rd .devMemLaneThreshold
  let hit := (upto 32).find? (fun l => decide (limit ≤ ch.laneRate l) && decide (1 ≤ ch.laneRate l))
  match ch.st with
  | .ready =>
    if 64 ≤ ch.recentBad.length then s.isolateChan c 3
    else match hit with
      | some l => s.declare c l 2
      | none => s
  | .erasure =>
    if 64 ≤ ch.recentBad.length then s.isolateChan c 3
    else match (upto 32).find? (fun l => decide (limit ≤ ch.laneRate l) && decide (1 ≤ ch.laneRate l)
        && ch.lane != some (Fin.ofNat 32 l)) with
      | some _ => s.isolateChan c 2
      | none => s
  | _ => s

/-- The health of every channel, after an access. -/
def State.memHealth (s : State) : State := s.each (upto 12) (fun c s => s.chanHealth c)

/-- A command that reads or writes GDDR7: its effect, then the health of the channels. -/
def memRun (f : State → State) : State → Out := run (fun s => (f s).memHealth)

/-- RECORD_COMMIT: a record's write is acknowledged (R342). -/
def execRecordCommit (site : SiteNo) (count : Nat) : State → Out := memRun (fun s => s.ringCommit site.val count)

end Sys2Proof.Machine
end

