-- ==== Sys2Proof/Machine/Ledger.lean ====
section
/-! DEFINITION. The Rim's ledger: calibration sets with their two copies, commits, and the error log (R367, R373 to
R376, R532, R533). -/
namespace Sys2Proof.Machine

/-! ## Bytes of points and sets (R367, R374) -/

/-- A signed field of n bytes. -/
def intBytes (n : Nat) (v : Int) : List Byte := leBytes n (unsigned (8 * n) v)

/-- Bytes 0 to 27 of a point: its trims (R367). -/
def trimBytes (t : Trims) : List Byte :=
  intBytes 2 t.drvOfs ++ intBytes 2 t.drvGain ++ intBytes 2 t.drvImp ++ leBytes 1 t.slew ++ [0#8]
    ++ intBytes 2 t.vttOfs ++ intBytes 2 t.vcomOfs ++ intBytes 2 t.ct0Ofs ++ intBytes 2 t.ct1Ofs ++ intBytes 2 t.ct2Ofs
    ++ intBytes 2 t.pmuOfs ++ intBytes 2 t.pmuGain ++ leBytes 1 (t.drvD / 64) ++ leBytes 1 (t.drvD % 64)
    ++ leBytes 1 (t.stbD / 64) ++ leBytes 1 (t.stbD % 64) ++ [0#8, 0#8]

/-- A list of bytes at exactly n bytes, filled with zeros. -/
def padTo (n : Nat) (l : List Byte) : List Byte := (l ++ List.replicate (n - l.length) 0#8).take n

/-- The 64 bytes of a point of class c (R367). -/
def Point.bytes (p : Point) (c : Nat) : List Byte :=
  trimBytes p.trims ++ intBytes 2 p.temp ++ leBytes 1 c ++ leBytes 1 p.source ++ padTo 16 p.quality ++ leBytes 8 p.time
    ++ List.replicate 8 0#8

/-- Bytes 0 to 27 and 32 to 543 of a copy, over which its CRC is formed (R374). -/
def SetCopy.parts (key : Nat) (x : SetCopy) : List Byte × List Byte :=
  (leBytes 2 (key / 4) ++ leBytes 1 (key % 4) ++ leBytes 1 x.set.points.length ++ leBytes 4 x.gen ++ leBytes 8 x.set.time
    ++ leBytes 1 x.set.flags ++ List.replicate 11 0#8,
   padTo 512 ((x.set.points.take 8).flatMap (fun p => p.bytes (key % 4))))

/-- The 544 bytes of a copy (R374). -/
def SetCopy.bytes (key : Nat) (x : SetCopy) : List Byte :=
  let (lo, hi) := x.parts key
  lo ++ leBytes 4 (crc32c (lo ++ hi)).toNat ++ hi

/-! ## Generations and copies (R374, R375) -/

/-- The successor of a generation. -/
def succGen (g : Nat) : Nat := if g = 0xFFFFFFFF then 1 else g + 1

/-- The two copies of a set. -/
def State.pair (s : State) (key : Nat) : SetPair := Store.get shipmentPair key s.ledger.pairs

/-- The copy in force is B (R374). -/
def SetPair.bInForce (p : SetPair) : Bool := p.b.valid && (!p.a.valid || p.b.gen == succGen p.a.gen)

/-- The copy in force, where one is valid. -/
def SetPair.inForce (p : SetPair) : Option SetCopy :=
  if p.bInForce then some p.b else if p.a.valid then some p.a else none

/-- One copy is valid and the other, invalid, carries its successor: a commit was interrupted (R375). -/
def SetPair.interrupted (p : SetPair) : Bool :=
  (p.a.valid && !p.b.valid && p.b.gen == succGen p.a.gen) || (p.b.valid && !p.a.valid && p.a.gen == succGen p.b.gen)

/-- Two valid copies of which neither succeeds the other (R374). -/
def SetPair.unordered (p : SetPair) : Bool :=
  p.a.valid && p.b.valid && p.b.gen != succGen p.a.gen && p.a.gen != succGen p.b.gen

def State.setPair (s : State) (key : Nat) (p : SetPair) : State :=
  { s with ledger := { s.ledger with pairs := Store.put shipmentPair key p s.ledger.pairs } }

/-! ## Commits (R373, R375) -/

/-- A set joins a list of sets: it replaces one of the same port and class. -/
def joinSets (key : Nat) (v : CalSet) (l : List (Nat × CalSet)) : List (Nat × CalSet) :=
  if l.any (fun e => e.1 == key) then l.map (fun e => if e.1 == key then (key, v) else e) else l ++ [(key, v)]

/-- Sets queued in the Rim, the one whose commit has begun included (R373, R383). -/
def State.queued (s : State) : Nat := s.ledger.queue.length + (if s.ledger.committing.isSome then 1 else 0)

/-- The engine hands a set to the Rim: a queued set of the same port and class that has not begun is replaced; the queue holds
64, and the engine keeps a set that finds no place (R373, log 159). -/
def State.handOver (s : State) (key : Nat) (v : CalSet) : State :=
  if s.ledger.queue.any (fun e => e.1 == key) || (s.queued < 64 && s.cal.handing.isEmpty) then
    { s with ledger := { s.ledger with queue := joinSets key { v with time := s.time } s.ledger.queue } }
  else { s with cal := { s.cal with handing := joinSets key v s.cal.handing } }

/-- A place of the Rim's queue is free: the engine hands over the oldest set that waits for one. -/
def State.handWaiting (s : State) : State :=
  match s.cal.handing with
  | [] => s
  | (key, v) :: rest =>
    if s.queued < 64 then
      { s with cal := { s.cal with handing := rest },
               ledger := { s.ledger with queue := joinSets key { v with time := s.time } s.ledger.queue } }
    else s

/-- The first word of a commit: GENERATION of the target copy, which invalidates it (R375). -/
def State.commitStart (s : State) : State :=
  match s.ledger.committing, s.ledger.queue with
  | none, (key, v) :: rest =>
    let p := s.pair key
    let toB := !p.bInForce
    let gen := succGen ((p.inForce.map (·.gen)).getD 0)
    let p := if toB then { p with b := { p.b with gen := gen, valid := false } }
      else { p with a := { p.a with gen := gen, valid := false } }
    let s := s.setPair key p
    { s with ledger := { s.ledger with queue := rest, committing := some (key, v, toB) } }
  | _, _ => s

/-- The CRC of a commit is written: the new copy is valid and in force (R375). -/
def State.commitEnd (s : State) : State :=
  match s.ledger.committing with
  | some (key, v, toB) =>
    let p := s.pair key
    let p := if toB then { p with b := { p.b with valid := true, set := v } }
      else { p with a := { p.a with valid := true, set := v } }
    let s := s.setPair key p
    { s with ledger := { s.ledger with committing := none } }
  | none => s

/-- LEDGER_COMMIT. -/
def execLedgerCommit : State → Out := run (fun s => s.onlyIf s.rim.powered State.commitStart)

/-- LEDGER_COMMIT_DONE: counted in DEV_CAL_COMMITS while the main die runs (R375, R383). -/
def execLedgerCommitDone : State → Out :=
  run (fun s => s.onlyIf (s.ledger.committing.isSome && s.rim.powered) (fun s =>
    let s := s.commitEnd
    if s.alive then (s.bump .devCalCommits).handWaiting else s))

/-- Keys of the sets. -/
def setKeys : List Nat := upto 432

/-- The Rim validates both copies of every set at its power-up: an interrupted commit is counted and logged; an
unordered pair is logged and copy A committed to B (R374, R375). -/
def State.validateLedger (s : State) : State :=
  let s := s.wr .devCalCommitLost 0
  s.each setKeys (fun key s =>
    let p := s.pair key
    if p.interrupted then
      (s.bump .devCalCommitLost).raise 0x2003 3 (key / 4) (key % 4) ((p.inForce.map (·.gen)).getD 0) [] true
    else if p.unordered then
      let s := s.setPair key { p with b := { p.a with gen := succGen p.a.gen } }
      s.raise 0x2003 3 (key / 4) (key % 4) p.a.gen [] true
    else s)

/-! ## The error log (R532, R533) -/

/-- The 64 bytes of the entry with sequence L. -/
def logEntry (e : Event) (l : Nat) : List Byte :=
  let body := e.payload.take 24 ++ leBytes 4 (l % 2 ^ 32) ++ padTo 32 e.ext
  body ++ leBytes 4 (crc32c body).toNat

/-- The Rim takes the event at the head of its queue and writes its entry; a ledger commit in progress goes first
(R533). -/
def State.logWrite (s : State) : State :=
  match s.evt.logQueue, s.ledger.committing with
  | e :: rest, none =>
    let l := s.ledger.next
    { s with
      evt := { s.evt with logQueue := rest },
      ledger := { s.ledger with
        log := Store.put [] (l % 4096) (logEntry e l) s.ledger.log,
        next := l + 1,
        first := max s.ledger.first (l + 1 - 4096) } }
  | _, _ => s

/-- LOG_WRITE. -/
def execLogWrite : State → Out := run (fun s => s.onlyIf s.rim.powered State.logWrite)

/-- DEV_LOG_VALID: entries at or above DEV_LOG_FIRST_SEQ that the log still holds (R543). -/
def State.logValid (s : State) : Nat := min (s.ledger.next - s.ledger.first) 4096

end Sys2Proof.Machine
end

