-- ==== Sys2Proof/Machine/Timebase.lean ====
section
/-! DEFINITION. The timebase, the Warp protocol, LINE changes (R178 to R207). -/
namespace Sys2Proof.Machine

/-! ## ROOT and TIME (R178 to R182, R200, R201) -/

/-- ROOT is present. The first time since power-up or RESET_N, CFG moves to ROOT/64 and the channels of every quadrant
that is on begin training (R181, R464). -/
def State.rootArrives (s : State) : State :=
  let s := if s.tb.cfgOnRoot then s else
    s.each ((upto 12).filter (fun c => (s.quad (c / 3)).power == .on)) (fun c s => s.setChan c (fun _ => { st := .init, initSince := s.elapsed }))
  { s with tb := { s.tb with cfgOnRoot := true, synth := 2 }, timeRuns := true }

/-- Entry into HOLDOVER or FREE (R203). -/
def State.countLoss (s : State) : State := s.bump .devSynthLossCount

def warpRoleState (s : State) (v : Nat) : Status :=
  let d := s.devState
  firstRefusal
    [require (d == 1 || d == 7) .state,
     require (!(d == 7 && s.cfg.loaded && v == 2)) .state]

/-- What Warp-in held of its parent is gone; its errors stay (R207). -/
def State.clearWarpIn (s : State) : State :=
  let s := s.setLink 0 (fun l => { errors := l.errors })
  { s with tb := { s.tb with offsets := [], turns := [], echoes := [], relock := false } }

/-- A change of role (R180): re-acquisition, or a pull-in of ROOT onto TBREF with the TIME count kept. -/
def warpRoleEffect (v : Nat) (s : State) : State :=
  if v == s.role then s else
    let held := s.devState == 7 && s.cfg.loaded
    let s := s.clearWarpIn.wr .warpRole v
    if held then { s with tb := { s.tb with state := 2, synth := 2, started := true } }.countLoss
    else { s with tb := { s.tb with state := if v == 2 then 3 else 0, synth := 1, sched := [] }, timeRuns := false }

/-- TIMEBASE_LOCKED: ROOT reaches LOCKED; TIME starts at 0 the first time (R180, R182, R200). -/
def timebaseLocked (s : State) : State :=
  s.onlyIf (s.alive && s.role != 2 && (s.tb.state == 0 || s.tb.state == 2)) (fun s =>
    let first := !s.tb.started
    let s := s.rootArrives
    let s := { s with tb := { s.tb with state := 1, started := true },
                      time := if first then 0 else s.time }
    (s.wr .devTbrefPresent 1).raise 0x0804 0 0 1)

def execTimebaseLocked : State → Out := run timebaseLocked

/-- TBREF_LOST: HOLDOVER, and the abort that DEV_HOLDOVER_ABORT chooses (R97, R98, R200). -/
def tbrefLost (s : State) : State :=
  s.onlyIf (s.alive && s.role != 2) (fun s =>
    let s := s.wr .devTbrefPresent 0
    s.onlyIf (s.tb.state == 1) (fun s =>
      let s := { s with tb := { s.tb with state := 2 } }.countLoss
      let s := s.raise 0x0803
      if s.rd .devHoldoverAbort == 1 then
        let s := if s.role == 1 then s.announce 4 0 s.time else s
        s.abortDevice 0x0803 false false (s.role == 1)
      else s))

def execTbrefLost : State → Out := run tbrefLost

/-- TBREF_RETURN: the pull-in begins; HOLDOVER is reported until ROOT is within 0.01 ppm (R180, R200). -/
def execTbrefReturn : State → Out :=
  run (fun s => s.onlyIf (s.alive && s.role != 2) (fun s => s.wr .devTbrefPresent 1))

/-! ## LINE (R185, R186, R204) -/

def lineRange (v : Nat) : Status :=
  let p := v % 2 ^ 13
  let q := v / 2 ^ 16 % 2 ^ 13
  require (v / 2 ^ 13 % 8 == 0 && v / 2 ^ 29 % 8 == 0 && decide (1 ≤ p) && decide (p ≤ q) && decide (q ≤ 4096)) .range

/-- An accepted DEV_LINE_RATIO write: WORD of the bundle stops until the new LINE is in force (R185). -/
def lineEffect (b v : Nat) (s : State) : State :=
  s.setBnd b (fun x => { x with lineNext := some (v % 2 ^ 32) })

/-- DEV_LINE_RATIO of P and Q with its read-only half (R186, R204). -/
def lineWord (pq : Nat) : Nat :=
  pq + max (coincidenceK (pq % 2 ^ 13) (pq / 2 ^ 16 % 2 ^ 13) / 16) 1 * 2 ^ 32

/-- LINE_SETTLED: the new LINE is in force and the write is answered (R185). -/
def lineSettled (b : BundleNo) (s : State) : State :=
  match (s.bnd b).lineNext with
  | none => s
  | some pq =>
    let s := s.setBnd b (fun x => { x with lineNext := none })
    (s.wr .devLineRatio (lineWord pq) 0 b).complete (.line b) .ok

def execLineSettled (b : BundleNo) : State → Out := run (lineSettled b)

/-! ## Alignment (R194, R195) -/

/-- Moves TIME by a number of vernier steps, not below 0; the arrivals that wait for their echo keep their distance. -/
def State.stepTime (s : State) (d : Int) : State :=
  let moved (t : Nat) : Nat := (max 0 ((t : Int) + d)).toNat
  let t := moved s.now
  { s with time := t / stepsPerTick,
           tb := { s.tb with frac := t % stepsPerTick, echoes := s.tb.echoes.map (fun e => (e.1, moved e.2)) } }

/-- What a good time code set says of the parent (R189, R195). DESIGN CHOICE (log 146): DEPTH_EXCEEDED shows the depth of
the latest set. -/
def timeCodeFlags (c : TimeCode) (s : State) : State :=
  s.setLink 0 (fun l => { l with
    masterHoldover := c.flags.testBit 7, peerAligned := c.flags.testBit 6, peerDepth := c.flags % 16,
    depthExceeded := decide (3 ≤ c.flags % 16), bad := 0, heard := s.time })

/-- A good time code set at a child in LINK_LOCKED or ALIGNED, which arrived at t2: the echo to come, and the correction that
its LOOP allows (R194, R195). DESIGN CHOICE (log 146): the DN delay is rounded to a whole vernier step, halves away from
zero. -/
def timeCodeGood (c : TimeCode) (t2 : Nat) (s : State) : State :=
  let s := match s.tb.turns.find? (fun e => e.1 == c.loopSeq) with
    | none => { s with tb := { s.tb with echoes := s.tb.echoes ++ [(c.seq, t2)] } }
    | some (_, turn) =>
      let dLoop : Int := (c.loop : Int) - turn
      let dn := roundDiv (dLoop + stepsOfFs (signed 32 (s.rd .devWarpAsym))) 2
      let θ : Int := ((t2 : Int) - (c.time * stepsPerTick : Nat)) - dn
      let move := if s.tb.state == 5 then clampInt (-1) 1 (-θ) else -θ
      let s := { s with tb := { s.tb with echoes := s.tb.echoes ++ [(c.seq, t2)] } }.stepTime move
      { s with tb := { s.tb with delay := fsOfSteps dn, offsets := (θ + move) :: s.tb.offsets.take 63 } }
  s.setLink 0 (fun l => { l with heard := s.time })

/-- WARP_TIME_CODE (R189, R190, R194, R195): a set whose K28.1 arrives `sub` vernier steps from now. -/
def warpTimeCode (data : List Byte) (sub : BitVec 15) (s : State) : State :=
  s.onlyIf (s.alive && s.role == 2 && (s.link 0).locked) (fun s =>
    match checkedOf 16 data with
    | some l =>
      let s := timeCodeFlags (timeCodeOf l) s
      if s.tb.state == 4 || s.tb.state == 5 then timeCodeGood (timeCodeOf l) (s.now + sub.toNat) s else s
    | none => (s.linkError 0).setLink 0 (fun l => { l with bad := l.bad + 1 }))

def execWarpTimeCode (set : CodeIn) : State → Out := run (warpTimeCode set.data set.sub)

/-- WARP_ECHO: the parent takes t4 and forms LOOP for its later time code sets (R194). -/
def warpEchoIn (out : Fin 4) (data : List Byte) (sub : BitVec 15) (s : State) : State :=
  s.onlyIf (s.outRuns out) (fun s =>
    match checkedOf 3 data with
    | none => s.linkError (out.val + 1)
    | some l =>
      let seq := leNat (l.take 1)
      let flags := leNat (l.drop 1)
      let s := s.setLink (out.val + 1) (fun l => { l with
        signal := true, locked := true, lost := false, heard := s.time,
        peerAligned := flags.testBit 6, peerDepth := flags % 16 })
      match s.tb.codes.find? (fun e => e.1 == seq) with
      | none => s
      | some (_, t1) =>
        { s with tb := { s.tb with
          loops := s.tb.loops.filter (fun e => e.1 != out.val) ++ [(out.val, (seq, s.now + sub.toNat - t1 * stepsPerTick))] } })

def execWarpEcho (out : Fin 4) (seq flags check : Byte) (sub : BitVec 15) : State → Out :=
  run (warpEchoIn out [seq, flags, check] sub)

/-- Warp-in shows valid code groups: ROOT re-locks, and the Warp-outs are quiet until it has (R201). -/
def relockBegins (s : State) : State :=
  let s := s.setLink 0 (fun l => { l with signal := true, locked := true, lost := false, last := none })
  { s with tb := { s.tb with relock := true, synth := 1 } }

/-- ROOT is locked to Warp-in: LINK_LOCKED (R179, R201). -/
def relockEnds (s : State) : State :=
  let s := s.rootArrives
  let s := { s with tb := { s.tb with state := 4, relock := false, offsets := [], turns := [], echoes := [] } }
  s.setLink 0 (fun l => { l with bad := 0, heard := s.time })

/-- WARP_LINK_LOCKED: the reacquire phase begins; where it has begun, it is done (R201). -/
def warpLinkLocked (s : State) : State :=
  s.onlyIf (s.alive && s.role == 2 && (s.tb.state == 3 || s.tb.state == 6))
    (if s.tb.relock then relockEnds else relockBegins)

def execWarpLinkLocked : State → Out := run warpLinkLocked

/-- WARP_ALIGNED: alignment complete (R195). -/
def warpAligned (s : State) : State :=
  let l := s.link 0
  s.onlyIf (s.alive && s.role == 2 && s.tb.state == 4 && l.peerAligned && decide (l.peerDepth ≤ 2)
      && decide (-100 ≤ s.residual) && decide (s.residual ≤ 100)) (fun s =>
    { s with tb := { s.tb with state := 5 } }.raise 0x0804 0 0 5)

def execWarpAligned : State → Out := run warpAligned

/-- The follower enters FREE, counted unless it is there: ROOT runs free, HOLD goes down, the device aborts at device scope
(R98, R193, R201, R203). -/
def State.enterFree (s : State) (cause : Nat) : State :=
  let s := { s with tb := { s.tb with relock := false, echoes := [] } }
  let s := if s.rootPresent && s.tb.state != 6 then { s with tb := { s.tb with state := 6, synth := 2 } }.countLoss else s
  s.abortDevice cause false false false

/-- What the third case of R193 asks for: two consecutive time code sets missing or with a bad CRC. -/
def State.codesMissing (s : State) : Bool :=
  decide (2 ≤ (s.link 0).bad) || decide ((s.link 0).heard + 2560 ≤ s.time)

/-- WARP_LOSS (R193): silence, loss of code-group alignment, or time codes missing. -/
def warpLoss (why : Fin 3) (s : State) : State :=
  s.onlyIf (s.alive && s.role == 2 && (s.link 0).locked && !(s.link 0).lost && (why.val != 2 || s.codesMissing)) (fun s =>
    let s := s.setLink 0 (fun l => { l with
      lost := true, signal := l.signal && why.val != 0, locked := l.locked && why.val == 2, peerAligned := false })
    let s := s.raise 0x0801 0 0 (why.val + 1)
    let s := { s with tb := { s.tb with relock := false } }.announce 5 0 s.time
    s.enterFree 0x0801)

def execWarpLoss (why : Fin 3) : State → Out := run (warpLoss why)

/-! ## Events of the tree (R96, R190, R191, R198, R199) -/

/-- An event set arrives with its check byte: from below it is discarded and counted; one with a bad CRC is discarded and
counted; a duplicate is ignored; from above it is passed down and acted on (R190, R191). -/
def eventIn (above : Option (Fin 4)) (set : WarpSet) (crc : Byte) (act : State → State) (s : State) : State :=
  if !s.alive || s.role == 0 then s else
    match above with
    | some n => if s.outRuns n then s.linkError (n.val + 1) else s
    | none =>
      if s.role != 2 || !(s.link 0).locked then s
      else if crc8 set.body != crc then s.linkError 0
      else if (s.link 0).last == some set then s
      else
        let s := s.setLink 0 (fun l => { l with last := some set })
        act (s.sendDown set)

/-- Queues a scheduled event (R199). -/
def State.schedule (s : State) (type group time : Nat) : State :=
  { s with tb := { s.tb with sched := s.tb.sched ++ [{ type := type, group := group, time := time }] } }

/-- A site misses an event or the realignment of its group, at an instant: it aborts and a group ABORT goes up, from a site
that nothing runs on too (R97, R199, R294). -/
def State.memberMissed (s : State) (i group time at' : Nat) : State :=
  let running := (s.siteSt i).active
  let s := (s.raise 0x0805 1 i group time).abortSite i 0x0805 false (some at')
  if running then s else (s.cancelGroup group).groupAbort group

/-- A START or PAUSE that arrives after its count: its member site misses it (R199). -/
def State.lockstepMissed (s : State) (group time : Nat) : State :=
  match s.member group with
  | none => s
  | some i => s.memberMissed i group time s.time

/-- WARP_SYNC (R191, R199): scheduled, or acting at once and logged when late. -/
def execWarpSync (above : Option (Fin 4)) (mark : SetMark) (time : BitVec 64) : State → Out :=
  run (eventIn above ⟨1, 0, mark.seq.toNat, time.toNat⟩ mark.check (fun s =>
    if time.toNat < s.time then (s.syncUnits time.toNat).raise 0x0806 0 0 0 time.toNat else s.schedule 1 0 time.toNat))

/-- A START or PAUSE set: scheduled, or missed when late (R199). -/
def lockstepIn (type group time : Nat) (s : State) : State :=
  if time < s.time then s.lockstepMissed group time else s.schedule type group time

/-- WARP_START (R191, R199). -/
def execWarpStart (above : Option (Fin 4)) (mark : SetMark) (group : Byte) (time : BitVec 64) : State → Out :=
  run (eventIn above ⟨2, group.toNat, mark.seq.toNat, time.toNat⟩ mark.check (lockstepIn 2 group.toNat time.toNat))

/-- WARP_PAUSE (R191, R199). -/
def execWarpPause (above : Option (Fin 4)) (mark : SetMark) (group : Byte) (time : BitVec 64) : State → Out :=
  run (eventIn above ⟨3, group.toNat, mark.seq.toNat, time.toNat⟩ mark.check (lockstepIn 3 group.toNat time.toNat))

/-- WARP_HOLD: the follower passes it on, aborts with cause WARP_HOLD and realigns from the start (R98, R191, R201). -/
def execWarpHold (above : Option (Fin 4)) (mark : SetMark) (time : BitVec 64) : State → Out :=
  run (eventIn above ⟨5, 0, mark.seq.toNat, time.toNat⟩ mark.check (fun s => (s.raise 0x0802).enterFree 0x0802))

/-- What a Warp ABORT does at a device that acts on it: pending START and PAUSE cancelled, and the abort of its scope
(R96, R199). -/
def State.actOnWarpAbort (s : State) (group : Nat) : State :=
  if group == 0 then (s.raise 0x0403 0 0 0).abortDevice 0x0403 false true true
  else
    let s := s.cancelGroup group
    match s.member group with
    | none => s
    | some i => (s.raise 0x0403 1 i group).abortSite i 0x0403 true

/-- WARP_ABORT: from above passed down and acted on; from below passed up by a follower; the master sends it down and
acts on it (R96, R97). -/
def warpAbortIn (above : Option (Fin 4)) (set : WarpSet) (crc : Byte) (s : State) : State :=
  let side := linkOfSide above
  let hears := match above with
    | none => s.role == 2 && (s.link 0).locked
    | some n => s.outRuns n
  if !s.alive || s.role == 0 || !hears then s
  else if crc8 set.body != crc then s.linkError side
  else if (s.link side).last == some set then s
  else
    let s := s.setLink side (fun l => { l with last := some set })
    if above.isSome && s.role == 2 then s.sendUp set else (s.sendDown set).actOnWarpAbort set.group

def execWarpAbort (above : Option (Fin 4)) (mark : SetMark) (group : Byte) (time : BitVec 64) : State → Out :=
  run (warpAbortIn above ⟨4, group.toNat, mark.seq.toNat, time.toNat⟩ mark.check)

/-! ## DEV_EVENT_SEND (R198, R206) -/

/-- TYPE of a scheduled event that DEV_EVENT_SEND can send (R206). -/
def scheduledType (type : Nat) : Bool := type == 1 || type == 2 || type == 3

/-- Step 8: only a master, and at most 16 events that have not reached their count (R198). -/
def eventSendState (s : State) (v : Nat) : Status :=
  firstRefusal
    [require (s.role == 1) .state,
     require (!scheduledType (v / 2 ^ 12) || decide ((s.tb.sched.filter (fun e => decide (s.time < e.time))).length < 16)) .busy]

/-- Step 9: the type and its group, and the count at least 2,048 ticks ahead. -/
def eventSendRange (s : State) (v : Nat) : Status :=
  let type := v / 2 ^ 12
  let group := v % 256
  let known := scheduledType type || type == 5
  let groupOk := if type == 2 || type == 3 then group != 0 else group == 0
  require (known && v / 256 % 16 == 0 && groupOk
    && (type == 5 || decide (s.time + 2048 ≤ s.rd .devEventTime))) .range

/-- The event goes down the tree, and a scheduled one waits for its count (R198). -/
def eventSendEffect (v : Nat) (s : State) : State :=
  let type := v / 2 ^ 12
  let group := v % 256
  if type == 5 then s.announce 5 0 s.time
  else
    let t := s.rd .devEventTime
    (s.announce type group t).schedule type group t

/-! ## Fixture measurement (R197, R207) -/

def warpCharState (s : State) (v : Nat) : Status := require ((s.reg .devWarpOutEn).getLsbD (v % 4)) .state
def warpCharRange (v : Nat) : Status :=
  require (v / 64 == 0 && v / 4 % 4 == 0 && (v / 16 == 1 || v / 16 == 2)) .range

/-- A fixture measurement starts. DESIGN CHOICE (log 146): a write while one runs starts it anew on the output it names. -/
def warpCharEffect (v : Nat) (s : State) : State :=
  { s.wr .devWarpCharResult 0 with tb := { s.tb with charOut := some (Fin.ofNat 4 v), charSince := s.elapsed } }

/-- 10 ms have passed since the measurement's write (R197). -/
def State.charTimedOut (s : State) : Bool := s.passed s.tb.charSince (10 * ticksPerMs)

/-- WARP_CHAR_DONE: the loop delay, or 0xFFFFFFFF after 10 ms without a signal (R197). -/
def execWarpCharDone (delay : Option (BitVec 32)) : State → Out :=
  run (fun s => s.onlyIf (s.tb.charOut.isSome && (delay.isSome || s.charTimedOut)) (fun s =>
    { s.wr .devWarpCharResult ((delay.map (·.toNat)).getD 0xFFFFFFFF) with tb := { s.tb with charOut := none } }))

/-- DEV_WARP_ASYM lies within ±100,000 fs (R205). -/
def warpAsymRange (v : Nat) : Status :=
  require (decide (-100000 ≤ signed 32 v) && decide (signed 32 v ≤ 100000)) .range

end Sys2Proof.Machine
end

