-- ==== Sys2Proof/Machine/Power.lean ====
section
/-! DEFINITION. The Rim's power sequencer, RESET_N, thermal sampling and the rail meters (R99, R100, R512 to R517, R521,
R527). -/
namespace Sys2Proof.Machine

/-! ## Main reset (R50, R99, R505) -/

/-- Registers that the Rim holds: the management objects, the sequencer's, and what the ledger serves (R50, R100, R504,
R527). -/
def rimHeld (key : Nat) : Bool :=
  let index := key / 256
  let sub := key % 256
  (decide (0x1100 ≤ index) && decide (index ≤ 0x11FF)) || (index == 0x2100 && decide (sub ≤ 8)) ||
    (index == 0x2101 && sub == 7) || (index == 0x2102 && (sub == 4 || sub == 5)) || (index == 0x2700 && sub == 0xF)

/-- Every main-die object at its default; the Rim, the ledger, the fuses, the subscriptions and the log queue keep
their state (R50, R99, R100). Open services of the host are lost, those of the management line are answered STATE
(R505). -/
def State.resetMain (s : State) : State :=
  let s := s.ctl.services.foldl (fun t o => if isHost o.rq.src then t else t.reply o.rq o.service o.addr .state) s
  { State.reset with
    pending := s.pending
    out := s.out
    elapsed := s.elapsed
    freeCount := s.freeCount
    dict := { regs := s.dict.regs.filter (fun e => rimHeld e.1), doms := s.dict.doms.filter (fun e => rimHeld (e.1 / 2 ^ 24)) }
    ctl := { replies := s.ctl.replies }
    evt := { now := s.evt.now, subs := s.evt.subs, logQueue := s.evt.logQueue }
    dev := { abortNLow := s.dev.abortNLow, resetNLow := s.dev.resetNLow }
    fuses := s.fuses
    rim := s.rim
    cfg := { keyRam := s.cfg.keyRam }
    ledger := s.ledger }

/-- Ownership reverts to 0 and the device logs it (R54); the Rim raises the reversion of management ownership (R532). -/
def State.revertOwner (s : State) : State :=
  let owner := s.rd .controlOwner
  if owner == 0 then s else
    let s := s.wr .controlOwner 0
    let s := { s with ctl := { s.ctl with ownerAddr := none, staged := [] }, ij := { s.ij with state := 0, left := 0 } }
    s.raise 0x0001 0 0 owner 0 [] (owner == 1)

/-- The Rim asserts its internal main reset (R514 to R516). The PCIe link goes down with the main die, so that host ownership
reverts; management ownership the Rim keeps (R54, R505; log 161). -/
def State.assertMainReset (s : State) : State :=
  let s := if s.alive && s.rd .controlOwner == 2 then s.revertOwner.deliver else s
  let owner := s.rd .controlOwner
  let t := s.resetMain.wr .controlOwner owner
  { t with rim := { t.rim with mainReset := true }, ctl := { t.ctl with ownerAddr := s.ctl.ownerAddr, heard := s.ctl.heard } }

/-- RESET_N falls: ownership reverts and the event of it is delivered, then the main die is held in reset (R54, R99). -/
def execResetNFall : State → Out :=
  run (fun s => s.onlyIf (!s.dev.resetNLow) (fun s =>
    let s := if s.alive then s.revertOwner.deliver.resetMain else s
    { s with dev := { s.dev with resetNLow := true } }))

/-- RESET_N is released: every main-die object is at its default and the synthesizer starts acquiring (R99, R514). -/
def execResetNRise : State → Out :=
  run (fun s => s.onlyIf s.dev.resetNLow (fun s =>
    let s := { s with dev := { s.dev with resetNLow := false } }
    if s.alive then { s.resetMain with tb := { s.resetMain.tb with synth := 1 } } else s))

/-! ## The sequencer (R514 to R517) -/

/-- DEV_PWR_SEQ_STATE: 0 OFF, 1 RAMPING_UP, 2 ON, 3 RAMPING_DOWN. -/
def SeqPhase.code : SeqPhase → Nat
  | .off => 0
  | .step _ | .release => 1
  | .on => 2
  | .abort | .hold | .down _ => 3

/-- DEV_PWR_STEP as it reads (R527). -/
def RimState.stepNow (r : RimState) : Nat :=
  match r.seq with
  | .step k | .down k => k.val
  | _ => (r.failedStep.map (·.val)).getD 0xFF

def setBit (w : BitVec 8) (k : Fin 8) (v : Bool) : BitVec 8 :=
  if v then w ||| (1#8 <<< k.val) else w &&& ~~~(1#8 <<< k.val)

/-- Enters power-down step k: PWR_ENk falls (R515). -/
def State.downTo (s : State) (k : Fin 8) : State :=
  { s with rim := { s.rim with seq := .down k, since := s.elapsed, en := setBit s.rim.en k false } }

/-- The Hold phase: the Rim asserts its internal main reset (R515). -/
def State.powerHold (s : State) : State :=
  let s := s.assertMainReset
  { s with rim := { s.rim with seq := .hold, since := s.elapsed, thermalDown := s.rim.thermalOff, thermalOff := false } }

/-- Power-down goes on when the abort that it waits for is complete (R515). -/
def State.afterAbort (s : State) : State :=
  if s.rim.seq == .abort && s.dev.aborting.isNone && !s.anySite (· == .aborting) then s.powerHold else s

/-- Step 8 for DEV_PWR_COMMAND; a power-up waits 10 s after a thermal power-down (R517). -/
def powerState (s : State) (v : Nat) : Status :=
  match v, s.rim.seq.code with
  | 1, 0 => require (!s.rim.thermalDown || s.passed s.rim.offAt (10 * ticksPerSecond)) .state
  | 1, 1 => .busy
  | 1, 3 => .busy
  | _, _ => .ok

/-- An accepted POWER_UP (R514, R517). -/
def powerUpEffect (s : State) : State :=
  match s.rim.seq with
  | .off => { s with rim := { s.rim with
      seq := .step 0, since := s.elapsed, upSince := s.elapsed, en := setBit s.rim.en 0 true, mainReset := true, failedStep := none, thermalDown := false } }
  | _ => s

/-- An accepted POWER_DOWN (R515, R517). -/
def powerDownEffect (s : State) : State :=
  match s.rim.seq with
  | .step k => (s.raise 0x2404 0 0 0 0 [] true).downTo k
  | .release => (s.raise 0x2404 0 0 0 0 [] true).downTo 7
  | .on =>
    let s := s.raise 0x2404 0 0 0 0 [] true
    let s := { s with rim := { s.rim with failedStep := none } }
    if s.anySite SiteSt.active && s.alive then
      let s := { s with rim := { s.rim with seq := .abort } }
      let s := s.abortDevice 0x2404 false false false
      if s.dev.aborting.isNone then s.powerHold else s
    else s.powerHold
  | _ => s

/-- POWER_UP_STEP: 1 ms after PG_k reads high the next enable rises, or Release begins; PG_k has risen within 20 ms (R514). -/
def powerUpStep (s : State) : State :=
  match s.rim.seq with
  | .step k =>
    s.onlyIf (s.passed s.rim.since ticksPerMs && decide (s.elapsed ≤ s.rim.since + 21 * ticksPerMs)) (fun s =>
      let r := { s.rim with pg := setBit s.rim.pg k true, since := s.elapsed }
      if k == 7 then { s with rim := { r with seq := .release } }
      else { s with rim := { r with seq := .step (k + 1), en := setBit r.en (k + 1) true } })
  | _ => s

def execPowerUpStep : State → Out := run powerUpStep

/-- PWR_PG_TIMEOUT: PG_k is not high after 20 ms, the power-up ends and R515 runs from step k downward (R514). -/
def pgTimeout (s : State) : State :=
  match s.rim.seq with
  | .step k =>
    s.onlyIf (s.passed s.rim.since (20 * ticksPerMs)) (fun s =>
      let s := (s.wr .devPwrFaultCause 0x2401).raise 0x2401 0 0 k.val 0 [] true
      { s with rim := { s.rim with failedStep := some k } }.downTo k)
  | _ => s

def execPwrPgTimeout : State → Out := run pgTimeout

/-- POWER_RELEASE: 2 ms after step 7 the internal main reset is released, and the main die is at its defaults (R505, R514). -/
def powerRelease (s : State) : State :=
  match s.rim.seq with
  | .release =>
    s.onlyIf (s.passed s.rim.since (2 * ticksPerMs)) (fun s =>
      let micros := s.microsSince s.rim.upSince
      let s := s.resetMain
      let s := { s with rim := { s.rim with seq := .on, mainReset := false, failedStep := none },
                        tb := { s.tb with synth := if s.dev.resetNLow then 0 else 1 } }
      let s := { s.wr .controlOwner 0 with ctl := { s.ctl with ownerAddr := none } }
      (s.bump .devPwrCycles).wr .devPwrSeqTime micros)
  | _ => s

def execPowerRelease (_ : Unit) : State → Out := run powerRelease

/-- POWER_DOWN_STEP: the next enable falls 10 µs after Hold began, or once PG_k is low or 5 ms have passed; after step 0 the
rails are off (R515). -/
def powerDownStep (pgLow : Bool) (s : State) : State :=
  match s.rim.seq with
  | .hold => s.onlyIf (s.passed s.rim.since (10 * ticksPerUs)) (·.downTo 7)
  | .down k =>
    s.onlyIf (pgLow || s.passed s.rim.since (5 * ticksPerMs)) (fun s =>
      let s := { s with rim := { s.rim with pg := if pgLow then setBit s.rim.pg k false else s.rim.pg } }
      if k == 0 then { s with rim := { s.rim with seq := .off, offAt := s.elapsed } } else s.downTo (k - 1))
  | _ => s

def execPowerDownStep (pgLow : Bool) : State → Out := run (powerDownStep pgLow)

/-- PWR_PG_LOST: main reset at once and the steps of R515 from 7 to 0 (R516). -/
def pgLost (input : Fin 8) (s : State) : State :=
  s.onlyIf (s.rim.seq == .on && s.rim.en.getLsbD input.val) (fun s =>
    let s := (s.wr .devPwrFaultCause 0x2402).raise 0x2402 0 0 input.val 0 [] true
    let s := s.assertMainReset
    let s := { s with rim := { s.rim with pg := setBit s.rim.pg input false, failedStep := none } }
    s.downTo 7)

def execPwrPgLost (input : Fin 8) : State → Out := run (pgLost input)

/-- PWR_LINE_LOSS: the Rim resets the main die, drops every enable and loses its own state; a ledger commit in progress
completes within the holdup (R100, R502, R516). -/
def lineLoss (s : State) : State :=
  s.onlyIf s.rim.powered (fun s =>
    let s := s.assertMainReset.commitEnd
    { s with
      dict := {}, ctl := {},
      ledger := { s.ledger with queue := [] },
      evt := { now := [] },
      rim := { powered := false, seq := .off, mainReset := true, lineLost := true } })

def execPwrLineLoss : State → Out := run lineLoss

/-- RIM_START: RIM_VIN is valid; the Rim starts, validates the ledger and logs a line loss of before (R374, R511, R516). -/
def rimStart (s : State) : State :=
  s.onlyIf (!s.rim.powered) (fun s =>
    let lost := s.rim.lineLost
    let s := { s with rim := { powered := true, seq := .off, mainReset := true } }
    let s := s.validateLedger
    if lost then (s.wr .devPwrFaultCause 0x2403).raise 0x2403 0 0 0 0 [] true else s)

def execRimStart : State → Out := run rimStart

/-! ## Thermal (R516, R521, R528) -/

/-- Sensor reading in 1/16 °C. -/
def tempOf (v : BitVec 16) : Int := signed 16 v.toNat

/-- The sensors of a quadrant: its bundles' taps and its fabric's centre (R521). -/
def quadSensors (q : Nat) : List Nat := [3 * q, 3 * q + 1, 3 * q + 2, 12 + q]

/-- WARN with its 2 °C hysteresis (R521). -/
def warnNext (was : Bool) (t limit : Int) : Bool := decide (limit ≤ t) || (was && decide (limit - 32 < t))

/-- Highest of a list of readings. -/
def hottest (l : List Int) : Int := l.foldl max (l.headD 0)

/-- One quadrant's readings (R528). -/
def State.quadThermal (s : State) (temps : List Int) (q : Nat) : State :=
  let now := hottest ((quadSensors q).map (fun i => temps.getD i 0))
  let limit : Int := 16 * s.rd .devTjWarn
  let warn := warnNext (s.therm.qWarn.getD q false) now limit
  let s := s.wr .qdTempNow (unsigned 16 now) q
  let s := if !s.therm.sampled || decide (signed 16 (s.rd .qdTempMax q) < now) then s.wr .qdTempMax (unsigned 16 now) q else s
  let flags := (if warn then 1 else 0) + (if 105 * 16 < now then 2 else 0) + (if now < 160 then 4 else 0)
  let s := s.wr .qdThermFlags flags q
  { s with therm := { s.therm with qWarn := s.therm.qWarn.set q warn } }

/-- DEV_THERM_FLAGS as it reads (R527). -/
def Thermal.flags (t : Thermal) : Nat :=
  (if t.warn then 1 else 0) + (if t.overTemp then 2 else 0) + (if t.underTemp then 4 else 0) + (if t.shutdown then 8 else 0)

/-- A device-wide fault: the device-scope abort, a system Warp ABORT from a master, and FAULT (R76, R77, R97). -/
def State.deviceFault (s : State) (code : Nat) : State :=
  if s.dev.fault.isSome then s else
  let s := s.wr .devFaultCause code
  let s := { s with dev := { s.dev with faultNext := some code } }
  let s := if s.role == 1 then s.announce 4 0 s.time else s
  let s := s.abortDevice code false false (s.role == 1)
  if s.dev.aborting.isNone then { s with dev := { s.dev with fault := some code, faultNext := none } } else s

/-- THERMAL_SAMPLE (R521, R516, R528). -/
def thermalSample (raw : List (BitVec 16)) (rimTemp : BitVec 16) (s : State) : State :=
  let s := if s.rim.powered then s.wr .devRimTemp rimTemp.toNat else s
  if !s.alive || raw.length != 16 then s else
    let temps := raw.map tempOf
    let now := hottest temps
    let limit : Int := 16 * s.rd .devTjWarn
    let warn := warnNext s.therm.warn now limit
    let enters := warn && !s.therm.warn
    let hot := (temps.zip (s.therm.hot ++ List.replicate 16 0)).map (fun e => if 115 * 16 ≤ e.1 then e.2 + 1 else 0)
    let first := !s.therm.sampled
    let s := (upto 4).foldl (fun t q => t.quadThermal temps q) s
    let s := { s with therm := { s.therm with
      sensors := raw, hot := hot, warn := warn, overTemp := decide (105 * 16 < now), underTemp := decide (now < 160),
      sampled := true } }
    let s := s.wr .devTjNow (unsigned 16 now)
    let s := if first || decide (signed 16 (s.rd .devTjMax) < now) then s.wr .devTjMax (unsigned 16 now) else s
    let low := temps.foldl min now
    let s := if first || decide (low < signed 16 (s.rd .devTjMin)) then s.wr .devTjMin (unsigned 16 low) else s
    let s := s.setDom .devTjSensors 0 0 0 (raw.flatMap (fun v => leBytes 2 v.toNat))
    let which := (temps.findIdx? (· == now)).getD 0
    let s := if enters then (s.bump .devTjWarnCount).raise 0x2405 0 0 which (unsigned 64 now) else s
    match hot.findIdx? (fun n => decide (3 ≤ n)) with
    | some i =>
      if s.therm.shutdown then s else
        let s := s.raise 0x2406 0 0 i (unsigned 64 (temps.getD i 0))
        let off := s.rd .devPwrThermalOff == 1
        let s := { s with therm := { s.therm with shutdown := true } }
        let s := if off then
            { s.wr .devPwrFaultCause 0x2406 with rim := { s.rim with seq := .abort, thermalOff := true } }
          else s
        (s.deviceFault 0x2406).afterAbort
    | none => s

def execThermalSample (temps : List (BitVec 16)) (rimTemp : BitVec 16) : State → Out := run (thermalSample temps rimTemp)

/-! ## Rail meters (R527, R528) -/

/-- Power of one rail in mW: voltage without its sign times current. -/
def railPower (r : BitVec 16 × BitVec 32) : Nat := (signed 16 r.1.toNat).natAbs * r.2.toNat / 1000

/-- RAIL_METER_SAMPLE (R527, R528). -/
def railSample (rails : List (BitVec 16 × BitVec 32)) (vbat rimVin : BitVec 16) (domains : List (BitVec 32))
    (milliJoules : Nat) (s : State) : State :=
  let s := if s.rim.powered then (s.wr .devVbat vbat.toNat).wr .devRimVin rimVin.toNat else s
  if !s.alive || rails.length != 12 || domains.length != 16 then s else
    let total := (rails.map railPower).foldl (· + ·) 0
    let limit := s.rd .devPwrLimit * 1000
    let crosses := decide (limit < total) && decide (s.rd .devPwrTotal ≤ limit)
    let s := s.wr .devPwrTotal total
    let s := s.wr .devPwrPeak (max total (s.rd .devPwrPeak))
    let s := s.setDom .devRailMeas 0 0 0
      (rails.flatMap (fun r => leBytes 2 r.1.toNat ++ [0, 0] ++ leBytes 4 r.2.toNat))
    let s := s.wr .devPwrEnergy (s.rd .devPwrEnergy + milliJoules)
    let s := s.each (upto 16) (fun i t => t.wr .qdPwrDomain ((domains.getD i 0).toNat) (i / 4) (i % 4))
    let s := s.each (upto 4) (fun q t =>
      t.wr .qdPwrTotal ((upto 4).foldl (fun a k => a + t.rd .qdPwrDomain q k) 0) q)
    if crosses then (s.bump .devPwrOverCount).raise 0x2407 0 0 total else s

def execRailMeterSample (rails : List (BitVec 16 × BitVec 32)) (vbat rimVin : BitVec 16) (domains : List (BitVec 32))
    (milliJoules : Nat) : State → Out := run (railSample rails vbat rimVin domains milliJoules)

end Sys2Proof.Machine
end

