-- ==== Sys2Proof/Machine/SerialLane.lean ====
section
/-! DEFINITION. Serial lanes: configuration checks, equalizers, and lock, alignment and pattern events (R233 to R265). -/
namespace Sys2Proof.Machine

/-- The odd port of a pair whose even partner has PAIR = 1 (R235, R236). -/
def State.pairedOdd (s : State) (p : Nat) : Bool := decide (p < 96) && p % 2 == 1 && (s.ser (p - 1)).pair

/-- The port at which a lane is reported and controlled (R235). -/
def State.lanePort (s : State) (p : Nat) : Nat := if s.pairedOdd p then p - 1 else p

/-- Step 8 of R71 for PB+0x18–0x1C (R236, R256, R257). -/
def serState (s : State) (o : Obj) (p : Nat) : Status :=
  let heldRefused := [Obj.portSerConfig, .portSerTiming, .portSerPrbs].contains o
  firstRefusal
    [require (decide (p < 96)) .state,
     require (!s.pairedOdd p) .state,
     require (!(heldRefused && s.held p)) .busy]

/-- PORT_SER_CONFIG obeys its lists (R234, R235, R250, R261). -/
def serConfigOk (p : Nat) (w : Word) : Bool :=
  let c := serConfigOf w
  w.fld 40 24 == 0 && w.fld 1 7 == 0 && decide (c.strobeK ≤ 7) && decide (c.rxSink ≤ 4) && decide (c.rxClk ≤ 2)
    && decide (c.txSource ≤ 3) && decide (c.idle ≤ 2) && decide (c.scramble ≤ 2) && decide (c.pcs ≤ 2)
    && decide (c.mod ≤ 2) && (if c.mod == 0 then c.mapping == 0 else decide (c.mapping ≤ 1))
    && !(c.pcs != 0 && c.mod != 0) && !(c.pair && p % 2 == 1)

/-- The four FFE taps of a PORT_SER_TXEQ word: PRE2, PRE1, POST1, POST2 (R262). -/
def txTaps (w : Word) : List Int :=
  [signed 8 (w.fld 8 8), signed 8 (w.fld 16 8), signed 8 (w.fld 24 8), signed 8 (w.fld 32 8)]

/-- Taps lie in their ranges and their magnitudes sum to at most 64 (R239, R262). -/
def tapsOk (taps : List Int) : Bool :=
  (taps.zip [16, 32, 48, 16]).all (fun e => decide (e.1.natAbs ≤ e.2))
    && decide ((taps.map Int.natAbs).foldl (· + ·) 0 ≤ 64)

/-- The PORT_SER_TXEQ word of taps, MAIN = 128 − Σ|k| (R239, R262). -/
def txWord (taps : List Int) : Nat :=
  let sum := (taps.map Int.natAbs).foldl (· + ·) 0
  (128 - sum) + unsigned 8 (taps.getD 0 0) * 2 ^ 8 + unsigned 8 (taps.getD 1 0) * 2 ^ 16
    + unsigned 8 (taps.getD 2 0) * 2 ^ 24 + unsigned 8 (taps.getD 3 0) * 2 ^ 32

/-- Step 9 of R71 for the scalar serial objects. -/
def serRange (o : Obj) (p : Nat) (v : Nat) : Status :=
  let w := Word.of v
  match o with
  | .portSerConfig => require (serConfigOk p w) .range
  | .portSerTxeq => require (w.fld 40 24 == 0 && tapsOk (txTaps w)) .range
  | .portSerTiming => require (w.fld 41 7 == 0 && w.fld 20 4 == 0 && decide (w.fld 0 20 ≤ 573440)) .range
  | .portSerPrbs => require (w.fld 16 48 == 0 && w.fld 2 6 == 0 && decide (w.fld 8 4 ≤ 7) && decide (w.fld 12 4 ≤ 7)) .range
  | _ => .ok

/-- A write of PORT_SER_RXEQ (R263). -/
def rxeqRange (off : Nat) (data : List Byte) : Status :=
  let b (i : Nat) := (data.getD i 0).toNat
  let tap (i lim : Nat) := decide ((signed 8 (b i)).natAbs ≤ lim)
  require (off == 0 && data.length == 16 && decide (b 0 ≤ 15) && b 1 / 4 == 0 && decide (b 1 ≤ 2)
    && !(b 1 == 1 && b 2 == 0 && b 3 == 0) && tap 4 100 && ((upto 11).all (fun i => tap (5 + i) 50))) .range

/-- Index of the WORD cycle of a bundle at an instant in vernier steps: WORD is LINE/32 (R183). -/
def State.wordAt (s : State) (b t : Nat) : Nat := t * s.lineP b / (65536 * max (s.lineQ b) 1)

/-- That of the present instant. -/
def State.wordIndex (s : State) (b : Nat) : Nat := s.wordAt b s.now

def State.setLane (s : State) (p : Nat) (f : Lane → Lane) : State := s.setPort p (fun q => { q with lane := f q.lane })
def State.lane (s : State) (p : Nat) : Lane := (s.port p).lane

/-- Taps that wait come into force in WORD cycle w, where that is later than the one of their write (R240). -/
def LaneTx.settle (x : LaneTx) (w : Nat) : LaneTx :=
  match x.next with
  | some (n, taps) => if n < w then { x with taps := taps, next := none } else x
  | none => x

/-- Accepted taps of a lane: in force from the next WORD boundary; at once while no WORD runs (R240). -/
def State.acceptTaps (s : State) (p : Nat) (taps : List Int) : State :=
  let w := s.wordIndex (bundleOfPort p)
  (s.wr .portSerTxeq (txWord taps) p).setLane p (fun l => { l with tx :=
    if s.timeRuns then { l.tx.settle w with next := some (w, taps) } else { l.tx with taps := taps, next := none } })

/-- An accepted PORT_SER_TXEQ write (R240). -/
def txeqEffect (p v : Nat) (s : State) : State :=
  let w := s.wordIndex (bundleOfPort p)
  let tie := (s.lane p).eqFabric == some w
  (s.acceptTaps p (txTaps (Word.of v))).setLane p (fun l =>
    { l with eqDict := some w, superseded := l.superseded || tie })

/-- An accepted PORT_SER_RXEQ write: its values are in force, and read, from the next WORD boundary; at once while no WORD runs
(R244). -/
def rxeqEffect (p : Nat) (data : List Byte) (s : State) : State :=
  if s.timeRuns then
    let w := s.wordIndex (bundleOfPort p)
    s.setLane p (fun l => { l with rx := { l.rx with next := some (w, data) } })
  else (s.setDom .portSerRxeq p 0 0 data).setLane p (fun l => { l with rx := { l.rx with next := none } })

/-- Values of PORT_SER_RXEQ that wait come into force once their WORD cycle is past (R244). -/
def rxeqInForce (p : Nat) (s : State) : State :=
  match (s.lane p).rx.next with
  | some (w, data) => s.onlyIf (decide (w < s.wordIndex (bundleOfPort p))) (fun s =>
      (s.setDom .portSerRxeq p 0 0 data).setLane p (fun l => { l with rx := { l.rx with next := none } }))
  | none => s

/-! ## Arm checks 6 and 7 for SERIAL ports (R3, R259) -/

/-- Levels in use ascend strictly, as programmed (R121). -/
def State.levelsAscend (s : State) (p mod : Nat) : Bool :=
  let l (o : Obj) := levelUnits (s.rd o p)
  let l0 := l .portDrvL0
  let l1 := l .portDrvL1
  let l2 := l .portDrvL2
  let l3 := l .portDrvL3
  match mod with
  | 0 => decide (l0 < l3)
  | 1 => decide (l0 < l1) && decide (l1 < l3)
  | _ => decide (l0 < l1) && decide (l1 < l2) && decide (l2 < l3)

/-- Thresholds in use ascend strictly (R122). -/
def State.thresholdsAscend (s : State) (p mod : Nat) : Bool :=
  let c (o : Obj) := levelUnits (s.rd o p)
  match mod with
  | 0 => true
  | 1 => decide (c .portCt0 < c .portCt1)
  | _ => decide (c .portCt0 < c .portCt1) && decide (c .portCt1 < c .portCt2)

/-- Above the grade's highest symbol rate: 2 × LINE over 32 GBd on a T96-32E (R3, R233). -/
def State.overGrade (s : State) (p : Nat) : Bool :=
  let b := bundleOfPort p
  s.fuses.grade32 && s.isSerial p && decide (32 * s.lineQ b < 56 * s.lineP b)

/-- The conditions of R259 that fail the odd port of a pair: its own window, load and levels, under the lane's MOD; its
thresholds and its configuration are unused (R235). -/
def oddArmFails (s : State) (p : Nat) : Bool :=
  s.lowSpeed p || (s.enables p).load || !s.levelsAscend p (s.ser (p - 1)).mod

/-- The conditions of R259 that fail a SERIAL port of a site. -/
def serArmFails (s : State) (site p : Nat) : Bool :=
  if s.pairedOdd p then oddArmFails s p else
  let b := bundleOfPort p
  let c := s.ser p
  let e := s.enables p
  let t := s.reg .portSerTiming p
  let prbs := s.reg .portSerPrbs p
  let eOdd := s.enables (p + 1)
  let strobe := 8 * b + c.strobeK
  let src := c.txSource == 1
  let chk := c.rxSink == 2
  let same (q : Nat) := c.group != 0 && s.isSerial q && !s.pairedOdd q && (s.ser q).group == c.group
  s.lowSpeed p || e.load
    || decide (112 * s.lineP b < s.lineQ b)
    || !s.levelsAscend p c.mod || !s.thresholdsAscend p c.mod
    || (c.pair && (!s.isSerial (p + 1) || eOdd.drive != e.drive || eOdd.compare != e.compare || eOdd.term != e.term))
    || ((c.rxClk == 0 || c.rxClk == 2) && decide (1024 * s.lineQ b ≤ t.fld 24 17 * s.lineP b))
    || (c.rxClk == 2 && (strobe == p || !s.isSerial strobe || s.pairedOdd strobe || (s.ser strobe).rxSink != 4))
    || (c.rxSink == 1 && c.pcs == 0)
    || (c.mod != 2 && ((src && prbs.fld 8 4 == 7) || (chk && prbs.fld 12 4 == 7)))
    || ((src || chk) && c.mod == 1 && c.mapping == 1)
    || (upto 12).any (fun j => j != site && s.siteSt j != .none && (s.dutPortsOf j).any same)
    || (s.dutPortsOf site).any (fun q => same q &&
        ((s.ser q).mod != c.mod || (s.ser q).pcs != c.pcs || (s.ser q).rxClk != c.rxClk))

/-! ## Events of a lane -/

/-- A lane that may lock: SERIAL, of a formed site, and not frozen by an abort (R258); a bye-stake that listens, serves or
substitutes runs from its port's objects (R256). -/
def State.laneLive (s : State) (p : Nat) : Bool :=
  let q := s.feOf p
  s.isSerial q && !s.pairedOdd q && (s.siteOfPort p).isSome && (s.lane p).frozen.isNone

/-- The step that a site runs, for the arguments of its events. -/
def State.stepNow (s : State) (i : Nat) : Nat := s.rd .siteStepNow i

/-- A site aborts for a cause of R530's 0x0C01–0x0C08: the event names the port and the step; `at'` is the trigger instant
where it is not the present one. -/
def State.siteCause (s : State) (i code port : Nat) (at' : Option Nat := none) : State :=
  (s.raise code 1 i port (s.stepNow i)).abortSite i code false at'

/-- The lane's received symbols pass through the elastic buffer (R246). -/
def SerConfig.buffered (c : SerConfig) : Bool := c.rxClk != 0 && c.rxSink != 2

/-- LANE_LOCK_ACQUIRED: the lane locks; at its first lock in a step the elastic buffer is centred, and adaptation counts its
symbols (R244, R246, R249). -/
def laneLock (p : Nat) (s : State) : State :=
  s.onlyIf (s.laneLive p) (fun s =>
    let c := s.ser (s.feOf p)
    s.setLane p (fun l => { l with
      signal := true, locked := true, everLocked := true,
      fill := if c.buffered && !l.everLocked then 512 else l.fill }))

def execLaneLockAcquired (p : PortNo) : State → Out := run (laneLock p)

/-- Lock is lost: alignment goes with it, and the checker seeds itself again (R249, R253). -/
def Lane.unlocked (l : Lane) (n : Nat) : Lane :=
  { l with locked := false, markerAligned := false, groupAligned := false, lockLosses := n
           rx := { l.rx with bits := [], chars := [], check := l.rx.check.reseed } }

/-- LANE_LOCK_LOSS (R249). -/
def laneLoss (p : Nat) (s : State) : State :=
  let l := s.lane p
  s.onlyIf (s.laneLive p && l.locked && l.everLocked) (fun s =>
    let n := min (l.lockLosses + 1) 0xFFFF
    let s := s.setLane p (·.unlocked n)
    let s := s.raise 0x0C09 3 p n
    match s.siteOfPort p with
    | some i => if (s.ser (s.feOf p)).lossAbort then s.siteCause i 0x0C07 p else s
    | none => s)

def execLaneLockLoss (p : PortNo) : State → Out := run (laneLoss p)

/-- LANE_ELASTIC: the elastic buffer empties or fills, and the site aborts (R246). -/
def laneElastic (p : Nat) (full : Bool) (s : State) : State :=
  let c := s.ser p
  s.onlyIf (s.laneLive p && c.buffered && (s.lane p).everLocked) (fun s =>
    let s := s.setLane p (fun l => { l with fill := if full then 1024 else 0 })
    match s.siteOfPort p with
    | some i => s.siteCause i 0x0C06 p
    | none => s)

def execLaneElastic (p : PortNo) (full : Bool) : State → Out := run (laneElastic p full)

/-- MARKER_ALIGNED: comma or block alignment; a character or block begins with the next symbol received (R247, log 155). -/
def execMarkerAligned (p : PortNo) : State → Out :=
  run (fun s => s.onlyIf (s.laneLive p && (s.lane p).locked && (s.ser (s.feOf p)).pcs != 0) (fun s =>
    s.setLane p (fun l => { l with markerAligned := true, rx := { l.rx with bits := [] } })))

/-- The SERIAL ports of a lane group (R248). -/
def State.groupPorts (s : State) (g : Nat) : List Nat :=
  (upto 96).filter (fun p => s.laneLive p && g != 0 && (s.ser p).group == g)

/-- LANE_DESKEW: from the symbol at which each lane of a group received a common marker, the group is deskewed to the latest
and aligned, or its skew is beyond 512 symbols (R248, R249). -/
def laneDeskew (p : Nat) (arrivals : List (PortNo × Nat)) (s : State) : State :=
  let c := s.ser p
  let group := s.groupPorts c.group
  let mine := arrivals.filter (fun e => group.contains e.1.val)
  let latest := (mine.map (·.2)).foldl max 0
  let skews := mine.map (fun e => (e.1.val, latest - e.2))
  s.onlyIf (s.laneLive p && c.group != 0 && (c.rxSink == 1 || c.rxSink == 3) && c.pcs != 0
      && group.all (fun q => mine.any (fun e => e.1.val == q))) (fun s =>
    if skews.any (fun e => decide (512 < e.2)) then
      let s := s.each group (fun q t => t.setLane q (fun l => { l with deskewFail := true, groupAligned := false }))
      match s.siteOfPort p with
      | some i => if group.any (fun q => (s.ser q).lossAbort) then s.siteCause i 0x0C08 p else s
      | none => s
    else
      let s := skews.foldl (fun t e => t.setLane e.1 (fun l => { l with deskew := e.2 })) s
      if group.all (fun q => (s.lane q).markerAligned) then
        s.each group (fun q t => t.setLane q (fun l => { l with groupAligned := true, deskewFail := false }))
      else s)

def execLaneDeskew (p : PortNo) (arrivals : List (PortNo × Nat)) : State → Out := run (laneDeskew p arrivals)

/-- ADAPT and ADAPT_LEN × 1,024 of a lane (R263). -/
def State.adaptMode (s : State) (p : Nat) : Nat := s.domNat .portSerRxeq p 0 1 1 % 4
def State.adaptSymbols (s : State) (p : Nat) : Nat := 1024 * s.domNat .portSerRxeq p 0 2 2

/-- ADAPT_DONE: STEP adaptation has run its length in this step, and freezes (R244). -/
def adaptDone (p : Nat) (s : State) : State :=
  let l := s.lane p
  s.onlyIf (s.laneLive p && s.adaptMode p == 1 && l.locked && !l.adaptDone && decide (s.adaptSymbols p ≤ l.rx.symbols))
    (fun s => s.setLane p (fun l => { l with adaptDone := true }))

def execAdaptDone (p : PortNo) (_ : Unit) : State → Out := run (adaptDone p)

/-- EQ_CLEAR: the fabric clears FABRIC_EQ_SUPERSEDED (R240, R402). -/
def execEqClear (p : PortNo) : State → Out :=
  run (fun s => s.setLane p (fun l => { l with superseded := false }))

/-- What an ARM answered OK resets at a lane: PB+0x1D to 0x1F run again and their counters read 0 (R258); generators and
scramblers are seeded anew by the run (R250, R252). -/
def armLane (p : Nat) (s : State) : State :=
  s.setLane p (fun l => { l with
    frozen := none, codeErrors := 0, lockLosses := 0, txUnderrun := false
    tx := { l.tx with gen := none, scr := none, rd := false, bits := [] }
    rx := { l.rx with scr := none, rd := false, bits := [], chars := [], check := { l.rx.check with bits := 0, errors := 0 } } })

/-- A step begins at a lane: a lane that is locked has its first lock of the step then, and the elastic buffer is centred;
adaptation starts anew, and the precoder's last symbol is 0 (R244, R246, R249, R251). -/
def stepLane (p : Nat) (s : State) : State :=
  s.setLane p (fun l => { l with
    everLocked := l.locked, adaptDone := false, deskewFail := false
    fill := if l.locked && (s.ser p).buffered then 512 else l.fill
    tx := { l.tx with prev := 0 }, rx := { l.rx with prev := 0, symbols := 0 } })

end Sys2Proof.Machine
end

