-- ==== Sys2Proof/Machine/Trims.lean ====
section
/-! DEFINITION. The trims of a port: rate classes, sets and points, interpolation, and when a change reaches the port
(R366 to R370). -/
namespace Sys2Proof.Machine

/-! ## Rate classes (R368) -/

/-- Class of a bundle's LINE: 0.8, 4.0 and 14.0 GHz bound the classes. -/
def classOfLine (p q : Nat) : Nat :=
  if 35 * p ≤ q then 0 else if 7 * p ≤ q then 1 else if 2 * p ≤ q then 2 else 3

/-- The rate class in force of a port; a bye-stake has that of the port it listens to or serves, else its bundle's (R354, R360,
R368). -/
def State.rateClass (s : State) (p : Nat) : Nat :=
  let q := s.feOf p
  if q < 96 && s.lowSpeed q then 0 else classOfLine (s.lineP (bundleOfPort p)) (s.lineQ (bundleOfPort p))

/-! ## Sets of the engine (R368, R375) -/

/-- What a set of the engine reads as where none is listed: the shipment set (R376). -/
def shipmentSet : Option CalSet := some { points := shipmentPoints }

/-- The set of a port and class, by 4 × port + class; none before the sets are loaded. -/
def State.calSet (s : State) (key : Nat) : Option CalSet :=
  if s.cal.loaded then Store.get shipmentSet key s.cal.sets else none

/-- Its points. -/
def State.points (s : State) (p c : Nat) : List Point := ((s.calSet (4 * p + c)).map (·.points)).getD []

def State.setCalSet (s : State) (key : Nat) (v : CalSet) : State :=
  { s with cal := { s.cal with sets := Store.put shipmentSet key (some v) s.cal.sets } }

/-- Distance of two classes. -/
def classGap (a b : Nat) : Nat := if a ≤ b then b - a else a - b

/-- The class whose set a port uses: its own, else the nearest one that has points, ties to the lower. -/
def State.usedClass (s : State) (p : Nat) : Option Nat :=
  let c := s.rateClass p
  let have' := (upto 4).filter (fun k => !(s.points p k).isEmpty)
  (upto 4).findSome? (fun d => have'.find? (fun k => classGap c k == d))

/-- The port has no valid set in its class. -/
def State.lacksSet (s : State) (p : Nat) : Bool := (s.points p (s.rateClass p)).isEmpty

/-! ## Interpolation (R370) -/

/-- A value between two points, halves rounded away from zero. -/
def between (ta tb t : Int) (va vb : Int) : Int :=
  roundDiv (va * (tb - ta) + (vb - va) * (t - ta)) (tb - ta).toNat

/-- The trims between two points. -/
def trimsBetween (a b : Trims) (ta tb t : Int) : Trims :=
  let f (va vb : Int) := between ta tb t va vb
  { drvOfs := f a.drvOfs b.drvOfs, drvGain := f a.drvGain b.drvGain, drvImp := f a.drvImp b.drvImp
    slew := if t - ta ≤ tb - t then a.slew else b.slew
    vttOfs := f a.vttOfs b.vttOfs, vcomOfs := f a.vcomOfs b.vcomOfs
    ct0Ofs := f a.ct0Ofs b.ct0Ofs, ct1Ofs := f a.ct1Ofs b.ct1Ofs, ct2Ofs := f a.ct2Ofs b.ct2Ofs
    pmuOfs := f a.pmuOfs b.pmuOfs, pmuGain := f a.pmuGain b.pmuGain
    drvD := (f a.drvD b.drvD).toNat, stbD := (f a.stbD b.stbD).toNat }

/-- SOURCE of trims between two points: what either rests on (log 36). -/
def sourceOr (a b : Nat) : Nat := a ||| b

/-- The trims that ascending points give at a temperature, their SOURCE, and whether the temperature lies outside
them. -/
def trimsAt (l : List Point) (t : Int) : Trims × Nat × Bool :=
  match l.find? (fun q => q.temp == t) with
  | some q => (q.trims, q.source, false)
  | none =>
    match (l.filter (fun q => decide (q.temp < t))).getLast?, l.find? (fun q => decide (t < q.temp)) with
    | some a, some b => (trimsBetween a.trims b.trims a.temp b.temp t, sourceOr a.source b.source, false)
    | some a, none => (a.trims, a.source, true)
    | none, some b => (b.trims, b.source, true)
    | none, none => ({}, 0, false)

/-- The trims that a port's sets give at its bundle's temperature (R368, R370). -/
def State.computeTrims (s : State) (p : Nat) (t : Int) : InForce :=
  match s.usedClass p with
  | none => { temp := t, cls := s.rateClass p }
  | some c =>
    let (tr, src, out) := trimsAt (s.points p c) t
    { trims := tr, temp := t, cls := c, source := src, noSet := c != s.rateClass p, nearest := c != s.rateClass p,
      outside := out }

/-! ## When they come into force (R366) -/

/-- Trims come into force; CAL_OUT_OF_RANGE once per entry into the range outside the points (R370). -/
def State.putTrims (s : State) (p : Nat) (n : InForce) : State :=
  let was := (s.port p).cal.inForce.outside
  let s := s.setPort p (fun q => { q with cal := { q.cal with inForce := n, next := none } })
  if n.outside && !was then s.raise 0x2002 3 p n.cls (unsigned 64 n.temp) else s

/-- The port serves a pin of a RUNNING or PAUSED site that is not idle: a change waits for its boundary. -/
def State.servesRun (s : State) (p : Nat) : Bool :=
  (match s.siteOfPort p with
   | some i =>
     match s.siteSt i with
     | .running => true
     | .paused => !(s.site i).pauseBoundary
     | _ => false
   | none => false)
  && (if p < 96 then !(s.port p).cal.replaced
      else (dutPorts (p - 96)).any (fun d => (s.port d).cal.replaced))

/-- The port is on the load or rejoining in a live cycle of its bundle: its trims change at its Return (R366). -/
def State.movedOff (s : State) (p : Nat) : Bool :=
  match (s.bnd (bundleOfPort p)).cal.cycle with
  | some c => c.live && decide (4 ≤ c.phase) && portOfSlot (bundleOfPort p) c.slot == p
  | none => false

/-- The trims of a port are recomputed (R366). -/
def State.recompute (s : State) (p : Nat) : State :=
  match (s.bnd (bundleOfPort p)).cal.temp with
  | none => s
  | some t =>
    if s.movedOff p then s
    else
      let n := s.computeTrims p t
      if s.servesRun p then s.setPort p (fun q => { q with cal := { q.cal with next := some n } })
      else s.putTrims p n

/-! ## Points of a set (R369) -/

/-- Index of the point nearest a temperature, ties to the lower. -/
def nearestPoint (l : List Point) (t : Int) : Nat :=
  let d (q : Point) := (q.temp - t).natAbs
  let best := (l.map d).foldl min (((l.map d).head?).getD 0)
  (l.findIdx? (fun q => d q == best)).getD 0

/-- Insertion in ascending TEMP. -/
def insertPoint (q : Point) : List Point → List Point
  | [] => [q]
  | x :: l => if q.temp < x.temp then q :: x :: l else x :: insertPoint q l

/-- A new point enters a set; `delta` is CAL_DELTA_T in 0.25 °C. -/
def addPoint (delta : Nat) (q : Point) (l : List Point) : List Point :=
  let i := nearestPoint l q.temp
  let near := match l[i]? with
    | some x => decide ((x.temp - q.temp).natAbs ≤ 2 * delta)
    | none => false
  if near || 8 ≤ l.length then insertPoint q (l.eraseIdx i) else insertPoint q l

/-- TEMP of the latest of the points by their TIME, ties to the one nearest the temperature (log 37). -/
def latestTemp (l : List Point) (t : Int) : Option Int :=
  (l.foldl (fun best q => match best with
    | none => some q
    | some x =>
      if x.time < q.time || (x.time == q.time && decide ((q.temp - t).natAbs < (x.temp - t).natAbs)) then some q else best)
    none).map (·.temp)

/-- T_last of a port: TEMP of the point of its class formed last, since RESET_N or, where none was, in the set that was loaded
(R354, log 37). -/
def State.lastTemp (s : State) (p : Nat) (t : Int) : Option Int :=
  let key := 4 * p + s.rateClass p
  match Store.get none key s.cal.latest with
  | some l => some l
  | none => latestTemp (s.points p (s.rateClass p)) t

end Sys2Proof.Machine
end

