-- ==== Sys2Proof/Machine/LaneStream.lean ====
section
/-! DEFINITION. The symbol streams of serial lanes: what the serializer sends in a WORD cycle and what it launches, its idle, and
what the receive chain makes of the DUT's signal (R233 to R258, R288, R404). -/
namespace Sys2Proof.Machine

/-! ## Boundaries (R357, R366) -/

/-- A boundary of a site: recomputed trims come into force, and an exchange may follow until the next cycle or symbol. While a
training sequence runs there is none (R357). -/
def State.atBoundary (s : State) (i : Nat) : State :=
  if (s.site i).sched.training.isSome then s else
  let s := s.each (s.portsOf i) (fun p s =>
    match (s.port p).cal.next with
    | some n => s.putTrims p n
    | none => s)
  s.setRun i (fun r => { r with boundary := true })

/-- A step of the site runs: it is RUNNING and the step has started. -/
def State.stepping (s : State) (i : Nat) : Bool :=
  s.siteSt i == .running && !(s.site i).transition && decide (1 ≤ (s.run' i).step)

/-- No context of the site will supply anything more in this step: none is READY, or WAITING but for HALTING (R215,
R277). -/
def State.suppliesNoMore (s : State) (i : Nat) : Bool :=
  (s.siteCtxs i).all (fun c =>
    let x := s.ctx c
    !(x.st == .ready || (x.st == .waiting && x.cause != .halting)))

/-! ## Lanes and their grid (R233, R235, R238, R245, R305) -/

/-- Role of a DUT port under the site's signal map; NONE outside a memory personality (R305). -/
def State.roleOf (s : State) (i p : Nat) : Nat × Nat :=
  let r := s.stepRec i
  if r.isMemory then
    match (s.dutPortsOf i).findIdx? (· == p) with
    | some k => r.role k
    | none => (0, 0)
  else (0, 0)

/-- The lanes of a site whose symbols do not come from a memory personality. -/
def State.lanesOf (s : State) (i : Nat) : List Nat :=
  (s.dutPortsOf i).filter (fun p => s.isSerial p && !s.pairedOdd p && (s.roleOf i p).1 == 0)

/-- Those that take part in the serial words of instructions: with the GENERATOR source or a compare. -/
def State.wordLanes (s : State) (i : Nat) : List Nat :=
  (s.lanesOf i).filter (fun p => let c := s.ser p; c.txSource == 0 || decide (c.rxSink ≤ 1))

/-- Those that send instructions' words. -/
def State.sendLanes (s : State) (i : Nat) : List Nat := (s.lanesOf i).filter (fun p => (s.ser p).txSource == 0)

/-- A lane of the site takes second words: all but NRZ (R288; log 150). -/
def State.wideWords (s : State) (i : Nat) : Bool := (s.wordLanes i).any (fun p => (s.ser p).mod != 0)

/-- T_sym of a bundle's LINE in vernier steps, exact (R15, R233). -/
def State.symbolTime (s : State) (b : Nat) : Rat := ((1024 * s.lineQ b : Nat) : Rat) / ((max (s.lineP b) 1 : Nat) : Rat)

/-- Vernier steps of k symbols at a bundle's LINE: the one rounding of an instant, down (R233, R238; log 29). -/
def State.symbolSteps (s : State) (b : Nat) (k : Int) : Int := k * (1024 * s.lineQ b : Nat) / (max (s.lineP b) 1 : Nat)

/-- TX_SKEW, RX_PHASE and RX_LATENCY of a port (R263). -/
def State.txSkew (s : State) (p : Nat) : Nat := (s.reg .portSerTiming p).fld 0 20
def State.rxPhase (s : State) (p : Nat) : Nat := (s.reg .portSerTiming p).fld 24 17
def State.rxLatency (s : State) (p : Nat) : Nat := (s.reg .portSerTiming p).fld 48 16

/-- Launch of symbol k of a lane whose stream counts from `origin` (R238, R322; log 29). -/
def State.launchAt (s : State) (p origin : Nat) (k : Int) : Nat :=
  ((origin + s.txSkew p : Nat) + s.symbolSteps (bundleOfPort p) k + (s.port p).train.tx).toNat

/-- Grid instant of position k on a lane whose symbol 0 is launched from `origin`; RX_PHASE delays it but for a CDR (R238, R245,
R322; log 29). -/
def State.gridAt (s : State) (p origin : Nat) (k : Int) : Nat :=
  let phase := if (s.ser p).rxClk == 1 then 0 else s.rxPhase p
  let t := (s.port p).train
  ((origin + s.txSkew p + phase : Nat) + s.symbolSteps (bundleOfPort p) (k + s.rxLatency p) + t.tx + t.rx).toNat

/-- Sampling instant k of a WORD cycle whose first symbol has number `first`: on the grid; where the CDR has recovered it; or at
an edge of the forwarded clock, whose every edge samples, or with FWD_DIV samples twice, T_sym apart (R245). -/
def State.sampleAt (s : State) (p origin first : Nat) (clock : List Int) (k : Nat) : Nat :=
  let grid := s.gridAt p origin (first + k : Nat)
  let c := s.ser p
  match c.rxClk with
  | 0 => grid
  | 1 => (grid + clock.getD k 0).toNat
  | _ => (grid + clock.getD (if c.fwdDiv then k / 2 else k) 0).toNat

/-! ## What a WORD cycle gives a lane to send (R237, R241, R250 to R252, R288, R404) -/

/-- One WORD cycle of a lane: its symbols, none where it sends MID or OFF as its idle; the transmit side after it; whether the
FABRIC source had none. -/
structure LaneWord where
  syms : Option (List Nat)
  tx : LaneTx
  underrun : Bool := false
  deriving DecidableEq, Repr, Inhabited

/-- An entry goes through the encoder and the scrambler. -/
def SerConfig.feed (c : SerConfig) (p : Nat) (e : BitVec 288) (x : LaneTx) : LaneTx :=
  let (l, reg, rd) := c.entryBits p (x.scr.getD (scrambleSeed c.scramble p)) x.rd e
  { x with bits := x.bits ++ l, scr := some reg, rd := rd }

/-- A WORD cycle of the bits that wait. -/
def SerConfig.fromBits (c : SerConfig) (x : LaneTx) : LaneWord :=
  ⟨some (c.symbolsOf (x.bits.take c.wordBits)), { x with bits := x.bits.drop c.wordBits }, false⟩

/-- A WORD cycle of idle (R241). -/
def SerConfig.idleWord (c : SerConfig) (p : Nat) (x : LaneTx) : LaneWord :=
  if c.idle != 1 then ⟨none, x, false⟩
  else if c.pcs == 0 && c.scramble == 0 then ⟨some ((upto 64).map (fun k => if k % 2 == 0 then 0 else c.alphabet - 1)), x, false⟩
  else c.fromBits (if x.bits.length < c.wordBits then c.feed p c.zeroEntry x else x)

/-- The form in which a lane carries a pattern's bits: its own, and PAM3 always 3B2S (R252). -/
def SerConfig.patternForm (c : SerConfig) : SerConfig := if c.mod == 1 then { c with mapping := 0 } else c

/-- A WORD cycle of a pattern (R252). -/
def SerConfig.patternWord (own : SerConfig) (prbs : Word) (x : LaneTx) : LaneWord :=
  let c := own.patternForm
  let code := prbs.fld 8 4
  let inv := prbs.getLsbD 0
  if code == 7 then
    let (l, n) := ssprqSymbols 64 (x.gen.getD 0)
    ⟨some (if inv then l.map c.complement else l), { x with gen := some n }, false⟩
  else
    let (l, reg) := prbsBits code c.wordBits (x.gen.getD (prbsSeed code))
    ⟨some (c.symbolsOf (if inv then l.map (!·) else l)), { x with gen := some reg }, false⟩

/-- Bits of a word and of its second word that 64 symbols take (R288). -/
def SerConfig.bitsOfWords (c : SerConfig) (w w2 : BitVec 64) : List Bool := (lsbBits 64 w.toNat ++ lsbBits 64 w2.toNat).take c.wordBits

/-- 64 symbols that no rule gives: the characters or blocks that an encoder forms of a generator's words (log 9). -/
def State.freeSymbols (s : State) (c : SerConfig) : List Nat × State :=
  let (a, s) := s.free 64
  let (b, s) := s.free 64
  ((upto 64).map (fun k => (if k < 32 then a / 4 ^ k else b / 4 ^ (k - 32)) % 4 % c.alphabet), s)

/-- The symbols that a pair of words gives a lane through its mapping and its scrambler, from a register; and the register after
them (R234, R237, R250, R288). -/
def State.wordSymbols (s : State) (p reg : Nat) (w w2 : BitVec 64) : List Nat × Nat × State :=
  let c := s.ser p
  if c.pcs == 0 then
    let (l, reg) := c.scrambled reg (c.bitsOfWords w w2)
    (c.symbolsOf l, reg, s)
  else
    let (l, s) := s.freeSymbols c
    (l, reg, s)

/-- Register of a lane's scrambler, seeded at the first symbol of a run (R250, log 152). -/
def State.txScr (s : State) (p : Nat) : Nat := (s.lane p).tx.scr.getD (scrambleSeed (s.ser p).scramble p)

/-- A WORD cycle of the FABRIC source: the bits that wait, then an entry of the TX FIFO, else the idle (R242, R404). -/
def State.fabricWord (s : State) (p : Nat) : LaneWord × State :=
  let c := s.ser p
  let l := s.lane p
  if c.wordBits ≤ l.tx.bits.length then (c.fromBits l.tx, s)
  else match l.txFifo with
    | e :: rest => (c.fromBits (c.feed p e l.tx), s.setLane p (fun l => { l with txFifo := rest }))
    | [] => ({ c.idleWord p l.tx with underrun := true }, s)

/-- A WORD cycle of a lane from its source (R237). -/
def State.sourceWord (s : State) (p : Nat) (w : SerWord) : LaneWord × State :=
  let c := s.ser p
  let x := (s.lane p).tx
  match c.txSource with
  | 0 =>
    let (l, reg, s) := s.wordSymbols p (s.txScr p) w.w w.w2
    (⟨some l, { x with scr := some reg }, false⟩, s)
  | 1 => (c.patternWord (s.reg .portSerPrbs p) x, s)
  | 2 => s.fabricWord p
  | _ => (c.idleWord p x, s)

/-- Its symbols as they are sent: precoded, and inverted (R251, R261). -/
def SerConfig.outgoing (c : SerConfig) (o : LaneWord) : LaneWord :=
  match o.syms with
  | none => o
  | some l =>
    let (y, last) := if c.precodes then precodeSymbols o.tx.prev l else (l, o.tx.prev)
    { o with syms := some (if c.txInvert then y.map c.complement else y), tx := { o.tx with prev := last } }

/-! ## The launch (R235, R239 to R242) -/

/-- The ports of a lane with the symbol that each sends: the odd port of a pair the complement (R235). -/
def State.sides (s : State) (p : Nat) : List (Nat × (Nat → Nat)) :=
  if (s.ser p).pair then [(p, id), (p + 1, (s.ser p).complement)] else [(p, id)]

/-- Driver level of a port by the node that serves it (R360). -/
def State.servedVolts (s : State) (q : Nat) (l : Fin 4) : Rat := s.driverVolts q (s.server q) l

/-- a of a symbol at a port; 0 for idle (R239). -/
def State.unitOf (s : State) (q mod : Nat) (x : Option Nat) : Rat :=
  match x with
  | some v => ffeUnit (s.servedVolts q 0) (s.servedVolts q 3) (s.servedVolts q (symbolLevel mod v))
  | none => 0

/-- One symbol is launched at each side of its lane, between the two before it, newest last, and the two after it (R239). With
every tap 0 the launch is the level itself. -/
def State.launchOne (s : State) (p : Nat) (past : List (Option Nat)) (x : TxSymbol) (next : List TxSymbol) : State :=
  let mod := (s.ser p).mod
  (s.sides p).foldl (fun s (q, f) =>
    let a := ((past ++ [some x.sym]) ++ [next[0]?.map TxSymbol.sym, next[1]?.map TxSymbol.sym]).map (fun (y : Option Nat) => s.unitOf q mod (y.map f))
    let v := ffeVolts (s.servedVolts q 0) (s.servedVolts q 3) x.taps a
    s.addDrives q [{ at' := x.at', level := some (symbolLevel mod (f x.sym)), off := some false
                     volts := some (if x.taps.all (· == 0) then none else some v) }]) s

/-- Symbols are launched in order until `keep` are left, which wait for the two after them. -/
def State.launches (s : State) (p keep : Nat) : List (Option Nat) → List TxSymbol → State
  | past, [] => s.setLane p (fun l => { l with tx := { l.tx with past := past, ahead := [] } })
  | past, x :: l =>
    if l.length < keep then s.setLane p (fun y => { y with tx := { y.tx with past := past, ahead := x :: l } })
    else (s.launchOne p past x (l.take 2)).launches p keep [past.getD 1 none, some x.sym] l

/-- Symbols join those that wait at the FFE. -/
def State.give (s : State) (p : Nat) (l : List TxSymbol) : State :=
  let x := (s.lane p).tx
  s.launches p 2 x.past (x.ahead ++ l)

/-- The stream of a lane breaks off: what waits at the FFE is launched. -/
def State.flushLane (s : State) (p : Nat) : State :=
  let x := (s.lane p).tx
  (s.launches p 0 x.past x.ahead).setLane p (fun l => { l with tx := { l.tx with past := [none, none] } })

/-- A lane has sent a symbol since it was last idle. -/
def LaneTx.sends (x : LaneTx) : Bool := x.past != [none, none] || !x.ahead.isEmpty

/-- The idle of a lane begins at an instant: V_mid, or the driver off; CODE goes on in symbols (R241). -/
def State.idleFrom (s : State) (p t : Nat) : State :=
  let c := s.ser p
  let s := s.flushLane p
  let s := (s.sides p).foldl (fun s (q, _) =>
    match c.idle with
    | 0 => s.addDrives q [{ at' := t, off := some false, volts := some (some ((s.servedVolts q 0 + s.servedVolts q 3) / 2)) }]
    | 2 => s.addDrives q [{ at' := t, off := some true }]
    | _ => s) s
  s.setLane p (fun l => { l with tx := { l.tx with stop := t } })

/-- The lanes of a site go idle at the end of the symbols that they were given (R241). -/
def State.idleLanes (s : State) (i : Nat) : State :=
  s.each (s.lanesOf i) (fun p s => if (s.lane p).tx.sends then s.idleFrom p (s.lane p).tx.stop else s)

/-- Before symbol 0 of the first step every lane sends its idle (R241). -/
def State.idleAll (s : State) (i : Nat) : State := s.each (s.lanesOf i) (fun p s => s.idleFrom p s.now)

/-- A run ends: its drivers hold the level of their last symbol (R107). -/
def State.restLanes (s : State) (i : Nat) : State :=
  s.each (s.lanesOf i) (fun p s =>
    let s := s.flushLane p
    (s.sides p).foldl (fun s (q, _) =>
      s.addDrives q [{ at' := max (s.lane p).tx.stop s.now, off := some false, volts := some none }]) s)

/-- Idle of CODE goes on: one WORD cycle more where the symbols given have ended, but none from `limit` on (R241). -/
def State.codeIdle (s : State) (p : Nat) (limit : Option Nat) : State :=
  let c := s.ser p
  let x := (s.lane p).tx
  let goes := match limit with
    | some t => decide (x.stop < t)
    | none => true
  s.onlyIf (c.idle == 1 && decide (x.stop ≤ s.now) && goes) (fun s =>
    let at' (k : Nat) := x.stop + (s.symbolSteps (bundleOfPort p) k).toNat
    let o := c.outgoing (c.idleWord p x)
    let l := ((o.syms.getD []).zip (upto 64)).map (fun e => TxSymbol.mk (at' e.2) e.1 x.taps)
    let l := match limit with
      | some t => l.filter (fun e => decide (e.at' < t))
      | none => l
    (s.setLane p (fun l => { l with tx := { o.tx with stop := at' 64 } })).give p l)

/-- The instant before which a lane of a site is idle: none while nothing is to be sent. -/
def State.idleUntil (s : State) (i p : Nat) : Option Nat :=
  let r := s.run' i
  if !(s.stepping i && r.begun) then none
  else if r.wordCount == 0 then some (s.launchAt p r.wordOrigin 0)
  else if r.words.isEmpty && s.suppliesNoMore i then none
  else some 0

/-- One WORD cycle of a lane is driven: the symbols from number `first` on, at the taps in force at its boundary (R240). -/
def State.driveLane (s : State) (p : Nat) (w : SerWord) (origin first : Nat) : State :=
  let at' (k : Nat) := s.launchAt p origin (first + k : Nat)
  let s := s.setLane p (fun l => { l with tx := l.tx.settle (s.wordAt (bundleOfPort p) (at' 0)) })
  let (o, s) := s.sourceWord p w
  let o := (s.ser p).outgoing o
  let s := s.setLane p (fun l => { l with tx := { o.tx with stop := at' 64 }, txUnderrun := l.txUnderrun || o.underrun })
  match o.syms with
  | some l => s.give p ((l.zip (upto 64)).map (fun e => TxSymbol.mk (at' e.2) e.1 o.tx.taps))
  | none => (s.idleFrom p (at' 0)).setLane p (fun l => { l with tx := { l.tx with stop := at' 64 } })

/-! ## WORD cycles (R238, R242, R247, R278, R288) -/

/-- The expected symbols of each comparing lane for a word, through its mapping and its scrambler: that of its own generator, or
one that runs with the expected words (R234, R247, R250, R288; log 152). -/
def State.expected (s : State) (i : Nat) (w : SerWord) : List (Nat × List Nat) × State :=
  ((s.lanesOf i).filter (fun p => decide ((s.ser p).rxSink ≤ 1))).foldl (fun (l, s) p =>
    let own := (s.ser p).txSource == 0
    let reg := if own then s.txScr p else (s.lane p).rx.scr.getD (scrambleSeed (s.ser p).scramble p)
    let (e, reg, s) := s.wordSymbols p reg w.e w.e2
    (l ++ [(p, e)], if own then s else s.setLane p (fun x => { x with rx := { x.rx with scr := some reg } })))
    (([] : List (Nat × List Nat)), s)

/-- The word that a WORD cycle takes from the queue; HOLD repeats the one before (R287). -/
def Run.wordTakes (r : Run) (w : SerWord) : SerWord :=
  let p := r.lastWord.getD default
  let w := if w.hold then { w with w := p.w, w2 := p.w2, e := p.w, e2 := p.w2 } else w
  { w with origin := r.wordOrigin, first := 64 * r.wordTaken }

/-- One WORD cycle of every lane of a site, and with it a word of the queue where there is one. -/
def State.driveLanes (s : State) (i : Nat) (word : Option SerWord) : State :=
  let r := s.run' i
  let w := word.map r.wordTakes
  let (w, s) := match w with
    | some w => let (e, s) := s.expected i w; (some { w with exps := e }, s)
    | none => (none, s)
  let s := s.each (s.lanesOf i) (fun p s => s.driveLane p (w.getD default) r.wordOrigin (64 * r.wordCount))
  let s := s.setRun i (fun r => { r with
    wordCount := r.wordCount + 1, symbols := true, boundary := false
    expects := r.expects ++ [w.getD { gov := { cid := 0xFFFF }, w := 0, w2 := 0, e := 0, e2 := 0, ce := false,
                                      origin := r.wordOrigin, first := 64 * r.wordCount }] })
  match w with
  | none => s
  | some w =>
    let s := s.setRun i (fun r => { r with words := r.words.drop 1, wordTaken := r.wordTaken + 1, lastWord := some w })
    if w.boundary && !(s.stepRec i).hasCycles then s.atBoundary i else s

/-- The lane that first misses a symbol, and the launch of that symbol (R242). -/
def State.firstMissing (s : State) (i : Nat) : Option (Nat × Nat) :=
  let r := s.run' i
  ((s.sendLanes i).map (fun p => (p, s.launchAt p r.wordOrigin (64 * r.wordCount : Nat)))).foldl (fun best e =>
    match best with
    | some x => if e.2 < x.2 then some e else best
    | none => some e) none

/-- A lane of the GENERATOR source has no symbols: the launch of the first missing one is the trigger instant (R242). -/
def State.symbolUnderrun (s : State) (i : Nat) : State :=
  match s.firstMissing i with
  | some (p, t) => s.onlyIf (decide (t ≤ s.now)) (fun s => s.siteCause i 0x0C05 p (some (t / stepsPerTick)))
  | none => s

/-- The WORD cycle of a site's lanes whose time has come: their next symbols are given. Once the step supplies nothing more they
go idle, but for the last step, at whose end the drivers hold their levels (R107, R241); without symbols before that, a GENERATOR
lane stops the site (R242). -/
def State.driveWord (s : State) (i : Nat) : State :=
  let r := s.run' i
  if (s.lanesOf i).isEmpty || !r.begun || decide (s.now < r.wordOrigin + (s.symbolSteps (s.lead i) (64 * r.wordCount : Nat)).toNat)
  then s
  else match r.words with
    | w :: _ => s.driveLanes i (some w)
    | [] =>
      if s.suppliesNoMore i then (if r.steps.length ≤ r.step then s else s.idleLanes i)
      else if (s.sendLanes i).isEmpty then s.driveLanes i none
      else s.symbolUnderrun i

/-! ## Receive: CTLE, DFE, slicers (R235, R243, R244) -/

/-- Volts that the receiver of a lane senses at an instant: at its node, or between the nodes of a pair (R235). -/
def State.sensed (s : State) (p t : Nat) (d odd : Option PinDrive) : Option Rat :=
  let v (q : Nat) (d : Option PinDrive) := (s.portNodeAt (s.server q) t d).volts
  if (s.ser p).pair then
    match v p d, v (p + 1) odd with
    | some a, some b => some (a - b)
    | _, _ => none
  else v p d

/-- Equalizer settings in force of a lane: CTLE peaking, DFE taps in volts, and the slicers' thresholds with their trims (R243,
R244, R263). -/
structure Equalizer where
  peak : Nat
  dfe : List Rat
  ct : Rat × Rat × Rat
  deriving DecidableEq, Repr, Inhabited

def State.equalizer (s : State) (p : Nat) : Equalizer :=
  let d := s.dom .portSerRxeq p 0 0 16
  let (a, b, c) := s.thresholds p
  let t (k : Nat) := (s.lane p).rx.trims.getD k 0
  { peak := (d.getD 0 0).toNat % 16
    dfe := ((d.drop 4).take (if (s.ser p).mod == 0 then 12 else 8)).map (fun x => (signed 8 x.toNat : Rat) / 1000)
    ct := (a + t 0, b + t 1, c + t 2) }

/-- Format whose thresholds a modulation uses (R122). -/
def SerConfig.format (c : SerConfig) : Nat := match c.mod with | 0 => 0 | 1 => 5 | _ => 6

/-- Place of a symbol between the outer levels, from −1 to 1 (R239). -/
def SerConfig.place (c : SerConfig) (sym : Nat) : Rat := 2 * (sym : Rat) / ((c.alphabet - 1 : Nat) : Rat) - 1

/-- Voltages that the CTLE is given with the present one. -/
def ctleDepth : Nat := 16

/-- The slicers' decision on a voltage, and the receive side after it (R243; log 153). -/
def SerConfig.slice (c : SerConfig) (q : Equalizer) (x : LaneRx) (v : Rat) : Nat × LaneRx :=
  let sensed := (v :: x.sensed).take ctleDepth
  let u := if q.peak == 0 then v else Config.ctle q.peak sensed
  let y := u - ((q.dfe.zip x.decided).map (fun e => e.1 * e.2)).foldl (· + ·) 0
  let sym := compareState c.format false q.ct y
  (sym, { x with sensed := sensed, decided := (c.place sym :: x.decided).take 12 })

/-- One symbol is decided; where nothing drives the node it is undefined (R122). -/
def State.decideOne (s : State) (p t : Nat) (q : Equalizer) (d odd : Option PinDrive) : Nat × State :=
  let c := s.ser p
  match s.sensed p t d odd with
  | some v =>
    let (sym, x) := c.slice q (s.lane p).rx v
    (sym, s.setLane p (fun l => { l with rx := x }))
  | none =>
    let (n, s) := s.free 8
    let sym := n % c.alphabet
    (sym, s.setLane p (fun l => { l with rx := { l.rx with decided := (c.place sym :: l.rx.decided).take 12 } }))

/-- The 64 symbols that a lane decides at their instants. -/
def State.decideWord (s : State) (p : Nat) (o : LaneObs) (at' : Nat → Nat) : List Nat × State :=
  let q := s.equalizer p
  (upto 64).foldl (fun (l, s) k =>
    let (x, s) := s.decideOne p (at' k) q (o.samples.getD k none) (o.odd.getD k none)
    (l ++ [x], s)) (([] : List Nat), s)

/-- Transitions among symbols. -/
def transitions (l : List Nat) : Nat := ((l.zip (l.drop 1)).filter (fun e => e.1 != e.2)).length

/-! ## The elastic buffer, adaptation, the checker (R244, R246, R253) -/

/-- Values that adaptation may come to (R243, R244, R263). -/
def adaptedOk (a : Adapted) : Bool :=
  let tap (k lim : Nat) := decide ((signed 8 (a.bytes.getD k 0).toNat).natAbs ≤ lim)
  a.bytes.length == 13 && decide ((a.bytes.getD 0 0).toNat ≤ 15) && tap 1 100 && (upto 11).all (fun k => tap (2 + k) 50)

/-- Adaptation over a WORD cycle: in CONTINUOUS whenever the lane is locked, in STEP from its first lock of the step for its
length; held while the density of transitions is below 1/64. In the PAM modes taps 9 to 12 stay as written (R243, R244). -/
def State.adapt (s : State) (p : Nat) (o : LaneObs) (syms : List Nat) : State :=
  let l := s.lane p
  let runs := match s.adaptMode p with
    | 1 => l.everLocked && !l.adaptDone && decide (l.rx.symbols < s.adaptSymbols p)
    | 2 => true
    | _ => false
  let s := if l.everLocked then s.setLane p (fun l => { l with rx := { l.rx with symbols := l.rx.symbols + 64 } }) else s
  match o.adapted with
  | some a => s.onlyIf (l.locked && runs && decide (1 ≤ transitions syms) && adaptedOk a) (fun s =>
      let taps := (a.bytes.drop 1).take (if (s.ser p).mod == 0 then 12 else 8)
      ((s.setDom .portSerRxeq p 0 0 (a.bytes.take 1)).setDom .portSerRxeq p 0 4 taps).setLane p (fun l =>
        { l with rx := { l.rx with trims := a.trims } }))
  | none => s

/-- Received symbols before mapping: inversion and precoding undone (R251, R261). -/
def State.incoming (s : State) (p : Nat) (syms : List Nat) : List Nat × State :=
  let c := s.ser p
  let y := if c.rxInvert then syms.map c.complement else syms
  if !c.precodes then (y, s) else
    let (x, last) := unprecodeSymbols (s.lane p).rx.prev y
    (x, s.setLane p (fun l => { l with rx := { l.rx with prev := last } }))

/-- The PRBS checker takes received symbols (R253). -/
def State.checkWord (s : State) (p : Nat) (syms : List Nat) : State :=
  let c := (s.ser p).patternForm
  let w := s.reg .portSerPrbs p
  let inv := w.getLsbD 1
  if w.fld 12 4 == 7 then
    let (place, s) := s.free 16
    let l := if inv then syms.map c.complement else syms
    s.setLane p (fun x => { x with rx := { x.rx with check := l.foldl (fun k v => k.symbol v place) x.rx.check } })
  else
    let l := (c.bitsOf syms).map (fun b => b != inv)
    s.setLane p (fun x => { x with rx := { x.rx with check := l.foldl (Checker.bit (w.fld 12 4)) x.rx.check } })

/-- The buffer's fill after the recovered clock has gained; empty or full, it stops the site (R246). -/
def State.slip (s : State) (p : Nat) (n : Int) : State :=
  let l := s.lane p
  if !((s.ser p).buffered && l.everLocked) || n == 0 then s else
    let fill := (clampInt 0 1024 (l.fill + n)).toNat
    let s := s.setLane p (fun l => { l with fill := fill })
    if fill == 0 then laneElastic p false s else if fill == 1024 then laneElastic p true s else s

/-! ## Decoding (R246, R250, R404) -/

/-- Decoding in progress: the receive side, code errors so far, the elastic fill, and the entries that are complete. -/
structure Decoding where
  rx : LaneRx
  errors : Nat := 0
  fill : Nat
  entries : List (BitVec 288) := []
  deriving DecidableEq, Repr, Inhabited

/-- Fill at and beyond which SKP symbols are added or removed (R246; log 155). -/
def skpLow : Nat := 256
def skpHigh : Nat := 768

/-- Copies of a SKP character, the first of its ordered set, that are passed on, and the fill after it: removed from a full
buffer, added to an empty one, 10 line symbols each (R246). -/
def skpCopies (fill : Nat) : Nat × Nat :=
  if skpHigh ≤ fill then (0, fill - 10) else if fill ≤ skpLow then (2, fill + 10) else (1, fill)

/-- Fill after an ordered set of SKP symbols in 128b/130b: four of 8 line symbols each (R246). -/
def skpBlock (fill : Nat) : Nat := if skpHigh ≤ fill then fill - 32 else if fill ≤ skpLow then fill + 32 else fill

/-- One 8B10B group: its character through the descrambler; a code or disparity error is counted (R250, R265). -/
def SerConfig.decodeGroup (c : SerConfig) (d : Decoding) (g : Nat) : Decoding :=
  let x := d.rx
  let good := decode8b10b g x.rd
  let (k, b) := (good.or (decode8b10b g (!x.rd))).getD (false, (Config.strayGroup (BitVec.ofNat 10 g)).toNat)
  let rd := if 2 * ones g == 10 then x.rd else decide (5 < ones g)
  let (b', reg) := scrambleChar c.scramble (x.scr.getD (scrambleSeed 1 0)) k b
  let skp := k && b == skpChar && x.com && c.buffered
  let (n, fill) := if skp then skpCopies d.fill else (1, d.fill)
  { d with
    rx := { x with rd := rd, scr := some reg, com := k && b == comma
                   chars := x.chars ++ List.replicate n ((if k then 1 else 0), b') }
    errors := d.errors + (if good.isNone then 1 else 0), fill := fill }

/-- One 128B130B block: an invalid sync header is counted (R250, R265). -/
def SerConfig.decodeBlock (c : SerConfig) (p : Nat) (d : Decoding) (l : List Bool) : Decoding :=
  let header := bitsLsb (l.take 2)
  let data := bitsLsb (l.drop 2)
  let (plain, reg) := blockBits c.scramble p (d.rx.scr.getD (scrambleSeed c.scramble p)) header data
  let skp := header == headerSet && data % 256 == 0xAA && c.buffered
  { d with
    rx := { d.rx with scr := some reg, chars := d.rx.chars ++ [(header, bitsLsb (plain.drop 2))] }
    errors := d.errors + (if header == headerData || header == headerSet then 0 else 1)
    fill := if skp then skpBlock d.fill else d.fill }

/-- Entries that the characters or blocks decoded complete (R404). -/
def SerConfig.entries (c : SerConfig) (x : LaneRx) : List (BitVec 288) × LaneRx :=
  let size := if c.pcs == 1 then 32 else 2
  let n := x.chars.length / size
  let l := (upto n).map (fun j =>
    (((x.chars.drop (size * j)).take size).zip (upto size)).foldl (fun a (e, k) =>
      if c.pcs == 1 then a + e.1 * 2 ^ (256 + k) + e.2 * 2 ^ (8 * k) else a + e.1 * 2 ^ (256 + 2 * k) + e.2 * 2 ^ (128 * k)) 0)
  (l.map (BitVec.ofNat 288), { x with chars := x.chars.drop (size * n) })

/-- Received bits are decoded, from the alignment on; RAW passes 256 at a time (R250, R404). -/
def SerConfig.decode (c : SerConfig) (p : Nat) (d : Decoding) (l : List Bool) : Decoding :=
  let bits := d.rx.bits ++ l
  let size := match c.pcs with | 0 => 256 | 1 => 10 | _ => 130
  let n := bits.length / size
  let parts := (upto n).map (fun j => (bits.drop (size * j)).take size)
  let d := { d with rx := { d.rx with bits := bits.drop (size * n) } }
  match c.pcs with
  | 0 => { d with entries := parts.map (fun g => BitVec.ofNat 288 (bitsLsb g)) }
  | 1 =>
    let d := parts.foldl (fun d g => c.decodeGroup d (bitsMsb g)) d
    let (e, x) := c.entries d.rx
    { d with rx := x, entries := e }
  | _ =>
    let d := parts.foldl (fun d g => c.decodeBlock p d g) d
    let (e, x) := c.entries d.rx
    { d with rx := x, entries := e }

/-- Entries reach the RX FIFO; those that find it full are lost (R404). -/
def Lane.receive (l : Lane) (e : List (BitVec 288)) : Lane :=
  let room := laneDepth - l.rxFifo.length
  { l with rxFifo := l.rxFifo ++ e.take room, rx := { l.rx with lost := l.rx.lost + (e.length - room) } }

/-- A lane decodes what it receives: a FABRIC lane in RAW, or an encoded lane once it is aligned (R247, R250). -/
def State.decodeWord (s : State) (p : Nat) (syms : List Nat) : State :=
  let c := s.ser p
  let l := s.lane p
  let fabric := c.rxSink == 3
  if !(if c.pcs == 0 then fabric else l.markerAligned) then s else
    let bits := c.bitsOf syms
    let (bits, x) := if c.pcs == 0 then
        let (b, reg) := c.scrambled (l.rx.scr.getD (scrambleSeed c.scramble p)) bits
        (b, { l.rx with scr := some reg })
      else (bits, l.rx)
    let d := c.decode p { rx := x, fill := l.fill } bits
    s.setLane p (fun l =>
      let l := { l with rx := d.rx, fill := d.fill, codeErrors := min (l.codeErrors + d.errors) 0xFFFF }
      if fabric then l.receive d.entries else l)

/-! ## One WORD cycle at the receiver -/

/-- What a lane makes of 64 samples at their instants: the decided symbols, those that its sink takes, and the state after. -/
def State.receiveWord (s : State) (p : Nat) (o : LaneObs) (at' : Nat → Nat) : List Nat × List Nat × State :=
  let (syms, s) := s.decideWord p o at'
  let s := s.setLane p (fun l => { l with signal := decide (1 ≤ transitions syms), rx := { l.rx with upTo := at' 63 } })
  let s := (s.adapt p o syms).slip p o.slip
  let (x, s) := s.incoming p syms
  let s := match (s.ser p).rxSink with
    | 2 => if (s.lane p).locked then s.checkWord p x else s
    | 4 => s
    | _ => if (s.lane p).locked then s.decodeWord p x else s
  (syms, x, s)

/-- The comparators of a lane are on, at its port or at the bye-stake that serves its pin (R102, R333). -/
def State.listens (s : State) (p : Nat) : Bool := (s.enables p).compare || (s.enables (s.server p)).compare

/-! ## What TIME alone does at the lanes (R241, R244, R404) -/

/-- The design's side of a lane's FIFOs at the present count, from the state `old` before it: at a rising edge of the
interface's tree it writes a TX entry where there is room, and reads an RX entry (R404; log 130). -/
def State.fabricLane (old : State) (p : Nat) (s : State) : State :=
  let c := s.ser p
  if !(old.designed && old.lineRises (p / 24) (.lane p 0)) then s else
    let s := if c.txSource == 2 && old.laneIn p lineTxWrite then
        let e := BitVec.ofNat 288 (lineField 0 288 (old.laneIn p))
        s.setLane p (fun l => if l.txFifo.length < laneDepth then { l with txFifo := l.txFifo ++ [e] } else l)
      else s
    if c.rxSink == 3 && old.laneIn p lineRxRead then s.setLane p (fun l => { l with rxFifo := l.rxFifo.drop 1 }) else s

/-- One TIME tick at the lanes: equalizer values come into force, the design serves its FIFOs, and an idle of CODE goes on. -/
def State.laneTick (old s : State) : State :=
  let s := (s.ports.filter (fun e => e.2.lane.rx.next.isSome)).foldl (fun s e => rxeqInForce e.1 s) s
  s.each (upto 12) (fun i s =>
    let s := if s.siteSt i == .none then s else s.each (s.lanesOf i) (fun p s => old.fabricLane p s)
    if s.siteSt i == .running || s.siteSt i == .paused then s.each (s.lanesOf i) (fun p s => s.codeIdle p (s.idleUntil i p)) else s)

end Sys2Proof.Machine
end

