-- ==== Sys2Proof/Machine/Pattern.lean ====
section
/-! DEFINITION. The pattern engine: selection, faults and effects of an instruction, the flow operations, checkpoints,
the pattern cache, the serial compares of a WORD cycle, and the context commands (R242, R247, R267 to R300). -/
namespace Sys2Proof.Machine

/-- TX_SKEW of the CK port of a site (R309). -/
def State.ckSkew (s : State) (i : Nat) : Nat :=
  match (s.dutPortsOf i).find? (fun p => (s.roleOf i p).1 == 1) with
  | some p => s.txSkew p
  | none => 0

/-- CK periods of a step in vernier steps, exact (R301, R309). -/
def State.ckTime (s : State) (i n : Nat) : Rat := ((symbolsPerCk (s.stepRec i).pers * n : Nat) : Rat) * s.symbolTime (s.lead i)

/-- Commands already sent, in the CK edges of a step that begins: their edges move, and they keep the timing table of
the step that sent them (R314). -/
def Scheduler.carry (c : Scheduler) (ticks p q : Nat) (now r : StepRec) : Scheduler :=
  let moved := 16 * ticks * p / max (q * ckDiv now.pers) 1
  { c with sent := c.sent.map (fun e =>
      { e with ck := e.ck - moved, old := if e.old.isEmpty then r.timing else e.old }) }

/-- First coincidence point: the step start instant of a later step, once its first instruction has issued (R212). Its cycle 0,
and the origin of its symbols and CK edges, follow 2,048 ticks after it. -/
def State.startsAt (s : State) (i t : Nat) : State :=
  let old := s.run' i
  let r := s.stepRec i
  let cycle0 := t + 2048
  s.setSite i (fun x => { x with
    sched := if old.step ≤ 1 then { x.sched with edge0 := cycle0 * stepsPerTick + s.ckSkew i }
      else if !r.isMemory then x.sched
      else x.sched.carry (cycle0 - old.cycle0) (s.lineP (s.lead i)) (s.lineQ (s.lead i)) r (old.stepRec (old.step - 1))
    run := { x.run with
      begun := true, stepStart := t, cycle0 := cycle0, nextCycle := cycle0 * stepsPerTick, wordOrigin := cycle0 * stepsPerTick } })

/-! ## The pattern cache (R291) -/

/-- Granule of an instruction address. -/
def StepRec.granule (r : StepRec) (pc : Nat) : Nat := r.progBase / 32 + pc

/-- The instruction that the cache holds at a PC: its data, none where it is uncorrectable. -/
def State.cached (s : State) (i pc : Nat) : Option (Option (List Byte)) :=
  (Store.get none ((s.stepRec i).granule pc) (s.run' i).cache).map (fun e => if e.2 then none else some e.1)

/-- Lines that the caches of a site hold together. -/
def State.cacheLines (s : State) (i : Nat) : Nat := 2048 * (s.bundlesOf i).length

/-- Drops a line from the cache. -/
def Run.evict (r : Run) (g : Nat) : Run :=
  { r with cache := Store.clear g (g + 8) r.cache, lines := r.lines.filter (· != g) }

/-- PATTERN_CACHE_FILL: the 8 granules at PC 8 × line arrive; a full cache gives up one line, which one being open (R291,
log 28). -/
def cacheFill (i line : Nat) (s : State) : State :=
  let r := s.stepRec i
  let g := r.granule (8 * line)
  let n := min 8 (r.progLen - 8 * line)
  let arrives := (s.siteSt i).active && decide (1 ≤ (s.run' i).step) && decide (8 * line < r.progLen)
    && (upto n).all (fun k => s.spot (32 * (g + k)) != .waits)
  s.onlyIf arrives (fun s =>
    let s := s.setRun i (fun r => r.evict g)
    let lines := (s.run' i).lines
    let s := if lines.length < s.cacheLines i then s else
      let (v, s) := s.free 64
      s.setRun i (fun r => r.evict (lines.getD (v % max lines.length 1) 0))
    let (grans, s) := s.readGranules g [] n
    s.setRun i (fun r =>
      let cache := (grans.zip (upto n)).foldl (fun c (e, k) =>
        let d := consumed e
        Store.put none (g + k) (some (d.getD [], d.isNone)) c) r.cache
      { r with cache := cache, lines := r.lines ++ [g] }))

def execPatternCacheFill (site : SiteNo) (line : Nat) : State → Out := memRun (cacheFill site.val line)

/-! ## Selection (R290) -/

/-- The context is eligible. A PC beyond the program needs no line: its fetch faults. -/
def State.eligible (s : State) (i cid : Nat) : Bool :=
  let c := s.ctx cid
  c.st == .ready && (decide ((s.stepRec i).progLen ≤ c.pc.toNat) || (s.cached i c.pc.toNat).isSome)

/-- The eligible contexts of a site in the order in which R290 would choose them. -/
def State.candidates (s : State) (i : Nat) : List Nat :=
  let l := (s.siteCtxs i).filter (s.eligible i)
  let r := s.run' i
  match r.lastCid with
  | none => l
  | some n =>
    let order := l.filter (fun c => decide (n < c)) ++ l.filter (fun c => decide (c ≤ n))
    if r.hold && l.contains n then n :: order.filter (· != n) else order

/-! ## Faults (R281, R308, R335) -/

/-- The non-empty slots, SLOT0 first. -/
def Inst.slots (i : Inst) : List Nat := [i.slot0, i.slot1].filter (· != 0)

/-- Vectors that an instruction reads: one for each of its cycles (R287). -/
def Inst.vectors (i : Inst) : Nat := if i.dsrc == 4 then i.cyc else 0

/-- A context may be spawned: LOADED and of this site. -/
def State.spawnable (s : State) (i imm : Nat) : Bool :=
  imm / 2 ^ 16 == 0 && decide (imm < 49152) && (s.bundlesOf i).contains (imm / 4096) && (s.ctx imm).st == .loaded

/-- The first FAULT condition that an instruction meets, in the order of R281. -/
def State.instFault (s : State) (i : Nat) (c : Context) (inst : Inst) : Option CtxFault :=
  let r := s.stepRec i
  if 0x0A < inst.opcode then some .illegalOpcode
  else if !inst.fieldsOk || !inst.slots.all (fun v => slotOk r v c.x.toNat c.y.toNat c.bank.toNat) then some .illegalField
  else if inst.checkpoint && decide (r.ckptSlots ≤ c.ckptPtr.toNat) then some .ckptRange
  else if inst.opcode == 8 && !s.spawnable i inst.imm then some .spawnState
  else if decide (r.vecLen < (s.run' i).vec + inst.vectors) && inst.vectors != 0 then some .vectorEnd
  else none

/-- The fetch of a context's next instruction: its fields, or the fault it meets (R281). -/
def State.fetch (s : State) (i : Nat) (c : Context) : CtxFault ⊕ Inst :=
  if (s.stepRec i).progLen ≤ c.pc.toNat then .inl .pcRange
  else match s.cached i c.pc.toNat with
    | some (some data) =>
      let inst := instOf data
      match s.instFault i c inst with
      | some f => .inl f
      | none => .inr inst
    | _ => .inl .programData

/-- The context enters FAULT, and its site aborts (R271). -/
def State.ctxFault (s : State) (i cid : Nat) (f : CtxFault) : State :=
  let s := s.setCtx cid (fun c => { c with st := .fault, faultCode := f })
  (s.raise 0x1001 1 i cid f.code).abortSite i 0x1001 false

/-! ## Room (R214, R279, R309, R319) -/

/-- Transactions that wait at the site's scheduler. -/
def Scheduler.fill (c : Scheduler) : Nat := c.queue.length + c.window.length

/-- The queue takes n more transactions. -/
def Scheduler.accepts (c : Scheduler) (n : Nat) : Bool := n == 0 || (c.training.isNone && decide (c.fill + n ≤ 64))

/-- A TRAIN of this context waits or runs (R319). -/
def Scheduler.trains (c : Scheduler) (cid : Nat) : Bool :=
  (match c.training with
   | some t => (match t.txn with | some x => x.gov.cid == cid | none => false)
   | none => false)
  || c.queue.any (fun t => t.cmd == 18 && t.gov.cid == cid)

/-- Slots of a context's next instruction, where the cache holds it. -/
def State.slotsAhead (s : State) (i : Nat) (c : Context) : Nat :=
  match s.cached i c.pc.toNat with
  | some (some data) => (instOf data).slots.length
  | _ => 0

/-- Contexts that wait for the scheduler become READY where room exists and no TRAIN of theirs is left (R279, R319). -/
def State.wake (s : State) (i : Nat) : State :=
  (s.siteCtxs i).foldl (fun s cid =>
    let c := s.ctx cid
    let q := (s.site i).sched
    if c.st == .waiting && c.cause == .transaction && !q.trains cid && q.accepts (s.slotsAhead i c)
    then s.setCtx cid (fun c => { c with st := .ready, cause := .none }) else s) s

/-! ## Flow operations (R280, R282, R283) -/

def Context.goto (c : Context) (pc : BitVec 24) : Context := { c with pc := pc }

/-- NEXT. -/
def Context.next (c : Context) : Context := c.goto (c.pc + 1)

/-- BRANCH: a test of FAIL clears it. -/
def Context.branch (c : Context) (sel : Nat) (target : BitVec 24) (xw yw bw fab : Bool) : Context :=
  let taken := condition sel xw yw bw c.fail fab
  let c := if sel == 6 || sel == 7 then { c with fail := false } else c
  if taken then c.goto target else c.next

/-- LOOP. -/
def Context.loop (c : Context) (k : Fin 4) (target : BitVec 24) : Context :=
  if 1 < (c.lc k).toNat then (c.setLc k (c.lc k - 1)).goto target else (c.setLc k 0).next

/-- CALL. -/
def Context.call (c : Context) (target : BitVec 24) : Context := { c with retPc := c.pc + 1 }.goto target

/-- A context that waits with a cause. -/
def Context.waits (c : Context) (cause : WaitCause) : Context := { c with st := .waiting, cause := cause }

/-- WAIT: TIMER, DRAIN, FABRIC; a TIMER of 0 does not wait. -/
def Context.wait (c : Context) (kind imm : Nat) : Context :=
  let c := c.next
  match kind with
  | 0 => if imm == 0 then c else { c.waits .timer with timer := imm }
  | 1 => c.waits .drain
  | _ => c.waits .fabric

/-- HALT. -/
def Context.halt (c : Context) : Context := c.next.waits .halting

/-- The flow operation of an instruction on its own context (R279, steps 4 and 5). -/
def Context.flow (c : Context) (inst : Inst) (a : Address) (fab : Bool) : Context :=
  let target := BitVec.ofNat 24 inst.target
  let k : Fin 4 := Fin.ofNat 4 inst.sel
  match inst.opcode with
  | 1 => c.goto target
  | 2 => c.branch inst.sel target a.xw a.yw a.bw fab
  | 3 => c.loop k target
  | 4 => (c.setLc k (BitVec.ofNat 32 inst.imm)).next
  | 5 => c.call target
  | 6 => c.goto c.retPc
  | 7 => c.wait inst.sel inst.imm
  | 9 => (setRegister inst.sel (BitVec.ofNat 32 inst.imm) c).next
  | 10 => c.halt
  | _ => c.next

/-- SPAWN: the context joins the current step (R281). -/
def State.spawnCtx (s : State) (cid : Nat) : State := s.setCtx cid (fun c => { c with st := .ready })

/-! ## Checkpoints (R296, R297) -/

/-- The 128 bytes of a slot. -/
def checkpointBytes (c : Context) (cid seq time ringPos : Nat) : List Byte :=
  let image := { c with st := .ready, cause := .none, faultCode := .none, ckptSeq := BitVec.ofNat 16 seq }
  image.bytes ++ leBytes 8 time ++ leBytes 8 ringPos ++ leBytes 2 cid ++ List.replicate 14 0#8 ++ leBytes 2 seq
    ++ List.replicate 30 0#8

/-- A checkpoint of a context begins: the state is taken, and its granules are on their way. -/
def State.checkpointOf (s : State) (i cid : Nat) : State :=
  let c := s.ctx cid
  let seq := (c.ckptSeq.toNat + 1) % 65536
  let addr := (s.stepRec i).ckptBase + 256 * c.ckptPtr.toNat + 128 * (seq % 2)
  let w : CkptWrite := { addr := addr, bytes := checkpointBytes c cid seq s.time (s.ring i).write }
  s.setCtx cid (fun c => { c with ckptSeq := BitVec.ofNat 16 seq, ckpts := c.ckpts ++ [w] })

/-! ## What an instruction supplies (R213, R278, R287 to R289) -/

/-- The words of one cycle: W, E, the second words, and SEED after them (R287, R288). -/
def Inst.words (i : Inst) (c : Context) (wide : Bool) (seed : BitVec 32) :
    BitVec 64 × BitVec 64 × BitVec 64 × BitVec 64 × BitVec 32 :=
  let x := c.x.toNat
  let y := c.y.toNat
  let (w, e, seed1) := genWord i.dsrc i.bg x y i.inv i.expD1 c.d0 c.d1 seed
  let (w2, e2, seed2) := genWord i.dsrc i.bg x y i.inv i.expD1 (if i.dsrc == 3 then c.d0 else c.d1) c.d1 seed1
  (w, e, w2, e2, if wide then seed2 else seed1)

/-- The words of n cycles, and SEED after them. -/
def Inst.wordList (i : Inst) (c : Context) (wide : Bool) : Nat → BitVec 32 →
    List (BitVec 64 × BitVec 64 × BitVec 64 × BitVec 64) × BitVec 32
  | 0, seed => ([], seed)
  | n + 1, seed =>
    let (w, e, w2, e2, seed) := i.words c wide seed
    let (rest, seed) := i.wordList c wide n seed
    ((w, e, w2, e2) :: rest, seed)

/-- Step 1 of R279 for cycles and symbols; the answer is SEED after them. -/
def State.supply (s : State) (i : Nat) (gov : Governs) (inst : Inst) (c : Context) : BitVec 32 × State :=
  let r := s.stepRec i
  let wide := s.wideWords i
  let (ws, seed) := inst.wordList c wide inst.cyc c.seed
  let vec := (s.run' i).vec
  let cycles := if !r.hasCycles then [] else (ws.zip (upto inst.cyc)).map (fun (w, k) =>
    ({ gov := gov, tset := inst.tset, pmap := inst.pmap, hold := inst.dsrc == 0, w := w.1, e := w.2.1, de := inst.de,
       ce := inst.ce, vec := if inst.dsrc == 4 then some (vec + k) else none,
       boundary := inst.calBoundary && k == 0 } : Cycle))
  let words := if (s.wordLanes i).isEmpty then [] else (ws.zip (upto inst.cyc)).map (fun (w, k) =>
    ({ gov := gov, w := w.1, e := w.2.1, w2 := w.2.2.1, e2 := w.2.2.2, ce := inst.ce, hold := inst.dsrc == 0,
       boundary := inst.calBoundary && k == 0 } : SerWord))
  (seed, s.setRun i (fun r' => { r' with
    cycles := r'.cycles ++ cycles, words := r'.words ++ words, vec := r'.vec + inst.vectors }))

/-- Step 1 of R279 for slots: each becomes a transaction with the generator's state at issue (R289). -/
def State.enqueue (s : State) (i : Nat) (gov : Governs) (inst : Inst) (c : Context) : State :=
  let (w, e, _) := genWord inst.dsrc inst.bg gov.x gov.y inst.inv inst.expD1 c.d0 c.d1 c.seed
  let txns := inst.slots.map (fun v =>
    ({ gov := gov, cmd := slotCmd v, rank := slotRank v, arg := slotArg v, bank := gov.bank, x := gov.x, y := gov.y,
       lfsr := inst.dsrc == 3, w := w, e := e, seed := c.seed, invert := inst.inv, expD1 := inst.expD1,
       fresh := true, since := s.now } : Txn))
  s.setSite i (fun t => { t with sched := { t.sched with queue := t.sched.queue ++ txns } })

/-! ## One issue (R278, R279) -/

/-- An instruction of a context issues. -/
def State.issueInst (s : State) (i cid : Nat) (inst : Inst) (fab : Bool) : State :=
  let s := if (s.run' i).begun then s else s.startsAt i (s.coincidenceAt (s.lead i) s.time)
  let c := s.ctx cid
  let gov : Governs := { cid := cid, step := (s.run' i).step, mode := inst.mode, masks := inst.masks,
                         x := c.x.toNat, y := c.y.toNat, bank := c.bank.toNat }
  let (seed, s) := s.supply i gov inst c
  let s := s.enqueue i gov inst c
  let a := addressAfter inst c
  let (d0, d1) := dataAfter inst.dop c.d0 c.d1
  let c : Context := { c with
    seed := seed, x := BitVec.ofNat 24 a.x, y := BitVec.ofNat 16 a.y, bank := BitVec.ofNat 8 a.bank, d0 := d0, d1 := d1 }
  let c := c.flow inst a fab
  let train := inst.slots.any (fun v => slotCmd v == 18)
  let c := if train && c.st == .ready then c.waits .transaction else c
  let s := s.setCtx cid (fun _ => c)
  let s := if inst.opcode == 8 then s.spawnCtx (inst.imm % 65536) else s
  let s := if inst.checkpoint then s.checkpointOf i cid else s
  let s := s.setRun i (fun r => { r with
    lastCid := some cid, hold := inst.holdIssue, trig := r.trig != inst.fabTrigger })
  let s := s.setBnd (cid / 4096) (fun b => { b with pe := { b.pe with issued := b.pe.issued + 1 } })
  let supplies := inst.cyc != 0 && ((s.stepRec i).hasCycles || !(s.wordLanes i).isEmpty)
  if inst.calBoundary && !supplies then s.atBoundary i else s

/-- The formatter's queue takes the instruction's cycles (R214, log 26). -/
def State.cyclesFit (s : State) (i : Nat) (inst : Inst) : Bool :=
  !(s.stepRec i).hasCycles || decide ((s.run' i).cycles.length + inst.cyc ≤ 1024)

/-- The first candidate that can issue does; one whose slots find no room waits, and the next is tried (R279, R290). -/
def State.tryIssue (s : State) (i : Nat) (fab : Bool) : List Nat → State
  | [] => s
  | cid :: rest =>
    match s.fetch i (s.ctx cid) with
    | .inl f => s.ctxFault i cid f
    | .inr inst =>
      if !(s.site i).sched.accepts inst.slots.length then
        (s.setCtx cid (fun c => c.waits .transaction)).tryIssue i fab rest
      else if !s.cyclesFit i inst then s
      else s.issueInst i cid inst fab

/-- A lane's compares run: compare on, not masked, locked, aligned where needed (R247, R248, R333). -/
def State.laneCompares (s : State) (i p : Nat) (g : Governs) : Bool :=
  let c := s.ser p
  let l := s.lane p
  (s.wordLanes i).contains p && decide (c.rxSink ≤ 1)
    && ((s.enables p).compare || (s.enables (s.server p)).compare)
    && !(s.reg .portCmpConfig p).getLsbD 0 && !g.masks.testBit (4 + p % 8) && !g.masks.testBit 1 && g.mode != 4
    && (l.locked || c.rxClk == 0) && (c.rxSink == 0 || (l.markerAligned && (c.group == 0 || l.groupAligned))) && !l.deskewFail

/-- One lane's part in a serial compare. -/
structure LaneCmp where
  port : Nat
  exps : List Nat
  acts : List Nat
  deriving DecidableEq, Repr, Inhabited

/-- Sum of two-bit fields at slots. -/
def slotFields (l : List (Nat × Nat)) : Nat := l.foldl (fun a e => a + e.2 * 4 ^ e.1) 0

/-- The beat of one bundle at symbol k of a word (R336 to R338). -/
def State.serialBeat (s : State) (w : SerWord) (lanes : List LaneCmp) (b k : Nat) : Beat :=
  let mine := lanes.filter (fun l => bundleOfPort l.port == b)
  let at' (l : LaneCmp) := s.gridAt l.port w.origin (w.first + k : Nat)
  let time := mine.foldl (fun m l => min m (at' l)) (mine.head?.elim 0 at')
  let exp (l : LaneCmp) := l.exps.getD k 0
  let act (l : LaneCmp) := l.acts.getD k 0
  let bad := mine.filter (fun l => exp l != act l)
  { bundle := b, fails := bad.map (·.port % 8), bye := bad.any (fun l => (s.port l.port).cal.replaced),
    exp := slotFields (mine.map (fun l => (l.port % 8, exp l))), act0 := slotFields (mine.map (fun l => (l.port % 8, act l))),
    act1 := 0, pos := k, type := 2, time := time / stepsPerTick, sub := time % stepsPerTick }

/-- Adds n bits to a raw port's partial byte, and stores the bytes that become whole. -/
def State.rawBits (s : State) (i p v n : Nat) : State :=
  let r := (s.port p).raw
  let part := r.part + v * 2 ^ r.partBits
  let have' := r.partBits + n
  if have' < 8 then s.setPort p (fun q => { q with raw := { q.raw with part := part, partBits := have' } })
  else
    let s := s.rawByte i p (part % 256)
    s.setPort p (fun q => { q with raw := { q.raw with part := part / 256, partBits := have' - 8 } })

/-- The symbols that a raw serial port has decided are stored, one bit each for NRZ, else two (R334, R347). -/
def State.rawSymbols (s : State) (i p : Nat) (syms : List Nat) : State :=
  let c := s.ser p
  if !(s.port p).raw.active || !s.isSerial p then s else
    let invert := (s.reg .portCmpConfig p).getLsbD 2
    syms.foldl (fun s x => s.rawBits i p (if invert then c.complement x else x) (if c.mod == 0 then 1 else 2)) s

/-- The lanes of a site whose received symbols go with its words: all that listen, but PRBS checkers, which have a row of their
own. -/
def State.rxLanes (s : State) (i : Nat) : List Nat := (s.lanesOf i).filter (fun p => (s.ser p).rxSink != 2 && s.listens p)

/-- The last position of a driven word has come at every lane. -/
def State.wordCame (s : State) (i : Nat) (w : SerWord) : Bool :=
  (s.rxLanes i).all (fun p => decide (s.gridAt p w.origin (w.first + 63 : Nat) ≤ s.now))

/-- The lanes of a site receive the 64 positions of a word, one after the other: what each takes (R243 to R247). A lane that
`rx` leaves out is not driven by the DUT. -/
def State.receiveLanes (s : State) (i : Nat) (w : SerWord) (rx : List LaneObs) : List (Nat × List Nat) × State :=
  (s.rxLanes i).foldl (fun (l, s) p =>
    let o := (rx.find? (fun o => o.port.val == p)).getD { port := Fin.ofNat 108 p, samples := [] }
    let (syms, x, s) := s.receiveWord p o (s.sampleAt p w.origin w.first o.clock)
    (l ++ [(p, x)], s.rawSymbols i p syms)) (([] : List (Nat × List Nat)), s)

/-- The oldest driven word meets its received symbols, once their positions have come (R247, R335, R336). -/
def State.compareWord (s : State) (i : Nat) (rx : List LaneObs) : State :=
  match (s.run' i).expects with
  | [] => s
  | w :: rest =>
    if !s.wordCame i w then s else
      let s := s.setRun i (fun r => { r with expects := rest })
      let (got, s) := s.receiveLanes i w rx
      if !w.ce then s else
        let lanes := (got.filter (fun e => s.laneCompares i e.1 w.gov)).map (fun e =>
          LaneCmp.mk e.1 (((w.exps.find? (fun x => x.1 == e.1)).map (·.2)).getD []) e.2)
        s.each (upto 64) (fun k s =>
          s.failBeats i w.gov ((s.bundlesOf i).map (fun b => s.serialBeat w lanes b k)))

/-- INSTRUCTION_ISSUE: one WORD cycle of a RUNNING site. `fab` is the condition line at the previous WORD edge (R403);
`rx` what its lanes receive at the positions of the oldest driven word. A pause that has been accepted takes effect
before the next issue (R292). -/
def wordCycle (i : Nat) (rx : List LaneObs) (fab : Bool) (s : State) : State :=
  s.onlyIf (s.stepping i) (fun s =>
    let s := (s.compareWord i rx).driveWord i
    if !s.stepping i || (s.site i).pausing || (s.site i).resumeAt.any (fun t => decide (s.time < t)) then s else
      let s := s.wake i
      s.tryIssue i fab (s.candidates i))

def execInstructionIssue (site : SiteNo) (rx : List LaneObs) (fab : Bool) : State → Out := run (wordCycle site.val rx fab)

/-- TX_UNDERRUN: a lane without symbols for a WORD cycle: with the FABRIC source it sends its idle and says so; with the
GENERATOR source the site aborts (R242, R404). -/
def txUnderrun (p : Nat) (s : State) : State :=
  s.onlyIf (s.laneLive p && decide (p < 96)) (fun s =>
    let c := s.ser p
    let l := s.lane p
    match s.siteOfPort p with
    | none => s
    | some i =>
      s.onlyIf ((s.lanesOf i).contains p && s.stepping i) (fun s =>
        if c.txSource == 2 && l.txFifo.isEmpty && decide (l.tx.bits.length < c.wordBits) then
          s.setLane p (fun l => { l with txUnderrun := true })
        else s.onlyIf (c.txSource == 0 && (s.run' i).begun && (s.run' i).words.isEmpty && !s.suppliesNoMore i)
          (fun s => s.symbolUnderrun i)))

def execTxUnderrun (p : PortNo) : State → Out := run (txUnderrun p.val)

/-- PRBS_LOCKED: the next 64 symbols reach a lane's pattern checker, which gains, holds or loses its lock on them; they are the
ones up to the present instant (R253, R265; log 151). -/
def prbsLocked (o : LaneObs) (s : State) : State :=
  let p := o.port.val
  let b := bundleOfPort p
  let at' (k : Nat) := s.now - (s.symbolSteps b (63 - k : Nat)).toNat
  s.onlyIf (s.laneLive p && decide (p < 96) && (s.ser p).rxSink == 2 && s.listens p
      && decide ((s.lane p).rx.upTo < at' 0)) (fun s =>
    let (syms, _, s) := s.receiveWord p o at'
    match s.siteOfPort p with
    | some i => if s.stepping i then s.rawSymbols i p syms else s
    | none => s)

def execPrbsLocked (port : PortNo) (samples odd : List (Option PinDrive)) (own : LaneOwn) : State → Out :=
  run (prbsLocked ⟨port, samples, odd, own.clock, own.slip, own.adapted⟩)

/-! ## The flow rows (R280 to R283): one operation of an issued instruction on a READY context -/

/-- A context that issues: READY, in a site whose step runs. -/
def State.issuing (s : State) (cid : Nat) : Bool :=
  match s.siteOfCtx cid with
  | some i => s.stepping i && (s.ctx cid).st == .ready
  | none => false

/-- A flow operation on a READY context of a running step; elsewhere it cannot arise (log 30). -/
def flowRow (cid : Nat) (f : Context → Context) (s : State) : State :=
  s.onlyIf (s.issuing cid) (fun s => s.setCtx cid f)

def execNext (cid : Cid) : State → Out := run (flowRow cid.val Context.next)
def execJump (cid : Cid) (target : BitVec 24) : State → Out := run (flowRow cid.val (·.goto target))
def execBranch (cid : Cid) (sel : Fin 10) (target : BitVec 24) (xw yw bw fab : Bool) : State → Out :=
  run (flowRow cid.val (·.branch sel.val target xw yw bw fab))
def execLoop (cid : Cid) (k : Fin 4) (target : BitVec 24) : State → Out := run (flowRow cid.val (·.loop k target))
def execSetlc (cid : Cid) (k : Fin 4) (imm : BitVec 32) : State → Out :=
  run (flowRow cid.val (fun c => (c.setLc k imm).next))
def execCall (cid : Cid) (target : BitVec 24) : State → Out := run (flowRow cid.val (·.call target))
def execRet (cid : Cid) : State → Out := run (flowRow cid.val (fun c => c.goto c.retPc))
def execWait (cid : Cid) (kind : Fin 3) (imm : BitVec 32) : State → Out :=
  run (flowRow cid.val (·.wait kind.val imm.toNat))
def execSetreg (cid : Cid) (reg : Fin 8) (imm : BitVec 32) : State → Out :=
  run (flowRow cid.val (fun c => (setRegister reg.val imm c).next))
def execHalt (cid : Cid) : State → Out := run (flowRow cid.val Context.halt)

/-- SPAWN: a context that is outside the site or not LOADED faults the issuing context (R280, R281). -/
def spawnRow (cid imm : Nat) (s : State) : State :=
  match s.siteOfCtx cid with
  | some i => s.onlyIf (s.issuing cid) (fun s =>
      if s.spawnable i imm then (s.setCtx cid Context.next).spawnCtx imm else s.ctxFault i cid .spawnState)
  | none => s

def execSpawn (cid : Cid) (imm : BitVec 32) : State → Out := run (spawnRow cid.val imm.toNat)

/-! ## The ends of waits (R270, R277, R283) -/

/-- Something that a context supplied is still to be driven or compared. -/
def State.owes (s : State) (i cid : Nat) : Bool :=
  let r := s.run' i
  let c := (s.site i).sched
  r.cycles.any (·.gov.cid == cid) || r.beats.any (·.gov.cid == cid) || r.current.isSome
    || r.words.any (·.gov.cid == cid) || r.expects.any (·.gov.cid == cid)
    || c.queue.any (·.gov.cid == cid) || c.window.any (·.gov.cid == cid) || c.bursts.any (·.txn.gov.cid == cid)
    || c.trains cid

/-- A wait of a context of a running step ends. -/
def endWait (cid : Nat) (cause : WaitCause) (f : Nat → State → State) (s : State) : State :=
  match s.siteOfCtx cid with
  | some i =>
    let c := s.ctx cid
    s.onlyIf (s.stepping i && c.st == .waiting && c.cause == cause) (f i)
  | none => s

def Context.wakes (c : Context) : Context := { c with st := .ready, cause := .none, timer := 0 }

/-- WAIT_TIMER_EXPIRY: the WORD cycles of the wait have passed. -/
def execWaitTimerExpiry (cid : Cid) : State → Out :=
  run (endWait cid.val .timer (fun _ s => s.onlyIf ((s.ctx cid.val).timer == 0) (fun s => s.setCtx cid.val Context.wakes)))

/-- One TIME tick at the timers of waiting contexts: they count the WORD edges of the lead bundle while their site runs (R283). -/
def State.timerTick (s : State) : State :=
  s.each (upto 12) (fun i s =>
    let b := s.lead i
    let edges := s.wordAt b s.now - s.wordAt b (s.now - stepsPerTick)
    if !s.stepping i || edges == 0 then s else
      s.each ((s.siteCtxs i).filter (fun c => (s.ctx c).st == .waiting && (s.ctx c).cause == .timer)) (fun c s =>
        s.setCtx c (fun x => { x with timer := x.timer - edges })))

/-- WAIT_DRAIN_DONE: only once nothing of the context is left. -/
def execWaitDrainDone (cid : Cid) : State → Out :=
  run (endWait cid.val .drain (fun i s => s.onlyIf (!s.owes i cid.val) (fun s => s.setCtx cid.val Context.wakes)))

/-- HALT_DONE: the context is DONE, and its open row summary is emitted (R270, R339). -/
def execHaltDone (cid : Cid) : State → Out :=
  run (endWait cid.val .halting (fun i s => s.onlyIf (!s.owes i cid.val) (fun s =>
    (s.setCtx cid.val (fun c => { c with st := .done, cause := .none })).closeRow i cid.val)))

/-- WAIT_FABRIC_EVENT: the event line sampled at a WORD edge (R283, R403). -/
def execWaitFabricEvent (site : SiteNo) (level : Bool) : State → Out :=
  run (fun s => s.onlyIf (level && s.stepping site.val) (fun s =>
    (s.siteCtxs site.val).foldl (fun s cid =>
      let c := s.ctx cid
      if c.st == .waiting && c.cause == .fabric then s.setCtx cid Context.wakes else s) s))

/-- CHECKPOINT of a context of a running step; beyond the area it faults (R281, R296). -/
def checkpointRow (cid : Nat) (s : State) : State :=
  match s.siteOfCtx cid with
  | some i => s.onlyIf (s.issuing cid) (fun s =>
      if (s.ctx cid).ckptPtr.toNat < (s.stepRec i).ckptSlots then s.checkpointOf i cid else s.ctxFault i cid .ckptRange)
  | none => s

def execCheckpoint (cid : Cid) : State → Out := run (checkpointRow cid.val)

/-- CHECKPOINT_COMPLETE: the oldest checkpoint of a context that is on its way is in GDDR7 (R296, R298). -/
def checkpointComplete (cid : Nat) (s : State) : State :=
  match (s.ctx cid).ckpts with
  | [] => s
  | w :: rest =>
    let (_, s) := s.store w.addr w.bytes
    s.setCtx cid (fun c => { c with ckpts := rest })

def execCheckpointComplete (cid : Cid) : State → Out := memRun (checkpointComplete cid.val)

/-- CAL_BOUNDARY. -/
def execCalBoundary (site : SiteNo) : State → Out :=
  run (fun s => s.onlyIf (s.stepping site.val) (fun s => s.atBoundary site.val))

/-- FAB_TRIGGER: TRIG_TOGGLE of the site is inverted (R278, R402). -/
def execFabTrigger (site : SiteNo) : State → Out :=
  run (fun s => s.onlyIf (s.stepping site.val) (fun s => s.setRun site.val (fun r => { r with trig := !r.trig })))

/-! ## Context commands (R272 to R274, R298, R536) -/

/-- Step 8 of R71 for BND_PE_CTX_CMD (R273). -/
def ctxCmdState (s : State) (b : Nat) : Status :=
  let site := s.siteOf b
  let busy := match site with
    | some i => (s.siteSt i == .armed || s.siteSt i == .running || s.siteSt i == .paused || s.siteSt i == .aborting)
    | none => false
  let validating := match site with
    | some i => (s.site i).validating.isSome
    | none => false
  firstRefusal
    [require (!busy && s.tb.cfgOnRoot) .state,
     require (!validating && (s.bnd b).pe.staged.isEmpty) .busy]

/-- Step 9 (R272). -/
def ctxCmdRange (op count first src : Nat) (reserved : Nat) : Status :=
  require (decide (1 ≤ op) && decide (1 ≤ count) && decide (count ≤ 4096) && decide (first + count ≤ 4096) && reserved == 0
    && !(op == 3 && src % 4 != 0)) .range

/-- The source granules of a command: first granule and how many. -/
def ctxCmdSource (op count src : Nat) : Nat × Nat :=
  match op with
  | 1 => (2 * src, 2 * count)
  | 3 => (2 * src, 8 * count)
  | _ => (0, 0)

/-- Checks 2 to 4 of R273. -/
def ctxCmdAfter (s : State) (b op count src : Nat) : Status :=
  let (g, n) := ctxCmdSource op count src
  let spots := (upto n).map (fun k => s.spot (32 * (g + k)))
  firstRefusal
    [require (!(s.bnd b).failed) .hwFault,
     require (n == 0 || decide (32 * (g + n) ≤ s.memCap)) .lenOver,
     require (spots.all (· != .waits)) .busy,
     require (spots.all (· == .ok)) .hwFault]

/-- A slot of a checkpoint pair: its bytes and sequence where it is valid (R298). -/
def slotOf (grans : List (Option (List Byte))) : Option (List Byte × Nat) :=
  match grans.mapM id with
  | none => none
  | some l =>
    let d := l.flatten
    let seq := fieldAt d 34 2
    if fieldAt d 96 2 == seq then some (d, seq) else none

/-- The newer valid slot (R298). -/
def newerSlot (a b : Option (List Byte × Nat)) : Option (List Byte × Nat) :=
  match a, b with
  | some x, some y =>
    let ahead := (x.2 + 65536 - y.2) % 65536
    if ahead == 0 then some y
    else if ahead == 32768 then (if y.2 < x.2 then some x else some y)
    else if ahead < 32768 then some x else some y
  | some x, none => some x
  | none, y => y

/-- One image of a command: the context it gives, or the refusal (R274). -/
def imageOf (op : Nat) (grans : List (List Byte × Bool)) : Status × Context :=
  let data := grans.map consumed
  if op == 1 then
    match data.mapM id with
    | none => (.hwFault, default)
    | some l => if imageReserved0 l.flatten then (.ok, contextOf l.flatten) else (.range, default)
  else match newerSlot (slotOf (data.take 4)) (slotOf (data.drop 4)) with
    | none => (.range, default)
    | some x => (.ok, contextOf (x.1.take 64))

/-- Reads n images into staging in ascending context order, up to the first refusal (R273, step 5). -/
def readImages (op size : Nat) : Nat → Nat → Nat → State → Status × List (Nat × Context) × State
  | 0, _, _, s => (.ok, [], s)
  | n + 1, ctx, g, s =>
    let (grans, s) := s.readGranules g [] size
    let (st, c) := imageOf op grans
    if st != .ok then (st, [], s)
    else
      let (st, l, s) := readImages op size n (ctx + 1) (g + size) s
      (st, (ctx, c) :: l, s)

/-- The reading of a command's images: FREE reads none. -/
def ctxCmdRead (op count first src : Nat) (s : State) : Status × List (Nat × Context) × State :=
  match op with
  | 2 => (.ok, (upto count).map (fun k => (first + k, default)), s)
  | 1 => readImages 1 2 count first (2 * src) s
  | _ => readImages 3 8 count first (2 * src) s

/-- CTX_CMD_DONE: the contexts are written, and the checkpoint index with them; the command is answered (R273, R536). -/
def ctxCmdDone (b : BundleNo) (s : State) : State :=
  match (s.bnd b).pe.staged with
  | [] => s
  | l =>
    let s := l.foldl (fun s e => s.setCtx (4096 * b.val + e.1) (fun _ => e.2)) s
    let s := s.setCap b (fun c => { c with index := l.foldl (fun x e =>
      if e.2.st == .loaded then Store.put 0 e.1 e.2.ckptPtr x else x) c.index })
    let s := s.setBnd b (fun t => { t with pe := { t.pe with staged := [] } })
    s.complete (.ctxCmd b) .ok

def execCtxCmdDone (b : BundleNo) : State → Out := run (ctxCmdDone b)

/-! ## Reads of the engine's objects (R299, R300, R536) -/

/-- Byte of BND_PE_CTX_STATES. -/
def Context.stateByte (c : Context) : Nat := c.st.code * 32 + c.cause.code * 4 + (if c.fail then 2 else 0)

/-- Contexts of a bundle in a state. -/
def State.ctxCount (s : State) (b : Nat) (st : CtxSt) : Nat :=
  (s.ctxs.filter (fun e => e.1 / 4096 == b && e.2.st == st)).length

/-- BND_PE_STATUS. -/
def State.peStatus (s : State) (b : Nat) : Nat :=
  s.ctxCount b .ready * 2 ^ 48 + s.ctxCount b .waiting * 2 ^ 32 + s.ctxCount b .loaded * 2 ^ 16 + s.ctxCount b .done

/-- The image of a context as BND_PE_CTX_IMAGE gives it: of a FAILED bundle only CKPT_PTR, from the index. -/
def State.ctxImage (s : State) (cid : Nat) : List Byte :=
  if (s.bnd (cid / 4096)).failed then
    List.replicate 40 0#8 ++ leBytes 4 (Store.get 0 (cid % 4096) (s.cap (cid / 4096)).index).toNat ++ List.replicate 20 0#8
  else (s.ctx cid).bytes

end Sys2Proof.Machine
end

