-- ==== Sys2Proof/Machine/Cycle.lean ====
section
/-! DEFINITION. One edge cycle of a site: cycle codes from the column plan, the formatter, the strobes and their compares,
and raw capture (R211 to R228, R276, R287, R288, R331 to R338, R347). -/
namespace Sys2Proof.Machine

/-! ## Cycle codes (R216, R276, R287, R288) -/

/-- A 6-bit cycle code. -/
def codeOf (v : Nat) : CycleCode := { de := v.testBit 5, data := bits v 3 2, ce := v.testBit 2, exp := bits v 0 2 }

def codeWord (de : Bool) (data : Nat) (ce : Bool) (exp : Nat) : Nat :=
  (if de then 32 else 0) + data * 8 + (if ce then 4 else 0) + exp

/-- DATA or EXP of a DATA column from a word (R288): one bit, or two in a PAM timing set. -/
def columnBits (format idx : Nat) (w : BitVec 64) : Nat :=
  if 5 ≤ format then 2 * (w.getLsbD ((idx + 1) % 64)).toNat + (w.getLsbD idx).toNat else (w.getLsbD idx).toNat

/-- The drive value that carries a data bit or symbol: a binary format reads bit [3]. -/
def bitData (b : Bool) : Nat := if b then 1 else 0

/-- Code of a column of role (ROLE, IDX) for a cycle; `prev` is its code of the cycle before, `vec` its 6 bits of the
stored vector. A VECTOR column repeats its code with CE 0 for every DSRC but VECTOR, HOLD too (R276, R287). -/
def columnCode (role : Nat × Nat) (format : Nat) (c : Cycle) (prev vec : Nat) : Nat :=
  if c.hold then
    (if role.1 == 8 then codeWord (codeOf prev).de (codeOf prev).data false (codeOf prev).exp else prev)
  else
    match role with
    | (1, i) => codeWord c.de (columnBits format i c.w) c.ce (columnBits format i c.e)
    | (2, i) => codeWord true (bitData (c.gov.x.testBit i)) false 0
    | (3, i) => codeWord true (bitData (c.gov.y.testBit i)) false 0
    | (4, i) => codeWord true (bitData (c.gov.bank.testBit i)) false 0
    | (5, _) => codeWord true 1 false 0
    | (6, _) => codeWord true 0 false 0
    | (7, _) => codeWord true 1 false 0
    | (8, _) => if c.vec.isSome then vec else codeWord (codeOf prev).de (codeOf prev).data false (codeOf prev).exp
    | _ => 0

/-- The stored vector of a cycle, 96 bytes as the memory holds them; free where a granule fails (R287, log 31). -/
def State.vectorOf (s : State) (r : StepRec) (v : Nat) : List Byte × State :=
  let (grans, s) := s.readGranules ((r.vecBase + 96 * v) / 32) [] 3
  grans.foldl (fun (l, s) g =>
    match consumed g with
    | some d => (l ++ d, s)
    | none =>
      let (a, s) := s.free 64
      let (b, s) := s.free 64
      let (c, s) := s.free 64
      let (d, s) := s.free 64
      (l ++ leBytes 8 a ++ leBytes 8 b ++ leBytes 8 c ++ leBytes 8 d, s)) (([] : List Byte), s)

/-- The ports that a pin map names with their columns, ascending by column. -/
def mapColumns (map : List Byte) : List (Nat × Nat) :=
  ((map.zip (upto 128)).filter (fun e => e.1 != 0xFF#8)).map (fun e => (e.2, e.1.toNat))

/-- Codes of the mapped columns of a cycle, by column and port. -/
def State.cycleCodes (s : State) (i : Nat) (c : Cycle) (vec : Nat) : List (Nat × Nat × Nat) :=
  let r := s.stepRec i
  (mapColumns (r.pinMap c.pmap)).map (fun (col, p) =>
    let prev := Store.get 0 col (s.run' i).codes
    (col, p, columnCode (planOf r.colPlan col) (s.tset p c.tset).format c prev (bits vec (6 * col) 6)))

/-! ## Compares (R331 to R338) -/

/-- A single state fails against EXP under a format (R332). -/
def stateFails (format exp state : Nat) : Bool :=
  if format == 6 then state != exp else if exp == 3 then false else state != exp

/-- What the strobes of one port saw: the state at S0, that at S1, and in order every state from S0 to S1. -/
structure Seen where
  s0 : Nat
  s1 : Nat
  window : List Nat
  deriving DecidableEq, Repr, Inhabited

/-- The instants from S0 to S1 at which something may change at a pin, in order, with what the DUT then presents: S0, the
changes of the DUT, and the port's own drive events, each with the DUT's latest (R222). -/
def State.windowInstants (s : State) (it : StrobeItem) : List (Nat × Option PinDrive) :=
  let duts := (it.s0, it.obs.s0) :: (it.obs.window.map (fun e => (it.s0 + e.1, e.2))).filter (fun e => decide (e.1 < it.s1))
  let latest (t : Nat) := (duts.filter (fun e => decide (e.1 ≤ t))).getLast?.elim it.obs.s0 (·.2)
  let drives := ((s.port it.port).fe.events.filter (fun e => decide (it.s0 < e.at') && decide (e.at' < it.s1))).map (·.at')
  let all := drives.foldl (fun l t =>
    l.filter (fun e => decide (e.1 ≤ t)) ++ (t, latest t) :: l.filter (fun e => decide (t < e.1))) duts
  all ++ [(it.s1, it.obs.s1)]

/-- Vernier steps of 16 ps, the largest minimum detected pulse width of R133. -/
def pulseSteps : Nat := 918

/-- The states throughout S0 to S1. One that lasts less than the minimum detected pulse width may or may not be seen (R133,
R222). -/
def State.windowStates (s : State) (it : StrobeItem) : List (Nat × Option PinDrive) → List Nat × State
  | [] => ([], s)
  | e :: rest =>
    let (x, s) := s.stateAt it.port it.format e.1 e.2
    let short := match rest with
      | n :: _ => decide (it.s0 < e.1) && decide (n.1 - e.1 < pulseSteps)
      | [] => false
    let (v, s) := if short then s.free 1 else (1, s)
    let (l, s) := s.windowStates it rest
    (if v == 1 then x :: l else l, s)

/-- What the strobes of one port saw (R222). -/
def State.seen (s : State) (it : StrobeItem) : Seen × State :=
  let (a, s) := s.stateAt it.port it.format it.s0 it.obs.s0
  if it.kind == 2 then
    let (b, s) := s.stateAt it.port it.format it.s1 it.obs.s1
    (⟨a, b, []⟩, s)
  else if it.kind == 3 then
    let (w, s) := s.windowStates it ((s.windowInstants it).drop 1)
    (⟨a, w.getLastD a, a :: w⟩, s)
  else (⟨a, a, []⟩, s)

/-- What one port's strobes give: whether S0 failed, whether S1 or the window failed, and ACT1 (R222, R338). -/
structure Strobed where
  s0 : Bool
  s1 : Bool
  act1 : Nat
  deriving DecidableEq, Repr, Inhabited

def strobe (format kind exp : Nat) (o : Seen) : Strobed :=
  let f0 := stateFails format exp o.s0
  match kind with
  | 1 => { s0 := f0, s1 := false, act1 := 0 }
  | 2 => { s0 := f0, s1 := stateFails format exp o.s1, act1 := o.s1 }
  | _ =>
    match o.window.find? (stateFails format exp) with
    | some x => { s0 := f0, s1 := true, act1 := x }
    | none => { s0 := f0, s1 := false, act1 := 0 }

/-- The port's compare enable, or that of the bye-stake that serves its pin (R333). -/
def State.comparing (s : State) (p : Nat) : Bool := (s.enables p).compare || (s.enables (s.server p)).compare

/-- The strobes of a mapped port take part in the cycle's beat (R333, R335). -/
def State.edgeCompares (s : State) (p kind : Nat) (code : CycleCode) (g : Governs) : Bool :=
  code.ce && kind != 0 && s.comparing p && !(s.reg .portCmpConfig p).getLsbD 0
    && !g.masks.testBit (4 + p % 8) && !g.masks.testBit 0 && g.mode != 4

/-- One port's part in a cycle's beat. -/
structure EdgeCmp where
  port : Nat
  exp : Nat
  act0 : Nat
  res : Strobed
  at' : Nat
  deriving DecidableEq, Repr, Inhabited

/-- The strobes of a port in a cycle that starts at `start`, each later by the compare-side fixture delay (R222, R229). -/
def State.strobeItem (s : State) (p : Nat) (t : TSet) (code : Option Nat) (start : Nat) (obs : List PortObs) : StrobeItem :=
  let fix := s.rd .portFixCompare p
  let s0 := start + t.s0.getD 0 + fix
  { port := p, format := t.format, kind := t.strobe, code := code, s0 := s0,
    s1 := match t.s1 with | some o => start + o + fix | none => s0,
    obs := (obs.find? (fun o => o.port.val == p)).getD { port := Fin.ofNat 108 p } }

/-- The beat of one bundle (R336 to R338). -/
def State.edgeBeat (s : State) (l : List EdgeCmp) (b : Nat) : Beat :=
  let mine := l.filter (fun e => bundleOfPort e.port == b)
  let bad := mine.filter (fun e => e.res.s0 || e.res.s1)
  let time := mine.foldl (fun m e => min m e.at') (mine.head?.elim 0 (·.at'))
  { bundle := b, fails := bad.map (·.port % 8), bye := bad.any (fun e => (s.port e.port).cal.replaced),
    exp := slotFields (mine.map (fun e => (e.port % 8, e.exp))),
    act0 := slotFields (mine.map (fun e => (e.port % 8, e.act0))),
    act1 := slotFields (mine.map (fun e => (e.port % 8, e.res.act1))),
    pos := (if bad.any (·.res.s0) then 1 else 0) + (if bad.any (·.res.s1) then 2 else 0),
    type := 1, time := time / stepsPerTick, sub := time % stepsPerTick }

/-! ## Raw capture of an edge port (R347) -/

/-- Alphabet of a format. -/
def alphabet (format : Nat) : Nat := match format with | 5 => 3 | 6 => 4 | _ => 2

/-- A state as raw capture stores it; the complement of a state outside the alphabet is open (R334, log 31). -/
def State.rawState (s : State) (p format v : Nat) : Nat × State :=
  if !(s.reg .portCmpConfig p).getLsbD 2 then (v, s)
  else if v < alphabet format then (alphabet format - 1 - v, s)
  else s.free 2

/-- The states that a cycle gives raw capture: at S0, and at S1 or the first that differs in a window; none where the timing
set enables no such strobe, or nothing differs. -/
def rawStates (it : StrobeItem) (o : Seen) : Option Nat × Option Nat :=
  let s0 := if it.kind == 0 then none else some o.s0
  let s1 := match it.kind, it.code with
    | 2, _ => some o.s1
    | 3, some c => o.window.find? (stateFails it.format (codeOf c).exp)
    | _, _ => none
  (s0, s1)

/-- A state field of a raw byte: 0 where there is no state or the compare enable is 0 (R347, log 62). -/
def State.rawField (s : State) (p format : Nat) (v : Option Nat) : Nat × State :=
  match v with
  | some v => if s.comparing p then s.rawState p format v else (0, s)
  | none => (0, s)

/-- The byte of one cycle of a raw edge port (R347). -/
def State.rawCycle (s : State) (i : Nat) (it : StrobeItem) (o : Seen) : State :=
  if !(s.port it.port).raw.active || !s.isEdge it.port then s else
    let (a, b) := rawStates it o
    let (v0, s) := s.rawField it.port it.format a
    let (v1, s) := s.rawField it.port it.format b
    let code := it.code.map codeOf
    let (de, ce) := (code.elim false (·.de), code.elim false (·.ce))
    s.rawByte i it.port (v0 + 4 * v1 + (if de then 16 else 0) + (if ce then 32 else 0) + (if code.isNone then 64 else 0))

/-! ## Strobes as they come (R222, R231 to R338) -/

/-- The last instant of a cycle's strobes. -/
def CycleBeat.last (x : CycleBeat) : Nat := x.items.foldl (fun m it => max m it.s1) 0

/-- A cycle's strobes have all come: its compares, and its bytes of raw capture (R222, R331 to R338, R347). -/
def State.settleBeat (s : State) (i : Nat) (x : CycleBeat) : State :=
  let (seen, s) := x.items.foldl (fun (l, s) it => let (o, s) := s.seen it; (l ++ [(it, o)], s))
    (([] : List (StrobeItem × Seen)), s)
  let l := seen.filterMap (fun (it, o) =>
    match it.code.map codeOf with
    | none => none
    | some code =>
      if s.edgeCompares it.port it.kind code x.gov then
        some (EdgeCmp.mk it.port code.exp o.s0 (strobe it.format it.kind code.exp o) it.s0)
      else none)
  let s := s.failBeats i x.gov ((s.bundlesOf i).map (fun b => s.edgeBeat l b))
  ((s.step1 i).rawPorts).foldl (fun s p =>
    match seen.find? (fun e => e.1.port == p) with
    | some e => s.rawCycle i e.1 e.2
    | none => s) s

/-- The edge ports of a site. -/
def State.edgePorts (s : State) (i : Nat) : List Nat := (s.dutPortsOf i).filter (s.isEdge ·)

/-- The cycle in progress has ended by an instant: its status is written (R231, R232). -/
def State.completeCycle (s : State) (i t : Nat) : State :=
  match (s.run' i).current with
  | none => s
  | some c =>
    if t < c.stop then s else
      let s := s.each (s.edgePorts i) (fun p s => s.cycleCompletes p c.tset (!c.mapped.contains p) c.stop)
      s.setRun i (fun r => { r with current := none })

/-- What has come by an instant: the strobes of cycles, oldest first, the end of the cycle in progress, and the drive events
that no strobe or symbol position to come needs. -/
def State.settleSite (s : State) (i t : Nat) : State :=
  let done := (s.run' i).beats.takeWhile (fun x => decide (x.last ≤ t))
  let s := done.foldl (fun s x => s.settleBeat i x) s
  let s := (s.setRun i (fun r => { r with beats := r.beats.drop done.length })).completeCycle i t
  let floor := ((s.run' i).beats.flatMap (fun x => x.items.map (·.s0))).foldl min (t + 1)
  let floor := ((s.run' i).expects.flatMap (fun w => (s.rxLanes i).map (fun p => s.gridAt p w.origin w.first))).foldl min floor
  let r := s.stepRec i
  let floor := ((s.site i).sched.bursts.flatMap (fun u => (s.dutPortsOf i).filterMap (fun p =>
    if (s.roleOf i p).1 == 5 then
      some (s.gridAt p ((s.run' i).cycle0 * stepsPerTick) (symbolsPerCk r.pers * (u.ck + r.timingEntry 0)))
    else none))).foldl min floor
  s.each ((s.dutPortsOf i).filter (fun p => s.isEdge p || s.isSerial p)) (fun p s =>
    if (s.port p).fe.events.isEmpty then s else s.setPort p (fun q => { q with fe := q.fe.commit floor }))

/-! ## CYCLE_START (R211, R214 to R216, R228) -/

/-- What stops a cycle before it is driven: the cause and its port. Where a cycle selects both a timing set outside TSET_MASK
and a pin map at or above PMAP_COUNT, TSET_UNDEFINED is reported: R228 gives no order (log 142). -/
def State.cycleStops (s : State) (i : Nat) (c : Cycle) (codes : List (Nat × Nat × Nat)) : Option (Nat × Nat) :=
  let r := s.stepRec i
  if !r.tsetMask.testBit c.tset then some (0x0C03, 0xFFFF)
  else if r.pmapCount ≤ c.pmap then some (0x0C04, 0xFFFF)
  else match codes.find? (fun e => (s.tset e.2.1 c.tset).format == 5 && (codeOf e.2.2).de && (codeOf e.2.2).data == 3) with
    | some e => some (0x0C02, e.2.1)
    | none => none

/-- Every edge port of the site formats the cycle, mapped or parked (R220, R225, R232). -/
def State.formatAll (s : State) (i : Nat) (c : Cycle) (codes : List (Nat × Nat × Nat)) (start : Nat) : State :=
  s.each (s.edgePorts i) (fun p s =>
    match codes.find? (fun e => e.2.1 == p) with
    | some e => s.formatMapped p c.tset (codeOf e.2.2) start
    | none => s.formatParked p start)

/-- The strobes of the cycle wait for their instants: those of its mapped ports, and of parked ports in raw capture. -/
def State.strobeAll (s : State) (i : Nat) (c : Cycle) (codes : List (Nat × Nat × Nat)) (start : Nat) (obs : List PortObs) : State :=
  let parked := ((s.step1 i).rawPorts.filter (s.isEdge ·)).filter (fun p => !codes.any (fun e => e.2.1 == p))
  let items := codes.map (fun e => s.strobeItem e.2.1 (s.tset e.2.1 c.tset) (some e.2.2) start obs)
    ++ parked.map (fun p => s.strobeItem p (s.tset p c.tset) none start obs)
  s.setRun i (fun r => { r with beats := r.beats ++ [⟨c.gov, items⟩] })

/-- A cycle that is in the queue is driven. -/
def State.driveCycle (s : State) (i : Nat) (c : Cycle) (rest : List Cycle) (obs : List PortObs) : State :=
  let r := s.stepRec i
  let start := (s.run' i).nextCycle
  let (bytes, s) := match c.vec with
    | some v => s.vectorOf r v
    | none => ([], s)
  let codes := s.cycleCodes i c (leNat bytes)
  match s.cycleStops i c codes with
  | some (cause, port) => s.siteCause i cause port (some (start / stepsPerTick))
  | none =>
    let period := (s.tset (r.mappedPorts.headD 0) c.tset).period
    let s := s.setRun i (fun x => { x with
      cycles := rest, cycling := true, nextCycle := start + period, boundary := false,
      current := some { tset := c.tset, mapped := codes.map (·.2.1), stop := start + period },
      codes := codes.foldl (fun st e => Store.put 0 e.1 e.2.2 st) x.codes })
    let s := if c.boundary then s.atBoundary i else s
    let s := s.formatAll i c codes start
    s.strobeAll i c codes start obs

/-- CYCLE_START: the next cycle of a site's stream begins, and the one before is complete; an empty queue before the step has
ended aborts the site, with the cycle start as the trigger instant (R211, R214). `obs` is what the DUT presents at the instants
of this cycle's strobes; a port that it leaves out is not driven by the DUT. -/
def cycleStart (i : Nat) (obs : List PortObs) (s : State) : State :=
  let start := (s.run' i).nextCycle
  s.onlyIf (s.stepping i && (s.run' i).begun && (s.stepRec i).hasCycles && decide (start / stepsPerTick ≤ s.time)) (fun s =>
    let s := s.completeCycle i start
    match (s.run' i).cycles with
    | c :: rest => (s.driveCycle i c rest obs).settleSite i s.now
    | [] => if s.suppliesNoMore i then s else s.siteCause i 0x0C01 0xFFFF (some (start / stepsPerTick)))

def execCycleStart (site : SiteNo) (obs : List PortObs) : State → Out := memRun (cycleStart site.val obs)

end Sys2Proof.Machine
end

