-- ==== Sys2Proof/Machine/DutPins.lean ====
section
/-! DEFINITION. What a memory personality sends on the pins of its roles: clocks, chip selects, command and address bits, write
bursts with their strobes, and the levels that DMI, PAR, CKE and DRESET hold (R305, R307, R313). Where the DUT standard gives a form
that the manual does not print, Config.dutStandard does (log 9). -/
namespace Sys2Proof.Machine

/-! ## Ports and symbols -/

/-- DUT ports of a site with a role, each with its IDX. -/
def State.rolePorts (s : State) (i role : Nat) : List (Nat × Nat) :=
  (s.dutPortsOf i).filterMap (fun p => if (s.roleOf i p).1 == role then some (p, (s.roleOf i p).2) else none)

/-- Symbol 0 of the step that counts, in vernier steps. -/
def State.stepOrigin (s : State) (i : Nat) : Nat := (s.run' i).cycle0 * stepsPerTick

/-- Symbols of a DUT port launched up to an instant, from its symbol 0 on. -/
def State.launchedBy (s : State) (i p t : Nat) : Int :=
  let b := bundleOfPort p
  let d : Int := (t : Int) - (s.stepOrigin i + s.txSkew p : Nat) - (s.port p).train.tx
  d * max (s.lineP b) 1 / (max (1024 * s.lineQ b) 1 : Nat)

/-- Drive events of a role, in the order of their instants. -/
def State.addTimed (s : State) (p : Nat) (l : List DriveEvent) : State :=
  s.setPort p (fun x => { x with fe := { x.fe with events := sortDrives (x.fe.events ++ l) } })

/-- A symbol at an instant, and the other side's complement (R235). -/
def State.pinSymbol (s : State) (p t sym : Nat) : State :=
  let mod := (s.ser p).mod
  (s.sides p).foldl (fun s (q, f) =>
    s.addTimed q [{ at' := t, level := some (symbolLevel mod (f sym)), off := some false, volts := some none }]) s

/-- The driver off at an instant. -/
def State.pinOff (s : State) (p t : Nat) : State :=
  (s.sides p).foldl (fun s (q, _) => s.addTimed q [{ at' := t, off := some true }]) s

/-! ## Clocks (R301, R305, R307) -/

/-- Symbols of half a clock period: of CK, and of WCK, which runs at LINE or under GDDR7 at LINE / 2 (R301). -/
def halfClock (pers role : Nat) : Nat := if role == 1 then symbolsPerCk pers / 2 else if pers == 7 then 2 else 1

/-- CK and WCK of a site toggle up to an instant, without a phase break through transitions and pauses (R305, R307). -/
def State.clocksTick (s : State) (i t : Nat) : State :=
  let from' := (s.site i).sched.clocked
  let pers := (s.stepRec i).pers
  let s := s.each [1, 2] (fun role s => (s.rolePorts i role).foldl (fun s (p, _) =>
    let a := s.launchedBy i p from'
    let half : Int := halfClock pers role
    (upto (s.launchedBy i p t - a).toNat).foldl (fun s (n : Nat) =>
      let k : Int := a + 1 + n
      if k.emod half != 0 then s
      else s.pinSymbol p (s.launchAt p (s.stepOrigin i) k) (if k.emod (2 * half) == 0 then 1 else 0)) s) s)
  s.setSite i (fun x => { x with sched := { x.sched with clocked := t } })

/-- The clocks of every memory personality that runs or pauses. -/
def State.clockTick (s : State) : State :=
  s.each (upto 12) (fun i s =>
    if (s.siteSt i == .running || s.siteSt i == .paused) && (s.stepRec i).isMemory then s.clocksTick i s.now else s)

/-! ## Levels (R305, R307) -/

/-- Level of CS while its rank is not addressed: high where the standard's CS is active low (log 9). -/
def csIdle (pers : Nat) : Nat :=
  if pers == 2 || pers == 3 then 1 else if pers == 4 || pers == 5 then 0 else Config.dutStandard 7 [pers] % 2

/-- The level of DMI for data that is neither masked nor inverted (log 9). -/
def dmiLevel (pers : Nat) : Nat := if pers == 2 then 1 else Config.dutStandard 9 [pers] % 2

/-- CKE of a rank: low in power-down and self-refresh. -/
def Banks.cke (k : Banks) (rank : Nat) : Nat := if k.down.contains rank || k.refresh.contains rank then 0 else 1

/-- The roles before a run's first symbol: CS inactive, CA and PAR at L0, DQ, DQS and DMI off, CKE and DRESET at their levels. -/
def State.pinsIdle (s : State) (i t : Nat) : State :=
  let c := (s.site i).sched
  let pers := (s.stepRec i).pers
  let all (role : Nat) (f : Nat → Nat) (s : State) := (s.rolePorts i role).foldl (fun s (p, x) => s.pinSymbol p t (f x)) s
  let s := all 3 (fun _ => csIdle pers) (all 4 (fun _ => 0) (all 12 (fun _ => 0) s))
  let s := all 11 c.banks.cke (all 10 (fun _ => if c.released then 1 else 0) s)
  s.each [5, 6, 7] (fun role s => (s.rolePorts i role).foldl (fun s (p, _) => s.pinOff p t) s)

/-- DRESET goes high, when INIT releases it. -/
def State.releaseReset (s : State) (i : Nat) : State := (s.rolePorts i 10).foldl (fun s (p, _) => s.pinSymbol p s.now 1) s

/-! ## A command on the bus (R301, R305, R310) -/

/-- Symbols for which a bit of CS or CA is held (R301). -/
def symbolsPerBit (pers : Nat) : Nat := if pers == 7 then 8 else if pers == 5 || pers == 6 then 4 else 2

/-- A command of `periods` CK periods on the CA bus of a site: CS of its rank, CA, PAR and CKE (R305). -/
def State.commandPins (s : State) (i : Nat) (ck : Int) (periods : Nat) (cmd rank : Nat) (fields : List Nat) (parity : Option Bool) : State :=
  let pers := (s.stepRec i).pers
  let ratio := symbolsPerCk pers
  let n := symbolsPerBit pers
  let first : Int := ratio * ck
  let slots := periods * ratio / max n 1
  let at' (p : Nat) (k : Int) := s.launchAt p (s.stepOrigin i) k
  let put (p rest : Nat) (bit : Nat → Nat) (s : State) : State :=
    let s := (upto slots).foldl (fun s j => s.pinSymbol p (at' p (first + (n * j : Nat))) (bit j)) s
    s.pinSymbol p (at' p (first + (periods * ratio : Nat))) rest
  let s := (s.rolePorts i 3).foldl (fun s (p, x) =>
    if x == rank then put p (csIdle pers) (fun j => Config.dutStandard 6 (pers :: j :: cmd :: fields) % 2) s else s) s
  let s := (s.rolePorts i 4).foldl (fun s (p, x) =>
    put p 0 (fun j => Config.dutStandard 5 (pers :: x :: j :: cmd :: rank :: fields) % 2) s) s
  let s := match parity with
    | some b => (s.rolePorts i 12).foldl (fun s (p, _) => put p 0 (fun _ => b.toNat) s) s
    | none => s
  let cke := if cmd == 13 || cmd == 15 then some 0 else if cmd == 14 || cmd == 16 then some 1 else none
  match cke with
  | some v => (s.rolePorts i 11).foldl (fun s (p, x) => if x == rank then s.pinSymbol p (at' p first) v else s) s
  | none => s

/-! ## A write burst (R305, R313, R323) -/

/-- Beats of CRC that follow a write burst under WCRC: two in DDR4 and DDR5 (log 9). -/
def crcBeats (crc : Option (Nat × Bool)) : Nat := if crc.isSome then 2 else 0

/-- Bit of an appended CRC on lane number n of the site's DQ lanes, inverted under FORCE_CRC (R323, R327; log 9). -/
def crcBit' (crc : Option (Nat × Bool)) (n lanes beat : Nat) : Nat :=
  match crc with
  | some (v, force) => (v.testBit (lanes * beat + n) != force).toNat
  | none => 0

/-- A burst that starts at CK edge `ck`: `syms` gives the symbols of each DQ lane; DQS strobes it, and DMI holds its level
(R305, R313). -/
def State.burstPins (s : State) (i : Nat) (ck : Int) (syms : Nat → List Nat) (crc : Option (Nat × Bool)) : State :=
  let pers := (s.stepRec i).pers
  let first : Int := symbolsPerCk pers * ck
  let at' (p : Nat) (k : Int) := s.launchAt p (s.stepOrigin i) (first + k)
  let lanes := s.rolePorts i 5
  let total := (s.stepRec i).bl + crcBeats crc
  let s := (lanes.zip (upto lanes.length)).foldl (fun s ((p, x), n) =>
    let l := syms x ++ (upto (crcBeats crc)).map (crcBit' crc n lanes.length)
    let s := (l.zip (upto l.length)).foldl (fun s (v, j) => s.pinSymbol p (at' p (j : Nat)) v) s
    s.pinOff p (at' p (total : Nat))) s
  let s := (s.rolePorts i 7).foldl (fun s (p, _) => (s.pinSymbol p (at' p 0) (dmiLevel pers)).pinOff p (at' p (total : Nat))) s
  (s.rolePorts i 6).foldl (fun s (p, _) =>
    let s := (upto 8).foldl (fun s j =>
      match Config.dutStandard 8 [pers, 0, j] % 3 with
      | 2 => s.pinOff p (at' p ((j : Int) - 8))
      | v => s.pinSymbol p (at' p ((j : Int) - 8)) v) s
    let s := (upto total).foldl (fun s j => s.pinSymbol p (at' p (j : Nat)) ((j + 1) % 2)) s
    let s := (upto 8).foldl (fun s j =>
      match Config.dutStandard 8 [pers, 1, j] % 3 with
      | 2 => s.pinOff p (at' p (total + j : Nat))
      | v => s.pinSymbol p (at' p (total + j : Nat)) v) s
    s.pinOff p (at' p (total + 8 : Nat))) s

end Sys2Proof.Machine
end

