-- ==== Sys2Proof/Machine/Scheduler.lean ====
section
/-! DEFINITION. The command scheduler of a site: the bank model, the DUT timing table, the order rules, DUT-side injection,
refresh, and the commands it sends (R303, R308 to R318, R325 to R330). -/
namespace Sys2Proof.Machine

def State.sched (s : State) (i : Nat) : Scheduler := (s.site i).sched
def State.setSched (s : State) (i : Nat) (f : Scheduler → Scheduler) : State :=
  s.setSite i (fun t => { t with sched := f t.sched })

/-- A memory personality RUNNING or PAUSED in a step (R303, R314). -/
def State.memoryStep (s : State) (i : Nat) : Bool :=
  (s.siteSt i == .running || s.siteSt i == .paused) && decide (1 ≤ (s.run' i).step) && (s.stepRec i).isMemory

/-- The scheduler of a site works: its step's CK edges are placed (R303, R309, R314). -/
def State.scheduling (s : State) (i : Nat) : Bool := s.memoryStep i && (s.run' i).begun

/-- Instant of a CK edge in vernier steps (R309). -/
def State.edgeAt (s : State) (i : Nat) (ck : Int) : Nat :=
  (((s.run' i).cycle0 * stepsPerTick + s.ckSkew i : Nat)
    + s.symbolSteps (s.lead i) (symbolsPerCk (s.stepRec i).pers * ck)).toNat

/-- A CK edge has come. -/
def State.edgeCame (s : State) (i : Nat) (ck : Int) : Bool := decide (s.edgeAt i ck ≤ s.now)

/-! ## Bank model (R311) -/

/-- Open row of a bank. -/
def Banks.row (k : Banks) (rank bank : Nat) : Option Nat :=
  match Store.get 0 (32 * rank + bank) k.rows with
  | 0 => none
  | n + 1 => some n

/-- Open banks of a rank, ascending. -/
def Banks.openOf (k : Banks) (rank : Nat) : List Nat := (upto 32).filter (fun b => (k.row rank b).isSome)

/-- What a command sent does to the bank model; an auto-precharge closes its bank. -/
def Banks.apply (k : Banks) (cmd rank bank row : Nat) : Banks :=
  match cmd with
  | 1 => { k with rows := Store.put 0 (32 * rank + bank) (row + 1) k.rows }
  | 4 | 5 | 6 => { k with rows := Store.del (32 * rank + bank) k.rows }
  | 7 => { k with rows := Store.clear (32 * rank) (32 * rank + 32) k.rows }
  | 13 => { k with down := rank :: k.down.filter (· != rank) }
  | 14 => { k with down := k.down.filter (· != rank) }
  | 15 => { k with refresh := rank :: k.refresh.filter (· != rank) }
  | 16 => { k with refresh := k.refresh.filter (· != rank) }
  | _ => k

/-- A command violates the bank model. -/
def Banks.violates (k : Banks) (cmd rank bank : Nat) : Bool :=
  (k.refresh.contains rank && cmd != 16) || (k.down.contains rank && cmd != 14)
    || (cmd == 1 && (k.row rank bank).isSome)
    || ([2, 3, 4, 5].contains cmd && (k.row rank bank).isNone)
    || ([8, 10, 11, 17].contains cmd && !(k.openOf rank).isEmpty)

/-! ## Timing table (R312, R314, R315) -/

/-- The value of a timing entry for a constraint that arose at a command: the larger of the two tables where it arose
under an earlier one (R314). -/
def StepRec.spacing (r : StepRec) (e : Sent) (n : Nat) : Int :=
  max (r.timingEntry n) (if e.old.isEmpty then 0 else fieldAt e.old (4 * n) 4)

/-- CK periods of a burst. -/
def StepRec.burstCk (r : StepRec) : Nat := ceilDiv r.bl (symbolsPerCk r.pers)

/-- Bank group of a bank. -/
def StepRec.group (r : StepRec) (bank : Nat) : Nat := bank / max r.banksPerBg 1

/-- A REFSB of a bank covers bank b: its own, and those that the standard adds: under DDR5 the same bank of every
group, under LPDDR4X none (R308, log 9). -/
def StepRec.covers (r : StepRec) (bank b : Nat) : Bool :=
  b == bank ||
  (match r.pers with
   | 3 => b % max r.banksPerBg 1 == bank % max r.banksPerBg 1
   | 4 => false
   | _ => Config.dutStandard 2 [r.pers, r.bgCount, r.banksPerBg, bank, b] == 1)

/-- The command carries an address or a register number, and takes two bus slots in DDR5 and LPDDR4X (log 9). -/
def wideCommand (cmd : Nat) : Bool := ([1, 2, 3, 4, 5, 10, 11] : List Nat).contains cmd

/-- CK periods for which a command occupies the CA bus: one, or what its standard gives (R310, log 9). -/
def StepRec.busTime (r : StepRec) (cmd : Nat) : Nat :=
  match r.pers with
  | 2 => 1
  | 3 => if wideCommand cmd then 2 else 1
  | 4 => if cmd == 13 || cmd == 14 then 1 else if wideCommand cmd then 4 else 2
  | _ => max 1 (Config.dutStandard 1 [r.pers, cmd])

def isRead (cmd : Nat) : Bool := cmd == 2 || cmd == 4
def isWrite (cmd : Nat) : Bool := cmd == 3 || cmd == 5
def isBurst (cmd : Nat) : Bool := isRead cmd || isWrite cmd || cmd == 11

/-- End of a command's burst. -/
def StepRec.burstEnd (r : StepRec) (e : Sent) : Int :=
  e.ck + r.spacing e (if isWrite e.cmd then 1 else 0) + r.burstCk

/-- The edge of a precharge that a command is or carries: an RDA or WRA counts as a PRE at the earliest point that tRTP
or tWR, and tRAS from the bank's ACT, allow (R315). -/
def StepRec.preEdge (r : StepRec) (e : Sent) (older : List Sent) : Option Int :=
  let act := older.find? (fun a => a.cmd == 1 && a.rank == e.rank && a.bank == e.bank)
  let ras : Int := match act with
    | some a => a.ck + r.spacing a 5
    | none => e.ck
  match e.cmd with
  | 6 => some e.ck
  | 4 => some (max (e.ck + r.spacing e 11) ras)
  | 5 => some (max (r.burstEnd e + r.spacing e 10) ras)
  | _ => none

/-- The command that a bound is wanted for. -/
structure Wanted where
  cmd : Nat
  rank : Nat
  bank : Nat
  deriving DecidableEq, Repr, Inhabited

/-- The earliest edge that one command of the same rank leaves for another (R315). -/
def StepRec.boundSame (r : StepRec) (t : Wanted) (e : Sent) (older : List Sent) : Int :=
  let at' (c : Bool) (n : Nat) : Int := if c then e.ck + r.spacing e n else 0
  let from' (c : Bool) (k : Int) (n : Nat) : Int := if c then k + r.spacing e n else 0
  let sameBank := e.bank == t.bank
  let sameBg := r.group e.bank == r.group t.bank
  let pre := r.preEdge e older
  let onPre (c : Bool) (n : Nat) : Int := match pre with
    | some k => from' c k n
    | none => 0
  let gates : List Int :=
    [at' (e.cmd == 8) 18, at' (e.cmd == 10) 21, at' (e.cmd == 11) 22, at' (e.cmd == 14) 23, at' (e.cmd == 16) 25,
     at' (e.cmd == 17) 26, at' (e.cmd == 13 && t.cmd == 14) 24, if e.cmd == 12 then e.ck + e.arg else 0]
  let shut (all : Bool) : List Int :=
    let same := all || sameBank
    [at' (e.cmd == 1 && same) 5, from' (isWrite e.cmd && same) (r.burstEnd e) 10, at' (isRead e.cmd && same) 11,
     onPre true 30, at' (e.cmd == 7) 30, at' (e.cmd == 9 && (all || r.covers e.bank t.bank)) 19]
  let own : List Int :=
    match t.cmd with
    | 1 => [onPre sameBank 3, at' (e.cmd == 7) 4, at' (e.cmd == 1 && sameBank) 6, at' (e.cmd == 1 && !sameBg) 7,
            at' (e.cmd == 1 && sameBg) 8, at' (e.cmd == 9 && r.covers e.bank t.bank) 19]
    | 2 | 4 => [at' (e.cmd == 1 && sameBank) 2, from' (isWrite e.cmd && !sameBg) (r.burstEnd e) 12,
            from' (isWrite e.cmd && sameBg) (r.burstEnd e) 13, at' (isRead e.cmd && !sameBg) 14,
            at' (isRead e.cmd && sameBg) 15, at' (e.cmd == 9 && r.covers e.bank t.bank) 19]
    | 3 | 5 => [at' (e.cmd == 1 && sameBank) 2, at' (isWrite e.cmd && !sameBg) 14, at' (isWrite e.cmd && sameBg) 15,
            at' (isRead e.cmd) 16, at' (e.cmd == 9 && r.covers e.bank t.bank) 19]
    | 6 => shut false
    | 7 => shut true
    | 8 => [onPre true 3, at' (e.cmd == 7) 4, at' (e.cmd == 9) 19]
    | 9 => [onPre (r.covers t.bank e.bank) 3, at' (e.cmd == 9 && !r.covers e.bank t.bank) 20,
            at' (e.cmd == 9 && r.covers e.bank t.bank) 19]
    | _ => []
  (gates ++ own).foldl max 0

/-- The earliest edge that a burst of another rank leaves (tRTRS). -/
def StepRec.boundOther (r : StepRec) (t : Wanted) (e : Sent) : Int :=
  if isBurst e.cmd && isBurst t.cmd then
    r.burstEnd e + r.spacing e 29 - (if isWrite t.cmd then r.timingEntry 1 else r.timingEntry 0 : Nat)
  else 0

/-- The earliest edge that the commands sent leave for a command (R312). -/
def StepRec.bound (r : StepRec) (t : Wanted) : List Sent → Int
  | [] => 0
  | e :: older => max (if e.rank == t.rank then r.boundSame t e older else r.boundOther t e) (r.bound t older)

/-- Any four ACTs of a rank to the fifth (tFAW). -/
def StepRec.boundFaw (r : StepRec) (t : Wanted) (sent : List Sent) : Int :=
  if t.cmd != 1 then 0
  else match (sent.filter (fun e => e.cmd == 1 && e.rank == t.rank))[3]? with
    | some e => e.ck + r.spacing e 9
    | none => 0

/-- A command obeys the timing table and finds the CA bus free at an edge (R310, R312). -/
def State.timely (s : State) (i : Nat) (t : Wanted) (ck : Int) : Bool :=
  let r := s.stepRec i
  let sent := (s.sched i).sent
  let free := match sent with
    | [] => true
    | e :: _ => decide (e.ck + r.busTime e.cmd ≤ ck)
  free && decide (r.bound t sent ≤ ck) && decide (r.boundFaw t sent ≤ ck)

/-! ## Injection triggers (R325 to R328) -/

/-- Fields of BND_INJ_CONFIG. -/
structure InjConfig where
  action : Nat
  level : Nat
  trigger : Nat
  kind : Nat
  cmd : Nat
  window : Nat
  delay : Nat
  param : Nat
  seed : Nat
  row : Nat
  col : Nat
  bank : Nat
  rank : Nat
  mask : Nat
  dq : Nat
  beat : Nat
  deriving DecidableEq, Repr, Inhabited

def injConfigOf (d : List Byte) : InjConfig :=
  { action := fieldAt d 0 1, level := fieldAt d 1 1, trigger := fieldAt d 2 1, kind := fieldAt d 3 1, cmd := fieldAt d 4 1,
    window := fieldAt d 5 1, delay := fieldAt d 6 2, param := fieldAt d 8 4, seed := fieldAt d 12 2,
    row := fieldAt d 16 4, col := fieldAt d 20 2, bank := fieldAt d 22 1, rank := fieldAt d 23 1, mask := fieldAt d 24 1,
    dq := fieldAt d 25 1, beat := fieldAt d 26 1 }

/-- The injection configuration of a site, in its lead bundle. -/
def State.injConfig (s : State) (i : Nat) : InjConfig := injConfigOf (s.dom .bndInjConfig (s.lead i) 0 0 32)

def State.setInj (s : State) (i : Nat) (f : DutInject → DutInject) : State :=
  s.setBnd (s.lead i) (fun b => { b with inj := f b.inj })

/-- A 32-byte BND_INJ_CONFIG may be written (R325). -/
def injConfigOk (d : List Byte) : Bool :=
  let c := injConfigOf d
  let zero (off n : Nat) := fieldAt d off n == 0
  decide (c.action ≤ 4) && decide (c.level ≤ 1) && decide (c.trigger ≤ 3) && decide (c.kind ≤ 3) && decide (c.cmd ≤ 18)
    && decide (c.row < 2 ^ 24) && decide (c.rank ≤ 3) && decide (c.mask < 16) && decide (c.dq ≤ 63) && decide (c.beat ≤ 31)
    && zero 14 2 && zero 27 5
    && (c.action == 0 || c.trigger != 0 || c.param != 0)
    && (c.action == 0 || c.trigger != 2 || (c.param != 0 && decide (c.param ≤ 65535) && c.seed != 0))
    && (c.trigger == 0 || c.trigger == 2 || c.param == 0)
    && (c.action != 3 || (decide (2 ≤ c.window) && decide (c.window ≤ 16))) && decide (c.window ≤ 16)
    && (c.action != 4 || c.delay != 0)
    && !(c.level == 1 && c.action != 2) && !(c.level == 1 && c.kind == 2)

/-- One step of the PROBABILITY LFSR, x^16 + x^14 + x^13 + x^11 + 1 (log 33). -/
def injLfsr (r : BitVec 16) : BitVec 16 := (r >>> 1) ^^^ (if r.getLsbD 0 then 0xB400#16 else 0#16)

/-- The transaction matches (R326). -/
def InjConfig.matches' (c : InjConfig) (t : Txn) : Bool := c.cmd == 0 || c.cmd == t.cmd

/-- ADDRESS: every selected field equals the transaction's. -/
def InjConfig.addressHit (c : InjConfig) (t : Txn) : Bool :=
  (!c.mask.testBit 0 || c.row == t.x) && (!c.mask.testBit 1 || c.col == t.y) && (!c.mask.testBit 2 || c.bank == t.bank)
    && (!c.mask.testBit 3 || c.rank == t.rank)

/-- Evaluates the trigger for a matching transaction: whether it fires, and the injection state after it. -/
def InjConfig.fires (c : InjConfig) (control : Nat) (t : Txn) (d : DutInject) : Bool × DutInject :=
  if control == 0 || c.action == 0 || !c.matches' t then (false, d)
  else match c.trigger with
    | 0 => let n := d.hits + 1
           (c.param != 0 && n % c.param == 0, { d with hits := n })
    | 1 => (c.addressHit t, d)
    | 2 => let l := injLfsr d.lfsr
           (decide (l.toNat < c.param), { d with lfsr := l })
    | _ => (d.oneShot, { d with oneShot := false })

/-- A transaction arrives in the queue: the shadow bank model takes it, its trigger is evaluated, and a fired injection
marks it or opens a REORDER window (R326, R327). -/
def State.arrive (s : State) (i : Nat) (t : Txn) : State :=
  let c := s.injConfig i
  let lead := s.lead i
  let control := s.rd .bndInjControl lead
  let shadow := (s.sched i).shadow
  let t := { t with fresh := false, bad := shadow.violates t.cmd t.rank t.bank }
  let s := s.setSched i (fun q => { q with shadow := shadow.apply t.cmd t.rank t.bank t.x })
  let wasOne := (s.bnd lead).inj.oneShot
  let (hit, d) := c.fires control t (s.bnd lead).inj
  let s := s.setInj i (fun _ => { d with fired := if hit then min (d.fired + 1) (2 ^ 32 - 1) else d.fired })
  let s := if wasOne && !d.oneShot then s.wr .bndInjControl 1 lead else s
  let opens := hit && c.action == 3
  let collects := !(s.sched i).window.isEmpty && c.action == 3 && c.matches' t
  if opens || collects then
    let w := (s.sched i).window ++ [{ t with inject := 8 }]
    if c.window ≤ w.length then s.setSched i (fun q => { q with window := [], queue := q.queue ++ w.reverse })
    else s.setSched i (fun q => { q with window := w, windowAt := if opens then s.now else q.windowAt })
  else
    let t := if !hit then t else match c.action with
      | 1 => { t with inject := 1 }
      | 2 => { t with inject := 2 }
      | 4 => { t with inject := 4, delay := c.delay }
      | _ => t
    s.setSched i (fun q => { q with queue := q.queue ++ [t] })

/-- The transactions that have come in since the last edge arrive in order. -/
def State.arrivals (s : State) (i : Nat) : State :=
  let fresh := (s.sched i).queue.filter (·.fresh)
  if fresh.isEmpty then s else
    let s := s.setSched i (fun q => { q with queue := q.queue.filter (fun t => !t.fresh) })
    fresh.foldl (fun s t => s.arrive i t) s

/-- INJ_TRANSACTION_ARRIVAL. -/
def execInjTransactionArrival (site : SiteNo) : State → Out :=
  run (fun s => s.onlyIf (s.scheduling site.val) (fun s => s.arrivals site.val))

/-- REORDER_WINDOW_TIMEOUT: the transactions collected so far issue reversed, 1,024 CK periods after the window opened
(R327). -/
def execReorderWindowTimeout (site : SiteNo) : State → Out :=
  run (fun s => s.onlyIf (s.scheduling site.val
      && decide (((s.sched site.val).windowAt : Rat) + s.ckTime site.val 1024 ≤ (s.now : Rat))) (fun s =>
    s.setSched site.val (fun q => { q with window := [], queue := q.queue ++ q.window.reverse })))

/-! ## Order rules (R310, R318) -/

/-- A barrier of its rank; TRAIN is one of every rank (R310, R319). -/
def isBarrier (cmd : Nat) : Bool := [7, 8, 10, 11, 12, 13, 14, 15, 16, 17, 18].contains cmd

/-- The order rules let a transaction issue after the older ones that still wait. -/
def orderFree (older : List Txn) (t : Txn) : Bool :=
  older.all (fun o =>
    if t.inject == 8 && o.inject != 8 then true
    else if o.cmd == 18 || t.cmd == 18 then false
    else if o.rank != t.rank then true
    else !isBarrier o.cmd && !isBarrier t.cmd && o.bank != t.bank)

/-- An inserted refresh holds a transaction back: its banks while it runs; everything younger while a forced one waits;
`n` older transactions of the rank are in the queue. -/
def Insert.holds (ins : Insert) (r : StepRec) (t : Txn) (n : Nat) : Bool :=
  if t.cmd == 18 then true
  else if ins.rank != t.rank then false
  else match ins.left with
    | none => ins.forced && decide (ins.after ≤ n)
    | some _ => match ins.bank with
      | none => true
      | some b => isBarrier t.cmd || r.covers b t.bank

/-- A transaction may be sent at an edge: it has arrived, the order rules and the insertions leave it free, and its timing is
met (R309, R310, R312, R318, R327). -/
def State.mayIssue (s : State) (i : Nat) (ck : Int) (older : List Txn) (t : Txn) : Bool :=
  let n := (older.filter (·.rank == t.rank)).length
  decide (t.since ≤ s.edgeAt i ck) && orderFree older t && !(s.sched i).inserts.any (fun x => x.holds (s.stepRec i) t n)
    && (t.inject != 4 || t.ready.any (fun r => decide (r + t.delay ≤ ck))) && s.timely i ⟨t.cmd, t.rank, t.bank⟩ ck

/-- The oldest transaction of the queue that may be sent at an edge, with its place. -/
def State.pickFrom (s : State) (i : Nat) (ck : Int) (older : List Txn) : List Txn → Option (Nat × Txn)
  | [] => none
  | t :: rest => if s.mayIssue i ck older t then some (older.length, t) else s.pickFrom i ck (older ++ [t]) rest

/-- A queued transaction of a rank can issue on an edge; none can while the site is PAUSED (R314, R318). -/
def State.rankCanIssue (s : State) (i : Nat) (ck : Int) (rank : Nat) : Bool :=
  let q := (s.sched i).queue
  s.siteSt i == .running && (s.sched i).training.isNone
    && (q.zip (upto q.length)).any (fun (t, k) => t.rank == rank && s.mayIssue i ck (q.take k) t)

/-- The program's command for an edge: none while PAUSED or while a training sequence runs (R314, R319). -/
def State.pickProgram (s : State) (i : Nat) (ck : Int) : Option (Nat × Txn) :=
  if s.siteSt i != .running || (s.sched i).training.isSome then none else s.pickFrom i ck [] (s.sched i).queue

/-- A DELAY counts from the first edge at which its transaction is free to issue (R327). -/
def State.markReady (s : State) (i : Nat) (ck : Int) : State :=
  let q := (s.sched i).queue
  s.setSched i (fun c => { c with queue := (q.zip (upto q.length)).map (fun (t, k) =>
    if t.inject == 4 && t.ready.isNone && orderFree (q.take k) t && s.timely i ⟨t.cmd, t.rank, t.bank⟩ ck
    then { t with ready := some ck } else t) })

/-! ## Inserted refresh (R317, R318) -/

/-- The commands of an inserted refresh from the bank model as it stands, as (command, bank, row). -/
def insertPlan (r : StepRec) (k : Banks) (rank : Nat) (bank : Option Nat) : List (Nat × Nat × Nat) :=
  let down := k.down.contains rank
  let shut := match bank with
    | none => k.openOf rank
    | some b => (k.openOf rank).filter (r.covers b)
  let close : List (Nat × Nat × Nat) := if shut.isEmpty then [] else match bank with
    | none => [(7, 0, 0)]
    | some _ => shut.map (fun b => (6, b, 0))
  (if down then [(14, 0, 0)] else []) ++ close
    ++ [match bank with | none => (8, 0, 0) | some b => (9, b, 0)]
    ++ shut.map (fun b => (1, b, (k.row rank b).getD 0))
    ++ (if down then [(13, 0, 0)] else [])

/-- An insertion that has nothing to wait for begins. While the site is PAUSED the program sends nothing, and a forced refresh
waits for none of it, so that refresh goes on (R83, R314; log 148). -/
def State.beginInserts (s : State) (i : Nat) : State :=
  let r := s.stepRec i
  let paused := s.siteSt i == .paused
  s.setSched i (fun c => { c with inserts := c.inserts.map (fun x =>
    if x.left.isNone && (x.after == 0 || paused) then { x with left := some (insertPlan r c.banks x.rank x.bank) } else x) })

/-- The next command of the first insertion that may send at an edge: its place and the command. -/
def State.pickInsert (s : State) (i : Nat) (ck : Int) : Option (Nat × Nat × Nat × Nat × Nat) :=
  let l := (s.sched i).inserts
  (l.zip (upto l.length)).findSome? (fun (x, k) =>
    match x.left with
    | some ((cmd, bank, row) :: _) =>
      if s.timely i ⟨cmd, x.rank, bank⟩ ck then some (k, cmd, x.rank, bank, row) else none
    | _ => none)

/-- Refresh debt of a rank, or of a bank under REF_PER_BANK. -/
def Scheduler.debtOf (c : Scheduler) (rank bank : Nat) : Int := Store.get 0 (32 * rank + bank) c.debt

/-- Adds to debts. -/
def Scheduler.addDebt (c : Scheduler) (rank : Nat) (banks : List Nat) (d : Int) : Scheduler :=
  { c with debt := banks.foldl (fun m b => Store.put 0 (32 * rank + b) (Store.get 0 (32 * rank + b) m + d) m) c.debt }

/-- What a REF or REFSB pays (R317). -/
def Scheduler.pay (c : Scheduler) (r : StepRec) (cmd rank bank : Nat) : Scheduler :=
  if !r.refAuto then c
  else if cmd == 8 then c.addDebt rank (if r.refPerBank then upto r.banks else [0]) (-1)
  else if cmd == 9 && r.refPerBank then c.addDebt rank ((upto r.banks).filter (r.covers bank)) (-1)
  else c

/-- REFRESH_DEBT_ACCRUE: tREFI CK periods have passed for a rank since CK edge 0 of the first step or its last rise, through
pauses and step transitions; while it is in self-refresh the debt does not rise (R317). -/
def refreshDebtAccrue (i rank : Nat) (s : State) : State :=
  let r := s.stepRec i
  let due := Store.get ((s.sched i).edge0 : Rat) rank (s.sched i).rises + s.ckTime i (r.timingEntry 17)
  s.onlyIf (s.memoryStep i && r.refAuto && decide (rank < r.ranks)
      && ((s.run' i).begun || decide (2 ≤ (s.run' i).step)) && decide (due ≤ (s.now : Rat))) (fun s =>
    s.setSched i (fun c =>
      let c := { c with rises := c.rises.filter (fun e => e.1 != rank) ++ [(rank, due)] }
      if c.banks.refresh.contains rank then c else c.addDebt rank (if r.refPerBank then upto r.banks else [0]) 1))

def execRefreshDebtAccrue (site : SiteNo) (rank : Fin 4) : State → Out := run (refreshDebtAccrue site.val rank.val)

/-- REFRESH_INSERT: at a CK edge the scheduler starts a refresh of a rank, or of a bank under REF_PER_BANK, in a case of
R318. -/
def refreshInsert (i rank bank : Nat) (ck : Int) (s : State) : State :=
  let r := s.stepRec i
  let c := s.sched i
  let b := if r.refPerBank then bank else 0
  let d := c.debtOf rank b
  let mine := c.queue.filter (·.rank == rank)
  let forced := decide ((r.timingEntry 27 : Int) < d)
  let due := forced || (decide (1 ≤ d) && !s.rankCanIssue i ck rank)
    || (mine.isEmpty && decide (-(r.timingEntry 28 : Int) < d))
  s.onlyIf (s.scheduling i && s.edgeCame i ck && r.refAuto && decide (rank < r.ranks) && decide (b < r.banks)
      && !c.banks.refresh.contains rank && !c.inserts.any (·.rank == rank) && due) (fun s =>
    let x : Insert := { rank := rank, bank := if r.refPerBank then some b else none, forced := forced,
                        after := if forced then mine.length else 0 }
    (s.setSched i (fun c => { c with inserts := c.inserts ++ [x] })).beginInserts i)

def execRefreshInsert (site : SiteNo) (target : RankBank) (ck : Nat) : State → Out :=
  run (refreshInsert site.val target.rank.val target.bank.val ck)

/-! ## Sending (R308, R311, R313, R329) -/

/-- ADDR of BND_SCHED_LAST (R329). -/
def sentAddr (cmd bank row col : Nat) : Nat :=
  (if cmd == 1 then row else if [2, 3, 4, 5].contains cmd then bank * 2 ^ 12 + col else bank) % 2 ^ 25

/-- The place of a command in BND_SCHED_COUNTS (R329). -/
def countPlace (cmd : Nat) (inserted : Bool) : Nat :=
  if inserted then (if cmd == 8 || cmd == 9 then 5 else 6)
  else match cmd with
    | 1 => 0
    | 2 | 4 => 1
    | 3 | 5 => 2
    | 6 | 7 => 3
    | 8 | 9 => 4
    | _ => 7

/-- The parity bit of a command under CA_PARITY, inverted by FORCE_PARITY (R323, R327; its form is the standard's, log 9). -/
def StepRec.parityOf (r : StepRec) (rank cmd bank addr : Nat) (force : Bool) : Option Bool :=
  if r.caParity then some ((Config.dutStandard 3 [r.pers, rank, cmd, bank, addr] % 2 == 1) != force) else none

/-- The CRC appended to a write under WCRC in DDR4 and DDR5, and whether FORCE_CRC inverts it (R323, R327; log 9). -/
def StepRec.crcOf (r : StepRec) (beats : List Nat) (force : Bool) : Option (Nat × Bool) :=
  if r.wcrc && (r.pers == 2 || r.pers == 3) then some (Config.dutStandard 4 (r.pers :: beats), force) else none

/-- A command goes out on a CK edge: the message, the history, the bank model, the debt, the counts (R311 to R317,
R329). -/
def State.sendCommand (s : State) (i : Nat) (ck : Int) (cmd rank bank row col arg : Nat) (inserted : Bool)
    (gov : Option Governs) (force : Bool := false) (forceEdc : Bool := false) : State :=
  let r := s.stepRec i
  let addr := sentAddr cmd bank row col
  let shown := if [10, 11, 12].contains cmd then arg else addr
  let parity := r.parityOf rank cmd bank shown force
  let s := s.send (.dutCommand i ck rank cmd bank shown parity)
  let s := s.commandPins i ck (r.busTime cmd) cmd rank [bank, row, col, arg] parity
  s.setSched i (fun c =>
    let c := c.pay r cmd rank bank
    let k := countPlace cmd inserted
    { c with
      banks := c.banks.apply cmd rank bank row
      sent := { ck := ck, cmd := cmd, rank := rank, bank := bank, arg := arg, gov := gov, forced := forceEdc }
        :: c.sent.filter (fun e => decide (ck ≤ e.ck + 4194304))
      counts := c.counts.set k (min (c.counts.getD k 0 + 1) max64)
      last := (unsigned 32 ck) * 2 ^ 32 + cmd * 2 ^ 27 + rank * 2 ^ 25 + addr })

/-- The DQ ports of a site (R305, R313). -/
def State.dqPorts (s : State) (i : Nat) : List (Nat × Nat) := s.rolePorts i 5

/-- Word k of a transaction's data or expected stream: further LFSR words, or the same word again (R313). -/
def Txn.word (t : Txn) (expected : Bool) (k : Nat) : BitVec 64 :=
  if t.lfsr && !(expected && t.expD1) then
    let seed := (upto k).foldl (fun r _ => (lfsrBits 64 r).2) t.seed
    let v := BitVec.ofNat 64 (lfsrBits 64 seed).1
    if t.invert then ~~~ v else v
  else if expected then t.e else t.w

/-- Bit number k of a word stream's lane, of n lanes; in a pattern of the microcode instead 0x55 and 0xAA, a walking one, or the
LFSR (R313, R320). -/
def Txn.dqBit (t : Txn) (expected : Bool) (n beat lane : Nat) : Nat :=
  let k := n * beat + lane
  match t.pattern with
  | none => ((t.word expected (k / 64)).getLsbD (k % 64)).toNat
  | some 0 => (if beat % 2 == 0 then 0x55 else 0xAA) / 2 ^ (lane % 8) % 2
  | some 1 => (lane == beat % max n 1).toNat
  | some _ => ((lfsrBits (k + 1) t.seed).1 / 2 ^ k) % 2

/-- The symbols of a DQ lane in a burst: a bit a beat, and in PAM3 three bits of the lane a pair under 3B2S (R234, R313; log 147). A
BIT_FLIP at transaction level inverts bit `flip` of the lane. -/
def Txn.dqSymbols (t : Txn) (expected : Bool) (pers bl n lane : Nat) (flip : Option Nat := none) : List Nat :=
  let bit (k : Nat) := if flip == some k then 1 - t.dqBit expected n k lane else t.dqBit expected n k lane
  if pers == 7 then (upto (bl / 2)).flatMap (fun m => threeToTwo (bitsMsb ((upto 3).map (fun j => bit (3 * m + j) == 1))))
  else (upto bl).map bit

/-- The symbols that a write places on a DQ lane, a transaction-level or symbol-level BIT_FLIP applied: that bit is inverted, or
that symbol s becomes M − 1 − s (R313, R327). -/
def State.writeSymbols (s : State) (i : Nat) (t : Txn) (lane : Nat) : List Nat :=
  let r := s.stepRec i
  let c := s.injConfig i
  let flips := t.inject == 2 && c.kind == 0 && c.dq == lane
  let l := t.dqSymbols false r.pers r.bl (s.dqPorts i).length lane (if flips && c.level == 0 then some c.beat else none)
  let top := if r.pers == 7 then 2 else 1
  if flips && c.level == 1 then l.set c.beat (top - l.getD c.beat 0) else l

/-- The beats of a write burst: each lane's symbol, 2 bits a lane in PAM3 and 1 bit otherwise (R313). -/
def State.writeBeats (s : State) (i : Nat) (t : Txn) : List Nat :=
  let r := s.stepRec i
  let base := if r.pers == 7 then 4 else 2
  (upto r.bl).map (fun b => (s.dqPorts i).foldl (fun a (_, lane) => a + (s.writeSymbols i t lane).getD b 0 * base ^ lane) 0)

/-- A write burst goes out: the message, and the pins (R305, R313). -/
def State.sendBurst (s : State) (i : Nat) (ck : Int) (t : Txn) (force : Bool) : State :=
  let r := s.stepRec i
  let beats := s.writeBeats i t
  let crc := r.crcOf beats force
  (s.send (.dutBurst i (ck + r.timingEntry 1) beats crc)).burstPins i (ck + r.timingEntry 1) (s.writeSymbols i t) crc

/-- One more of BND_DUT_ERRORS. -/
def State.dutCount (s : State) (i k : Nat) : State :=
  s.setSched i (fun c => { c with errors := c.errors.set k (min (c.errors.getD k 0 + 1) 0xFFFF) })

/-- TXN_STATE: the violating command is not sent, and the site aborts; its CK edge is the trigger instant (R311). -/
def State.txnState (s : State) (i : Nat) (ck : Int) (t : Txn) (row : Nat) : State :=
  (s.raise 0x1002 1 i t.cmd (sentAddr t.cmd t.bank row t.y)).abortSite i 0x1002 false (some (s.edgeAt i ck / stepsPerTick))

/-- A read or write CRC or EDC error that FORCE_EDC makes: the code received is inverted before the check, which fails once
(R324, R327; log 147). -/
def State.forcedError (s : State) (i : Nat) (ck : Int) (g : Governs) (write : Bool) : State :=
  let r := s.stepRec i
  let port := (s.dutPortsOf i).find? (fun p =>
    s.comparing p && !(s.reg .portCmpConfig p).getLsbD 0 && (s.roleOf i p).1 == (if write || r.pers != 3 then 8 else 5))
  match port with
  | none => s
  | some p =>
    let s := s.dutCount i (if write then 1 else 2)
    let at' := s.edgeAt i ck
    if g.masks.testBit 3 then s else
      s.failBeats i g [{ bundle := bundleOfPort p, fails := [p % 8], bye := (s.port p).cal.replaced, exp := 0, act0 := 0,
                         act1 := 0, pos := if write then 2 else 1, type := 5, time := at' / stepsPerTick, sub := at' % stepsPerTick }]

/-- Takes a transaction out of the queue. -/
def State.unqueue (s : State) (i k rank : Nat) : State :=
  s.setSched i (fun c => { c with
    queue := c.queue.eraseIdx k,
    inserts := c.inserts.map (fun x => if x.left.isNone && x.rank == rank then { x with after := x.after - 1 } else x) })

/-- A program transaction is sent, dropped, or found to violate the bank model (R311, R327). -/
def State.sendProgram (s : State) (i : Nat) (ck : Int) (k : Nat) (t : Txn) : State :=
  let banks := (s.sched i).banks
  let opened := banks.row t.rank t.bank
  let row := if t.cmd == 1 || !usesCol t.cmd then t.x else opened.getD 0
  let s := s.unqueue i k t.rank
  if t.inject == 1 then s
  else
    let violation := banks.violates t.cmd t.rank t.bank
    let caused := !t.bad && decide (0 < (s.bnd (s.lead i)).inj.fired)
    if violation && !caused then s.txnState i ck t row
    else
      let s := if violation then s.setInj i (fun d => { d with violations := min (d.violations + 1) 0xFFFF }) else s
      let gov := { t.gov with x := row, y := t.y, bank := t.bank }
      let kind := if t.inject == 2 then (s.injConfig i).kind else 0
      let s := s.sendCommand i ck t.cmd t.rank t.bank row t.y t.arg false (some gov) (kind == 2) (kind == 3)
      let t := { t with gov := gov }
      if isRead t.cmd || t.cmd == 11 then s.setSched i (fun c => { c with bursts := c.bursts ++ [{ txn := t, ck := ck }] })
      else if isWrite t.cmd then
        let s := s.sendBurst i ck t (kind == 1)
        if kind == 3 && (s.stepRec i).wcrc then s.forcedError i ck gov true else s
      else s

/-- The next command of an insertion is sent. -/
def State.sendInserted (s : State) (i : Nat) (ck : Int) (k cmd rank bank row : Nat) : State :=
  let s := s.sendCommand i ck cmd rank bank row 0 0 true none
  s.setSched i (fun c => { c with inserts := ((c.inserts.zip (upto c.inserts.length)).map (fun (x, j) =>
      if j == k then { x with left := x.left.map (·.drop 1) } else x)).filter (fun x => x.left != some []) })

/-- The command of a CK edge is picked: an insertion's next command, else the program's oldest (R310, R318). Where it is
the row's command, it is sent; any other command is not due on this edge. -/
def commandRow (cmd i : Nat) (ck : Int) (s : State) : State :=
  s.onlyIf (s.scheduling i && s.edgeCame i ck) (fun s =>
    let s := ((s.arrivals i).beginInserts i).markReady i ck
    match s.pickInsert i ck with
    | some (k, c, rank, bank, row) => if c == cmd then s.sendInserted i ck k c rank bank row else s
    | none =>
      match s.pickProgram i ck with
      | some (k, t) => if t.cmd == cmd then s.sendProgram i ck k t else s
      | none => s)

def execAct (site : SiteNo) (ck : Nat) : State → Out := run (commandRow 1 site.val ck)
def execRd (site : SiteNo) (ck : Nat) : State → Out := run (commandRow 2 site.val ck)
def execWr (site : SiteNo) (ck : Nat) : State → Out := run (commandRow 3 site.val ck)
def execRda (site : SiteNo) (ck : Nat) : State → Out := run (commandRow 4 site.val ck)
def execWra (site : SiteNo) (ck : Nat) : State → Out := run (commandRow 5 site.val ck)
def execPre (site : SiteNo) (ck : Nat) : State → Out := run (commandRow 6 site.val ck)
def execPrea (site : SiteNo) (ck : Nat) : State → Out := run (commandRow 7 site.val ck)
def execRef (site : SiteNo) (ck : Nat) : State → Out := run (commandRow 8 site.val ck)
def execRefsb (site : SiteNo) (ck : Nat) : State → Out := run (commandRow 9 site.val ck)
def execMrw (site : SiteNo) (ck : Nat) : State → Out := run (commandRow 10 site.val ck)
def execMrr (site : SiteNo) (ck : Nat) : State → Out := run (commandRow 11 site.val ck)
def execDes (site : SiteNo) (ck : Nat) : State → Out := run (commandRow 12 site.val ck)
def execPde (site : SiteNo) (ck : Nat) : State → Out := run (commandRow 13 site.val ck)
def execPdx (site : SiteNo) (ck : Nat) : State → Out := run (commandRow 14 site.val ck)
def execSre (site : SiteNo) (ck : Nat) : State → Out := run (commandRow 15 site.val ck)
def execSrx (site : SiteNo) (ck : Nat) : State → Out := run (commandRow 16 site.val ck)
def execZqcal (site : SiteNo) (ck : Nat) : State → Out := run (commandRow 17 site.val ck)

/-! ## Read bursts and DUT errors (R313, R324, R338) -/

/-- The port's comparators are sampled: compare on and not masked (R324). -/
def State.sampled (s : State) (p : Nat) : Bool := s.comparing p && !(s.reg .portCmpConfig p).getLsbD 0

/-- A DQ port takes part in the compare of a read (R333, R335). -/
def State.burstCompares (s : State) (p : Nat) (g : Governs) : Bool :=
  s.sampled p && !g.masks.testBit (4 + p % 8) && !g.masks.testBit 2 && g.mode != 4

/-- What one DQ lane shows in a beat: port, expected and received symbol. -/
structure DqCmp where
  port : Nat
  exp : Nat
  act : Nat
  deriving DecidableEq, Repr, Inhabited

/-- The expected symbol of a lane in a beat (R313): the bit of the mode register for an MRR, which PAM3 carries as its outer
levels (log 147). -/
def State.dqExpected (s : State) (i : Nat) (t : Txn) (n beat lane : Nat) : Nat :=
  let r := s.stepRec i
  if t.cmd == 11 then (t.arg / 2 ^ lane) % 2 * (if r.pers == 7 then 2 else 1)
  else (t.dqSymbols true r.pers r.bl n lane).getD beat 0

/-- Grid instant of a beat of a read burst at a DQ lane: from CK edge ck + RL on, one symbol a beat (R309, R313, R322). -/
def State.beatAt (s : State) (i p : Nat) (ck : Int) (beat : Nat) : Nat :=
  let r := s.stepRec i
  s.gridAt p ((s.run' i).cycle0 * stepsPerTick) (symbolsPerCk r.pers * (ck + r.timingEntry 0) + beat)

/-- The lanes of one beat that are compared, each with the symbol that its receiver decides; `rx` is what the DUT presents at the
pins at their instants, and a lane that it leaves out is not driven. -/
def State.beatLanes (s : State) (i : Nat) (u : Burst) (beat : Nat) (rx : List (PortNo × Option PinDrive)) : List DqCmp × State :=
  let t := u.txn
  let lanes := s.dqPorts i
  let c := s.injConfig i
  let m := if (s.stepRec i).pers == 7 then 2 else 1
  lanes.foldl (fun (l, s) (p, lane) =>
    if (t.cmd == 11 && decide (7 < lane)) || !s.sampled p then (l, s)
    else
      let e := s.dqExpected i t lanes.length beat lane
      let (x, s) := s.decideOne p (s.beatAt i p u.ck beat) (s.equalizer p) ((rx.find? (fun o => o.1.val == p)).bind (·.2)) none
      let flip := t.inject == 2 && c.kind == 0 && c.level == 1 && c.dq == lane && c.beat == beat && isRead t.cmd
      (l ++ [{ port := p, exp := e, act := if flip then m - x else x }], s)) (([] : List DqCmp), s)

/-- The beat of one bundle (R336 to R338). -/
def State.readBeat (s : State) (i : Nat) (u : Burst) (beat : Nat) (l : List DqCmp) (b : Nat) : Beat :=
  let mine := l.filter (fun e => bundleOfPort e.port == b)
  let bad := mine.filter (fun e => e.exp != e.act)
  let at' (e : DqCmp) := s.beatAt i e.port u.ck beat
  let time := mine.foldl (fun m e => min m (at' e)) (mine.head?.elim 0 at')
  { bundle := b, fails := bad.map (·.port % 8), bye := bad.any (fun e => (s.port e.port).cal.replaced),
    exp := slotFields (mine.map (fun e => (e.port % 8, e.exp))), act0 := slotFields (mine.map (fun e => (e.port % 8, e.act))),
    act1 := 0, pos := beat, type := if u.txn.cmd == 11 then 4 else 3, time := time / stepsPerTick, sub := time % stepsPerTick }

/-- A compare of a training sequence fails at ports: the points in force of its open sweeps fail there (R321, log 35). -/
def State.sweepMisses (s : State) (i : Nat) (bad : List DqCmp) : State :=
  s.setSched i (fun c => { c with training := c.training.map (fun t => { t with
    sweeps := t.sweeps.map (fun w => { w with bad := w.bad ++ bad.map (fun e => (e.port, w.point)) }) }) })

/-- The last beat of a read burst has come at every DQ lane. -/
def State.burstCame (s : State) (i : Nat) (u : Burst) : Bool :=
  let n := if u.txn.cmd == 11 then 1 else (s.stepRec i).bl
  (s.dqPorts i).all (fun e => decide (s.beatAt i e.1 u.ck (n - 1) ≤ s.now))

/-- READ_BURST_COMPARE: the oldest expected burst has arrived. An MRR compares beat 0 on DQ 0 to 7 and counts a mismatch. -/
def readBurstCompare (i : Nat) (beats : List (List (PortNo × Option PinDrive))) (s : State) : State :=
  match (s.sched i).bursts with
  | [] => s
  | u :: rest =>
    if !s.burstCame i u then s else
    let s := s.setSched i (fun c => { c with bursts := rest })
    let n := if u.txn.cmd == 11 then 1 else (s.stepRec i).bl
    (upto n).foldl (fun s beat =>
      let (l, s) := s.beatLanes i u beat (beats.getD beat [])
      let s := if u.txn.cmd == 11 && u.txn.pattern.isNone && l.any (fun e => e.exp != e.act) then s.dutCount i 3 else s
      if u.txn.pattern.isSome then s.sweepMisses i (l.filter (fun e => e.exp != e.act)) else
      let l := l.filter (fun e => s.burstCompares e.port u.txn.gov)
      s.failBeats i u.txn.gov ((s.bundlesOf i).map (fun b => s.readBeat i u beat l b))) s
      |> fun s => if u.txn.inject == 2 && (s.injConfig i).kind == 3 && (s.stepRec i).rcrc then s.forcedError i u.ck u.txn.gov false else s

def execReadBurstCompare (site : SiteNo) (beats : List (List (PortNo × Option PinDrive))) : State → Out :=
  run (fun s => s.onlyIf (s.scheduling site.val) (readBurstCompare site.val beats))

/-- The command that an ALERT at an edge answers: the latest program command at or before the edge minus ALERT_LAT
(R324). -/
def State.alertCommand (s : State) (i : Nat) (ck : Int) : Option Sent :=
  (s.sched i).sent.find? (fun e => e.gov.isSome && decide (e.ck ≤ ck - (s.stepRec i).timingEntry 31))

/-- The command whose burst an EDC or read CRC error concerns (R324). -/
def State.edcCommand (s : State) (i : Nat) (write : Bool) (cid : Nat) : Option Sent :=
  (s.sched i).sent.find? (fun e => (if write then isWrite e.cmd else isRead e.cmd)
    && (match e.gov with | some g => g.cid == cid | none => false))

/-- What governs a DUT error that no program command of the run answers (R324). -/
def noContext (step : Nat) : Governs := { cid := 0xFFFF, step := step }

/-- DUT_ERROR: a sampled EDC, CRC or ALERT error is counted, and forms its record (R324). Kind 0 is a read CRC or EDC
mismatch, 1 a write CRC mismatch on EDC, 2 a falling ALERT. The check of a burst under FORCE_EDC has failed already (log 147). -/
def dutError (i kind : Nat) (burst : Option Cid) (p ck : Nat) (s : State) : State :=
  let r := s.stepRec i
  let role := (s.roleOf i p).1
  let enabled := match kind with
    | 0 => r.rcrc && (role == 8 || role == 5)
    | 1 => r.wcrc && role == 8
    | _ => role == 9
  s.onlyIf (s.scheduling i && enabled && (s.dutPortsOf i).contains p && s.sampled p) (fun s =>
    let cause := match kind with
      | 2 => s.alertCommand i ck
      | _ => burst.bind (fun c => s.edcCommand i (kind == 1) c.val)
    if kind != 2 && cause.any (fun e => e.forced) then s else
    let place := match kind with
      | 0 => 2
      | 1 => 1
      | _ => if r.wcrc && cause.any (fun e => isWrite e.cmd) then 1 else 0
    let s := s.dutCount i place
    let g := (cause.bind (·.gov)).getD (noContext (s.run' i).step)
    let at' := s.edgeAt i ck
    if g.masks.testBit 3 then s else
      s.failBeats i g [{ bundle := bundleOfPort p, fails := [p % 8], bye := (s.port p).cal.replaced, exp := 0, act0 := 0,
                         act1 := 0, pos := kind + 1, type := 5, time := at' / stepsPerTick, sub := at' % stepsPerTick }])

def execDutError (site : SiteNo) (kind : Fin 3) (burst : Option Cid) (port : PortNo) (ck : Nat) : State → Out :=
  run (dutError site.val kind.val burst port.val ck)

/-! ## Injection control and status (R328, R330) -/

/-- Step 8 for the injection objects: refused on a bundle of a site that is not its lead (R325). -/
def injState (s : State) (b : Nat) : Status :=
  match s.siteOf b with
  | some i => require (s.lead i == b) .state
  | none => .ok

/-- An accepted BND_INJ_CONTROL write (R326, R328). -/
def injControlEffect (b v : Nat) (s : State) : State :=
  let c := injConfigOf (s.dom .bndInjConfig b 0 0 32)
  let was := s.rd .bndInjControl b
  let s := s.wr .bndInjControl v b
  s.setBnd b (fun t => { t with inj :=
    if v == 0 then { t.inj with oneShot := false }
    else
      let d := if was == 0 then { t.inj with hits := 0, lfsr := BitVec.ofNat 16 c.seed } else t.inj
      { d with oneShot := v == 2 } })

/-- BND_INJ_STATUS. -/
def DutInject.status (d : DutInject) : Nat := d.fired * 2 ^ 32 + d.violations * 2 ^ 16 + (if d.oneShot then 1 else 0)

/-- REF_DEBT of BND_SCHED_STATUS: rank 0, the largest of its banks under REF_PER_BANK (R329). -/
def State.debtShown (s : State) (i : Nat) : Int :=
  let r := s.stepRec i
  let c := s.sched i
  if r.refPerBank then hottest ((upto r.banks).map (c.debtOf 0)) else c.debtOf 0 0

/-- BND_SCHED_STATUS of a lead bundle (R329). -/
def State.schedStatus (s : State) (i : Nat) : Nat :=
  let c := s.sched i
  (s.stepRec i).pers * 2 ^ 56 + c.fill * 2 ^ 48 + unsigned 8 (s.debtShown i) * 2 ^ 40
    + (c.training.elim 0 (·.number)) * 2 ^ 32 + c.armEntry * 2 ^ 24 + c.armRule * 2 ^ 16

/-- BND_DUT_ERRORS (R329). -/
def Scheduler.errorWord (c : Scheduler) : Nat :=
  c.errors.getD 0 0 * 2 ^ 48 + c.errors.getD 1 0 * 2 ^ 32 + c.errors.getD 2 0 * 2 ^ 16 + c.errors.getD 3 0

/-- BND_SCHED_COUNTS (R329). -/
def Scheduler.countBytes (c : Scheduler) : List Byte := (upto 8).flatMap (fun k => leBytes 8 (c.counts.getD k 0))

/-- The entry of a pin in BND_TRAIN_RESULT (R329). -/
def Trained.bytes (t : Trained) : List Byte :=
  leBytes 2 (unsigned 16 t.tx) ++ leBytes 2 (unsigned 16 t.rx) ++ leBytes 2 t.eye ++ leBytes 1 t.state ++ leBytes 1 t.seq

end Sys2Proof.Machine
end

