-- ==== Sys2Proof/Machine/Training.lean ====
section
/-! DEFINITION. Training sequences: TRAIN and INIT, user microcode with its sweeps, and the trained offsets (R319 to
R322). -/
namespace Sys2Proof.Machine

/-! ## Start and end (R319) -/

/-- Word n of the microcode. -/
def StepRec.ucodeWord (r : StepRec) (n : Nat) : Nat := fieldAt r.ucode (4 * n) 4

/-- The ranks of a step. -/
def StepRec.rankList (r : StepRec) : List Nat := upto r.ranks

/-- Slots that a built-in sequence sends: the microcode's MRW words under INIT, and ZQ calibration of each rank
(log 34). -/
def StepRec.builtIn (r : StepRec) (number : Nat) : List Nat :=
  let mrw := ((upto r.ucodeLen).map r.ucodeWord).filter (fun w => bits w 28 4 == 1 && slotCmd (bits w 0 24) == 10)
  let zq := r.rankList.map (fun k => 17 * 2 ^ 19 + k * 2 ^ 17)
  match number with
  | 1 => mrw.map (fun w => bits w 0 24) ++ zq
  | 8 => mrw.map (fun w => bits w 0 24) ++ zq ++ (if hasSequence r 2 then zq else [])
  | 2 => zq
  | _ => []

/-- A sequence is taken up (R319). INIT releases the DUT's reset (R305). -/
def State.takeSequence (s : State) (i number : Nat) (txn : Option Txn) : State :=
  let r := s.stepRec i
  let s := if number == 1 || number == 8 then s.releaseReset i else s
  s.setSched i (fun c => { c with
    training := some { number := number, txn := txn, todo := if number == 0x80 then [] else r.builtIn number },
    released := c.released || number == 1 || number == 8 })

/-- The bank model without injection is taken up again after a sequence, with the transactions that still wait. -/
def Scheduler.reshadow (c : Scheduler) : Scheduler :=
  let (l, k) := c.queue.foldl (fun (l, k) t =>
    if t.fresh then (l ++ [t], k)
    else (l ++ [{ t with bad := k.violates t.cmd t.rank t.bank }], k.apply t.cmd t.rank t.bank t.x)) (([] : List Txn), c.banks)
  { c with queue := l, shadow := k }

/-- A sequence ends: its context is READY again, and the queue accepts slots (R319). -/
def State.endTraining (s : State) (i : Nat) : State :=
  match (s.sched i).training with
  | none => s
  | some t =>
    let s := s.setSched i (fun c => { c with training := none }.reshadow)
    match t.txn with
    | some x =>
      let c := s.ctx x.gov.cid
      if c.st == .waiting && c.cause == .transaction then s.setCtx x.gov.cid (fun c => { c with st := .ready, cause := .none })
      else s
    | none => s

/-! ## Trained offsets (R321, R322) -/

/-- Roles of a sweep target, and whether it is the RX offset (R320). -/
def sweepRoles : Nat → List Nat × Bool
  | 0 => ([5], false)
  | 1 => ([5, 8], true)
  | 2 => ([3, 4], false)
  | _ => ([2, 6], false)

/-- Ports of a sweep target. -/
def State.sweepPorts (s : State) (i target : Nat) : List Nat :=
  (s.dutPortsOf i).filter (fun p => (sweepRoles target).1.contains (s.roleOf i p).1)

/-- Offset of a sweep's point (R321). -/
def Sweep.offset (w : Sweep) (k : Nat) : Int := -((w.points - 1) * w.step / 2 : Nat) + (k * w.step : Nat)

/-- An offset keeps the port's skew or phase within its range (R321). -/
def State.offsetFits (s : State) (p : Nat) (rx : Bool) (d : Int) : Bool :=
  if rx then
    let v : Int := s.rxPhase p + d
    decide (0 ≤ v) && decide (v ≤ s.symbolSteps (bundleOfPort p) 1 - 1)
  else
    let v : Int := s.txSkew p + d
    decide (0 ≤ v) && decide (v ≤ 573440)

/-- The first longest run of passing points: first and last point. -/
def longestRun : Nat → Option Nat → Option (Nat × Nat) → List Bool → Option (Nat × Nat)
  | _, _, best, [] => best
  | k, start, best, b :: l =>
    if b then
      let a := start.getD k
      let best := match best with
        | some (x, y) => if y - x < k - a then some (a, k) else best
        | none => some (a, k)
      longestRun (k + 1) (some a) best l
    else longestRun (k + 1) none best l

/-- A port takes an offset, or keeps its own and is marked FAILED (R321, R329). -/
def State.setTrained (s : State) (p number : Nat) (rx : Bool) (v : Option (Int × Nat)) : State :=
  s.setPort p (fun q => { q with train :=
    match v with
    | some (d, eye) => { q.train with tx := if rx then q.train.tx else d, rx := if rx then d else q.train.rx,
                                      eye := min eye 0xFFFF, state := 1, seq := number }
    | none => { q.train with state := 2, seq := number } })

/-- FAIL of the context that issued the sequence (R321). -/
def State.trainFails (s : State) (i : Nat) : State :=
  match (s.sched i).training with
  | some t => match t.txn with
    | some x => s.setCtx x.gov.cid (fun c => { c with fail := true })
    | none => s
  | none => s

/-- Trained offset of a port that a sweep target names. -/
def State.offsetOf (s : State) (target p : Nat) : Int :=
  if (sweepRoles target).2 then (s.port p).train.rx else (s.port p).train.tx

def State.setOffset (s : State) (target p : Nat) (d : Int) : State :=
  s.setPort p (fun q => { q with train :=
    if (sweepRoles target).2 then { q.train with rx := d } else { q.train with tx := d } })

/-- The ports of a sweep run at its point, those whose range it leaves at the offset they had (R321). -/
def State.atPoint (s : State) (i : Nat) (w : Sweep) : State :=
  s.each (s.sweepPorts i w.target) (fun p s =>
    if s.offsetFits p (sweepRoles w.target).2 (w.offset w.point) then s.setOffset w.target p (w.offset w.point) else s)

/-- The end of a sweep at one port: the centre of its longest passing run, and the run's length as EYE (R321, log 35). -/
def State.sweepPort (s : State) (i number : Nat) (w : Sweep) (p : Nat) (passes : List Bool) : State :=
  let rx := (sweepRoles w.target).2
  let l := (upto w.points).map (fun k => passes.getD k false && s.offsetFits p rx (w.offset k))
  match longestRun 0 none none l with
  | some (a, b) => s.setTrained p number rx (some ((w.offset a + w.offset b) / 2, (b - a) * w.step))
  | none => (s.setTrained p number rx none).trainFails i

/-- Targets of the built-in sequences, with each one's number (R319). -/
def builtInTargets (r : StepRec) (number : Nat) : List (Nat × Nat) :=
  let all := [(3, 3), (4, 3), (5, 2), (6, 1), (7, 0)]
  if number == 8 then all.filter (fun e => hasSequence r e.1) else all.filter (fun e => e.1 == number)

/-- What a built-in sequence finds at a port: an offset within its range and an eye, both open (R321, log 34). -/
def State.builtInPort (s : State) (number target p : Nat) : State :=
  let rx := (sweepRoles target).2
  let (v, s) := s.free 32
  let (eye, s) := s.free 16
  let span := if rx then (s.symbolSteps (bundleOfPort p) 1).toNat else 573441
  let base : Int := if rx then s.rxPhase p else s.txSkew p
  s.setTrained p number rx (some ((v % max span 1 : Nat) - base, eye))

/-- TRAIN_DONE of a built-in sequence: its targets have their offsets, or the ports that failed are marked (R319, R321).
Microcode ends at its END word. -/
def trainDone (i : Nat) (failed : Bool) (s : State) : State :=
  match (s.sched i).training with
  | none => s
  | some t =>
    let r := s.stepRec i
    if t.number == 0x80 then
      s.onlyIf (t.pc < r.ucodeLen && bits (r.ucodeWord t.pc) 28 4 == 0 && t.sweeps.isEmpty) (fun s => s.endTraining i)
    else
      let s := (builtInTargets r t.number).foldl (fun s (n, target) =>
        s.each (s.sweepPorts i target) (fun p s =>
          if failed then s.setTrained p n (sweepRoles target).2 none else s.builtInPort n target p)) s
      let s := if failed then s.trainFails i else s
      s.endTraining i

def execTrainDone (site : SiteNo) (failed : Bool) : State → Out :=
  run (fun s => s.onlyIf (s.scheduling site.val) (trainDone site.val failed))

/-! ## Microcode (R320) -/

/-- The microcode faults: the issuing context, or under INIT the site (R320). -/
def State.ucodeFault (s : State) (i : Nat) : State :=
  match (s.sched i).training with
  | none => s
  | some t =>
    match t.txn with
    | some x => s.ctxFault i x.gov.cid .illegalField
    | none => (s.raise 0x1001 1 i 0xFFFF CtxFault.illegalField.code).abortSite i 0x1001 false

/-- A word may be executed where it stands (R320): a known OP with operands in their ranges, sweeps nested to 2 and
closed. -/
def wordOk (r : StepRec) (t : Training) (w : Nat) : Bool :=
  match bits w 28 4 with
  | 0 => t.sweeps.isEmpty
  | 1 => let v := bits w 0 24
         let x := t.txn.getD default
         slotOk r v x.gov.x x.gov.y x.gov.bank && slotCmd v != 18 && v != 0 && bits w 24 4 == 0
  | 2 => bits w 0 20 != 0
  | 3 => decide (t.sweeps.length < 2) && bits w 16 10 != 0 && bits w 0 16 != 0
  | 4 => !t.sweeps.isEmpty
  | 5 => decide (bits w 0 8 ≤ 2)
  | 6 => bits w 16 12 != 0
  | _ => false

/-- The sequence reaches word n: a bad word, or the end of the microcode without END, faults (R320). -/
def State.reach (s : State) (i : Nat) (t : Training) (n : Nat) : State :=
  let r := s.stepRec i
  let t := { t with pc := n, waiting := 0 }
  let s := s.setSched i (fun c => { c with training := some t })
  if n < r.ucodeLen && wordOk r t (r.ucodeWord n) then s else s.ucodeFault i

/-- A sequence begins; microcode 0x80 reaches its word 0 (R319, R320). -/
def State.startTraining (s : State) (i number : Nat) (txn : Option Txn) : State :=
  let s := s.takeSequence i number txn
  match (s.sched i).training with
  | some t => if t.number == 0x80 then s.reach i t 0 else s
  | none => s

/-- TRAIN: the oldest transaction of the queue is a TRAIN, and its sequence begins at an edge. -/
def trainRow (i : Nat) (ck : Int) (s : State) : State :=
  s.onlyIf (s.scheduling i && s.edgeCame i ck) (fun s =>
    let s := ((s.arrivals i).beginInserts i).markReady i ck
    if (s.pickInsert i ck).isSome then s else
      match s.pickProgram i ck with
      | some (k, t) =>
        if t.cmd != 18 then s
        else if t.inject == 1 then s.unqueue i k t.rank
        else if (s.sched i).banks.violates 18 t.rank t.bank then (s.unqueue i k t.rank).txnState i ck t t.x
        else (s.unqueue i k t.rank).startTraining i (t.arg % 256) (some t)
      | none => s)

def execTrain (site : SiteNo) (ck : Nat) : State → Out := run (trainRow site.val ck)

/-- The word of a microcode sequence that runs, when its OP is the row's and no WAIT is under way. -/
def State.atWord (s : State) (i op : Nat) (f : Training → Nat → State → State) : State :=
  match (s.sched i).training with
  | none => s
  | some t =>
    let r := s.stepRec i
    let w := r.ucodeWord t.pc
    s.onlyIf (s.scheduling i && t.number == 0x80 && t.waiting == 0 && decide (t.pc < r.ucodeLen) && bits w 28 4 == op
      && wordOk r t w) (f t w)

/-- UCODE_END. -/
def execUcodeEnd (site : SiteNo) : State → Out := run (fun s => s.atWord site.val 0 (fun _ _ s => s.endTraining site.val))

/-- A slot of a training sequence is sent at an edge, under the timing table and the bank model; the answer is whether it
went. -/
def State.sendMicro (s : State) (i : Nat) (ck : Int) (t : Training) (v : Nat) : Bool × State :=
  let x := t.txn.getD default
  let cmd := slotCmd v
  let rank := slotRank v
  let bank := x.gov.bank
  let r := s.stepRec i
  let banks := (s.sched i).banks
  let txn : Txn := { gov := x.gov, cmd := cmd, rank := rank, bank := bank, arg := slotArg v, y := x.gov.y, seed := x.seed,
                     pattern := some t.pattern }
  if (s.sched i).inserts.any (fun y => y.holds r txn 0) || (s.pickInsert i ck).isSome || !s.timely i ⟨cmd, rank, bank⟩ ck
  then (false, s)
  else if banks.violates cmd rank bank then
    (false, s.txnState i ck txn (if usesCol cmd then (banks.row rank bank).getD 0 else x.gov.x))
  else
    let s := s.sendCommand i ck cmd rank bank x.gov.x x.gov.y (slotArg v) false none
    let s := if isWrite cmd then s.sendBurst i ck txn false
      else if isRead cmd || cmd == 11 then s.setSched i (fun c => { c with bursts := c.bursts ++ [{ txn := txn, ck := ck }] })
      else s
    (true, s)

/-- UCODE_CMD: a CMD word of the microcode, or the next slot of a built-in sequence, goes out at an edge (R320). -/
def ucodeCmd (i : Nat) (ck : Int) (s : State) : State :=
  match (s.sched i).training with
  | none => s
  | some t =>
    let s := s.beginInserts i
    match t.todo with
    | v :: rest =>
      s.onlyIf (s.scheduling i && s.edgeCame i ck) (fun s =>
        let (sent, s) := s.sendMicro i ck t v
        if sent then s.setSched i (fun c => { c with training := some { t with todo := rest } }) else s)
    | [] => (s.onlyIf (s.edgeCame i ck)) (fun s => s.atWord i 1 (fun t w s =>
        let (sent, s) := s.sendMicro i ck t (bits w 0 24)
        if sent then s.reach i t (t.pc + 1) else s))

def execUcodeCmd (site : SiteNo) (ck : Nat) : State → Out := run (ucodeCmd site.val ck)

/-- UCODE_WAIT. -/
def execUcodeWait (site : SiteNo) : State → Out :=
  run (fun s => s.atWord site.val 2 (fun t w s =>
    s.setSched site.val (fun c => { c with training := some { t with waiting := bits w 0 20, waitAt := s.now } })))

/-- UCODE_WAIT_EXPIRY: the CK periods of the WAIT have passed (R320). -/
def ucodeWaitExpiry (i : Nat) (s : State) : State :=
  match (s.sched i).training with
  | some t => s.onlyIf (s.scheduling i && t.waiting != 0
      && decide ((t.waitAt : Rat) + s.ckTime i t.waiting ≤ (s.now : Rat))) (fun s => s.reach i t (t.pc + 1))
  | none => s

def execUcodeWaitExpiry (site : SiteNo) : State → Out := run (ucodeWaitExpiry site.val)

/-- UCODE_SWEEP opens a sweep at its first point. -/
def execUcodeSweep (site : SiteNo) : State → Out :=
  run (fun s => s.atWord site.val 3 (fun t w s =>
    let i := site.val
    let target := bits w 26 2
    let x : Sweep := { target := target, points := bits w 16 10, step := bits w 0 16, body := t.pc + 1
                       before := (s.sweepPorts i target).map (fun p => (p, s.offsetOf target p)) }
    (s.atPoint i x).reach i { t with sweeps := x :: t.sweeps } (t.pc + 1)))

/-- A port passes at a point: no compare failed at it there, or at a port whose data no compare shows, none at any (R321,
log 35). -/
def State.pointPasses (s : State) (i : Nat) (w : Sweep) (p k : Nat) : Bool :=
  if (s.roleOf i p).1 == 5 then !w.bad.contains (p, k) else !w.bad.any (fun e => e.2 == k)

/-- SWEEP_END: the next point runs the body again; after the last one each port of the target takes its offset (R321). -/
def sweepEnd (i : Nat) (s : State) : State :=
  s.atWord i 4 (fun t _ s =>
    match t.sweeps with
    | [] => s
    | w :: rest =>
      let next := { w with point := w.point + 1 }
      if w.point + 1 < w.points then (s.atPoint i next).reach i { t with sweeps := next :: rest } w.body
      else
        let s := w.before.foldl (fun s e => s.setOffset w.target e.1 e.2) s
        let s := s.each (s.sweepPorts i w.target) (fun p s =>
          s.sweepPort i t.number w p ((upto w.points).map (s.pointPasses i w p)))
        s.reach i { t with sweeps := rest } (t.pc + 1))

def execSweepEnd (site : SiteNo) (_ : Unit) : State → Out := run (sweepEnd site.val)

/-- UCODE_PATTERN. -/
def execUcodePattern (site : SiteNo) : State → Out :=
  run (fun s => s.atWord site.val 5 (fun t w s => s.reach site.val { t with pattern := bits w 0 8 } (t.pc + 1)))

/-- UCODE_LOOP jumps back a counted number of times, then goes on. -/
def execUcodeLoop (site : SiteNo) : State → Out :=
  run (fun s => s.atWord site.val 6 (fun t w s =>
    let left := match Store.get 0 t.pc t.loops with
      | 0 => bits w 16 12
      | n + 1 => n
    let t := { t with loops := Store.put 0 t.pc (if left == 0 then 0 else left) t.loops }
    if left == 0 then s.reach site.val t (t.pc + 1) else s.reach site.val t (bits w 0 12)))

end Sys2Proof.Machine
end

