-- ==== Sys2Proof/Machine/Memory.lean ====
section
/-! DEFINITION. The memory channels: training and zero-fill, controller accesses, scrubbing, the channel
commands and the region table (R463 to R484). -/
namespace Sys2Proof.Machine

/-! ## Training (R464, R465, R481) -/

/-- The contents of a channel are zero granules. -/
def State.zeroFill (s : State) (c : Nat) : State :=
  { s with mem := s.mem.filter (fun e => s.chanOf e.1 != c), memChk := s.memChk.filter (fun e => s.chanOf (32 * e.1) != c) }

/-- A channel's training has ended: its state from what failed. -/
def State.trained (s : State) (c : Nat) (failed : List (Fin 32)) (other : Bool) : State :=
  let s := s.zeroFill c
  let pins := failed.eraseDups
  let base : Chan := { s.chan c with recent := [], recentBad := [], retraining := false, scrub := 0, scrubNow := false, lane := none }
  if other || decide (2 ≤ pins.length) then
    (s.setChan c (fun _ => { base with st := .isolated, cause := 1 })).isolateChan c 1
  else match pins with
    | [l] => (s.setChan c (fun _ => { base with cause := 0 })).declare c l.val 1
    | _ => s.setChan c (fun _ => { base with st := .ready, cause := 0 })

/-- Gbit of a density code. -/
def densityGbit : Nat → Nat
  | 0 => 16
  | 1 => 24
  | _ => 32

/-- MEM_INIT_DONE. -/
def memInitDone (c : Nat) (failed : List (Fin 32)) (other : Bool) (offsets : List (BitVec 16)) (s : State) : State :=
  s.onlyIf ((s.chan c).st == .init && !(s.chan c).retraining) (fun s =>
    let s := s.setChan c (fun ch => { ch with train := (upto 32).foldl (fun t k =>
      Store.put 0 k (if failed.any (·.val == k) then 0x8000#16 else offsets.getD k 0) t) ch.train })
    let s := s.trained c failed other
    let s := ((s.wr .devMemDensity (densityGbit s.density)).wr .devMemCapacity s.memCap).wr .devMemChanBytes s.memU
    let s := s.wr .devMemDensityMismatch ((upto 12).foldl (fun a k =>
      a + (if s.density < (Store.get 0 k s.fuses.density).val then 2 ^ k else 0)) 0)
    s.wr .devMemInitTime (s.microsSince (s.chan c).initSince))

def execMemInitDone (c : ChanNo) (failedPins : List (Fin 32)) (otherFail : Bool) (_ : Unit) (offsets : List (BitVec 16)) :
    State → Out := run (memInitDone c.val failedPins otherFail offsets)

/-- RETRAIN_DONE. -/
def retrainDone (c : Nat) (failed : List (Fin 32)) (other : Bool) (s : State) : State :=
  s.onlyIf (s.chan c).retraining (fun s => (s.trained c failed other).wr .devMemCmdState 0)

def execRetrainDone (c : ChanNo) (failedPins : List (Fin 32)) (otherFail : Bool) : State → Out :=
  run (retrainDone c.val failedPins otherFail)

/-! ## Accesses (R469, R471) -/

/-- Every byte of a range stands on a channel that serves. -/
def State.served (s : State) (a n : Nat) : Bool :=
  (upto (ceilDiv (a % 32 + n) 32)).all (fun k => s.spot (a / 32 * 32 + 32 * k) == .ok)

/-- A transfer of a channel failed n times: at most 4 retries, which are counted (R463, R483). -/
def State.linkRetry (s : State) (c n : Nat) : State :=
  let k := min n 4
  (s.setChan c (fun ch => { ch with linkRetries := capped ch.linkRetries k max64 })).bump .devMemLinkRetries 0 0 k

/-- A transfer that failed after its retries is an uncorrectable read of every granule it carries (R463, R469). -/
def State.failGranules (s : State) (g n : Nat) : State :=
  s.each ((upto n).map (g + ·)) (fun g s =>
    (s.countDecoded g ⟨s.granData g ++ s.granCheck g, [], true⟩).bump .devMemPoisonSent)

/-- MEM_ACCESS: granules of the group at an address are read and returned, or written around what the group holds. An
access that waits for a channel changes nothing. Its transfer fails `tries` times; after the fifth failure a read is poisoned and
a write does not reach memory (R463, log 164). -/
def memAccess (write : Bool) (addr : Nat) (data : List Byte) (count : Nat) (ups : List Upset) (tries : Nat) (s : State) : State :=
  let n := if write then data.length else 32 * count
  s.onlyIf (s.served addr n) (fun s =>
    let s := s.linkRetry (s.chanOf addr) tries
    if 5 ≤ tries then
      let s := s.failGranules (addr / 32) (ceilDiv n 32)
      if write then s else s.send (.memData (Store.gets 0 addr n s.mem) (List.replicate count true))
    else if write then (s.writeGranules (addr / 32) (granulesOf data) ups).2
    else
      let (l, s) := s.readGranules (addr / 32) ups count
      s.send (.memData (l.flatMap (fun e => e.1.take 32)) (l.map (·.2))))

def execMemAccess (write : Bool) (addr : Nat) (data : List Byte) (count : Nat) (shows : MemShow) : State → Out :=
  memRun (memAccess write addr data count shows.upsets shows.tries.val)

/-! ## Scrubbing (R478) -/

/-- Groups of a channel. -/
def State.chanGroups (s : State) : Nat := s.memU / 256

/-- The scrubber of a channel goes to its next group; at the end of the channel a pass is complete. -/
def State.scrubNext (s : State) (c : Nat) : State :=
  let next := (s.chan c).scrub + 1
  if next < s.chanGroups then s.setChan c (fun ch => { ch with scrub := next })
  else (s.setChan c (fun ch => { ch with scrub := 0, scrubNow := false })).bump .devMemScrubPasses

/-- The scrubber works on a channel: not OFF, INITIALIZING or ISOLATED. -/
def State.scrubs (s : State) (c : Nat) : Bool :=
  ((s.chan c).st == .ready || (s.chan c).st == .erasure) && !s.quadClosed (c / 3)

/-- SCRUB_GROUP: a group is read; granules that could be corrected are written back, unless a write overtook it. With the period
at 0 the scrubber is off, but for a pass that SCRUB_NOW began (R478, R481, R483). -/
def scrubGroup (c : Nat) (ups : List Upset) (overtaken : Bool) (s : State) : State :=
  s.onlyIf (s.scrubs c && (s.rd .devMemScrubPeriod != 0 || (s.chan c).scrubNow)) (fun s =>
    let g0 := s.groupAddr c (s.chan c).scrub / 32
    let s := s.each ((upto 8).map (g0 + ·)) (fun g s =>
      let d := s.decodeGranule g ups
      let s := s.countDecoded g d
      if overtaken || d.bad || d.fixed.isEmpty then s
      else s.putCodeword g (d.word.take 32) (BitVec.ofNat 32 (leNat (d.word.drop 32))))
    s.scrubNext c)

def execScrubGroup (c : ChanNo) (upsets : List Upset) (overtaken : Bool) : State → Out :=
  memRun (scrubGroup c.val upsets overtaken)

/-- SCRUB_VOTE_UPSET: outvoted and counted; the pass goes on at the next group. -/
def execScrubVoteUpset (c : ChanNo) : State → Out :=
  run (fun s => s.onlyIf (s.scrubs c.val) (fun s => (s.bump .devMemScrubVoteUpsets).scrubNext c.val))

/-! ## DEV_MEM_CMD (R481) -/

/-- Step 7 of R71: the channel's quadrant is CLOSING or powered down. -/
def memCmdClosed (s : State) (chan : Nat) : Status := require (!(decide (chan < 12) && s.quadClosed (chan / 3))) .tcClosed

/-- Step 8. -/
def memCmdState (s : State) (op chan : Nat) : Status :=
  if 12 ≤ chan then .ok else
    let st := (s.chan chan).st
    firstRefusal
      [require (match op with
         | 1 => st == .ready
         | 2 | 4 => st == .ready || st == .erasure
         | 3 => st == .isolated
                && (upto 12).all (fun i => !((s.siteSt i).active || s.siteSt i == .aborting) || !s.siteHolds i chan)
         | _ => true) .state,
       require ((upto 12).all (fun c => !(s.chan c).retraining)) .busy]

/-- Step 9. -/
def memCmdRange (op chan reserved lane : Nat) : Status :=
  require (decide (1 ≤ op) && decide (op ≤ 4) && decide (chan < 12) && reserved == 0 && (op == 1 || lane == 0)) .range

/-- An accepted DEV_MEM_CMD. -/
def memCmdEffect (op chan lane : Nat) (s : State) : State :=
  match op with
  | 1 => s.declare chan lane 3
  | 2 => s.isolateChan chan 4
  | 3 => (s.setChan chan (fun ch => { ch with st := .init, initSince := s.elapsed, retraining := true })).wr .devMemCmdState 1
  | _ => s.setChan chan (fun ch => { ch with scrub := 0, scrubNow := true })

/-! ## DEV_MEM_REGIONS (R475, R476) -/

/-- An entry's 16 bytes obey their rules. -/
def regionOk (cap : Nat) (d : List Byte) : Bool :=
  let r := regionOf d
  if r.len == 0 then d.all (· == 0#8)
  else r.base % 256 == 0 && r.len % 256 == 0 && (decide (r.site ≤ 11) || r.site == 0xFE || r.site == 0xFF)
    && d.getD 7 0 == 0#8 && decide (r.base + r.len ≤ cap)

/-- No two used entries overlap. -/
def regionsApart (l : List MemRegion) : Bool :=
  let used := l.filter (fun r => r.len != 0)
  decide (used.Pairwise (fun a b => a.base + a.len ≤ b.base ∨ b.base + b.len ≤ a.base))

/-- The table after a write. -/
def State.regionsAfter (s : State) (off : Nat) (data : List Byte) : List Byte :=
  let old := s.dom .devMemRegions 0 0 0 1024
  old.take off ++ data ++ old.drop (off + data.length)

/-- Step 8: entries of busy sites keep their bytes; an ARM that validates holds them too (R31, R476). -/
def regionsState (s : State) (off : Nat) (data : List Byte) : Status :=
  let new := s.regionsAfter off data
  let busy (i : Nat) := (s.siteSt i).active || s.siteSt i == .aborting
  let names (r : MemRegion) (p : Nat → Bool) := r.len != 0 && ((decide (r.site ≤ 11) && p r.site) || (r.site == 0xFE && (upto 12).any p))
  let changed := (upto 64).filter (fun k => (new.drop (16 * k)).take 16 != s.dom .devMemRegions 0 0 (16 * k) 16)
  let hits (p : Nat → Bool) := changed.any (fun k =>
    names (regionOf (s.dom .devMemRegions 0 0 (16 * k) 16)) p || names (regionOf ((new.drop (16 * k)).take 16)) p)
  firstRefusal
    [require (!hits busy) .state,
     require (!hits (fun i => (s.site i).validating.isSome)) .busy]

/-- Step 9. -/
def regionsRange (s : State) (off : Nat) (data : List Byte) : Status :=
  let new := s.regionsAfter off data
  require (off % 16 == 0 && data.length % 16 == 0 && (pieces 16 data).all (regionOk s.memCap)
    && regionsApart ((upto 64).map (fun k => regionOf ((new.drop (16 * k)).take 16)))) .range

/-! ## Reads (R483, R484) -/

def ChanSt.code : ChanSt → Nat
  | .off => 0 | .init => 1 | .ready => 2 | .erasure => 3 | .isolated => 4

/-- QD_MEM_STATE. -/
def State.memState (s : State) (c : Nat) : Nat :=
  let ch := s.chan c
  ch.st.code * 2 ^ 28 + ch.cause * 2 ^ 24 + (ch.lane.elim 0xFF (·.val)) * 2 ^ 16 + s.density * 2 ^ 8

/-- Channels with a property, as bits. -/
def State.chanBits (s : State) (p : ChanSt → Bool) : Nat :=
  (upto 12).foldl (fun a c => a + (if p (s.chan c).st then 2 ^ c else 0)) 0

/-- DEV_MEM_PROTECTED_SITES. -/
def State.protectedBits (s : State) : Nat := s.protectedSites.foldl (fun a i => a + 2 ^ i) 0

/-- QD_MEM_LANE_CORR, QD_MEM_COUNTS and QD_MEM_TRAIN of a channel. -/
def Chan.laneBytes (c : Chan) : List Byte := (upto 32).flatMap (fun k => leBytes 2 (Store.get 0 k c.laneCorr))
def Chan.countBytes (c : Chan) : List Byte :=
  leBytes 8 c.corrected ++ leBytes 8 c.uncorrectable ++ leBytes 8 c.linkRetries ++ leBytes 8 c.bytesRead ++ leBytes 8 c.bytesWritten
def Chan.trainBytes (c : Chan) : List Byte := (upto 32).flatMap (fun k => leBytes 2 (Store.get 0 k c.train).toNat)

end Sys2Proof.Machine
end

