-- ==== Sys2Proof/Machine/Calibration.lean ====
section
/-! DEFINITION. Calibration on live traffic: triggers, cycles and their phases, points, failure and substitution, the
survey, and what the calibration objects read (R352 to R387). -/
namespace Sys2Proof.Machine

/-! ## Triggers (R354, R355) -/

/-- Trigger codes of R387. -/
def trigTemperature : Fin 6 := 1
def trigQuality : Fin 6 := 2
def trigNoSet : Fin 6 := 3
def trigHost : Fin 6 := 4
def trigClear : Fin 6 := 5

/-- Triggers in the order in which they are served. -/
def trigOrder : List (Fin 6) := [trigClear, trigHost, trigQuality, trigNoSet, trigTemperature]

/-- The trigger of a port that is served first. -/
def firstTrigger (l : List (Fin 6)) : Option (Fin 6) := trigOrder.find? (fun k => l.contains k)

/-- A port that no cycle serves any more: substituted or FAILED (log 38). -/
def State.retired (s : State) (p : Nat) : Bool := (s.port p).cal.substituted || s.portFailed p

/-- The cycle of a port that has not passed Listen, with which a trigger of the port merges (R355). -/
def State.merges (s : State) (p : Nat) : Option CalCycle :=
  let b := bundleOfPort p
  (s.bnd b).cal.cycle.filter (fun c => portOfSlot b c.slot == p && decide (c.phase ≤ 2))

/-- A trigger is raised: it merges with what is pending, or with a cycle of the port that has not passed Listen. -/
def State.trigger (s : State) (p : Nat) (k : Fin 6) : State :=
  if s.retired p && k != trigClear then s else
    let s := s.setPort p (fun q => { q with cal := { q.cal with trigger := k.val } })
    match s.merges p with
    | some c => s.setBnd (bundleOfPort p) (fun t => { t with cal := { t.cal with cycle := some { c with kinds := (k :: c.kinds).eraseDups } } })
    | none => s.setPort p (fun q => { q with cal := { q.cal with pending := (k :: q.cal.pending).eraseDups } })

/-- CAL_AUTO_ENABLE. -/
def State.calAuto (s : State) : Bool := s.rd .calAutoEnable == 1

/-- TEMPERATURE holds: the port temperature has left T_last by more than CAL_DELTA_T. -/
def State.tempMoved (s : State) (p : Nat) : Bool :=
  match (s.bnd (bundleOfPort p)).cal.temp with
  | none => false
  | some t =>
    match s.lastTemp p t with
    | some l => decide (4 * s.rd .calDeltaT < (t - l).natAbs)
    | none => false

/-- The automatic triggers of a port that follow from its temperature and sets. -/
def State.autoTriggers (s : State) (p : Nat) : State :=
  if !s.calAuto then s else
    let s := if s.tempMoved p then s.trigger p trigTemperature else s
    if s.cal.loaded && s.lacksSet p then s.trigger p trigNoSet else s

/-- GRADE of a port's latest quality figures. -/
def PortCal.grade (c : PortCal) : Nat := (c.quality.getD 12 0#8).toNat

/-- QUALITY from the port's latest figures. -/
def State.qualityTrigger (s : State) (p : Nat) : State :=
  if s.calAuto && decide ((s.port p).cal.grade < s.rd .calGradeFloor) then s.trigger p trigQuality else s

/-- Triggers raised for a port since its cycle passed Listen are evaluated against the new point (R355). -/
def State.reevaluate (s : State) (p : Nat) : State :=
  let holds (k : Fin 6) : Bool :=
    if k == trigTemperature then s.tempMoved p
    else if k == trigQuality then decide ((s.port p).cal.grade < s.rd .calGradeFloor)
    else if k == trigNoSet then s.lacksSet p
    else true
  s.setPort p (fun q => { q with cal := { q.cal with pending := q.cal.pending.filter holds } })

/-- TEMPERATURE_SAMPLE: the bundle's temperature; trims follow it and triggers are raised (R352, R354, R366). -/
def temperatureSample (b : Nat) (temp : BitVec 16) (s : State) : State :=
  s.onlyIf s.alive (fun s =>
    let s := s.setBnd b (fun t => { t with cal := { t.cal with temp := some (signed 16 temp.toNat) } })
    s.each (portsOfBundle b) (fun p s => (s.recompute p).autoTriggers p))

def execTemperatureSample (b : BundleNo) (temp : BitVec 16) : State → Out := run (temperatureSample b.val temp)

/-- VREF_CHECK: VREF_EXT in µV against the bandgap; within 25 mV of 2.5 V it is the reference (R353). -/
def vrefCheck (microvolts : BitVec 32) (s : State) : State :=
  s.onlyIf s.alive (fun s =>
    let d : Int := signed 32 microvolts.toNat - 2500000
    let ok := decide (d.natAbs ≤ 25000)
    let s := (s.wr .devCalVref (unsigned 32 d)).wr .devCalRefSource (if ok then 1 else 0)
    { s with cal := { s.cal with vref := ok } })

def execVrefCheck (microvolts : BitVec 32) : State → Out := run (vrefCheck microvolts)

/-! ## Starting a cycle (R356, R358, R361) -/

/-- The bye-stake can serve a live cycle. -/
def State.byeServes (s : State) (b : Nat) : Bool :=
  !(s.bnd b).cal.byeFailed && (s.subSlot b).isNone && (s.enables (96 + b)).none

/-- The conditions of R356 that do not depend on the port. -/
def State.calReady (s : State) (b : Nat) : Bool :=
  let d := s.devState
  s.alive && s.rd .devCalHold == 0 && s.tb.cfgOnRoot && !(d == 2 || d == 8 || d == 9) && !(s.bnd b).failed
    && !s.quadClosed (quadOfBundle b)

/-- The port can start a cycle, and whether the cycle is live. -/
def State.canStart (s : State) (b p : Nat) : Option Bool :=
  if (s.enables p).pmu then none
  else if s.inert p then some false
  else if p < 96 && (s.port p).cal.request != 2 && s.byeServes b then some true
  else none

/-- The port and the liveness of the cycle that a bundle starts next (R355). -/
def State.nextCycleOf (s : State) (b : Nat) : Option (Nat × Bool) :=
  trigOrder.findSome? (fun k => (portsOfBundle b).findSome? (fun p =>
    if firstTrigger (s.port p).cal.pending == some k && !s.retired p then (s.canStart b p).map (fun live => (p, live)) else none))

def State.setCycle (s : State) (b : Nat) (f : CalCycle → CalCycle) : State :=
  s.setBnd b (fun t => { t with cal := { t.cal with cycle := t.cal.cycle.map f } })

def State.hold (s : State) (p : Nat) (v : Bool) : State :=
  s.setPort p (fun q => { q with cal := { q.cal with held := v } })

/-- The receiver that is to take a pin over starts anew: the bye-stake's for a listen, the port's own for a rejoin. The lane of the
bye-stake's number holds it (R256, R358, log 160). -/
def State.joinReceiver (s : State) (b : Nat) : State := s.setLane (96 + b) (fun _ => {})

/-- Listen begins: the port is held, the bye-stake takes the trims of the port's class, and its receiver starts anew (R256, R358,
R360). -/
def State.beginListen (s : State) (b : Nat) : State :=
  match (s.bnd b).cal.cycle with
  | none => s
  | some c =>
    let s := (s.setCycle b (fun c => { c with phase := 2, ready := false, since := s.time })).hold (portOfSlot b c.slot) true
    (s.joinReceiver b).recompute (96 + b)

/-- Prepare is needed: the bye-stake has no point in the port's class, or TEMPERATURE pending. -/
def State.needsPrepare (s : State) (b p : Nat) : Bool :=
  (s.points (96 + b) (s.rateClass p)).isEmpty || (s.port (96 + b)).cal.pending.contains trigTemperature

/-- Slot of a port in its bundle; 8 is the bye-stake. -/
def slotOfPort (p : Nat) : Nat := if p < 96 then p % 8 else 8

/-- CAL_CYCLE_START. -/
def calCycleStart (b : Nat) (s : State) : State :=
  s.onlyIf (s.calReady b && (s.bnd b).cal.cycle.isNone && (s.bnd b).cal.surveying.isNone) (fun s =>
    match s.nextCycleOf b with
    | none => s
    | some (p, live) =>
      let q := (s.port p).cal
      let survey := match (s.bnd b).cal.survey with
        | some (k, st) => if live && k == slotOfPort p && firstTrigger q.pending == some trigQuality then some st else none
        | none => none
      let c : CalCycle := { slot := slotOfPort p, phase := 7, live := live, kinds := q.pending, request := q.request,
                            surveyed := survey.isSome, stats := survey }
      let trig := ((firstTrigger q.pending).map (·.val)).getD 0
      let s := s.setPort p (fun x => { x with cal := { x.cal with pending := [], request := 0, trigger := trig } })
      let s := s.setBnd b (fun t => { t with cal := { t.cal with cycle := some c, survey := none } })
      if !live then s.hold p true
      else
        let s := s.hold (96 + b) true
        if survey.isSome then ((s.setCycle b (fun c => { c with phase := 3 })).hold p true).recompute (96 + b)
        else if s.needsPrepare b p then s.setCycle b (fun c => { c with phase := 1 })
        else s.beginListen b)

def execCalCycleStart (b : BundleNo) : State → Out := run (calCycleStart b.val)

/-! ## Quality figures (R371) -/

/-- Femtoseconds of k vernier steps, exact (R15). -/
def stepFs (k : Rat) : Rat := k * 1000000 / 57344

/-- UI of a port in fs: T_sym, or in edge mode the shortest PERIOD used. -/
def State.unitInterval (s : State) (p : Nat) (t : ListenStats) : Rat :=
  stepFs (if s.isSerial p then s.symbolTime (bundleOfPort p) else t.period.toNat)

/-- floor(255 × min(1, a / b)) of figures of which b is not 0. -/
def gradeOf (a b : Rat) : Nat := if b ≤ a then 255 else (255 * a / b).floor.toNat

/-- GRADE of a port's figures; free where UI or ΔL is 0, of which R371 gives no quotient (log 158). -/
def State.grade (s : State) (p : Nat) (t : ListenStats) : Nat × State :=
  let ui := s.unitInterval p t
  if ui = 0 || t.levelGap.toNat == 0 then s.free 8
  else (min (gradeOf t.eyeWidth.toNat ui) (gradeOf t.eyeHeight.toNat t.levelGap.toNat), s)

/-- The 16 bytes of PORT_CAL_QUALITY. -/
def listenBytes (t : ListenStats) (grade source : Nat) : List Byte :=
  leBytes 4 t.eyeWidth.toNat ++ leBytes 4 t.eyeHeight.toNat ++ leBytes 2 t.levelRes.toNat ++ leBytes 2 t.timingRes.toNat
    ++ [BitVec.ofNat 8 grade, BitVec.ofNat 8 source, 0#8, 0#8]

/-- A listen's figures and histogram become a port's: of the driven traffic when at least 65,536 of its transitions were counted,
of the received traffic otherwise. -/
def State.takeListen (s : State) (p : Nat) (t : ListenStats) : State :=
  let (grade, s) := s.grade p t
  s.setPort p (fun q => { q with cal := { q.cal with
    quality := listenBytes t grade (if 65536 ≤ t.driven then 3 else 1), hist := padTo 1024 t.hist } })

/-! ## Forming a point (R364, R365, R369, R377) -/

/-- The trims lie in the ranges of R367. -/
def trimsInRange (t : Trims) : Bool :=
  let w (m : Nat) (v : Int) := decide (v.natAbs ≤ m)
  w 20000 t.drvOfs && w 20000 t.drvGain && w 4000 t.drvImp && decide (t.slew ≤ 15) && w 20000 t.vttOfs && w 20000 t.vcomOfs
    && w 20000 t.ct0Ofs && w 20000 t.ct1Ofs && w 20000 t.ct2Ofs && w 20000 t.pmuOfs && w 20000 t.pmuGain
    && decide (t.drvD ≤ 16383) && decide (t.stbD ≤ 16383)

/-- Calibration found a point. -/
def calPasses (f : CalFinds) : Bool := f.meetsLimits && trimsInRange f.trims

/-- The temperature that a point carries; free before the first sample. -/
def State.pointTemp (s : State) (b : Nat) : Int × State :=
  match (s.bnd b).cal.temp with
  | some t => (t, s)
  | none => let (v, s) := s.free 16; (signed 16 v, s)

/-- A point of class c is formed: it enters its set, the figures are those of the load, the counts go on. -/
def State.formPoint (s : State) (p c : Nat) (f : CalFinds) (live internal : Bool) : State :=
  let (t, s) := s.pointTemp (bundleOfPort p)
  let (grade, s) := s.grade p f.stats
  let quality := listenBytes f.stats grade 0
  let point : Point :=
    { trims := f.trims, temp := t, quality := quality, time := s.time
      source := (if live then 1 else 0) + (if s.cal.vref then 0 else 2) + (if internal then 4 else 0) }
  let old : CalSet := (s.calSet (4 * p + c)).getD {}
  let s := s.setCalSet (4 * p + c) { old with points := addPoint (s.rd .calDeltaT) point old.points }
  let s := { s with cal := { s.cal with latest := Store.put none (4 * p + c) (some t) s.cal.latest } }
  let s := s.setPort p (fun q => { q with cal := { q.cal with quality := quality } })
  ((s.bump .portCalCount p).wr .portCalLast s.time p).recompute p

/-- The set of a port and class is handed to the Rim with the port's flags: 1 SUBSTITUTED, 2 FAILED (R373, R378). -/
def State.handSet (s : State) (p c : Nat) : State :=
  let flags := (if (s.port p).cal.substituted then 1 else 0) + (if s.portFailed p then 2 else 0)
  s.handOver (4 * p + c) { (s.calSet (4 * p + c)).getD {} with flags := flags }

/-- All four sets of a port. -/
def State.handSets (s : State) (p : Nat) : State := s.each (upto 4) (fun c s => s.handSet p c)

/-- A cycle ends in its regular way. -/
def State.finishCycle (s : State) (b result : Nat) : State :=
  match (s.bnd b).cal.cycle with
  | none => s
  | some c =>
    let s := (s.hold (portOfSlot b c.slot) false).hold (96 + b) false
    s.setBnd b (fun t => { t with cal := { t.cal with cycle := none, lastResult := result } })

/-! ## Failure (R378 to R380) -/

/-- The port's enables pass to its bye-stake, and its own read 0. -/
def State.passEnables (s : State) (p : Nat) : State :=
  let bye := 96 + bundleOfPort p
  let s := [Obj.portEnDrive, .portEnCompare, .portEnLoad, .portEnPmu, .portEnPinsw, .portEnTerm].foldl
    (fun t o => t.wr o (t.rd o p) bye) s
  s.clearEnables p

/-- The port is substituted: its bye-stake keeps the pin; its sets are committed and the event is raised. -/
def State.substitute (s : State) (p : Nat) : State :=
  let s := s.setPort p (fun q => { q with cal := { q.cal with substituted := true, replaced := true, pending := [], request := 0 } })
  (s.handSets p).raise 0x2004 3 p (96 + bundleOfPort p)

/-- The port is FAILED. `item` is the self-test item, 0 for calibration. -/
def State.failPort (s : State) (p item : Nat) : State :=
  let s := (s.clearEnables p).setPort p (fun q => { q with cal := { q.cal with
    failed := true, substituted := false, replaced := false, pending := [], request := 0 } })
  (s.handSets p).raise 0x2005 3 p item

/-- The spare element toward a port's pin did not fail its last self-test (log 39). -/
def State.spareGood (s : State) (p : Nat) : Bool :=
  let bad (q : Nat) := s.dom .portSelftest q 0 0 2 == [2#8, 7#8]
  !(bad p || bad (96 + bundleOfPort p))

/-- A port that is not in a live cycle fails: offline cycle or self-test (R378). -/
def State.failOffline (s : State) (p item : Nat) : State :=
  let b := bundleOfPort p
  let sub := !(s.bnd b).cal.byeFailed && (s.subSlot b).isNone && s.spareGood p
  let s := if sub then (s.clearEnables p).substitute p else s.failPort p item
  s.setBnd b (fun t => { t with cal := { t.cal with lastResult := if sub then 4 else 5 } })

/-- A bye-stake fails (R380). -/
def State.failBye (s : State) (b : Nat) : State :=
  let bye := 96 + b
  let slot := s.subSlot b
  let s := s.endCycle b 6
  let s := s.setBnd b (fun t => { t with cal := { t.cal with byeFailed := true, survey := none, lastResult := 6 } })
  let s := s.setPort bye (fun q => { q with cal := { q.cal with pending := [], request := 0 } })
  let s := s.handSets bye
  let s := s.raise 0x2006 3 bye
  match slot with
  | none => s
  | some k =>
    let s := (s.clearEnables bye).setPort (8 * b + k) (fun q => { q with cal := { q.cal with
      failed := true, substituted := false, replaced := false } })
    s.handSets (8 * b + k)

/-! ## The phases of a cycle (R358, R363) -/

/-- CAL_PREPARE_DONE: the bye-stake has its point, or fails (R358, R380). -/
def calPrepareDone (b : Nat) (f : CalFinds) (s : State) : State :=
  match (s.bnd b).cal.cycle with
  | some c =>
    if c.phase == 1 && !c.ready then
      if calPasses f then
        let k := s.rateClass (portOfSlot b c.slot)
        let s := s.formPoint (96 + b) k f false false
        let s := (s.setPort (96 + b) (fun q => { q with cal := { q.cal with
          pending := q.cal.pending.filter (fun t => t != trigTemperature && t != trigNoSet) } })).handSet (96 + b) k
        if s.rd .devCalHold == 1 then s.setCycle b (fun c => { c with ready := true }) else s.beginListen b
      else s.failBye b
    else s
  | none => s

def execCalPrepareDone (b : BundleNo) (finds : CalFinds) : State → Out := run (calPrepareDone b.val finds)

/-- The listen falls back: an internal-stimulus cycle goes on (R363). -/
def State.fallBack (s : State) (b p transitions : Nat) : State :=
  let s := s.setPort p (fun q => { q with cal := { q.cal with lowDensity := true, internalStim := true } })
  let s := (s.bump .devCalFallbacks).raise 0x2001 3 p transitions
  s.setCycle b (fun c => { c with phase := 3, internal := true, stats := none })

/-- The statistics complete a listen (R358). -/
def listenComplete (t : ListenStats) : Bool := decide (65536 ≤ t.transitions)

/-- TIME ticks of 200 µs, of 20 µs and of 1 ms. -/
def ticks200us : Nat := 350000
def ticks20us : Nat := 35000
def ticks1ms : Nat := 1750000

/-- The density over the listen is below 1/64 (R362, R363). -/
def listenSparse (t : ListenStats) : Bool := decide (64 * t.transitions < t.positions)

/-- The bye-stake's receiver has converged on the pin of a SERIAL port: its CDR or forwarded-clock sampling is locked, and
encoded data that alignment serves is aligned (R256). -/
def State.byeConverged (s : State) (b p : Nat) : Bool :=
  let c := s.ser (s.lanePort p)
  let l := s.lane (96 + b)
  !s.isSerial p || s.pairedOdd p
    || ((c.rxClk == 0 || l.locked) && (c.pcs == 0 || (c.rxSink != 1 && c.rxSink != 3) || l.markerAligned))

/-- CAL_LISTEN_DONE (R256, R358, R363). -/
def calListenDone (b : Nat) (t : ListenStats) (s : State) : State :=
  match (s.bnd b).cal.cycle with
  | some c =>
    let p := portOfSlot b c.slot
    if c.phase == 2 && decide (c.since + ticks200us ≤ s.time) then
      if listenSparse t then s.fallBack b p t.transitions
      else if listenComplete t && s.byeConverged b p then
        let s := (s.takeListen p t).setPort p (fun q => { q with cal := { q.cal with lowDensity := false, internalStim := false } })
        let s := s.setCycle b (fun c => { c with phase := 3, stats := some t })
        s.qualityTrigger p
      else s
    else s
  | none => s

def execCalListenDone (b : BundleNo) (stats : ListenStats) : State → Out := run (calListenDone b.val stats)

/-- CAL_LISTEN_LIMIT. -/
def calListenLimit (b : Nat) (transitions : Nat) (s : State) : State :=
  match (s.bnd b).cal.cycle with
  | some c =>
    if c.phase == 2 && decide (c.since + s.rd .devCalListenLimit * ticks1ms ≤ s.time) then
      s.fallBack b (portOfSlot b c.slot) transitions
    else s
  | none => s

def execCalListenLimit (b : BundleNo) (transitions : Nat) : State → Out := run (calListenLimit b.val transitions)

/-- A bundle is at a boundary (R357): of any kind, or of the kinds of an internal-stimulus cycle (R363). -/
def State.boundaryNow (s : State) (b : Nat) (idleOnly : Bool) : Bool :=
  match s.siteOf b with
  | none => true
  | some i =>
    (s.sched i).training.isNone &&
    (match s.siteSt i with
     | .none | .ready => true
     | .paused => (s.site i).pauseBoundary
     | .running => !idleOnly && (s.run' i).boundary
     | _ => false)

/-- CAL_TAKEOVER: the bye-stake serves the pin and the port moves to the load (R358, R359, R382). -/
def calTakeover (b : Nat) (s : State) : State :=
  match (s.bnd b).cal.cycle with
  | some c =>
    if c.phase == 3 && s.rd .devCalHold == 0 && s.boundaryNow b c.internal then
      let s := s.setPort (portOfSlot b c.slot) (fun q => { q with cal := { q.cal with replaced := true } })
      s.setCycle b (fun c => { c with phase := 4 })
    else s
  | none => s

def execCalTakeover (b : BundleNo) : State → Out := run (calTakeover b.val)

/-- What a completed cycle reads as LAST_RESULT: DONE, or FALLBACK after a fallback (log 40). -/
def CalCycle.result (c : CalCycle) : Nat := if c.internal then 3 else 1

/-- The end of a live cycle's calibration. -/
def State.liveCalibrated (s : State) (b p : Nat) (c : CalCycle) (f : CalFinds) : State :=
  if calPasses f then
    let s := (s.formPoint p (s.rateClass p) f (!c.internal) c.internal).bump .devCalCycles
    (s.setCycle b (fun c => { c with phase := 5, since := s.time })).joinReceiver b
  else
    let s := ((s.finishCycle b 4).passEnables p).substitute p
    s

/-- The end of an offline cycle. -/
def State.offlineCalibrated (s : State) (b p : Nat) (c : CalCycle) (f : CalFinds) : State :=
  if calPasses f then
    let s := (s.formPoint p (s.rateClass p) f false false).bump .devCalCycles
    let s := if c.kinds.contains trigClear then s.handSets p else s.handSet p (s.rateClass p)
    (s.finishCycle b 1).reevaluate p
  else if p < 96 then ((s.finishCycle b 5).failOffline p 0)
  else s.failBye b

/-- CAL_CALIBRATE_DONE (R358, R361, R377, R378). -/
def calCalibrateDone (b : Nat) (f : CalFinds) (s : State) : State :=
  match (s.bnd b).cal.cycle with
  | some c =>
    let p := portOfSlot b c.slot
    if c.phase == 4 then s.liveCalibrated b p c f
    else if c.phase == 7 then s.offlineCalibrated b p c f
    else s
  | none => s

def execCalCalibrateDone (b : BundleNo) (finds : CalFinds) : State → Out := run (calCalibrateDone b.val finds)

/-- The port's own receiver has locked where it must: a SERIAL port with RX_CLK CDR or FORWARDED in a RUNNING site (R358). -/
def State.rejoined (s : State) (b p : Nat) : Bool :=
  let running := match s.siteOf b with
    | some i => s.siteSt i == .running
    | none => false
  !running || !s.isSerial p || s.pairedOdd p || (s.ser (s.lanePort p)).rxClk == 0 || (s.lane (96 + b)).locked

/-- CAL_REJOIN_DONE: after 20 µs at least the port is ready (R358). -/
def calRejoinDone (b : Nat) (s : State) : State :=
  match (s.bnd b).cal.cycle with
  | some c =>
    if c.phase == 5 && decide (c.since + ticks20us ≤ s.time) && s.rejoined b (portOfSlot b c.slot) then
      s.setCycle b (fun c => { c with phase := 6 })
    else s
  | none => s

def execCalRejoinDone (b : BundleNo) : State → Out := run (calRejoinDone b.val)

/-- CAL_RETURN: the port takes its pin back with its new trims, and the cycle is released (R358, R366, R373). -/
def calReturn (b : Nat) (s : State) : State :=
  match (s.bnd b).cal.cycle with
  | some c =>
    if c.phase == 6 && s.boundaryNow b false then
      let p := portOfSlot b c.slot
      let s := s.setPort p (fun q => { q with cal := { q.cal with replaced := false } })
      let s := s.finishCycle b c.result
      let s := match (s.bnd b).cal.temp with
        | some t => s.putTrims p (s.computeTrims p t)
        | none => s
      (s.handSet p (s.rateClass p)).reevaluate p
    else s
  | none => s

def execCalReturn (b : BundleNo) : State → Out := run (calReturn b.val)

/-- A bye-stake surveys (R372). -/
def State.surveys (s : State) (b : Nat) : Bool :=
  s.calAuto && s.rd .devCalSurveyEnable == 1 && s.calReady b && (s.bnd b).cal.cycle.isNone && s.byeServes b

/-- The slot that a survey listens to after the one before: the next non-inert port of the bundle in ascending order, round
again (R372). -/
def State.nextSurvey (s : State) (b : Nat) : Option Nat :=
  ((upto 8).map (fun j => ((s.bnd b).cal.surveyLast + 1 + j) % 8)).find? (fun k =>
    !(s.enables (8 * b + k)).none && !s.retired (8 * b + k))

/-- A survey listen begins on each bundle whose bye-stake is idle: its port and the bye-stake are held, and the spare element
closes (R109, R372, log 138). -/
def State.surveyTick (s : State) : State :=
  if !(s.calAuto && s.rd .devCalSurveyEnable == 1) then s else
    s.each (upto 12) (fun b s =>
      if s.surveys b && (s.bnd b).cal.surveying.isNone && (s.nextCycleOf b).isNone then
        match s.nextSurvey b with
        | some k =>
          let s := ((s.hold (8 * b + k) true).hold (96 + b) true).setBnd b (fun t => { t with cal := { t.cal with
            surveying := some k, surveySince := s.time } })
          (s.joinReceiver b).recompute (96 + b)
        | none => s
      else s)

/-- Recomputed trims that waited reach a port at once when it no longer serves a pin of a RUNNING or PAUSED site (R366). -/
def State.trimTick (s : State) : State :=
  s.ports.foldl (fun s e => match e.2.cal.next with
    | some n => if s.servesRun e.1 then s else s.putTrims e.1 n
    | none => s) s

/-- CAL_SURVEY_LISTEN (R372): the survey listen of a slot ends as a Listen does, after 200 µs at least. One of too low a density,
or that reaches DEV_CAL_LISTEN_LIMIT before it is complete, yields no figures (R358, R363). -/
def calSurveyListen (b : Nat) (slot : Fin 8) (t : ListenStats) (s : State) : State :=
  let p := 8 * b + slot.val
  let since := (s.bnd b).cal.surveySince
  let good := listenComplete t && !listenSparse t && s.byeConverged b p
  let late := decide (since + s.rd .devCalListenLimit * ticks1ms ≤ s.time)
  s.onlyIf ((s.bnd b).cal.surveying == some slot.val && decide (since + ticks200us ≤ s.time)
      && (good || listenSparse t || late)) (fun s =>
    let s := s.endSurvey b
    if !good then s else
    let s := s.takeListen p t
    if s.calAuto && decide ((s.port p).cal.grade < s.rd .calGradeFloor) then
      (s.trigger p trigQuality).setBnd b (fun x => { x with cal := { x.cal with survey := some (slot.val, t) } })
    else s)

def execCalSurveyListen (b : BundleNo) (slot : Fin 8) (stats : ListenStats) : State → Out :=
  run (calSurveyListen b.val slot stats)

/-! ## Loading the sets (R375) -/

/-- CAL_SETS_LOADED: the sets in force come to the engine, and each port to the state that its FLAGS record. -/
def calSetsLoaded (s : State) : State :=
  s.onlyIf (s.alive && s.tb.cfgOnRoot && !s.cal.loaded) (fun s =>
    let sets := s.ledger.pairs.foldl (fun st (key, pair) => Store.put shipmentSet key (pair.inForce.map (·.set)) st) []
    let s := { s with cal := { s.cal with sets := sets, loaded := true } }
    sets.foldl (fun s (key, v) =>
      let p := key / 4
      let flags := (v.map (·.flags)).getD 0
      if 96 ≤ p then
        if flags.testBit 1 then s.setBnd (p - 96) (fun t => { t with cal := { t.cal with byeFailed := true } }) else s
      else
        let s := if flags % 4 == 0 then s else s.clearEnables p
        s.setPort p (fun q => { q with cal := { q.cal with
          substituted := q.cal.substituted || flags.testBit 0, replaced := q.cal.replaced || flags.testBit 0,
          failed := q.cal.failed || flags.testBit 1 } })) s)

def execCalSetsLoaded : State → Out := run calSetsLoaded

/-! ## Requests (R381, R386) -/

/-- Step 8 for CLEAR_SUB of BND_CAL_COMMAND; a slot of 8 or more is left to step 9. -/
def calCommandState (s : State) (b slot : Nat) : Status :=
  firstRefusal
    [require (match s.siteOf b with | none => true | some i => s.siteSt i == .ready) .state,
     require (decide (8 ≤ slot) || (s.port (8 * b + slot)).cal.substituted || (s.port (8 * b + slot)).cal.failed) .state]

/-- Step 9 for BND_CAL_COMMAND. -/
def calCommandRange (op reserved slot : Nat) : Status := require (op == 1 && reserved == 0 && decide (slot < 8)) .range

/-- CLEAR_SUB: the substitution or the failure is released, the pin stays inert, and CLEAR is raised. -/
def clearSubEffect (b slot : Nat) (s : State) : State :=
  let p := 8 * b + slot
  let s := if (s.port p).cal.substituted then s.clearEnables (96 + b) else s
  let s := s.setPort p (fun q => { q with cal := { q.cal with substituted := false, replaced := false, failed := false } })
  s.trigger p trigClear

/-- Step 8 for PORT_CAL_REQUEST. -/
def calRequestState (s : State) (p v : Nat) : Status :=
  require (match v with
    | 1 => decide (96 ≤ p) || s.byeServes (bundleOfPort p)
    | 2 => s.inert p
    | _ => true) .state

/-- Step 9 for PORT_CAL_REQUEST. -/
def calRequestRange (p v : Nat) : Status := require (decide (v ≤ 2) && !(v == 1 && decide (96 ≤ p))) .range

/-- After the checks. -/
def calRequestAfter (s : State) (p : Nat) : Status := require (!s.retired p) .hwFault

/-- An accepted PORT_CAL_REQUEST; one that merges with a cycle of the port is pending no more (R355, R386). -/
def calRequestEffect (p v : Nat) (s : State) : State :=
  if v == 0 then s.setPort p (fun q => { q with cal := { q.cal with
    request := 0, pending := q.cal.pending.filter (· != trigHost) } })
  else
    let s := if (s.merges p).isSome then s.setCycle (bundleOfPort p) (fun c => { c with request := v })
      else s.setPort p (fun q => { q with cal := { q.cal with request := v } })
    s.trigger p trigHost

/-- CAL_AUTO_ENABLE set to 0 (R382). -/
def autoOff (s : State) : State :=
  s.each (upto 108) (fun p s =>
    if (s.port p).cal.pending.isEmpty then s else
      s.setPort p (fun q => { q with cal := { q.cal with pending := q.cal.pending.filter (fun k => k == trigHost || k == trigClear) } }))

/-- DEV_CAL_HOLD set to 0: a Listen that waited begins. -/
def holdOff (s : State) : State :=
  s.each (upto 12) (fun b s =>
    match (s.bnd b).cal.cycle with
    | some c => if c.ready then s.beginListen b else s
    | none => s)

/-! ## Reads (R383 to R387) -/

/-- Bundles with a property, as bits. -/
def bundleBits (f : Nat → Bool) : Nat := (upto 12).foldl (fun a b => a + (if f b then 2 ^ b else 0)) 0

def State.calActive (s : State) : Nat := bundleBits (fun b => (s.bnd b).cal.cycle.isSome)
def State.calSubMap (s : State) : Nat := bundleBits (fun b => (s.subSlot b).isSome)
def State.commitPending (s : State) : Nat := min s.queued 64

/-- DEV_CAL_LEDGER_STATE: 1 where some set has no valid copy. -/
def State.ledgerState (s : State) : Nat := if s.ledger.pairs.any (fun e => e.2.inForce.isNone) then 1 else 0

/-- BYE_STATE. -/
def State.byeState (s : State) (b : Nat) : Nat :=
  if (s.bnd b).cal.byeFailed then 4
  else if (s.subSlot b).isSome then 3
  else if (match (s.bnd b).cal.cycle with | some c => c.live || c.slot == 8 | none => false) then 2
  else if !(s.enables (96 + b)).none then 5
  else if (s.bnd b).cal.surveying.isSome then 1
  else 0

/-- BND_CAL_STATUS. -/
def State.calStatus (s : State) (b : Nat) : Nat :=
  let c := (s.bnd b).cal
  let pend := (upto 9).foldl (fun a k => a + (if (s.port (portOfSlot b k)).cal.pending.isEmpty then 0 else 2 ^ k)) 0
  c.lastResult * 2 ^ 48 + (s.subSlot b).getD 0xF * 2 ^ 32 + s.byeState b * 2 ^ 28 + (c.cycle.elim 0xF (·.slot)) * 2 ^ 24
    + (c.cycle.elim 0 (·.phase)) * 2 ^ 16 + pend

/-- STATE of PORT_CAL_STATE. -/
def State.portCalSt (s : State) (p : Nat) : Nat :=
  if s.portFailed p then 4
  else if (s.port p).cal.substituted then 3
  else if s.held p then 2
  else if s.lacksSet p then 0
  else 1

/-- PORT_CAL_STATE. -/
def State.portCalWord (s : State) (p : Nat) : Nat :=
  let c := (s.port p).cal
  let bit (b : Bool) (n : Nat) := if b then 2 ^ n else 0
  let trig := ((firstTrigger c.pending).map (·.val)).getD c.trigger
  s.portCalSt p * 2 ^ 28 + s.rateClass p * 2 ^ 26 + bit (!c.pending.isEmpty) 19 + trig * 2 ^ 16 + bit c.internalStim 4
    + bit c.lowDensity 3 + bit (c.inForce.source.testBit 1) 2 + bit c.inForce.outside 1 + bit c.inForce.nearest 0

/-- PORT_CAL_TRIMS. -/
def PortCal.trimImage (c : PortCal) : List Byte :=
  trimBytes c.inForce.trims ++ intBytes 2 c.inForce.temp ++ leBytes 1 c.inForce.cls ++ leBytes 1 c.inForce.source

/-- PORT_CAL_SET. -/
def State.setImage (s : State) (p : Nat) : List Byte :=
  (upto 4).flatMap (fun c => match (s.pair (4 * p + c)).inForce with
    | some x => x.bytes (4 * p + c)
    | none => List.replicate 544 0#8)

end Sys2Proof.Machine
end

