-- ==== Sys2Proof/Machine/Fabric.lean ====
section
/-! DEFINITION. The logic fabric: clock trees and resets, the trace, lane interfaces, the NoC fabric port and user
objects (R388 to R416). -/
namespace Sys2Proof.Machine

/-! ## Clock trees and resets (R392 to R397) -/

/-- The divider that QD_CLK_SEL or the fabric select lines choose for a tree. -/
def State.treeWants (s : State) (q r : Nat) : Fin 4 :=
  if s.treeBySrc q r then Fin.ofNat 4 (s.clkSel q r) else (s.tree q r).lines

/-- What a tree does with its selection and its reset: a switch begins where another divider is chosen and none is in
progress; a reset asserts at once, and the tree's second rising edge after its sources cleared releases it (R394, R396). -/
def State.settleTree (s : State) (q r : Nat) : State :=
  let want := s.treeWants q r
  let asked := s.resetAsked q r
  s.setTree q r (fun t => { t with
    switch := if t.switch.isNone && want != t.src then some want else t.switch
    reset := asked || t.reset, edges := if asked then 0 else t.edges })

def State.settleTrees (s : State) (q : Nat) : State := s.each (upto 4) (fun r s => s.settleTree q r)

/-- Step 9 for QD_CLK_DIV. -/
def clkDivRange (v : Nat) : Status :=
  let n (d : Nat) := v / 2 ^ (16 * d) % 2 ^ 16
  require ((upto 4).all (fun d => decide (1 ≤ n d) && decide (n d ≤ 256))) .range

/-- An accepted QD_CLK_DIV: the ratios come into force at CLK_DIV_SETTLED. -/
def clkDivEffect (q v : Nat) (s : State) : State := s.setQuad q (fun t => { t with divNext := some v })

/-- CLK_DIV_SETTLED: the new ratios are in force and the write is answered (R395). -/
def clkDivSettled (q : QuadNo) (s : State) : State :=
  match (s.quad q.val).divNext with
  | none => s
  | some v => ((s.setQuad q.val (fun t => { t with divNext := none })).wr .qdClkDiv v q.val).complete (.clkDiv q) .ok

def execClkDivSettled (quad : QuadNo) : State → Out := run (clkDivSettled quad)

/-- An accepted QD_CLK_SEL. -/
def clkSelEffect (q v : Nat) (s : State) : State := (s.wr .qdClkSel v q).settleTrees q

/-- CLK_SWITCH_DONE: the tree runs on the new divider; a selection that changed meanwhile is taken up (R394). -/
def clkSwitchDone (q r : Nat) (s : State) : State :=
  match (s.tree q r).switch with
  | none => s
  | some d =>
    if s.treeRuns q r then (s.setTree q r (fun t => { t with src := d, switch := none })).settleTree q r else s

def execClkSwitchDone (quad : QuadNo) (tree : Fin 4) : State → Out := run (clkSwitchDone quad.val tree.val)

/-- FABRIC_CLK_SELECT: the tree's fabric select lines (R394). -/
def execFabricClkSelect (quad : QuadNo) (tree sel : Fin 4) : State → Out :=
  run (fun s => s.onlyIf (s.alive && !s.quadClosed quad.val) (fun s =>
    (s.setTree quad.val tree.val (fun t => { t with lines := sel })).settleTree quad.val tree.val))

/-- FABRIC_USER_RESET: the tree's fabric reset line (R396). -/
def execFabricUserReset (quad : QuadNo) (tree : Fin 4) (level : Bool) : State → Out :=
  run (fun s => s.onlyIf (s.alive && !s.quadClosed quad.val) (fun s =>
    (s.setTree quad.val tree.val (fun t => { t with fabReset := level })).settleTree quad.val tree.val))

/-- Step 9 for QD_RESET. -/
def qdResetRange (v : Nat) : Status := require (decide (v < 16)) .range

/-- An accepted QD_RESET. -/
def qdResetEffect (q v : Nat) (s : State) : State := (s.wr .qdReset v q).settleTrees q

/-- QD_CLK_STATUS. -/
def State.clkStatus (s : State) (q : Nat) : Nat :=
  if !s.tb.cfgOnRoot then 0 else
    (upto 4).foldl (fun a r =>
      let t := s.tree q r
      let bit (b : Bool) (n : Nat) := if b then 2 ^ n else 0
      a + (bit (!s.treeBySrc q r) 5 + bit t.reset 4 + bit t.switch.isSome 3 + bit (s.treeRuns q r) 2 + t.src.val) * 256 ^ r) 0

/-! ## Trace (R411, R412) -/

def traceMatch (ctl : Nat) : Nat := bits ctl 48 16
def traceMask (ctl : Nat) : Nat := bits ctl 32 16
def tracePost (ctl : Nat) : Nat := bits ctl 19 13
def traceTree (ctl : Nat) : Nat := bits ctl 17 2
def traceSrc (ctl : Nat) : Nat := bits ctl 14 3
def traceBundle (ctl : Nat) : Nat := bits ctl 12 2
def traceCommand (ctl : Nat) : Nat := bits ctl 0 2

/-- Step 9 for QD_TRACE_CTL. -/
def traceRange (v : Nat) : Status :=
  require (decide (tracePost v ≤ 4096) && decide (traceSrc v ≤ 3) && decide (traceBundle v ≤ 2) && bits v 2 10 == 0) .range

/-- Step 8 for QD_TRACE_CTL: COMMAND 0 while the trace is armed. -/
def traceState (s : State) (q v : Nat) : Status := require (!(traceCommand v == 0 && (s.quad q).trace.armed)) .busy

def State.setTrace (s : State) (q : Nat) (f : TraceBuf → TraceBuf) : State :=
  s.setQuad q (fun t => { t with trace := f t.trace })

/-- Samples taken: the newest 4,096 are held. -/
def TraceBuf.take (t : TraceBuf) (l : List (BitVec 16)) : TraceBuf :=
  { t with samples := (l.reverse ++ t.samples).take 4096, taken := t.taken + l.length }

/-- Samples that the trigger lets the buffer take in all; none before the trigger. -/
def TraceBuf.limit (t : TraceBuf) : Option Nat := if t.triggered then some (t.trigAt + 1 + tracePost t.ctl) else none

/-- A triggered trace that holds its POST samples ends (R411). -/
def TraceBuf.settle (t : TraceBuf) : TraceBuf :=
  match t.limit with
  | some n => if t.armed && decide (n ≤ t.taken) then { t with armed := false, done := true } else t
  | none => t

/-- The newest sample is the trigger; `time` is its TIME count. -/
def TraceBuf.trigger (t : TraceBuf) (time : Nat) : TraceBuf :=
  ({ t with triggered := true, forced := false, trigAt := t.taken - 1, trigTime := time }).settle

/-- Bundle that a trace watches. -/
def State.traceBnd (_s : State) (q ctl : Nat) : Nat := 3 * q + traceBundle ctl

/-- COMMAND ARM: the buffer and its status are cleared, and sampling begins. -/
def traceArmEffect (q v : Nat) (s : State) : State :=
  (s.wr .qdTraceCtl (v - traceCommand v) q).setTrace q (fun _ =>
    { ctl := v - traceCommand v, armed := true, toggle := s.trigToggle (s.traceBnd q v) })

/-- COMMAND FORCE: an armed MANUAL trace that is not triggered takes its next sample as the trigger. -/
def traceForceEffect (q v : Nat) (s : State) : State :=
  (s.wr .qdTraceCtl (v - traceCommand v) q).setTrace q (fun t =>
    { t with forced := t.forced || (t.armed && !t.triggered && traceSrc t.ctl == 0) })

/-- COMMAND STOP: sampling ends at once. -/
def traceStopEffect (q v : Nat) (s : State) : State :=
  (s.wr .qdTraceCtl (v - traceCommand v) q).setTrace q (fun t => { t with armed := false, done := true })

/-- COMMAND 0: the fields are stored. -/
def traceSetEffect (q v : Nat) (s : State) : State := s.wr .qdTraceCtl v q

/-- The trigger condition holds at a sample. -/
def State.traceHits (s : State) (q : Nat) (t : TraceBuf) (sample : BitVec 16) : Bool :=
  let b := s.traceBnd q t.ctl
  match traceSrc t.ctl with
  | 0 => t.forced
  | 1 => ((sample ^^^ BitVec.ofNat 16 (traceMatch t.ctl)) &&& BitVec.ofNat 16 (traceMask t.ctl)) == 0#16
  | 2 => s.trigToggle b != t.toggle
  | 3 => s.abortInd b
  | _ => false

/-- What the loaded design does with a byte of its own declarations: a function of the frames that are loaded (log 7). -/
def State.designByte (s : State) (k : Nat) : Byte := Config.designByte (s.cfg.frames.flatMap (fun e => leBytes 4 e.1 ++ e.2)) k

/-! ## Probes and utility pins (R410, R413, R414) -/

/-- An accepted QD_PROBE_SEL: the multiplexers follow at the first rising edge of the trace tree 100 ns later at least. -/
def probeSelEffect (q off : Nat) (data : List Byte) (s : State) : State :=
  let s := s.setDom .qdProbeSel q 0 off data
  s.setQuad q (fun t => { t with probeDue := t.probeDue ++ [(s.time + 175, s.dom .qdProbeSel q 0 0 16)] })

/-- The trace tree: that of the armed trace, else the one that QD_TRACE_CTL names. -/
def State.traceTreeOf (s : State) (q : Nat) : Nat :=
  let t := (s.quad q).trace
  traceTree (if t.armed then t.ctl else s.rd .qdTraceCtl q)

/-- Value of the net that probe n shows; 0 for a code with no net declared. -/
def State.probe (s : State) (q n : Nat) : Bool :=
  s.designed && s.wireAt q (.probe n ((s.quad q).probes.getD n 0).toNat)

/-- The probes as a sample. -/
def State.probeWord (s : State) (q : Nat) : BitVec 16 := BitVec.ofNat 16 (lineField 0 16 (s.probe q))

/-- Byte of the design's declaration of a utility pin: bit 7 declared, bit 0 LVCMOS33, [2:1] input, output, bidirectional, probe
pin, [4:3] its region (log 7). -/
def State.pinByte (s : State) (q n : Nat) : Nat := (s.designByte (0x400000 + 16 * q + n)).toNat

/-- What a utility pin drives; none where it is high-impedance: undeclared, an input, mismatched, its outputs not released, its
region being configured, or its quadrant without power (R410, R413, R414). -/
def State.uioPin (s : State) (q n : Nat) : Option Bool :=
  let b := s.pinByte q n
  let g := s.region q (b / 8 % 4)
  if s.quadClosed q || !s.designed || b < 128 || (s.quad q).uioMismatch.getLsbD n || !g.outputs || g.closed then none
  else match b / 2 % 4 with
    | 0 => none
    | 1 => some (s.wireAt q (.pin n 0))
    | 2 => if s.wireAt q (.pin n 1) then some (s.wireAt q (.pin n 0)) else none
    | _ => some (s.probe q n)

/-! ## Sampling (R410, R411) -/

/-- A rising edge of the trace tree: a probe selection that is due comes into force, and an armed trace takes a sample with it.
`old` is the state before the edge. -/
def State.traceEdge (old : State) (q : Nat) (s : State) : State :=
  let due := (s.quad q).probeDue.filter (fun e => decide (e.1 ≤ s.time))
  let sel (t : Quad) : Quad := { t with
    probes := match due.getLast? with | some e => e.2 | none => t.probes
    probeDue := t.probeDue.filter (fun e => !decide (e.1 ≤ s.time)) }
  let s := s.setQuad q sel
  let x := (old.setQuad q sel).probeWord q
  s.setTrace q (fun t =>
    if !t.armed then t else
      let hit := !t.triggered && old.traceHits q t x
      let t := { t.take [x] with last := s.time, toggle := old.trigToggle (old.traceBnd q t.ctl) }
      if hit then t.trigger s.time else t.settle)

/-- The probes and traces at a new TIME count. -/
def State.traceTick (old s : State) : State :=
  s.each (upto 4) (fun q s =>
    let t := s.quad q
    if (t.trace.armed || !t.probeDue.isEmpty) && old.treeRises q (old.traceTreeOf q) then old.traceEdge q s else s)

/-- TRACE_TRIGGER: the newest sample of an armed trace, taken now, meets the trigger condition. -/
def traceTriggerNow (q : Nat) (s : State) : State :=
  let t := (s.quad q).trace
  match t.samples with
  | x :: _ => s.onlyIf (t.armed && !t.triggered && t.last == s.time && s.traceHits q t x) (fun s =>
      s.setTrace q (fun t => t.trigger s.time))
  | [] => s

def execTraceTrigger (quad : QuadNo) (_ _ : Unit) : State → Out := run (traceTriggerNow quad.val)

/-- TRACE_DONE: the samples after the trigger are taken. -/
def execTraceDone (quad : QuadNo) (_ : Unit) : State → Out := run (fun s => s.setTrace quad.val TraceBuf.settle)

/-- QD_TRACE_STATUS; TRIG_INDEX of a trigger sample that is no longer held has no stated value. -/
def State.traceStatus (s : State) (q : Nat) : Nat × State :=
  let t := (s.quad q).trace
  let bit (b : Bool) (n : Nat) := if b then 2 ^ n else 0
  let valid := t.samples.length
  let lost := t.taken - valid
  let (idx, s) := if !t.triggered then (0, s) else if lost ≤ t.trigAt then (t.trigAt - lost, s) else s.free 13
  (bit t.armed 63 + bit t.triggered 62 + bit t.done 61 + valid * 2 ^ 16 + idx, s)

/-- QD_TRACE_BUF. -/
def TraceBuf.image (t : TraceBuf) : List Byte :=
  padTo 8200 (leBytes 8 t.trigTime ++ t.samples.reverse.flatMap (fun v => leBytes 2 v.toNat))

/-! ## Lane interfaces (R404 to R406) -/

/-- LANE_EQ: taps from the fabric act as a TXEQ write; outside the rules of R239 they are counted (R240, R405). -/
def laneEq (p : Nat) (taps : List Int) (s : State) : State :=
  s.onlyIf (s.alive && decide (p < 96) && s.isSerial p) (fun s =>
    if !tapsOk taps then s.setLane p (fun l => { l with eqReject := min (l.eqReject + 1) 0xFFFF })
    else
      let w := s.wordIndex (bundleOfPort p)
      if (s.lane p).eqDict == some w then s.setLane p (fun l => { l with superseded := true })
      else (s.acceptTaps p taps).setLane p (fun l => { l with eqFabric := some w }))

def execLaneEq (port : PortNo) (pre2 pre1 post1 post2 : Byte) : State → Out :=
  run (laneEq port.val (([pre2, pre1, post1, post2] : List Byte).map (fun b => signed 8 b.toNat)))

/-- RX_OVERFLOW: an entry that found the RX FIFO full is lost and counted (R404). -/
def execRxOverflow (port : PortNo) : State → Out :=
  run (fun s => s.onlyIf (s.laneLive port.val && (s.ser port.val).rxSink == 3 && (s.lane port.val).rx.lost != 0) (fun s =>
    s.setLane port.val (fun l => { l with
      rxOverflow := min (l.rxOverflow + 1) 0xFFFF, rx := { l.rx with lost := l.rx.lost - 1 } })))

/-- A FABRIC record from bytes 10 to 27 (R338, R406). -/
def fabricRecord (time step : Nat) (d : List Byte) : Record :=
  { time := time, cid := fieldAt d 0 2, x := fieldAt d 2 3, y := fieldAt d 5 2, bank := fieldAt d 7 1
    ports := fieldAt d 8 2, exp := fieldAt d 10 2, act0 := fieldAt d 12 2, act1 := fieldAt d 14 2, pos := fieldAt d 16 2
    step := step, type := 6 }

/-- REC_WRITE. -/
def recWrite (p : Nat) (d : List Byte) (s : State) : State :=
  match s.siteOfPort p with
  | none => s
  | some i =>
    s.onlyIf (s.laneLive p && (s.ser p).rxSink == 3 && d.length == 18
        && (s.siteSt i == .running || s.siteSt i == .paused)) (fun s =>
      s.capture i (bundleOfPort p) (fabricRecord s.time (s.run' i).step d))

def execRecWrite (port : PortNo) (data : List Byte) : State → Out := run (recWrite port.val data)

/-! ## NoC fabric port (R407, R408) -/

/-- The request has the form of R407. -/
def fabricForm (r : FabricReq) : Bool :=
  r.addr % 32 == 0 && decide (1 ≤ r.count) && decide (r.count ≤ 64)
    && (!r.write || (r.data.length == 32 * r.count && (r.encode || r.check.length == r.count)))

/-- FABRIC_PORT_REQUEST: the request is outstanding. -/
def fabricPortRequest (q : Nat) (r : FabricReq) (s : State) : State :=
  let l := (s.quad q).requests
  s.onlyIf (s.alive && !s.quadClosed q && fabricForm r && decide (l.length < 256) && l.all (fun x => x.tag != r.tag)) (fun s =>
    s.setQuad q (fun t => { t with requests := t.requests ++ [r] }))

def execFabricPortRequest (quad : QuadNo) (req : FabricReq) : State → Out := run (fabricPortRequest quad.val req)

/-- Targets of a request: what stands at each of its granules. -/
def State.spots (s : State) (r : FabricReq) : List MemSpot := (upto r.count).map (fun k => s.spot (r.addr + 32 * k))

/-- Some granule of a write lies in a protected region (R30). -/
def State.touchesProtected (s : State) (a n : Nat) : Option Nat :=
  ((upto (ceilDiv n 32)).map (fun k => a + 32 * k)).find? s.isProtected

/-- The granules of a fabric write, with the check bytes that the port or the design formed. -/
def fabricGranules (r : FabricReq) : List (List Byte × Option (BitVec 32)) :=
  (upto r.count).map (fun k =>
    ((r.data.drop (32 * k)).take 32, if r.encode then none else some (r.check.getD k 0)))

/-- A request is performed, and its status and data go back (R408). -/
def State.performFabric (s : State) (q : Nat) (r : FabricReq) : State :=
  let l := s.spots r
  let answer (st : Nat) (d : List Byte) (s : State) := s.send (.fabricPort (Fin.ofNat 4 q) r.tag.toNat st d)
  if l.contains .beyond then answer 3 [] s
  else if r.write then
    match s.touchesProtected r.addr (32 * r.count) with
    | some a =>
      let s := s.setQuad q (fun t => { t with protectedWrites := min (t.protectedWrites + 1) 0xFFFFFFFF })
      answer 4 [] (s.protectedWrite (0x20 + q) a)
    | none =>
      let (_, s) := s.writeGranules (r.addr / 32) (fabricGranules r)
      answer (if l.contains .closed then 2 else if l.contains .isolated then 1 else 0) [] s
  else
    let (g, s) := s.readGranules (r.addr / 32) [] r.count
    let poisoned := g.any (·.2)
    let st := if l.contains .closed then 2 else if poisoned then 1 else 0
    let s := if st == 1 then s.setQuad q (fun t => { t with poisonedReads := min (t.poisonedReads + 1) 0xFFFF }) else s
    answer st (g.flatMap (·.1)) s

/-- FABRIC_PORT_RESPONSE: an outstanding request whose channels serve is performed and answered. -/
def fabricPortResponse (q : Nat) (tag : BitVec 8) (s : State) : State :=
  match (s.quad q).requests.find? (fun r => r.tag == tag) with
  | none => s
  | some r =>
    s.onlyIf (s.alive && !(s.spots r).contains .waits) (fun s =>
      let s := s.setQuad q (fun t => { t with requests := t.requests.filter (fun x => x.tag != tag) })
      s.performFabric q r)

def execFabricPortResponse (quad : QuadNo) (tag : BitVec 8) : State → Out := memRun (fabricPortResponse quad.val tag)

/-! ## User objects (R409) -/

/-- A declared user entry: quadrant, type, size, access. -/
structure UserEntry where
  quad : Nat
  type : ObjType
  size : Nat
  acc : Access
  deriving DecidableEq, Repr, Inhabited

/-- The user entry at an address, where the loaded configuration declares one. -/
def State.userEntry (s : State) (a : Addr) : Option UserEntry :=
  if !(0x6000 ≤ a.index.toNat && a.index.toNat ≤ 0x6FFF) || !s.cfg.loaded || s.cfg.loading then none
  else
    let k := 2 * ((a.index.toNat - 0x6000) * 256 + a.sub.toNat)
    let b := (s.designByte k).toNat
    let c := (s.designByte (k + 1)).toNat
    if b < 128 then none
    else
      let type : ObjType := match c % 4 with | 0 => .bool | 1 => .sint | _ => .uint
      let acc : Access := match c / 4 % 5 with | 0 => .ro | 1 => .wo | 2 => .rw | 3 => .rwi | _ => .rwx
      some { quad := b % 4, type := type, size := if c % 4 == 0 then 1 else 2 ^ (b / 4 % 4), acc := acc }

/-- The shadow value of a user entry: of an RO entry what the design keeps there; else what the design accepted last, before that
the default that the configuration declares. -/
def State.shadow (s : State) (a : Addr) : Word :=
  let k := a.index.toNat * 256 + a.sub.toNat
  if (s.userEntry a).any (fun e => e.acc == .ro) then
    Config.roShadow (s.cfg.frames.flatMap (fun e => leBytes 4 e.1 ++ e.2)) k s.time
  else (Store.get none k s.cfg.shadows).getD (Word.of (leNat ((upto 8).map (fun i => s.designByte (0x10000000 + 8 * k + i)))))

/-- An accepted write is presented to the design and waits for its answer. -/
def userWriteEffect (rq : Rq) (a : Addr) (data : List Byte) (s : State) : State :=
  (s.send (.userWrite a data)).openService rq svcWrite a (.user a data)

/-- USER_OBJECT_ANSWER: 0 OK, 1 RANGE, 2 STATE. -/
def userObjectAnswer (rq : Rq) (answer : Fin 3) (s : State) : State :=
  match s.ctl.services.find? (fun o => o.rq == rq && (match o.waits with | .user _ _ => true | _ => false)) with
  | none => s
  | some o =>
    let s := match o.waits, answer with
      | .user a d, 0 => { s with cfg := { s.cfg with
          shadows := Store.put none (a.index.toNat * 256 + a.sub.toNat) (some (Word.of (leNat d))) s.cfg.shadows } }
      | _, _ => s
    let s := { s with ctl := { s.ctl with services := s.ctl.services.filter (· != o) } }
    s.answer o (match answer with | 0 => .ok | 1 => .range | _ => .state)

def execUserObjectAnswer (rq : Rq) (answer : Fin 3) : State → Out := run (userObjectAnswer rq answer)

/-! ## Reads (R415, R416) -/

/-- QD_QUEUE_ERR. -/
def Quad.queueImage (t : Quad) : List Byte := (upto 384).flatMap (fun k => leBytes 2 (Store.get 0 k t.queueErr))

/-- QD_LANE_STATUS. -/
def State.laneImage (s : State) (q : Nat) : List Byte :=
  (upto 24).flatMap (fun i => leBytes 2 (s.lane (24 * q + i)).rxOverflow ++ leBytes 2 (s.lane (24 * q + i)).eqReject)

/-- QD_FAB_STATUS. -/
def Quad.fabWord (t : Quad) : Nat := t.protectedWrites * 2 ^ 32 + t.uioMismatch.toNat * 2 ^ 16 + t.poisonedReads

end Sys2Proof.Machine
end

