-- ==== Sys2Proof/Machine/Loading.lean ====
section
/-! DEFINITION. The configuration loader: frames, the stream parser, authentication, full and partial loads, the upsett,
the frame sentinel and the key RAM (R417 to R444). -/
namespace Sys2Proof.Machine

/-! ## Frames (R417 to R419) -/

/-- Columns and minors of a block type. -/
def frameShape : Nat → Nat × Nat
  | 0 => (512, 8) | 1 => (512, 11) | 2 => (192, 9) | 3 => (3, 16) | 4 => (24, 16) | 5 => (1, 16) | _ => (0, 0)

def frameQuad (a : Nat) : Nat := bits a 18 2
def frameType (a : Nat) : Nat := bits a 15 3
def frameCol (a : Nat) : Nat := bits a 6 9
def frameMinor (a : Nat) : Nat := bits a 0 6

/-- A frame address of R418. -/
def frameValid (a : Nat) : Bool :=
  decide (a < 2 ^ 20) && decide (frameCol a < (frameShape (frameType a)).1) && decide (frameMinor a < (frameShape (frameType a)).2)

/-- The next frame: minor, column, block type, quadrant; none past the last frame of Q3. -/
def nextFrame (a : Nat) : Option Nat :=
  let q := frameQuad a
  let t := frameType a
  let c := frameCol a
  let m := frameMinor a
  if m + 1 < (frameShape t).2 then some (frameAddr q t c (m + 1))
  else if c + 1 < (frameShape t).1 then some (frameAddr q t (c + 1) 0)
  else if t < 5 then some (frameAddr q (t + 1) 0 0)
  else if q < 3 then some (frameAddr (q + 1) 0 0 0)
  else none

/-- Quadrant and region that hold a frame. -/
def frameRegion (a : Nat) : Option (Nat × Nat) :=
  match frameType a with
  | 0 | 1 => some (frameQuad a, frameCol a / 128)
  | 2 => some (frameQuad a, frameCol a / 48)
  | _ => none

/-- Frames of a device. -/
def frameCount : Nat := 47616

/-! ## Packets (R420, R421) -/

/-- COUNT that a register takes; FDATA's is a multiple of 129. -/
def packetCount : Nat → Option Nat
  | 0x1 | 0x2 | 0x4 | 0x5 | 0x8 | 0xB | 0xC | 0xD => some 1
  | 0x3 => some 3
  | 0x6 => some 5
  | 0xA => some 129
  | _ => none

/-- A header word: its register and COUNT, where it is in order. -/
def headerOf (w : Nat) : Option (Nat × Nat) :=
  let reg := bits w 28 4
  let count := bits w 8 20
  let good := crc8 [BitVec.ofNat 8 (bits w 8 8), BitVec.ofNat 8 (bits w 16 8), BitVec.ofNat 8 (bits w 24 8)]
    == BitVec.ofNat 8 (bits w 0 8)
  let fits := if reg == 9 then count % 129 == 0 && decide (1 ≤ count / 129) && decide (count / 129 ≤ 8128)
    else packetCount reg == some count
  if good && fits then some (reg, count) else none

/-- What feeding the parser has given: its state, frames to write, and how it ended. -/
structure Fed where
  parse : Parse
  wrote : List (Nat × List Byte) := []
  /-- blocks authenticated -/
  blocks : Nat := 0
  err : Option (Nat × Nat) := none
  start : Bool := false
  deriving DecidableEq, Repr, Inhabited

/-- The error E of R429 at a frame address or block. -/
def Fed.fail (f : Fed) (code place : Nat) : Fed := { f with err := some (code, place) }

/-- The place of an error that concerns no frame: the block in hand, 0 in a plain stream. -/
def Parse.place (p : Parse) : Nat := if p.keySel == some 0 then 0 else p.block

/-- A frame address may be written by this load (R437). -/
def frameAllowed (k : LoadKind) (a : Nat) : Bool :=
  match k with
  | .full => frameValid a
  | .part q r => frameValid a && frameRegion a == some (q.val, r.val)

/-- Drops n bytes of the body, taking them into the CRC of the next CHECK packet. -/
def Parse.eat (p : Parse) (n : Nat) : Parse :=
  { p with body := p.body.drop n, crc := (p.body.take n).foldl crcByte p.crc }

/-- One frame of an FDATA packet. -/
def frameStep (k : LoadKind) (f : Fed) : Fed :=
  let p := f.parse
  let data := p.body.take 512
  let chk := fieldAt p.body 512 4
  match p.fadr with
  | none => f.fail 8 0
  | some a =>
    if !frameAllowed k a then f.fail 8 a
    else if (crc32c (leBytes 4 a ++ data)).toNat != chk then f.fail 6 a
    else if (frameType a == 1 || frameType a == 5) && Config.selectFault a data then f.fail 7 a
    else
      let p' := p.eat 516
      { f with parse := { p' with frames := p.frames - 1, fadr := nextFrame a },
               wrote := f.wrote ++ [(a, data ++ leBytes 4 chk)] }

/-- The order of an UPSETT word is a permutation of the four steps (R434). -/
def upsettOk (v : Nat) : Bool := [0, 1, 2, 3].all (fun c => (upto 4).any (fun i => bits v (2 * i) 2 == c))

/-- The settings of a BORDER packet hold no 3 (R438). -/
def bordersOk (l : List Byte) : Bool := l.all (fun b => (upto 4).all (fun i => bits b.toNat (2 * i) 2 != 3))

/-- A body packet other than FDATA; `w` is its first word. -/
def bodyPacket (k : LoadKind) (reg : Nat) (f : Fed) : Fed :=
  let p := f.parse
  let w := fieldAt p.body 4 4
  let rest (n : Nat) (g : Parse → Parse) : Fed := { f with parse := g (p.eat n) }
  match reg with
  | 0x8 =>
    if w / 2 ^ 20 != 0 || !frameAllowed k w then f.fail 8 (w % 2 ^ 20) else rest 8 (fun p => { p with fadr := some w })
  | 0xA =>
    let set := (p.body.drop 8).take 512
    let here := match k with | .full => true | .part q r => w == 4 * q.val + r.val
    if w / 16 != 0 || !bordersOk set then f.fail 9 p.place
    else if !here then f.fail 8 p.place
    else rest 520 (fun p => { p with borders := Store.put [] w set p.borders })
  | 0xB =>
    if w / 2 ^ 16 != 0 then f.fail 9 p.place
    else if !upsettOk w then f.fail 12 p.place
    else rest 8 (fun p => { p with upsett := w })
  | 0xC =>
    if (~~~ p.crc).toNat != w then f.fail 10 p.place
    else { f with parse := { p with body := p.body.drop 8, crc := 0xFFFFFFFF } }
  | 0xD =>
    if w != 0xA5E1 then f.fail 9 p.place else { rest 8 id with start := true }
  | _ => f.fail 9 p.place

/-- One step of the body: a frame, a NOP or a packet; none where more bytes are needed. -/
def bodyStep (k : LoadKind) (f : Fed) : Option Fed :=
  let p := f.parse
  if p.frames != 0 then (if p.body.length < 516 then none else some (frameStep k f))
  else if p.body.length < 4 then none
  else
    let w := fieldAt p.body 0 4
    if w == 0 then some { f with parse := p.eat 4 }
    else match headerOf w with
      | none => some (f.fail 9 p.place)
      | some (9, count) => some { f with parse := { p.eat 4 with frames := count / 129 } }
      | some (reg, count) =>
        if p.body.length < 4 + 4 * count then none else some (bodyPacket k reg f)

/-- The body as far as its bytes reach. -/
def bodyRun (k : LoadKind) : Nat → Fed → Fed
  | 0, f => f
  | n + 1, f =>
    if f.err.isSome || f.start then f
    else match bodyStep k f with
      | none => f
      | some g => bodyRun k n g

/-! ## The header (R421, R424) -/

/-- The keys that a stream may name. -/
structure Keys where
  efuse : Option (List Byte)
  ram : Option (List Byte)
  encryptOnly : Bool
  deriving DecidableEq, Repr, Inhabited

def Keys.key (k : Keys) : Nat → Option (List Byte)
  | 1 => k.efuse
  | 2 => k.ram
  | _ => none

/-- PARTIAL, QUAD and REGION of CTL name the load (R421). -/
def ctlOk (k : LoadKind) (ctl : BitVec 32) : Bool :=
  match k with
  | .full => !ctl.getLsbD 0
  | .part q r => ctl.getLsbD 0 && bits ctl.toNat 4 2 == q.val && bits ctl.toNat 2 2 == r.val

/-- What must hold when the header ends. -/
def headerEnds (k : LoadKind) (p : Parse) : Bool :=
  p.devId && p.keySel.isSome && ctlOk k p.ctl && (if p.keySel == some 0 then p.nonce.isEmpty else !p.nonce.isEmpty)

/-- Drops n bytes of the stream as header bytes. -/
def Parse.pass (p : Parse) (n : Nat) : Parse := { p with buf := p.buf.drop n, header := p.header ++ p.buf.take n }

/-- A header packet. -/
def headPacket (keys : Keys) (reg : Nat) (f : Fed) : Fed :=
  let p := f.parse
  let w := fieldAt p.buf 4 4
  let rest (n : Nat) (g : Parse → Parse) : Fed := { f with parse := g (p.pass n) }
  match reg with
  | 0x1 => if w != 0x0096B000 then f.fail 2 0 else rest 8 (fun p => { p with devId := true })
  | 0x2 =>
    if 2 < w then f.fail 9 0
    else if w == 0 && keys.encryptOnly then f.fail 4 0
    else if w != 0 && (keys.key w).isNone then f.fail 3 0
    else rest 8 (fun p => { p with keySel := some w })
  | 0x3 => rest 16 (fun q => { q with nonce := (p.buf.drop 4).take 12 })
  | 0x4 => rest 8 (fun p => { p with mask := BitVec.ofNat 32 w })
  | _ =>
    if bits w 6 26 != 0 || bits w 1 1 != 0 then f.fail 9 0
    else rest 8 (fun p => { p with ctl := (p.ctl &&& ~~~ p.mask) ||| (BitVec.ofNat 32 w &&& p.mask) })

/-! ## Blocks (R422, R423) -/

/-- IV of block n. -/
def blockIv (nonce : List Byte) (n : Nat) : List Byte :=
  nonce.take 8 ++ leBytes 4 ((fieldAt nonce 8 4 + n) % 2 ^ 32)

/-- AAD of block n. -/
def blockAad (header : List Byte) (n len : Nat) : List Byte :=
  leBytes 4 n ++ leBytes 4 len ++ (if n == 0 then header else [])

/-- A block that is complete: its tag is checked, then its packets and the frames that end in it; only if all pass do
they count. -/
def blockStep (k : LoadKind) (keys : Keys) (len : Nat) (tag : List Byte) (f : Fed) : Fed :=
  let p := f.parse
  let n := p.block
  let key := ((p.keySel.bind keys.key)).getD []
  let cipher := p.buf.take len
  let iv := blockIv p.nonce n
  let aad := blockAad p.header n len
  if gcmTag key iv aad cipher != tag then f.fail 5 n
  else
    let clear := gcmPlain key iv cipher
    let last := decide (len < 65536)
    let p' := { p with buf := p.buf.drop len, tag := none, body := p.body ++ clear }
    let g := bodyRun k (p'.body.length + 1) { f with parse := p', blocks := f.blocks + 1 }
    if g.err.isSome then { g with wrote := f.wrote }
    else if last && !g.start then { g.fail 11 n with wrote := f.wrote }
    else if last && !p'.buf.isEmpty then g.fail 9 n
    else { g with parse := { g.parse with block := n + 1, lastBlock := last } }

/-- A TAG packet announces the next block. -/
def tagPacket (f : Fed) : Fed :=
  let p := f.parse
  let len := fieldAt p.buf 4 4
  if len % 4 != 0 || len == 0 || 65536 < len then f.fail 9 p.block
  else { f with parse := { p with buf := p.buf.drop 24, tag := some (len, (p.buf.drop 8).take 16), inBody := true } }

/-! ## The stream (R420 to R424) -/

/-- One step of an encrypted stream after its header. -/
def cipherStep (k : LoadKind) (keys : Keys) (f : Fed) : Option Fed :=
  let p := f.parse
  match p.tag with
  | some (len, t) => if p.buf.length < len then none else some (blockStep k keys len t f)
  | none =>
    if p.lastBlock then (if p.buf.isEmpty then none else some (f.fail 9 p.block))
    else if p.buf.length < 4 then none
    else
      let w := fieldAt p.buf 0 4
      if w == 0 then some { f with parse := { p with buf := p.buf.drop 4 } }
      else match headerOf w with
        | some (6, _) => if p.buf.length < 24 then none else some (tagPacket f)
        | _ => some (f.fail 9 p.block)

/-- One step of a plain stream after its header. -/
def plainStep (k : LoadKind) (f : Fed) : Option Fed :=
  let p := f.parse
  let g := { f with parse := { p with buf := [], body := p.body ++ p.buf } }
  match bodyStep k g with
  | none => if p.buf.isEmpty then none else some g
  | some h => some h

/-- One step of the stream before its body. -/
def headStep (k : LoadKind) (keys : Keys) (f : Fed) : Option Fed :=
  let p := f.parse
  if p.buf.length < 4 then none
  else
    let w := fieldAt p.buf 0 4
    if !p.synced then
      some (if w == 0x96C30E5B then { f with parse := { p.pass 4 with synced := true } } else f.fail 1 0)
    else if w == 0 then some { f with parse := p.pass 4 }
    else match headerOf w with
      | none => some (f.fail 9 0)
      | some (reg, count) =>
        if reg ≤ 5 then (if p.buf.length < 4 + 4 * count then none else some (headPacket keys reg f))
        else if !headerEnds k p then some (f.fail 9 0)
        else if p.keySel == some 0 then
          if reg == 6 then some (f.fail 9 0) else some { f with parse := { p with inBody := true } }
        else if reg == 6 then (if p.buf.length < 24 then none else some (tagPacket f))
        else some (f.fail 9 0)

/-- One step of the stream. -/
def streamStep (k : LoadKind) (keys : Keys) (f : Fed) : Option Fed :=
  if !f.parse.inBody then headStep k keys f
  else if f.parse.keySel == some 0 then plainStep k f
  else cipherStep k keys f

/-- The stream as far as its bytes reach. -/
def streamRun (k : LoadKind) (keys : Keys) : Nat → Fed → Fed
  | 0, f => f
  | n + 1, f =>
    if f.err.isSome || f.start then f
    else match streamStep k keys f with
      | none => f
      | some g => streamRun k keys n g

/-! ## Chunks (R426, R429, R432) -/

/-- The loader's keys. -/
def State.keys (s : State) : Keys := { efuse := s.fuses.efuseKey, ram := s.cfg.keyRam, encryptOnly := s.fuses.encryptOnly }

/-- Step 8 for a chunk: a load of that kind is open and receiving. -/
def chunkState (s : State) (quad : Option QuadNo) : Status :=
  match s.cfg.load, quad with
  | some l, none => require (l.kind == .full && l.phase == .receive) .state
  | some l, some q =>
    match l.kind, l.phase with
    | .part q' _, .wipe => if q' == q then .busy else .state
    | .part q' _, .receive => require (q' == q) .state
    | _, _ => .state
  | none, some q => if s.cfg.rewipe.any (fun e => e.1 == q) then .busy else .state
  | none, none => .state

/-- Status that answers a chunk on which the load failed (R426). -/
def chunkStatus (code : Nat) : Status := if code == 3 || code == 4 || code == 5 then .authFail else .range

/-- Counts bytes and blocks of a load. -/
def State.countLoad (s : State) (k : LoadKind) (bytes blocks : Nat) : State :=
  match k with
  | .full => (s.bump .devCfgBytes 0 0 bytes).bump .devCfgBlocks 0 0 blocks
  | .part q _ => s.bump .qdPrBytes q.val 0 bytes

/-- Frames are written. -/
def State.writeFrames (s : State) (k : LoadKind) (l : List (Nat × List Byte)) : State :=
  let s := { s with cfg := { s.cfg with frames := l.foldl (fun st e => Store.put [] e.1 e.2 st) s.cfg.frames } }
  match k with
  | .full => s.wr .devCfgFrames s.cfg.frames.length
  | .part _ _ => s

/-- START_UPSETT of a full load with a frame that is not written (R429). -/
def State.incomplete (s : State) (k : LoadKind) : Bool :=
  match k with
  | .full => s.cfg.frames.length != frameCount
  | .part _ _ => false

/-- The upsett begins (R432). -/
def State.beginUpsett (s : State) : State :=
  match s.cfg.load with
  | none => s
  | some l =>
    let s := { s with cfg := { s.cfg with load := some { l with phase := .upsett, steps := 0, stepTime := s.elapsed } } }
    match l.kind with
    | .full => s
    | .part q r => s.setRegion q.val r.val (fun g => { g with st := .upsett })

/-- A chunk is consumed: its status, and the state after. -/
def chunkEffect (data : List Byte) (s : State) : Status × State :=
  match s.cfg.load with
  | none => (.state, s)
  | some l =>
    let p := { l.parse with buf := l.parse.buf ++ data }
    let f := streamRun l.kind s.keys (p.buf.length + p.body.length + 2) { parse := p }
    let s := (s.countLoad l.kind data.length f.blocks).writeFrames l.kind f.wrote
    let s := { s with cfg := { s.cfg with load := some { l with parse := f.parse, chunkAt := s.elapsed } } }
    let s := match l.kind with
      | .full => (s.wr .devCfgUpsett f.parse.upsett).wr .devCfgKeysel (f.parse.keySel.getD 0)
      | .part _ _ => s
    match f.err with
    | some (code, place) => (chunkStatus code, s.failLoad code place (chunkStatus code))
    | none =>
      if f.start then
        if s.incomplete l.kind then (.range, s.failLoad 11 f.parse.place .range) else (.ok, s.beginUpsett)
      else (.ok, s)

/-- CFG_STALLED: 10 s without an accepted chunk (R428). -/
def cfgStalled (s : State) : State :=
  match s.cfg.load with
  | some l => if l.phase == .receive && s.passed l.chunkAt (10 * ticksPerSecond) then s.failLoad 14 0 .ok else s
  | none => s

def execCfgStalled : State → Out := run cfgStalled

/-! ## Starting a load (R79, R425, R437, R439) -/

/-- The sentinel scans. -/
def State.scans (s : State) : Bool := s.alive && s.cfg.loaded

/-- TIME ticks of a full pass: 2 s at most (R440). -/
def passTicks : Nat := 1 + Config.sentinelPass % 3500000000

/-- DEV_SENT_PASSES: full passes since the last full load. -/
def State.sentPasses (s : State) : Nat :=
  if s.scans then min (s.cfg.passes + (s.time - s.cfg.scanFrom) / passTicks) 0xFFFFFFFF else s.cfg.passes

/-- DEV_SENT_PASS_TIME in µs. -/
def State.sentPassTime (s : State) : Nat := if s.cfg.scanned || decide (0 < s.sentPasses) then passTicks / 1750 else 0

/-- A site is dissolved: its bundles are FREE (R80). -/
def State.dissolve (s : State) (i : Nat) : State :=
  let s := (s.armAborted i).wr .siteBundles 0 i
  s.setSite i (fun t =>
    if t.discarding.isSome then { discarding := t.discarding, run := t.run, ring := t.ring } else {})

def State.dissolveAll (s : State) : State := s.each (upto 12) (fun i s => if s.siteSt i == .none then s else s.dissolve i)

/-- Step 8 for BEGIN_FULL. The wipe that follows a failed partial load is a wipe too (R79, R439). -/
def beginFullState (s : State) : Status :=
  let d := s.devState
  firstRefusal
    [require ((d == 1 || d == 3) && !s.anySite (fun t => t.active || t == .aborting) && (s.rootLocked || s.tb.state == 2)
        && (upto 4).all (fun q => !s.quadClosed q)) .state,
     require (!s.dev.wiping && !s.dev.selfTest && s.cfg.load.isNone && s.cfg.rewipe.isEmpty) .busy]

/-- Everything of the fabric is held and gated (R425). -/
def Region.heldDown (g : Region) : Region := { g with gsr := true, writes := false, clocks := false, outputs := false }

def State.eachRegion (s : State) (f : Region → Region) : State :=
  s.each (upto 16) (fun k s => s.setRegion (k / 4) (k % 4) f)

/-- An accepted BEGIN_FULL; calibration cycles end as in an abort, since every port goes inert (R382, R425, log 162). -/
def beginFullEffect (s : State) : State :=
  let s := s.dissolveAll
  let s := s.each (upto 12) (fun b s => (s.stopCal b).2)
  let s := s.each (upto 108) (fun p s => s.cutPort p)
  let s := s.eachRegion Region.heldDown
  let s := { s with cfg := { s.cfg with load := some { kind := .full, phase := .receive, chunkAt := s.elapsed }, loaded := false, errPin := false,
                                        passes := s.sentPasses, shadows := [], frames := [] } }
  let s := (((s.wr .devCfgError 0).wr .devCfgErrWhere 0).wr .devCfgBytes 0).wr .devCfgBlocks 0
  (((s.wr .devCfgFrames 0).wr .devCfgUpsett 0xE4).wr .devCfgKeysel 0)

/-- Bundles that region r of quadrant q feeds, as bits j (R436). -/
def State.regionFeeds (s : State) (q r : Nat) : Nat :=
  if s.cfg.loaded then (s.designByte (0x500000 + 4 * q + r)).toNat % 8 else 0

/-- A region feeds a bundle of a site. -/
def State.regionUsed (s : State) (q r i : Nat) : Bool :=
  (s.bundlesOf i).any (fun b => b / 3 == q && (s.regionFeeds q r).testBit (b % 3))

/-- Step 8 for QD_PR_COMMAND. -/
def prState (s : State) (q r : Nat) : Status :=
  let d := s.devState
  firstRefusal
    [require (3 ≤ d && d ≤ 6) .state,
     require (s.cfg.load.isNone && !s.dev.selfTest && !s.cfg.rewipe.contains (Fin.ofNat 4 q, Fin.ofNat 4 r)) .busy,
     require ((upto 12).all (fun i =>
       !(((s.siteSt i).active || s.siteSt i == .aborting) && s.regionUsed q r i))) .state]

/-- Step 9 for QD_PR_COMMAND. -/
def prRange (v : Nat) : Status := require (bits v 4 4 == 1 && bits v 2 2 == 0) .range

/-- An accepted QD_PR_COMMAND BEGIN: the latches close and the wipe begins. -/
def prEffect (q r : Nat) (s : State) : State :=
  let was := s.signals q r
  let s := s.setRegion q r (fun g => { g.heldDown with st := .wiping, closed := true, latched := was })
  let s := s.wr .qdPrBytes 0 q
  let s := { s with cfg := { s.cfg with errPin := false } }
  { s with cfg := { s.cfg with load := some { kind := .part (Fin.ofNat 4 q) (Fin.ofNat 4 r), phase := .wipe, chunkAt := s.elapsed } } }

/-- The frames of a region are blank. -/
def State.blankRegion (s : State) (q r : Nat) : State :=
  { s with cfg := { s.cfg with frames := s.cfg.frames.filter (fun e => frameRegion e.1 != some (q, r)) } }

/-- PR_WIPE_DONE. -/
def prWipeDone (q : QuadNo) (r : Fin 4) (s : State) : State :=
  match s.cfg.load with
  | some l =>
    if l.kind == .part q r && l.phase == .wipe then
      let s := (s.blankRegion q.val r.val).setRegion q.val r.val (fun g => { g with st := .receiving })
      { s with cfg := { s.cfg with load := some { l with phase := .receive, chunkAt := s.elapsed } } }
    else s
  | none => s

def execPrWipeDone (quad : QuadNo) (region : Fin 4) : State → Out := run (prWipeDone quad region)

/-- PR_FAIL_WIPE_DONE: the region is EMPTY behind its latches (R439). -/
def prFailWipeDone (q : QuadNo) (r : Fin 4) (s : State) : State :=
  s.onlyIf (s.cfg.rewipe.contains (q, r)) (fun s =>
    let s := (s.blankRegion q.val r.val).setRegion q.val r.val (fun g => { g with st := .empty })
    { s with cfg := { s.cfg with rewipe := s.cfg.rewipe.filter (· != (q, r)) } })

def execPrFailWipeDone (quad : QuadNo) (region : Fin 4) : State → Out := run (prFailWipeDone quad region)

/-! ## The upsett (R432 to R435, R438) -/

/-- The load and the regions that an upsett step's row names: the device, or region 4q + r. -/
def kindOf : Option (Fin 16) → LoadKind
  | none => .full
  | some k => .part (Fin.ofNat 4 (k.val / 4)) (Fin.ofNat 4 k.val)

/-- When a load's next upsett step begins: at once for the first, after GAP for the others (R432). -/
def Load.stepBegins (l : Load) : Nat := l.stepTime + (if l.steps == 0 then 0 else ticksPerUs * bits l.parse.upsett 8 8)

/-- The load whose next upsett step has this code. A later step comes GAP µs after the one before it; while TIME does not run its
row is that instant (R432, R434, log 3). -/
def State.upsettAt (s : State) (region : Option (Fin 16)) (code : Nat) : Option Load :=
  match s.cfg.load with
  | some l =>
    let due := decide (l.stepBegins ≤ s.elapsed)
    if l.phase == .upsett && l.kind == kindOf region && decide (l.steps < 4) && due && bits l.parse.upsett (2 * l.steps) 2 == code
    then some l else none
  | none => none

/-- The regions of a load. -/
def LoadKind.regions : LoadKind → List Nat
  | .full => upto 16
  | .part q r => [4 * q.val + r.val]

/-- Applies a change to the regions of a load. -/
def State.onRegions (s : State) (k : LoadKind) (f : Region → Region) : State :=
  s.each k.regions (fun g s => s.setRegion (g / 4) (g % 4) f)

/-- UIO pins of a quadrant whose declared standard does not match their bank (R413). -/
def State.uioMismatch (s : State) (q : Nat) : BitVec 16 :=
  let bank33 := if q < 2 then s.fuses.bankA33 else s.fuses.bankB33
  BitVec.ofNat 16 ((upto 16).foldl (fun a n =>
    let b := s.pinByte q n
    a + (if 128 ≤ b && (b % 2 == 1) != bank33 then 2 ^ n else 0)) 0)

/-- QD_CLK_DIV and QD_CLK_SEL of a quadrant's CLOCK frames. -/
def State.frameClkDiv (s : State) (q : Nat) : Nat :=
  (upto 4).foldl (fun a d => a + ((s.designByte (0x300000 + 16 * q + d)).toNat + 1) * 2 ^ (16 * d)) 0
def State.frameClkSel (s : State) (q : Nat) : Nat :=
  (s.designByte (0x300000 + 16 * q + 8)).toNat + (s.designByte (0x300000 + 16 * q + 9)).toNat * 256

/-- The upsett completes (R433, R435, R438). -/
def State.upsettDone (s : State) (l : Load) : State :=
  let s := s.onRegions l.kind (fun g => { g with st := .ready, clocks := true, lags := [2, 2, 2, 2] })
  let s := s.each l.kind.regions (fun g s => s.freshRegion (g / 4) (g % 4))
  let s := l.parse.borders.foldl (fun s e => s.setDom .qdBorderState (e.1 / 4) 0 (512 * (e.1 % 4)) e.2) s
  let s := { s with cfg := { s.cfg with load := none } }
  match l.kind with
  | .full =>
    let s := { s with cfg := { s.cfg with loaded := true, scanned := s.cfg.scanned || decide (0 < s.cfg.passes), passes := 0, scanFrom := s.time } }
    s.each (upto 4) (fun q s =>
      ((s.wr .qdClkDiv (s.frameClkDiv q) q).wr .qdClkSel (s.frameClkSel q) q).wr .qdPrCount 0 q |>.settleTrees q)
  | .part q _ => s.bump .qdPrCount q.val

/-- One step of the upsett is performed. -/
def upsettStep (region : Option (Fin 16)) (code : Nat) (f : LoadKind → State → State) (s : State) : State :=
  match s.upsettAt region code with
  | none => s
  | some l =>
    let s := f l.kind s
    let l := { l with steps := l.steps + 1, stepTime := s.elapsed }
    if l.steps == 4 then s.upsettDone l else { s with cfg := { s.cfg with load := some l } }

/-- WAIT_LOCK takes effect when the timebase reports ROOT locked. -/
def execWaitLock (region : Option (Fin 16)) : State → Out :=
  run (fun s => s.onlyIf s.rootLocked (upsettStep region 0 (fun _ s => s)))

/-- LOCK_TIMEOUT: WAIT_LOCK does not complete within 100 ms (R429). -/
def lockTimeout (region : Option (Fin 16)) (s : State) : State :=
  match s.upsettAt region 0 with
  | some l => if s.rootLocked || !s.passed l.stepBegins (100 * ticksPerMs) then s else s.failLoad 13 l.parse.place .ok
  | none => s

def execLockTimeout (region : Option (Fin 16)) : State → Out := run (lockTimeout region)

def execReleaseGsr (region : Option (Fin 16)) : State → Out :=
  run (upsettStep region 1 (fun k s => s.onRegions k (fun g => { g with gsr := false })))

def execEnableWrites (region : Option (Fin 16)) : State → Out :=
  run (upsettStep region 2 (fun k s => s.onRegions k (fun g => { g with writes := true })))

/-- RELEASE_OUTPUTS: outputs are released and border latches open; pins that do not match their bank stay inert. -/
def releaseOutputs (k : LoadKind) (s : State) : State :=
  let s := s.onRegions k (fun g => { g with outputs := true, closed := false })
  match k with
  | .full => s.each (upto 4) (fun q s => s.setQuad q (fun t => { t with uioMismatch := s.uioMismatch q }))
  | .part _ _ => s

def execReleaseOutputs (region : Option (Fin 16)) : State → Out := run (upsettStep region 3 releaseOutputs)

/-! ## Wiping the configuration (R78, R79, R435) -/

/-- UNLOAD and CLEAR_FAULT wipe the configuration: the design is gone at once, the frames by CONFIG_WIPE_COMPLETE. -/
def State.unloadConfig (s : State) : State :=
  let s := s.dissolveAll
  let s := s.each (upto 16) (fun k s => s.setRegion (k / 4) (k % 4) (fun _ => {}))
  let s := s.each (upto 4) (fun q s =>
    ((s.setReg .qdClkDiv Obj.qdClkDiv.dflt q).setReg .qdClkSel Obj.qdClkSel.dflt q).settleTrees q)
  { s with dev := { s.dev with wiping := true, wipeSince := s.elapsed }, cfg := { s.cfg with loaded := false, passes := s.sentPasses, shadows := [] } }

/-- CONFIG_WIPE_COMPLETE: the frames are blank; an UNLOAD or CLEAR_FAULT that waits is answered. -/
def configWipeComplete (s : State) : State :=
  s.onlyIf s.dev.wiping (fun s =>
    let s := s.each (upto 16) (fun k s => s.setRegion (k / 4) (k % 4) (fun _ => {}))
    let s := { s with dev := { s.dev with wiping := false }, cfg := { s.cfg with frames := [] } }
    (s.wr .devCfgWipeTime (s.microsSince s.dev.wipeSince)).complete .unload .ok)

def execConfigWipeComplete (_ : Unit) : State → Out := run configWipeComplete

/-! ## Frame sentinel (R440 to R442) -/

/-- The sentinel reads a frame: not QRAM_INIT, not of a quadrant that is off (R518), and not of a region under a partial
load. -/
def State.sentinelReads (s : State) (a : Nat) : Bool :=
  s.scans && frameValid a && frameType a != 2 && !s.quadClosed (frameQuad a) &&
  (match frameRegion a with
   | some (q, r) => (s.region q r).st == .ready
   | none => true)

/-- The site is concerned by a frame: it uses the frame's region, or has a bundle in the frame's quadrant. -/
def State.frameHits (s : State) (a i : Nat) : Bool :=
  s.siteSt i != .none &&
  (match frameRegion a with
   | some (q, r) => s.regionUsed q r i
   | none => (s.bundlesOf i).any (fun b => b / 3 == frameQuad a))

/-- CFG_FRAME_MISMATCH. -/
def frameMismatch (a : Nat) (s : State) : State :=
  s.onlyIf (s.sentinelReads a) (fun s =>
    let s := (s.bump .devSentMismatches).wr .devSentLastMismatch a
    let s := s.raise 0x1C02 4 (frameQuad a) a
    if s.rd .devSentAction == 1 then
      s.each (upto 12) (fun i s => if s.frameHits a i then s.abortSite i 0x1C02 false else s)
    else s)

def execCfgFrameMismatch (frame : BitVec 20) : State → Out := run (frameMismatch frame.toNat)

/-- CFG_SENTINEL_VOTE: the scan starts again from the first frame. -/
def execCfgSentinelVote : State → Out :=
  run (fun s => s.onlyIf s.scans (fun s => 
    let s := { s with cfg := { s.cfg with passes := s.sentPasses, scanFrom := s.time } }
    (s.bump .devSentVoteUpsets).raise 0x1C03))

/-! ## Key RAM (R443) -/

/-- Step 8 for DEV_KEY_RAM and DEV_KEY_RAM_CLEAR. -/
def keyState (s : State) : Status := require (s.devState == 1 && s.cfg.load.isNone && !s.dev.wiping && s.cfg.rewipe.isEmpty) .state

/-- Step 9 for DEV_KEY_RAM: the whole key (log 42). -/
def keyRange (off : Nat) (data : List Byte) : Status := require (off == 0 && data.length == 32) .range

def keyRamEffect (data : List Byte) (s : State) : State := { s with cfg := { s.cfg with keyRam := some data } }
def keyClearEffect (s : State) : State := { s with cfg := { s.cfg with keyRam := none } }

/-- VBAT_LOW: below 1.0 V the key RAM is cleared (R525). -/
def execVbatLow (millivolts : BitVec 16) : State → Out :=
  run (fun s => s.onlyIf (decide (millivolts.toNat < 1000)) keyClearEffect)

/-! ## Reads (R443, R444) -/

/-- DEV_CFG_STATE. -/
def State.cfgState (s : State) : Nat :=
  if s.dev.wiping then 4
  else match s.cfg.load with
    | some l =>
      if l.kind == .full then (if l.phase == .upsett then 2 else 1) else if s.cfg.loaded then 3 else 0
    | none => if s.cfg.loaded then 3 else 0

/-- CFG_DONE (R425, R435). -/
def State.cfgDone (s : State) : Bool := s.cfg.loaded && !s.cfg.loading

/-- DEV_KEY_STATUS. -/
def State.keyStatus (s : State) : Nat :=
  (if s.fuses.efuseKey.isSome then 1 else 0) + (if s.cfg.keyRam.isSome then 2 else 0) + (if s.fuses.encryptOnly then 4 else 0)

def RegionSt.code : RegionSt → Nat
  | .empty => 0 | .wiping => 1 | .receiving => 2 | .upsett => 3 | .ready => 4

/-- QD_PR_STATE. -/
def State.prStateWord (s : State) (q : Nat) : Nat :=
  (upto 4).foldl (fun a r => a + (s.region q r).st.code * 16 ^ r) 0

/-- QD_REGION_FEEDS. -/
def State.feedsWord (s : State) (q : Nat) : Nat := (upto 4).foldl (fun a r => a + s.regionFeeds q r * 256 ^ r) 0

end Sys2Proof.Machine
end

