-- ==== Sys2Proof/Machine/Noc.lean ====
section
/-! DEFINITION. The on-chip network: topology, routing tables and their check, table swaps, link retries, and the answers
of edge routers for isolated and closed endpoints (R445 to R462). -/
namespace Sys2Proof.Machine

/-! ## Topology (R445, R446) -/

/-- Links in the order of LINK_UP: 0 N, 1 S, 2 E, 3 W. The router at the far end of link l of router n. -/
def nocPeer (n l : Nat) : Nat :=
  let q := n / 6
  let x := n % 6
  match l with
  | 0 => 6 * ((q + 3) % 4) + x
  | 1 => 6 * ((q + 1) % 4) + x
  | 2 => 6 * q + (x + 1) % 6
  | _ => 6 * q + (x + 5) % 6

/-- The same link's number at its far end. -/
def nocBack (l : Nat) : Nat := match l with | 0 => 1 | 1 => 0 | 2 => 3 | _ => 2

/-- The link closes the ring of its row or column (R445, R450). -/
def nocWrap (n l : Nat) : Bool :=
  match l with
  | 0 => n / 6 == 0
  | 1 => n / 6 == 3
  | 2 => n % 6 == 5
  | _ => n % 6 == 0

/-- Edge routers of an endpoint; none where the identifier is unassigned (R446). -/
def edgeRouters (d : Nat) : List Nat :=
  if d < 12 then [6 * (d / 3) + 2 * (d % 3)]
  else if 16 ≤ d && d < 28 then [6 * ((d - 16) / 3) + 2 * ((d - 16) % 3)]
  else if 32 ≤ d && d < 36 then [6 * (d - 32) + 1, 6 * (d - 32) + 3, 6 * (d - 32) + 5]
  else match d with
    | 48 => [5] | 49 => [11] | 50 => [17] | 51 => [23] | _ => []

/-- The endpoint at L0 and at L1 of a router, 0x3F for none (R446, R462). -/
def localEndpoint (n : Nat) (second : Bool) : Nat :=
  let q := n / 6
  let x := n % 6
  if x % 2 == 0 then (if second then 16 else 0) + 3 * q + x / 2
  else if !second then 32 + q
  else if x == 5 then 48 + q else 0x3F

/-- The default table: along the row first, then along the column; a tie goes to E and to S (R453). -/
def defaultByte (n d : Nat) : Nat :=
  let es := edgeRouters d
  match es with
  | [] => 0
  | e :: _ =>
    if es.contains n then 1
    else
      let x := n % 6
      let east := (es.map (fun r => (r % 6 + 6 - x) % 6)).foldl min 6
      let west := (es.map (fun r => (x + 6 - r % 6) % 6)).foldl min 6
      if east == 0 then (if (e / 6 + 4 - n / 6) % 4 ≤ 2 then 3 else 2)
      else if east ≤ west then 4 else 5

/-! ## Tables (R452 to R454) -/

/-- What an unlisted byte of a table reads as. -/
def defaultEntry (k : Nat) : Byte := BitVec.ofNat 8 (defaultByte (k / 64) (k % 64))

/-- Byte k of the table of an epoch. -/
def Noc.entry (t : Noc) (epoch : Bool) (k : Nat) : Byte :=
  Store.get (defaultEntry k) k (if epoch then t.tableB else t.tableA)

/-- Writes bytes of a table. -/
def putTable (k : Nat) : List Byte → Store Byte → Store Byte
  | [], l => l
  | v :: vs, l => putTable (k + 1) vs (Store.put (defaultEntry k) k v l)

/-- Writes bytes of the shadow. -/
def Noc.writeShadow (t : Noc) (k : Nat) (bytes : List Byte) : Noc :=
  if t.epoch then { t with tableA := putTable k bytes t.tableA } else { t with tableB := putTable k bytes t.tableB }

/-- DEV_NOC_SHADOW and DEV_NOC_ACTIVE. -/
def Noc.image (t : Noc) (epoch : Bool) (off n : Nat) : List Byte := (upto n).map (fun i => t.entry epoch (off + i))

/-! ## Routes (R455) -/

/-- A link is down at either of its ends. -/
def Noc.linkDown (t : Noc) (n l : Nat) : Bool :=
  t.down.any (fun k => k.val == 4 * n + l || k.val == 4 * nocPeer n l + nocBack l)

/-- A channel of a route: router, link, dateline class (R450). -/
structure Hop where
  router : Nat
  link : Nat
  cls : Nat
  deriving DecidableEq, Repr, Inhabited

/-- The walk from router n toward d within a number of hops; none where it does not reach an edge router of d. A packet
enters a ring in class 0 and is in class 1 from the ring's wrap link on (log 44). -/
def nocWalk (port : Nat → Nat) (edges : List Nat) : Nat → Nat → Option (Bool × Nat) → Option (List Hop)
  | fuel, n, ring =>
    if port n == 1 then (if edges.contains n then some [] else none)
    else match fuel with
      | 0 => none
      | fuel + 1 =>
        if port n < 2 || 5 < port n then none
        else
          let l := port n - 2
          let row := decide (2 ≤ l)
          let before := match ring with
            | some (r, c) => if r == row then c else 0
            | none => 0
          let cls := if nocWrap n l then 1 else before
          (nocWalk port edges fuel (nocPeer n l) (some (row, cls))).map (fun t => ⟨n, l, cls⟩ :: t)

/-- The route from router n to endpoint d under the table of an epoch. -/
def Noc.route (t : Noc) (epoch : Bool) (n d : Nat) : Option (List Hop) :=
  nocWalk (fun r => (t.entry epoch (64 * r + d)).toNat) (edgeRouters d) 10 n none

/-- A route uses a down link or a router with FAULT. -/
def Noc.routeDown (t : Noc) (n : Nat) (l : List Hop) : Bool :=
  let faulty (r : Nat) := t.faults.any (·.val == r)
  faulty n || l.any (fun h => t.linkDown h.router h.link || faulty (nocPeer h.router h.link))

/-- Number of a channel. -/
def Hop.key (h : Hop) : Nat := 8 * h.router + 2 * h.link + h.cls

/-- Channel dependencies of a route. -/
def hopPairs (l : List Hop) : List (Nat × Nat) := (l.zip (l.drop 1)).map (fun e => (e.1.key, e.2.key))

/-- Dependencies left when those that no cycle can hold are taken away, again and again: a dependency whose second
channel leads nowhere, or whose first nothing leads to. -/
def cycleDeps : Nat → List (Nat × Nat) → List (Nat × Nat)
  | 0, l => l
  | n + 1, l => cycleDeps n (l.filter (fun e => l.any (fun f => f.1 == e.2) && l.any (fun f => f.2 == e.1)))

/-- Assigned endpoints. -/
def endpoints : List Nat := (upto 64).filter (fun d => !(edgeRouters d).isEmpty)

/-- Dependencies of every route of a table that lie on a cycle. -/
def Noc.cycles (t : Noc) (epoch : Bool) : List (Nat × Nat) :=
  cycleDeps 192 (((upto 24).flatMap (fun n => endpoints.flatMap (fun d => hopPairs ((t.route epoch n d).getD [])))).eraseDups)

/-- The first rule of R455 that router n and endpoint d fail, 0 for none. -/
def Noc.pairReason (t : Noc) (epoch : Bool) (cyc : List (Nat × Nat)) (n d : Nat) : Nat :=
  let es := edgeRouters d
  let port := (t.entry epoch (64 * n + d)).toNat
  if es.isEmpty != (port == 0) then 1
  else if es.isEmpty then 0
  else if es.contains n != (port == 1) then 2
  else match t.route epoch n d with
    | none => 3
    | some l => if t.routeDown n l then 4 else if (hopPairs l).any (fun e => cyc.contains e) then 5 else 0

/-- The check of a table: reason, router and endpoint of the first failure (R455). -/
def Noc.check (t : Noc) (epoch : Bool) : Option (Nat × Nat × Nat) :=
  let cyc := t.cycles epoch
  (upto 24).findSome? (fun n => (upto 64).findSome? (fun d =>
    let r := t.pairReason epoch cyc n d
    if r == 0 then none else some (r, n, d)))

/-! ## Shadow and swap (R454 to R456, R461) -/

/-- Step 8 for DEV_NOC_SHADOW and DEV_NOC_SWAP. -/
def nocIdle (s : State) : Status := require (s.noc.swap == 0) .busy

/-- Step 9 for DEV_NOC_SHADOW (R452). -/
def nocShadowRange (data : List Byte) : Status := require (data.all (fun b => decide (b.toNat < 6))) .range

def nocShadowEffect (off : Nat) (data : List Byte) (s : State) : State :=
  { s with noc := s.noc.writeShadow off data }

/-- SWAP: the shadow is checked, DEV_NOC_SWAP_RESULT is set, and Back-pressure begins where the check passes. -/
def nocSwapEffect (rq : Rq) (service : Nat) (a : Addr) (s : State) : Status × State :=
  match s.noc.check (!s.noc.epoch) with
  | some (r, n, d) => (.range, s.wr .devNocSwapResult (0x06 * 2 ^ 24 + r * 2 ^ 16 + n * 2 ^ 8 + d))
  | none =>
    let s := { s.wr .devNocSwapResult 0 with noc := { s.noc with swap := 1, swapSince := s.elapsed } }
    (.ok, s.openService rq service a .swap)

/-- The default table goes into the shadow. -/
def nocDefaultEffect (s : State) : State :=
  { s with noc := if s.noc.epoch then { s.noc with tableA := [] } else { s.noc with tableB := [] } }

/-- NOC_BACKPRESSURE_DONE: within 64 NOC cycles, which are TIME ticks (R181), the epoch flips. -/
def nocBackpressureDone (cycles : Fin 65) (s : State) : State :=
  s.onlyIf (s.noc.swap == 1) (fun s =>
    { s.wr .devNocBpMax cycles.val with noc := { s.noc with swap := 2, swapSince := s.elapsed, epoch := !s.noc.epoch } })

def execNocBackpressureDone (cycles : Fin 65) : State → Out := run (nocBackpressureDone cycles)

/-- NOC_DRAIN_DONE: the swap is complete and answered. -/
def nocDrainDone (s : State) : State :=
  s.onlyIf (s.noc.swap == 2) (fun s =>
    let s := (s.wr .devNocDrainTime (min (s.elapsed - s.noc.swapSince) 0xFFFFFFFF)).bump .devNocSwapCount
    let s := { s with noc := { s.noc with swap := 0 } }
    s.complete .swap .ok)

def execNocDrainDone (_ : Unit) : State → Out := run nocDrainDone

/-! ## Head flits (R448) -/

/-- The header of a packet (R448). -/
structure NocHead where
  dest : Nat
  src : Nat
  vc : Nat
  epoch : Bool
  type : Nat
  status : Nat
  poison : Bool
  tag : Nat
  count : Nat
  reserved : Nat := 0
  addr : Nat
  deriving DecidableEq, Repr, Inhabited

/-- The fields of a header. -/
def nocHead (w : BitVec 96) : NocHead :=
  let f (lo n : Nat) := bits w.toNat lo n
  { dest := f 90 6, src := f 84 6, vc := f 81 3, epoch := w.getLsbD 80, type := f 76 4, status := f 73 3, poison := w.getLsbD 72,
    tag := f 64 8, count := f 57 7, reserved := f 40 17, addr := f 0 40 }

/-- The header of its routing fields and its bits [79:0] (R448). -/
def headOf (dest src : BitVec 6) (vc : BitVec 3) (epoch : Bool) (rest : BitVec 80) : BitVec 96 :=
  dest ++ src ++ vc ++ BitVec.ofBool epoch ++ rest

/-- The header of given fields. -/
def NocHead.word (h : NocHead) : BitVec 96 :=
  BitVec.ofNat 96 (((((((((((h.dest % 64) * 64 + h.src % 64) * 8 + h.vc % 8) * 2 + h.epoch.toNat) * 16 + h.type % 16) * 8
    + h.status % 8) * 2 + h.poison.toNat) * 256 + h.tag % 256) * 128 + h.count % 128) * 2 ^ 17 + h.reserved % 2 ^ 17) * 2 ^ 40
    + h.addr % 2 ^ 40)

/-- A header that no endpoint forms (R449). -/
def NocHead.malformed (h : NocHead) : Bool :=
  decide (6 ≤ h.type) || (edgeRouters h.dest).isEmpty || h.reserved != 0 || decide (64 < h.count)

/-! ## Links and routers (R448, R449, R457, R541) -/

/-- A link is declared down. -/
def State.linkFails (s : State) (n l : Nat) : State :=
  let k := Fin.ofNat 96 (4 * n + l)
  let s := { s with noc := { s.noc with
    down := if s.noc.down.contains k then s.noc.down else s.noc.down ++ [k]
    since := if s.noc.down.contains k then s.noc.since else Store.put 0 k.val s.elapsed s.noc.since } }
  s.raise 0x1802 0 0 (4 * n + l)

/-- NOC_LINK_RETRY: `failures` retries of one flit failed. -/
def nocLinkRetry (n l failures : Nat) (s : State) : State :=
  s.onlyIf (s.alive && !s.noc.linkDown n l) (fun s =>
    let k := 4 * n + l
    let count := min (Store.get 0 k s.noc.retries + min (failures + 1) 8) 0xFFFF
    let s := { s with noc := { s.noc with retries := Store.put 0 k count s.noc.retries } }
    if 8 ≤ failures then s.linkFails n l else s)

def execNocLinkRetry (router : Fin 24) (link : Fin 4) (failures : Nat) : State → Out :=
  run (nocLinkRetry router.val link.val failures)

/-- NOC_MALFORMED: a router receives a head flit that is malformed, and absorbs the packet (R449). -/
def execNocMalformed (seen : HeadAt) : State → Out :=
  run (fun s => s.onlyIf (s.alive && (nocHead seen.head).malformed) (fun s =>
    (s.bump .devNocMalformed).raise 0x1801 0 0 seen.router.val))

/-- Some route of the active table needs a link. -/
def Noc.needs (t : Noc) (n l : Nat) : Bool :=
  (upto 24).any (fun r => endpoints.any (fun d =>
    ((t.route t.epoch r d).getD []).any (fun h =>
      (h.router == n && h.link == l) || (nocPeer h.router h.link == n && nocBack h.link == l))))

/-- NOC_LINK_DOWN_TIMEOUT: a fault that the tables did not isolate in 10 ms is device-wide (R77, R457). -/
def nocLinkDownTimeout (n l : Nat) (s : State) : State :=
  let old (k : Nat) : Bool := s.passed (Store.get 0 k s.noc.since) (10 * ticksPerMs)
  let far := 4 * nocPeer n l + nocBack l
  let out := (s.noc.down.any (fun k => k.val == 4 * n + l) && old (4 * n + l)) || (s.noc.down.any (fun k => k.val == far) && old far)
    || (s.noc.faults.any (·.val == n) && old (96 + n))
  s.onlyIf (s.alive && out && s.noc.needs n l) (fun s => (s.raise 0x1804 0 0 n).deviceFault 0x1804)

def execNocLinkDownTimeout (router : Fin 24) (link : Fin 4) : State → Out :=
  run (nocLinkDownTimeout router.val link.val)

/-- NOC_LINK_UP: a link that injection held down retrains once its DEV_IJ_DURATION has passed. -/
def nocLinkUp (n l : Nat) (s : State) : State :=
  let k := Fin.ofNat 96 (4 * n + l)
  s.onlyIf (s.alive && s.noc.held.contains k && decide (Store.get 0 k.val s.noc.heldTill ≤ s.elapsed)) (fun s =>
    let s := { s with noc := { s.noc with
      held := s.noc.held.filter (· != k), down := s.noc.down.filter (· != k) } }
    s.raise 0x1803 0 0 (4 * n + l))

def execNocLinkUp (router : Fin 24) (link : Fin 4) : State → Out := run (nocLinkUp router.val link.val)

/-! ## Isolated and closed endpoints (R458) -/

/-- Quadrant of an endpoint that lies in one. -/
def quadOfEndpoint (d : Nat) : Option Nat :=
  if d < 12 then some (d / 3)
  else if 16 ≤ d && d < 28 then some ((d - 16) / 3)
  else if 32 ≤ d && d < 36 then some (d - 32)
  else none

def State.endpointClosed (s : State) (d : Nat) : Bool :=
  match quadOfEndpoint d with
  | some q => s.quadClosed q
  | none => false

def State.endpointIsolated (s : State) (d : Nat) : Bool :=
  if d < 12 then (s.bnd d).failed
  else if 16 ≤ d && d < 28 then (s.chan (d - 16)).st == .isolated
  else false

/-- The answer of an edge router to a request: back to its source on the response's channel, with the request's tag and address,
in the epoch of new packets (R448, R450, R454). -/
def State.edgeAnswer (s : State) (h : NocHead) (type count : Nat) (poison : Bool) (status : Nat) : State :=
  let r : NocHead := { dest := h.src, src := h.dest, vc := h.vc + 1, epoch := s.noc.epoch, type := type, status := status,
                       poison := poison, tag := h.tag, count := count, addr := h.addr }
  s.send (.nocAnswer r.word)

/-- ISOLATED_TARGET_ANSWER: the edge router answers a packet for an isolated or closed endpoint. Types as R448: 0 RD_REQ, 1 WR_REQ,
4 CTL_REQ, the others responses. A packet of the other epoch than the present one is old (R458). -/
def isolatedAnswer (h : NocHead) (s : State) : State :=
  let closed := s.endpointClosed h.dest
  s.onlyIf (s.alive && !h.malformed && (closed || s.endpointIsolated h.dest)) (fun s =>
    let status := if closed then 2 else 1
    let s := if h.epoch != s.noc.epoch then s.bump .devNocStaleAbsorbed else s
    let s := if h.vc == 4 && h.type == 1 then s.bump .devNocFlushAbsorbed else s
    match h.type with
    | 0 => (s.bump .devNocPoisonedReads).edgeAnswer h 2 h.count true status
    | 1 => (s.bump .devNocAbsorbedWrites).edgeAnswer h 3 0 false status
    | 4 => s.edgeAnswer h 5 0 false status
    | _ => s.bump .devNocAbsorbedWrites)

def execIsolatedTargetAnswer (dest src : BitVec 6) (vc : BitVec 3) (epoch : Bool) (rest : BitVec 80) : State → Out :=
  run (isolatedAnswer (nocHead (headOf dest src vc epoch rest)))

/-! ## Reads (R461, R462) -/

/-- DEV_NOC_ISOLATED. -/
def State.nocIsolated (s : State) : Nat := (upto 64).foldl (fun a d => a + (if s.endpointIsolated d then 2 ^ d else 0)) 0

/-- DEV_NOC_CLOSED: CLOSING in [7:4], powered down in [3:0]. -/
def State.nocClosed (s : State) : Nat :=
  (upto 4).foldl (fun a q =>
    a + match (s.quad q).power with | .on => 0 | .closing => 2 ^ (4 + q) | _ => 2 ^ q) 0

/-- DEV_NOC_ROUTER_FAULT. -/
def Noc.faultBits (t : Noc) : Nat := (upto 24).foldl (fun a n => a + (if t.faults.any (·.val == n) then 2 ^ n else 0)) 0

/-- The links of a router with a property, N, S, E, W at [3] to [0]. -/
def linkBits (p : Nat → Bool) : Nat := (upto 4).foldl (fun a l => a + (if p l then 2 ^ (3 - l) else 0)) 0

/-- QD_NOC_ROUTER_STATUS. Whether old-epoch packets stand at a router during a swap is a free value. -/
def State.routerStatus (s : State) (n : Nat) : Nat × State :=
  let fault := if s.noc.faults.any (·.val == n) then 2 ^ 31 else 0
  let (old, s) := if s.noc.swap == 0 then (0, s) else s.free 1
  (fault + old * 2 ^ 30 + localEndpoint n false * 2 ^ 18 + localEndpoint n true * 2 ^ 12
    + linkBits (fun l => !s.noc.linkDown n l), s)

/-- QD_NOC_LINK_ERR: RETRIES over the router's links. -/
def Noc.linkErr (t : Noc) (n : Nat) : Nat :=
  let sum := min ((upto 4).foldl (fun a l => a + Store.get 0 (4 * n + l) t.retries) 0) 0xFFFF
  sum * 2 ^ 16 + linkBits (t.linkDown n)

end Sys2Proof.Machine
end

