-- ==== Sys2Proof/Machine/QuadPower.lean ====
section
/-! DEFINITION. Powering a quadrant down and up: the fence, the Switch, Restore and Open phases, and their failure (R459,
R518 to R520, R528). -/
namespace Sys2Proof.Machine

def quadBundles (q : Nat) : List Nat := [3 * q, 3 * q + 1, 3 * q + 2]
def quadPorts (q : Nat) : List Nat := (quadBundles q).flatMap portsOfBundle

/-- QD_PWR_STATE. -/
def QuadPower.code : QuadPower → Nat
  | .on => 0 | .closing => 1 | .off => 2 | .switching | .restoring => 3

/-- A fence or a power-up of any quadrant runs. -/
def State.quadBusy (s : State) : Bool :=
  (upto 4).any (fun q => match (s.quad q).power with | .closing | .switching | .restoring => true | _ => false)

/-- A site that is not inert has a region on a channel of the quadrant (R477). -/
def State.quadInUse (s : State) (q : Nat) : Bool :=
  (upto 12).any (fun i => ((s.siteSt i).active || s.siteSt i == .aborting) && (quadBundles q).any (fun c => s.siteHolds i c))

/-- Step 8 for QD_PWR_COMMAND (R518, R519). -/
def qdPowerState (s : State) (q v : Nat) : Status :=
  match v with
  | 1 => firstRefusal
      [require ((s.quad q).power == .on && (quadBundles q).all (fun b => (s.siteOf b).isNone) && !s.quadInUse q) .state,
       require (!s.cfg.loading && !s.quadBusy) .busy]
  | 2 => firstRefusal [require ((s.quad q).power == .off) .state, require (!s.quadBusy) .busy]
  | _ => .ok

/-- An accepted POWER_DOWN: the endpoints are CLOSING, a partial load of the quadrant ends, calibration stops. -/
def qdDownEffect (q : Nat) (s : State) : State :=
  let s := match s.cfg.load with
    | some l =>
      match l.kind with
      | .part k _ => if k.val == q then s.failLoad 15 0 .aborted else s
      | .full => s
    | none => s
  let s := s.each (quadBundles q) (fun b s => (s.stopCal b).2)
  s.setQuad q (fun t => { t with power := .closing, since := s.elapsed })

/-- The channels of a quadrant lose their power; a RETRAIN of one ends (R464, R481). -/
def State.channelsOff (s : State) (q : Nat) : State :=
  s.each (quadBundles q) (fun c s =>
    let s := if (s.chan c).retraining then s.wr .devMemCmdState 0 else s
    s.setChan c (fun ch => { ch with st := .off, retraining := false, scrubNow := false }))

/-- FENCE_DRAIN_DONE: the domain is off and its ports are inert; a TIME tick is 4/7 ns (R459). -/
def fenceDrainDone (q : Nat) (s : State) : State :=
  s.onlyIf ((s.quad q).power == .closing) (fun s =>
    let nanos := (s.elapsed - (s.quad q).since) * 4 / 7
    let s := s.each (quadPorts q) (fun p s => s.cutPort p)
    let s := (s.setQuad q (fun t => { t with power := .off, requests := [] })).channelsOff q
    (s.wr .devNocFenceTime nanos).bump .qdPwrCycles q)

def execFenceDrainDone (quad : QuadNo) (_ : Unit) : State → Out := run (fenceDrainDone quad.val)

/-- An accepted POWER_UP. -/
def qdUpEffect (q : Nat) (s : State) : State := s.setQuad q (fun t => { t with power := .switching, failed := false, since := s.elapsed, upSince := s.elapsed })

/-- QD_SWITCH_DONE: the rails stand within 1 ms, and the channels begin their training (R464, R519). -/
def qdSwitchDone (q : Nat) (s : State) : State :=
  s.onlyIf ((s.quad q).power == .switching && decide (s.elapsed ≤ (s.quad q).since + ticksPerMs)) (fun s =>
    let s := s.each (quadBundles q) (fun c s => s.setChan c (fun ch => { ch with st := .init, initSince := s.elapsed, retraining := false }))
    s.setQuad q (fun t => { t with power := .restoring, since := s.elapsed }))

def execQdSwitchDone (quad : QuadNo) : State → Out := run (qdSwitchDone quad.val)

/-- Counters of a bundle and of a port read 0 after a power-up (R519). -/
def clearBundleCounters (b : Nat) (s : State) : State :=
  (s.wr .bndAbortCount 0 b).setBnd b (fun t => { t with
    pool := { t.pool with interlocks := 0 }
    meas := { t.meas with writeCount := 0, syncCount := 0 }
    pe := {}
    cap := {}
    inj := { t.inj with hits := 0, fired := 0, violations := 0 } })

def clearPortCounters (p : Nat) (s : State) : State :=
  let s := (((s.wr .portCycleCount 0 p).wr .portFailCount 0 p).wr .portCalCount 0 p).wr .portEventCount 0 p
  s.setPort p (fun t => { t with lane := { t.lane with
    lockLosses := 0, codeErrors := 0, rxOverflow := 0, eqReject := 0
    rx := { t.lane.rx with check := { t.lane.rx.check with bits := 0, errors := 0 } } } })

/-- A region after Restore: released again where it was READY and its upsett has not failed, else EMPTY (R519, R520). -/
def restoreRegion (q : Nat) (failed : List (Fin 4)) (r : Nat) (s : State) : State :=
  if (s.region q r).st != .ready then s.setRegion q r (fun _ => {})
  else if failed.any (·.val == r) then (s.setRegion q r (fun _ => {})).raise 0x1C01 4 q 13 0
  else (s.setRegion q r (fun _ =>
    { st := .ready, closed := false, gsr := false, writes := true, clocks := true, outputs := true, lags := [2, 2, 2, 2] })).freshRegion q r

/-- QD_RESTORE_DONE: within 90 ms the quadrant opens. Its context images are lost, its counters read 0, its trims are those of the
engine. -/
def qdRestoreDone (q : Nat) (failed : List (Fin 4)) (s : State) : State :=
  s.onlyIf ((s.quad q).power == .restoring && decide (s.elapsed ≤ (s.quad q).since + 90 * ticksPerMs) && (quadBundles q).all (fun c => (s.chan c).st != .init)) (fun s =>
    let s := s.each (upto 4) (restoreRegion q failed)
    let s := { s with ctxs := s.ctxs.filter (fun e => e.1 / 12288 != q) }
    let s := s.each (quadBundles q) clearBundleCounters
    let s := s.each (quadPorts q) clearPortCounters
    let s := s.setQuad q (fun t => { t with power := .on, held := [] })
    let s := s.each (quadPorts q) (fun p s => s.recompute p)
    s.wr .qdPwrUpTime (s.microsSince (s.quad q).upSince) q)

def execQdRestoreDone (quad : QuadNo) (failedRegions : List (Fin 4)) (_ : Unit) : State → Out :=
  run (qdRestoreDone quad.val failedRegions)

/-- QD_PWR_UP_FAILED: a phase has run out of its 1 ms or 90 ms, and the domain's power is removed again (R520). -/
def qdPwrUpFailed (q : Nat) (s : State) : State :=
  let phase := match (s.quad q).power with | .switching => 1 | .restoring => 2 | _ => 0
  s.onlyIf (phase != 0 && s.passed (s.quad q).since ((if phase == 1 then 1 else 90) * ticksPerMs)) (fun s =>
    let micros := s.microsSince (s.quad q).since
    let s := (s.setQuad q (fun t => { t with power := .off, failed := true })).channelsOff q
    (s.wr .qdPwrFaultCause 0x2408 q).raise 0x2408 4 q phase micros)

def execQdPwrUpFailed (quad : QuadNo) (_ : Unit) : State → Out := run (qdPwrUpFailed quad.val)

end Sys2Proof.Machine
end

