-- ==== Sys2Proof/Machine/Inject.lean ====
section
/-! DEFINITION. Internal fault injection (R539 to R542). -/
namespace Sys2Proof.Machine

/-! ## Writes (R539, R540) -/

/-- A value written to DEV_IJ_UNLOCK: 0xA5 within 10 ms of 0x5A unlocks. -/
def ijUnlockEffect (v : Nat) (s : State) : State :=
  let soon := decide (s.elapsed ≤ s.ij.firstAt + 10 * ticksPerMs)
  let opens := v == 0xA5 && s.ij.first && soon && s.ij.state == 0
  { s with ij := { s.ij with
      first := v == 0x5A, firstAt := s.elapsed
      state := if opens then 1 else s.ij.state
      openedAt := if opens then s.elapsed else s.ij.openedAt } }

/-- The target, unit and parameters are written only while UNLOCKED. -/
def ijParamState (s : State) : Status := require (s.ij.state == 1) .state

/-- UNIT is one that the target allows. -/
def ijUnitOk (target unit : Nat) : Bool :=
  if 1 ≤ target && target ≤ 3 then decide (unit / 256 < 24) && decide (unit % 256 < 4)
  else if 4 ≤ target && target ≤ 7 then decide (unit < 4)
  else unit == 0

/-- Step 8 for DEV_IJ_CONTROL. -/
def ijControlState (s : State) (v : Nat) : Status :=
  let target := s.rd .devIjTarget
  let warp := 4 ≤ target && target ≤ 7
  if v != 1 then .ok
  else firstRefusal
    [require (s.ij.state == 1 && !(warp && !(s.reg .devWarpOutEn).getLsbD (s.rd .devIjUnit % 4))) .state,
     require (!s.dev.selfTest) .busy]

/-- Step 9 for DEV_IJ_CONTROL. -/
def ijControlRange (s : State) (v : Nat) : Status :=
  let target := s.rd .devIjTarget
  require (v != 1 || (target != 0 && ijUnitOk target (s.rd .devIjUnit)
    && !(target == 3 && decide (3 < s.rd .devIjSymbols)))) .range

/-- ARM and DISARM. -/
def ijControlEffect (v : Nat) (s : State) : State :=
  if v == 1 then { s.bump .devIjArms with ij := { s.ij with
    state := 2, left := s.rd .devIjCount, due := s.elapsed + s.rd .devIjInterval * ticksPerUs } }
  else { s with ij := { s.ij with state := 0, left := 0 } }

/-! ## Events (R541) -/

/-- What one injection does at its target. -/
def ijAct (target unit : Nat) (s : State) : State :=
  let router := unit / 256 % 32
  let link := unit % 4
  match target with
  | 1 => nocLinkRetry router link 0 s
  | 2 =>
    let s := { s with noc := { s.noc with
      held := s.noc.held ++ [Fin.ofNat 96 (4 * router + link)]
      heldTill := Store.put 0 (4 * router + link) (s.elapsed + s.rd .devIjDuration * ticksPerUs) s.noc.heldTill } }
    s.linkFails router link
  | 7 => { s with tb := { s.tb with
      quiet := s.tb.quiet ++ [Fin.ofNat 4 link]
      quietTill := Store.put 0 link (s.elapsed + s.rd .devIjDuration * ticksPerUs) s.tb.quietTill } }
  | 8 => { s with ij := { s.ij with rxDrop := s.ij.rxDrop + 1 } }
  | 9 => { s with ij := { s.ij with txDrop := s.ij.txDrop + 1 } }
  | 10 => { s with ij := { s.ij with corrupt := s.ij.corrupt + 1 } }
  | _ => { s with ij := { s.ij with armed := s.ij.armed ++ [(target, unit)] } }

/-- IJ_FIRED: one injection, when its interval has passed; after the last the state is LOCKED and IJ_DONE is raised. -/
def ijFired (s : State) : State :=
  s.onlyIf (s.alive && s.ij.state == 2 && decide (0 < s.ij.left) && decide (s.ij.due ≤ s.elapsed)) (fun s =>
    let target := s.rd .devIjTarget
    let unit := s.rd .devIjUnit
    let s := (s.bump .devIjFired).wr .devIjLastTime s.time
    let s := { s.raise 0x2801 0 0 target unit with ij := { s.ij with
      left := s.ij.left - 1, watch := true, due := s.ij.due + s.rd .devIjInterval * ticksPerUs } }
    let s := ijAct target unit s
    if s.ij.left == 0 then { s with ij := { s.ij with state := 0 } }.raise 0x2802 0 0 (s.rd .devIjCount) else s)

def execIjFired : State → Out := run ijFired

/-- IJ_WINDOW_EXPIRY: DEV_IJ_WINDOW has passed without an ARM. -/
def execIjWindowExpiry : State → Out :=
  run (fun s => s.onlyIf (s.ij.state == 1 && s.passed s.ij.openedAt (s.rd .devIjWindow * ticksPerSecond)) (fun s => { s with ij := { s.ij with state := 0 } }))

/-- WARP_QUIET_END: a quieted Warp-out sends again once its DEV_IJ_DURATION has passed. -/
def execWarpQuietEnd (out : Fin 4) : State → Out :=
  run (fun s => s.onlyIf (s.tb.quiet.contains out && decide (Store.get 0 out.val s.tb.quietTill ≤ s.elapsed)) (fun s =>
    { s with tb := { s.tb with quiet := s.tb.quiet.filter (· != out) } }))

end Sys2Proof.Machine
end

