-- ==== Sys2Proof/Machine/Arm.lean ====
section
/-! DEFINITION. Arm-time validation: the sixteen checks, the snapshot of the step list, and what an ARM that is answered
OK resets (R25, R65 to R67, R224, R227, R275, R276, R301 to R306, R316, R341, R348, R477, R545, R546). -/
namespace Sys2Proof.Machine

/-! ## Failures and objects (R64, R65) -/

/-- A failed check: status, check, step, SITE_ARM_OBJECT. -/
structure ArmFail where
  status : Status
  check : Nat
  step : Nat := 0
  obj : Nat := 0
  deriving DecidableEq, Repr, Inhabited

/-- SITE_ARM_OBJECT of an entry. -/
def armObject (index sub : Nat) : Nat := index * 2 ^ 16 + sub * 2 ^ 8

/-- SITE_ARM_OBJECT of a port's entry PB + off. -/
def portObject (p off : Nat) : Nat := armObject (0x4000 + 0x40 * p + off) 0

/-! ## Reading descriptors (R545) -/

/-- n bytes from a byte address as validation reads them; none where a granule is uncorrectable. What lies beyond the
memory reads as zero: the descriptor fails its own check. -/
def State.armRead (s : State) (a n : Nat) : Option (List Byte) × State :=
  let g := a / 32
  let k := ceilDiv (a % 32 + n) 32
  if decide (s.memCap < 32 * (g + k)) then (some (List.replicate n 0), s)
  else
    let (l, s) := s.readGranules g [] k
    match (l.map consumed).mapM id with
    | some d => (some ((d.flatten.drop (a % 32)).take n), s)
    | none => (none, s)

/-- n bytes lie inside one region of the site; `bound`: a SHARED region does not serve (R477). -/
def State.fits (s : State) (i : Nat) (bound : Bool) (a n : Nat) : Bool :=
  insideOne (if bound then s.boundRegions i else s.siteRegions i) a n

/-! ## Checks of the site (1 to 5, 16) -/

/-- The site's regions hold a channel with a property. -/
def State.siteChan (s : State) (i : Nat) (p : ChanSt → Bool) : Bool :=
  (upto 12).any (fun c => p (s.chan c).st && s.siteHolds i c)

/-- A command of the site that was accepted and is not answered, beside the ARM itself: a command on the contexts of one of
its bundles, or a change of LINE that one of them is settling to. Nothing of it may act once the site is ARMED (R28), nor
change the LINE setting that the run takes (R21, R25; log 124). -/
def State.commandPending (s : State) (i : Nat) : Bool :=
  (s.bundlesOf i).any (fun b => (s.bnd b).lineNext.isSome || !(s.bnd b).pe.staged.isEmpty
    || s.ctl.services.any (fun o => o.waits == .ctxCmd (Fin.ofNat 12 b) || o.waits == .line (Fin.ofNat 12 b)))

/-- Checks 1 to 5. -/
def siteChecks (s : State) (i : Nat) (host : Bool) : Option ArmFail :=
  let base := s.rd .siteStepBase i
  let count := s.rd .siteStepCount i
  let bs := s.bundlesOf i
  let lead := s.lead i
  let same (b : Nat) := s.lineP b * s.lineQ lead == s.lineP lead * s.lineQ b
  if s.siteSt i != .ready || (s.site i).discarding.isSome || s.commandPending i || !(s.rootLocked || s.tb.state == 2) then some ⟨.state, 1, 0, 0⟩
  else if s.siteChan i (· == .init) then some ⟨.busy, 1, 0, 0⟩
  else if s.rd .controlOwner != (if host then 2 else 1) then some ⟨.locked, 2, 0, armObject 0x2000 4⟩
  else if !(decide (1 ≤ count) && decide (count ≤ 256)) then some ⟨.range, 3, 0, armObject (Obj.siteStepCount.index i) 2⟩
  else if !s.fits i false base (256 * count) then some ⟨.lenOver, 4, 0, armObject (Obj.siteStepBase.index i) 1⟩
  else match bs.find? (fun b => !same b) with
    | some b => some ⟨.range, 5, 0, armObject 0x2201 (b + 1)⟩
    | none => none

/-- Check 16. -/
def lastCheck (s : State) (i : Nat) : Option ArmFail :=
  let g := s.rd .siteLockstep i
  let other := (upto 12).any (fun j => j != i && s.siteSt j != .none && s.rd .siteLockstep j == g)
  if s.siteChan i (· == .isolated) then some ⟨.hwFault, 16, 0, 0⟩
  else if g != 0 && (s.role == 0 || other) then some ⟨.state, 16, 0, armObject (Obj.siteLockstep.index i) 0⟩
  else none

/-! ## Check 7 (R546) -/

/-- Top rate of a memory personality in Mb/s, and twice the bits that one symbol counts (R301). -/
def topRate : Nat → Nat × Nat
  | 2 => (3200, 2) | 3 => (8800, 2) | 4 => (4267, 2) | 5 => (10700, 2) | 6 => (24000, 2) | _ => (48000, 3)

/-- The data rate lies within R302: at least 0.5 GBd, at most 1.2 times the top rate. -/
def rateOk (pers p q : Nat) : Bool :=
  let (top, bits2) := topRate pers
  decide (q ≤ 112 * p) && decide (280000 * bits2 * p ≤ 12 * top * q)

/-- Geometry of R304. -/
def geometryOk (r : StepRec) : Bool :=
  [1, 2, 4].contains r.ranks && [1, 2, 4, 8].contains r.bgCount && [1, 2, 4, 8, 16].contains r.banksPerBg
    && decide (r.banks ≤ 32) && decide (10 ≤ r.rowBits) && decide (r.rowBits ≤ 18) && decide (3 ≤ r.colBits)
    && decide (r.colBits ≤ 12) && [8, 16, 32].contains r.bl

/-- PFLAGS sets only bits that R323 allows. -/
def pflagsOk (r : StepRec) : Bool :=
  decide (r.pflags < 64) && (!r.caParity || [2, 3, 7].contains r.pers) && (!r.wcrc || [2, 3, 6, 7].contains r.pers)
    && (!r.rcrc || [3, 6, 7].contains r.pers)

/-- Highest IDX of a role (R305). -/
def roleMax : Nat → Nat
  | 2 => 7 | 3 => 3 | 4 => 17 | 5 => 63 | 6 => 7 | 7 => 7 | 8 => 7 | 11 => 3 | _ => 0

/-- A role is allowed for a personality (R306). -/
def roleAllowed (pers : Nat) : Nat → Bool
  | 2 | 8 => [5, 6, 7].contains pers
  | 12 => pers == 2
  | 11 => pers == 2 || pers == 4
  | n => decide (n ≤ 12)

/-- The signal-map conditions of R306, in the order of its table; the object that fails. -/
def sigMapFails (s : State) (r : StepRec) (duts : List Nat) : Option Nat :=
  let ents := (duts.zip (upto duts.length)).map (fun e => (e.1, r.role e.2))
  let roles := ents.map (·.2)
  let has (x : Nat × Nat) := roles.contains x
  let any (n : Nat) := roles.any (fun x => x.1 == n)
  let roleAt (p : Nat) := ((ents.find? (fun e => e.1 == p)).map (fun e => e.2.1)).getD 0
  let firstPort (bad : Nat → Nat × Nat → Bool) := (ents.find? (fun e => bad e.1 e.2)).map (fun e => portObject e.1 0x18)
  let twice (p : Nat) (x : Nat × Nat) := x.1 != 0 && ents.any (fun e => decide (e.1 < p) && e.2 == x)
  let cfg := s.ser
  let out (n : Nat) := [1, 2, 3, 4, 6, 7, 10, 11, 12].contains n
  if (r.sigMap.drop (2 * duts.length)).any (· != 0#8) then some 0
  else (firstPort (fun _ x => !roleAllowed r.pers x.1))
    |>.or (firstPort (fun p x => decide (roleMax x.1 < x.2) || twice p x))
    |>.or (if has (1, 0) && any 3 && has (5, 0) && (any 6 || any 2) && (upto r.ranks).all (fun n => has (3, n)) then none
           else some 0)
    |>.or (firstPort (fun p x => x.1 != 0 && (!s.isSerial p || (cfg p).rxClk != 0
        || (if r.pers == 7 && x.1 == 5 then (cfg p).mod != 1 || (cfg p).mapping != 0 else (cfg p).mod != 0))))
    |>.or (firstPort (fun p x => [1, 2, 6].contains x.1 && (!(cfg p).pair || p % 2 == 1 || roleAt (p + 1) != 0)))
    |>.or (firstPort (fun p x =>
        (out x.1 && (cfg p).txSource != 0)
        || (x.1 == 5 && ((cfg p).txSource != 0 || (cfg p).rxSink != 0))
        || ([8, 9].contains x.1 && ((cfg p).txSource != 3 || (cfg p).rxSink != 0))))
    |>.or (firstPort (fun p x => x.1 == 0 && r.mappedPorts.contains p && !s.isEdge p))

/-- Rows 1 to 5. -/
def personalityFails (s : State) (i : Nat) (r first : StepRec) : Option Nat :=
  if 8 ≤ r.pers || r.pers != first.pers
      || (r.isMemory && ((r.entry.drop 161).take 9 != (first.entry.drop 161).take 9 || r.sigMap != first.sigMap)) then some 0
  else if !r.isMemory then none
  else if !geometryOk r then some 0
  else if !rateOk r.pers (s.lineP (s.lead i)) (s.lineQ (s.lead i)) then some (armObject 0x2201 (s.lead i + 1))
  else if !((r.init == 0 || hasSequence r r.init) && pflagsOk r) then some 0
  else sigMapFails s r (s.dutPortsOf i)

/-- Formats of the timing sets in a step's mask that a port defines (R218). -/
def State.stepSets (s : State) (r : StepRec) (p : Nat) : List TSet :=
  ((bitsOf r.tsetMask 256).map (s.tset p)).filter (fun t => t.period != 0)

/-- Rows 6 to 9 for one DUT port; the odd port of a pair is tested with the lane's configuration (R235). -/
def portFails (s : State) (i p : Nat) (r : StepRec) : Option Nat :=
  let mapped := r.mappedPorts.contains p
  let sets := if s.isEdge p then s.stepSets r p else []
  let c := s.ser (s.lanePort p)
  let slow :=
    if s.isSerial p then c.mod != 0 || decide (s.lineQ (bundleOfPort p) < 35 * s.lineP (bundleOfPort p))
    else mapped && sets.any (fun t => t.format == 5 || t.format == 6 || decide (t.period < 35840))
  let pam3 := sets.any (fun t => t.format == 5)
  let pam4 := sets.any (fun t => t.format == 6)
  if mapped && !s.isEdge p then some (portObject p 0x10)
  else if s.lowSpeed p && slow then some (portObject p 0x01)
  else if (pam3 && !s.levelsAscend p 1) || (pam4 && !s.levelsAscend p 2) then some (portObject p 0x02)
  else if (pam3 && !s.thresholdsAscend p 1) || (pam4 && !s.thresholdsAscend p 2) then some (portObject p 0x04)
  else if s.isSerial p && serArmFails s i p then some (portObject p 0x18)
  else none

/-! ## Check 10 (R316) -/

/-- The entry and the rule of the timing table that fail first. -/
def timingFails (r : StepRec) : Option (Nat × Nat) :=
  let t := r.timingEntry
  let pick (rule : Nat) (l : List Nat) (bad : Nat → Bool) := (l.find? bad).map (fun e => (e, rule))
  (pick 1 ((upto 32).map (· + 32)) (fun e => t e != 0))
    |>.or (pick 2 (upto 32) (fun e => decide (1048575 < t e)))
    |>.or (pick 3 [0, 1, 2, 3, 5, 6, 14] (fun e => t e == 0))
    |>.or (if t 6 < t 5 + t 3 then some (6, 4) else none)
    |>.or (if t 8 < t 7 then some (8, 5) else if t 15 < t 14 then some (15, 5) else if t 13 < t 12 then some (13, 5)
           else if t 9 < t 7 then some (9, 5) else none)
    |>.or (if t 14 * symbolsPerCk r.pers < r.bl then some (14, 6) else none)
    |>.or (pick 7 [27, 28] (fun e => decide (8 < t e)))
    |>.or (if r.refAuto && decide (t 17 ≤ t 18 + t 4) then some (17, 8)
           else if r.refPerBank && decide (t 17 ≤ t 19) then some (17, 8) else none)

/-- BEAT of a BIT_FLIP lies beyond the burst (R325). -/
def beatFails (s : State) (i : Nat) (r : StepRec) : Bool :=
  let c := s.injConfig i
  r.isMemory && c.action == 2 && c.kind == 0 && decide (r.bl ≤ c.beat)

/-! ## Checks 11 to 13, 15 -/

/-- Check 11. -/
def entryFails (s : State) (i : Nat) (r : StepRec) : Bool :=
  (upto 12).any (fun b =>
    let (n, first) := r.entryOf b
    n != 0 && (!(s.bundlesOf i).contains b || decide (4096 < first + n)
      || (upto n).any (fun k => (s.ctx (4096 * b + first + k)).st != .loaded)))

/-- Check 12: lengths, alignment, and every descriptor inside a region of the site (R223, R275, R304, R320, R477). -/
def buffersFit (s : State) (i : Nat) (r : StepRec) : Bool :=
  let within (bound : Bool) (align a n : Nat) := a % align == 0 && s.fits i bound a n
  let aligned (align a : Nat) := a % align == 0
  decide (1 ≤ r.progLen) && decide (r.progLen ≤ 16777216) && decide (1 ≤ r.pmapCount) && decide (r.pmapCount ≤ 256)
    && decide (r.ckptSlots ≤ 4096) && within false 32 r.progBase (32 * r.progLen)
    && within false 32 r.pmapBase (128 * r.pmapCount) && within false 32 r.colPlanBase 256
    && aligned 32 r.vecBase && (r.vecLen == 0 || within false 32 r.vecBase (96 * r.vecLen))
    && aligned 256 r.ckptBase && (r.ckptSlots == 0 || within true 256 r.ckptBase (256 * r.ckptSlots))
    && (!r.isMemory || (within false 32 r.sigMapBase 256 && within false 32 r.timingBase 256
        && decide (r.ucodeLen ≤ 4096) && aligned 32 r.ucodeBase && (r.ucodeLen == 0 || within false 32 r.ucodeBase (4 * r.ucodeLen))))

/-- Check 13 (R341). -/
def captureFits (s : State) (i : Nat) (r first : StepRec) : Bool :=
  decide (4096 ≤ r.ringLen) && decide (r.capMode ≤ 1) && r.ringBase % 32 == 0 && s.fits i true r.ringBase (32 * r.ringLen)
    && (r.rawLen == 0 || (decide (r.rawPorts.length ≤ r.rawLen) && r.rawBase % 32 == 0
        && s.fits i true r.rawBase (32 * r.rawLen)))
    && (r.entry.drop 208).take 36 == (first.entry.drop 208).take 36

/-- Check 15: every region that feeds a bundle of the site is READY (R436). -/
def regionsReady (s : State) (i : Nat) : Bool :=
  (upto 16).all (fun k => !s.regionUsed (k / 4) (k % 4) i || (s.region (k / 4) (k % 4)).st == .ready)

/-! ## Check 14 (R348) -/

/-- A charge in bytes per second, as a fraction. -/
structure Charge where
  num : Nat
  den : Nat
  deriving DecidableEq, Repr, Inhabited

def Charge.add (a b : Charge) : Charge := ⟨a.num * b.den + b.num * a.den, a.den * b.den⟩
def Charge.exceeds (a : Charge) : Bool := decide (238000000000 * a.den < a.num)
def Charge.less (a b : Charge) : Bool := decide (a.num * b.den < b.num * a.den)

/-- Fastest cycle rate among the sets of the mask at the lowest mapped port, in cycles per second. -/
def State.cycleRate (s : State) (r : StepRec) : Charge :=
  match r.mappedPorts with
  | [] => ⟨0, 1⟩
  | p :: _ =>
    match (s.stepSets r p).map (·.period) with
    | [] => ⟨0, 1⟩
    | t :: l => ⟨57344000000000, l.foldl min t⟩

/-- Bytes per second of a serial port, at `bits2` half bits for each symbol (R233). -/
def State.symbolCharge (s : State) (p bits2 : Nat) : Charge :=
  ⟨56000000000 * s.lineP (bundleOfPort p) * bits2, 16 * max (s.lineQ (bundleOfPort p)) 1⟩

/-- Quadrants whose channels hold part of n bytes from a. -/
def State.quadsOf (s : State) (a n : Nat) : List Nat :=
  if n == 0 then [] else (upto 4).filter (fun q => decide (a < 3 * s.memU * (q + 1)) && decide (3 * s.memU * q < a + n))

/-- The charges of a step in the order of R348: port named, quadrants, bytes per second. -/
def State.charges (s : State) (r : StepRec) : List (Nat × List Nat × Charge) :=
  let rate := s.cycleRate r
  let vec := if r.vecLen == 0 then [] else
    [(r.mappedPorts.headD 0, s.quadsOf r.vecBase (96 * r.vecLen), (⟨96 * rate.num, rate.den⟩ : Charge))]
  let rawQ := s.quadsOf r.rawBase (32 * r.rawLen)
  let raw := r.rawPorts.map (fun p =>
    (p, rawQ, if s.isSerial p then s.symbolCharge p (if (s.ser p).mod == 0 then 2 else 4) else rate))
  let stream := r.streamPorts.map (fun p =>
    let c := s.ser p
    (p, [p / 24], s.symbolCharge p (if c.mod == 0 then 2 else if c.mod == 1 && c.mapping == 0 then 3 else 4)))
  vec ++ raw ++ stream

/-- Sum of a step's charges in a quadrant. -/
def stepLoad (l : List (Nat × List Nat × Charge)) (q : Nat) : Charge :=
  l.foldl (fun a e => if e.2.1.contains q then a.add e.2.2 else a) ⟨0, 1⟩

/-- What another site charges in a quadrant: the largest of its steps. -/
def State.siteLoad (s : State) (j q : Nat) : Charge :=
  ((s.run' j).steps.map (fun r => stepLoad (s.charges r) q)).foldl (fun a b => if a.less b then b else a) ⟨0, 1⟩

/-- The first charge of a list that takes the sum of a quadrant above the budget. -/
def overBudget (q : Nat) : Charge → List (Nat × List Nat × Charge) → Option Nat
  | _, [] => none
  | sum, (p, qs, c) :: l =>
    if qs.contains q then (if (sum.add c).exceeds then some p else overBudget q (sum.add c) l) else overBudget q sum l

/-- The raw port that is the ninth of its quadrant. -/
def ninthRaw (count : Nat → Nat) : List Nat → List Nat → Option Nat
  | _, [] => none
  | seen, p :: l =>
    if 8 < count (p / 24) + (seen.filter (fun x => x / 24 == p / 24)).length + 1 then some p
    else ninthRaw count (p :: seen) l

/-- Check 14: the port that fails. -/
def budgetFails (s : State) (i : Nat) (r : StepRec) : Option Nat :=
  let others := (upto 12).filter (fun j => j != i && (s.siteSt j).active)
  let listed := r.rawPorts ++ r.streamPorts
  let duts := s.dutPortsOf i
  let bad (k p : Nat) := !duts.contains p || !(s.isEdge p || s.isSerial p) || (listed.take k).contains p
  let rawCount (q : Nat) := (others.map (fun j => ((s.step1 j).rawPorts.filter (fun p => p / 24 == q)).length)).foldl (· + ·) 0
  match (listed.zip (upto listed.length)).find? (fun e => bad e.2 e.1) with
  | some e => some e.1
  | none =>
    (ninthRaw rawCount [] r.rawPorts).or
      ((upto 4).findSome? (fun q =>
        overBudget q ((others.map (fun j => s.siteLoad j q)).foldl Charge.add ⟨0, 1⟩) (s.charges r)))

/-! ## The steps (R66, R545) -/

/-- A read of validation: the failure of R545 where a granule is uncorrectable. -/
def needs (k : Nat) (x : Option (List Byte) × State) (f : List Byte → State → Except ArmFail StepRec × State) :
    Except ArmFail StepRec × State :=
  match x with
  | (some d, s) => f d s
  | (none, s) => (.error ⟨.hwFault, 12, k, 0⟩, s)

/-- Goes on where a check passes. -/
def unlessFails (x : Option ArmFail) (s : State) (f : Except ArmFail StepRec × State) : Except ArmFail StepRec × State :=
  match x with
  | some e => (.error e, s)
  | none => f

/-- ARM_ENTRY and ARM_RULE of the lead bundle: 0xFF and 0 where check 10 passes (R67, R316, R329). -/
def State.armTiming (s : State) (i : Nat) (x : Option (Nat × Nat)) : State :=
  s.setSite i (fun t => { t with sched := { t.sched with armEntry := (x.getD (0xFF, 0)).1, armRule := (x.getD (0xFF, 0)).2 } })

/-- Checks 11 to 15 and the snapshot of the microcode. -/
def stepEnd (i k : Nat) (r first : StepRec) (s : State) : Except ArmFail StepRec × State :=
  let fail (check : Nat) (st : Status) (obj : Nat) : Option ArmFail := some ⟨st, check, k, obj⟩
  unlessFails (if entryFails s i r then fail 11 .state 0 else none) s
  (unlessFails (if buffersFit s i r then none else fail 12 .lenOver 0) s
  (needs k (if r.isMemory && r.ucodeLen != 0 then s.armRead r.ucodeBase (4 * r.ucodeLen) else (some [], s)) (fun d s =>
    let r := { r with ucode := d }
    unlessFails (if captureFits s i r first then none else fail 13 .lenOver 0) s
    (unlessFails ((budgetFails s i r).bind (fun p => fail 14 .range (portObject p 0x28))) s
    (unlessFails (if regionsReady s i then none else fail 15 .state 0) s (.ok r, s))))))

/-- Checks 8 to 10, and the rest. -/
def stepMiddle (i k : Nat) (r first : StepRec) (s : State) : Except ArmFail StepRec × State :=
  let duts := s.dutPortsOf i
  let mapped := r.mappedPorts.filter (fun p => duts.contains p)
  match check8 s mapped r.tsetMask with
  | some f => (.error ⟨.range, 8, k, portObject f.port 0x11⟩, s.wr .portTsetCheck f.word f.port)
  | none =>
    needs k (s.armRead r.colPlanBase 256) (fun d s =>
      let r := { r with colPlan := d }
      let mapsOk := (upto r.pmapCount).all (fun m => mapOk duts (r.pinMap m)) && planOk d
      unlessFails (if mapsOk then none else some ⟨.range, 9, k, 0⟩) s
      (needs k (if r.isMemory then s.armRead r.timingBase 256 else (some [], s)) (fun d s =>
        let r := { r with timing := d }
        let bad := if r.isMemory then timingFails r else none
        let s := s.armTiming i bad
        unlessFails (if bad.isSome || beatFails s i r then some ⟨.range, 10, k, 0⟩ else none) s (stepEnd i k r first s))))

/-- Checks 6 to 15 of step k, whose first step's record is given from step 2 on. -/
def stepChecks (i k : Nat) (first : Option StepRec) (s : State) : Except ArmFail StepRec × State :=
  needs k (s.armRead (s.rd .siteStepBase i + 256 * (k - 1)) 256) (fun e s =>
    let r : StepRec := { entry := e }
    let duts := s.dutPortsOf i
    match duts.find? s.overGrade with
    | some p => (.error ⟨.range, 6, k, portObject p 0x18⟩, s)
    | none =>
      needs k (if r.isMemory then s.armRead r.sigMapBase 256 else (some [], s)) (fun d s =>
        let r := { r with sigMap := d }
        needs k (s.armRead r.pmapBase (128 * min r.pmapCount 256)) (fun d s =>
          let r := { r with pinMaps := d }
          let f := first.getD r
          unlessFails ((personalityFails s i r f).map (fun o => ⟨.range, 7, k, o⟩)) s
          (unlessFails ((duts.findSome? (fun p => portFails s i p r)).map (fun o => ⟨.range, 7, k, o⟩)) s
          (stepMiddle i k r f s)))))

/-- The steps from k on, n of them. -/
def allSteps (i : Nat) : Nat → Nat → List StepRec → State → Except ArmFail (List StepRec) × State
  | 0, _, done, s => (.ok done, s)
  | n + 1, k, done, s =>
    match stepChecks i k done.head? s with
    | (.error e, s) => (.error e, s)
    | (.ok r, s) => allSteps i n (k + 1) (done ++ [r]) s

/-- The whole validation: the failure, or the snapshot. -/
def validate (i : Nat) (host : Bool) (s : State) : Except ArmFail (List StepRec) × State :=
  match siteChecks s i host with
  | some e => (.error e, s)
  | none =>
    match allSteps i (s.rd .siteStepCount i) 1 [] s with
    | (.error e, s) => (.error e, s)
    | (.ok l, s) =>
      match lastCheck s i with
      | some e => (.error e, s)
      | none => (.ok l, s)

/-! ## Its end (R65, R67) -/

/-- SB+0x05. -/
def State.armResult (s : State) (i : Nat) (f : ArmFail) : State :=
  (((s.wr .siteArmStatus f.status.code i).wr .siteArmCheck f.check i).wr .siteArmStep f.step i).wr .siteArmObject f.obj i

/-- PORT_TSET_CHECK of the site's ports is cleared when an ARM begins. -/
def State.armBegins (s : State) (i : Nat) : State := s.each (s.portsOf i) (fun p s => s.wr .portTsetCheck 0 p)

/-- What an ARM answered OK resets at a port of the site. -/
def armPort (keepTrain : Bool) (raw : List Nat) (p : Nat) (s : State) : State :=
  let s := ((s.wr .portCycleCount 0 p).wr .portFailCount 0 p).setDom .portFirstFail p 0 0 (List.replicate 32 0)
  let s := s.setPort p (fun t => { t with
    raw := { active := raw.contains p }
    train := if keepTrain then t.train else {}
    fe := { t.fe with mapped := false } })
  armLane p s

/-- What an ARM answered OK resets at a bundle of the site. -/
def armBundle (b : Nat) (s : State) : State :=
  let s := s.setBnd b (fun t => { t with
    pe := { t.pe with issued := 0 }
    cap := { t.cap with fifo := [], formed := 0, fifoDrops := 0, fifoPeak := 0, tally := [] }
    inj := { t.inj with fired := 0, violations := 0 } })
  s.wr .bndCapRead 0 b

/-- The site becomes ARMED with its snapshot. -/
def State.armed (s : State) (i : Nat) (steps : List StepRec) : State :=
  let first := steps.headD {}
  let s := s.each (s.portsOf i) (armPort (first.isMemory && first.keepTrain) first.rawPorts)
  let s := s.each (s.bundlesOf i) armBundle
  let s := s.setSite i (fun t => { t with
    st := .armed, validating := none
    run := { steps := steps }
    ring := {}
    sched := { armEntry := t.sched.armEntry, armRule := t.sched.armRule } })
  s.armResult i ⟨.ok, 0, 0, 0⟩

/-- ARM_VALIDATION_DONE. -/
def armValidationDone (i : Nat) (s : State) : State :=
  match (s.site i).validating with
  | none => s
  | some rq =>
    let (x, s) := validate i (isHost rq.src) s
    match x with
    | .ok steps => (s.armed i steps).complete (.arm (Fin.ofNat 12 i)) .ok
    | .error f =>
      let s := (s.armResult i f).setSite i (fun t => { t with validating := none })
      s.complete (.arm (Fin.ofNat 12 i)) f.status

def execArmValidationDone (site : SiteNo) : State → Out := memRun (armValidationDone site.val)

end Sys2Proof.Machine
end

