-- ==== Sys2Proof/Machine/Site.lean ====
section
/-! DEFINITION. Sites: forming and dissolving, the site commands, the run and its steps, lockstep, aborts as they are
requested and end, bundle faults and the discard pass (R32 to R35, R79 to R91, R187, R199, R212, R215, R294, R345, R357,
R535). -/
namespace Sys2Proof.Machine

/-! ## Forming and dissolving (R29, R31, R79, R80) -/

/-- An ARM of the site validates (R31). -/
def State.validates (s : State) (i : Nat) : Bool := (s.site i).validating.isSome

/-- BND_STATE of a bundle is FREE (R85). -/
def State.bundleFree (s : State) (b : Nat) : Bool :=
  (s.siteOf b).isNone && !(s.bnd b).failed && (s.quad (quadOfBundle b)).power == .on

/-- Step 8 for SITE_BUNDLES (R29, R31, R79, R80). -/
def siteBundlesState (s : State) (i v : Nat) : Status :=
  let d := s.devState
  let st := s.siteSt i
  if s.validates i || (v != 0 && s.dev.selfTest) then .busy
  else if v == 0 then require st.inert .state
  else require (st == .none && decide (3 ≤ d) && decide (d ≤ 6) && (bitsOf v 12).all s.bundleFree) .state

def siteBundlesRange (v : Nat) : Status := require (decide (v < 4096)) .range

/-- An accepted write of SITE_BUNDLES. A write of 0 to a site that is NONE is answered OK and changes nothing (DESIGN
CHOICE, log 123: R80 gives 0 a meaning for a READY site only). -/
def siteBundlesEffect (i v : Nat) (s : State) : State :=
  if v == 0 then (if s.siteSt i == .ready then s.dissolve i else s)
  else (s.wr .siteBundles v i).setSite i (fun t => { t with st := .ready })

/-! ## Steps of a run (R33, R212, R277, R304, R314) -/

/-- The entry contexts of a step. -/
def State.entries (s : State) (i : Nat) (r : StepRec) : List Nat :=
  (s.bundlesOf i).flatMap (fun b =>
    let (n, first) := r.entryOf b
    (upto n).map (fun k => 4096 * b + first + k))

/-- The site is a lockstep member (R10). -/
def State.isMember (s : State) (i : Nat) : Bool := s.rd .siteLockstep i != 0

/-- Step k of a site begins. Its step start instant is TIME t where that is known: at the first step, for a lockstep member,
and where the step starts with an INIT sequence, whose commands count from it (R294, R304, log 139); else the first
instruction to issue gives it (R212, R238, R277). -/
def State.beginStep (s : State) (i k t : Nat) : State :=
  let r := (s.run' i).stepRec k
  let s := s.each (s.entries i r) (fun c s => s.setCtx c (fun x => { x with st := .ready, cause := .none }))
  let s := s.setSite i (fun x => { x with
    transition := false
    run := { x.run with
      step := k, begun := false, paused := 0, cycling := false, vec := 0, symbols := false, wordCount := 0, wordTaken := 0
      cycles := [], words := [], expects := [] } })
  let init := r.isMemory && r.init != 0
  let s := if k == 1 || s.isMember i || init then s.startsAt i t else s
  let s := (s.each (s.dutPortsOf i) stepLane).wr .siteStepNow k i
  let s := if k == 1 && r.isMemory then (s.pinsIdle i s.now).setSched i (fun c => { c with clocked := s.now }) else s
  if init then s.startTraining i r.init none else s

/-- The site starts its run at a coincidence point (R187, R199); a driver that the last run left off may drive again (R215), and
every lane sends its idle until symbol 0 (R241). -/
def State.startRun (s : State) (i t : Nat) : State :=
  let s := s.each (s.dutPortsOf i) (fun p s => s.setPort p (fun q => { q with fe := { q.fe with off := false, mapped := false } }))
  let s := s.idleAll i
  (s.setSite i (fun x => { x with st := .running, startAt := none, resumeAt := none })).beginStep i 1 t

/-- The next point at which a site may take something up (R187). -/
def State.nextPoint (s : State) (i : Nat) : Nat := s.coincidenceAt (s.lead i) (s.time + 1)

/-- A paused site runs again: its first kept cycle or symbol begins 2,048 ticks after a coincidence point (R215). -/
def State.resumeRun (s : State) (i point : Nat) : State :=
  let at' := point + 2048
  s.setSite i (fun x => { x with
    st := .running, resuming := false, pausing := false, pauseBoundary := false, resumeAt := some at'
    run := { x.run with
      boundary := false, paused := x.run.paused + (s.time - x.pausedAt)
      nextCycle := at' * stepsPerTick, wordOrigin := at' * stepsPerTick, wordCount := 0, wordTaken := 0 } })

/-- T of R294 for the step in force. -/
def State.realignAt (s : State) (i : Nat) : Nat :=
  (s.run' i).stepStart + (s.stepRec i).stepTicks + (s.run' i).paused

/-- The step in force is the last of the list. -/
def State.lastStep (s : State) (i : Nat) : Bool := decide ((s.run' i).steps.length ≤ (s.run' i).step)

/-- The end of a run: the records left and the END marker go to the ring, drivers hold their last level, and the site is READY
(R33, R35, R107, R345). -/
def State.endRun (s : State) (i : Nat) : State :=
  let s := (s.closeRows i).drainFifos i
  let s := (s.setRing i (fun g => { g with endDue := some (0, (s.run' i).step, s.time) })).ringEnd i
  let s := s.restLanes i
  let s := s.setSite i (fun x => { x with st := .ready, pausing := false, resumeAt := none })
  (s.wr .siteStepNow 0 i).atBoundary i

/-- A step that is not the last ends: the site holds the transition, a boundary, and its lanes are idle (R33, R241, R294, R339,
R357). -/
def State.toTransition (s : State) (i : Nat) : State :=
  let s := ((s.closeRows i).atBoundary i).idleLanes i
  let s := s.setSite i (fun x => { x with transition := true })
  if s.isMember i then
    let next := (s.run' i).stepRec ((s.run' i).step + 1)
    s.each (s.entries i next) (fun c s => s.setCtx c (fun x => { x with st := .waiting, cause := .slot }))
  else s

/-- STEP_END. A member that ends a step at or after T misses its realignment (R294). -/
def stepEnds (i : Nat) (s : State) : State :=
  let idle := (s.siteCtxs i).all (fun c => (s.ctx c).st != .ready && (s.ctx c).st != .waiting)
  s.onlyIf (s.stepping i && idle) (fun s =>
    if s.lastStep i then s.endRun i
    else if s.isMember i && decide (s.realignAt i ≤ s.time) then s.memberMissed i (s.rd .siteLockstep i) (s.realignAt i) (s.realignAt i)
    else s.toTransition i)

def execStepEnd (site : SiteNo) : State → Out := run (stepEnds site.val)

/-- STEP_START: the next step begins at its step start instant (R33, R212, R294). -/
def stepStart (i : Nat) (s : State) : State :=
  let lead := s.lead i
  let t := s.coincidenceAt lead (if s.isMember i then s.realignAt i else s.time)
  s.onlyIf (s.siteSt i == .running && (s.site i).transition && (!s.isMember i || decide (t ≤ s.time))) (fun s =>
    s.beginStep i ((s.run' i).step + 1) t)

def execStepStart (site : SiteNo) : State → Out := run (stepStart site.val)

/-- LOCKSTEP_MISS: T passes before the member's step has ended (R294). -/
def lockstepMiss (i : Nat) (s : State) : State :=
  s.onlyIf (s.stepping i && s.isMember i && !s.lastStep i && decide (s.realignAt i ≤ s.time)) (fun s =>
    s.memberMissed i (s.rd .siteLockstep i) (s.realignAt i) (s.realignAt i))

def execLockstepMiss (site : SiteNo) : State → Out := run (lockstepMiss site.val)

/-! ## Site commands (R31, R64, R79, R81 to R83, R89) -/

/-- Step 8 for SITE_COMMAND. -/
def siteCommandState (s : State) (i v : Nat) : Status :=
  let st := s.siteSt i
  let free := !s.isMember i
  if v == 6 then .ok
  else if s.validates i then .busy
  else match v with
    | 1 => if s.dev.selfTest then .busy else require (st == .ready && !s.dev.abortNLow) .state
    | 2 => require (st == .armed && free && !s.dev.abortNLow) .state
    | 3 => require ((st == .running && free) || st == .paused) .state
    | 4 => require ((st == .paused && free) || st == .running) .state
    | 5 => require (st == .armed || st == .fault || st == .ready) .state
    | _ => .ok

def siteCommandRange (v : Nat) : Status := require (decide (1 ≤ v) && decide (v ≤ 6)) .range

/-- ARM is accepted: validation begins (R31, R65, R67). -/
def armEffect (rq : Rq) (service : Nat) (a : Addr) (i : Nat) (s : State) : State :=
  ((s.armBegins i).setSite i (fun t => { t with validating := some rq })).openService rq service a (.arm (Fin.ofNat 12 i))

/-- An ARM that is answered before its validation begins: every ARM clears PORT_TSET_CHECK and writes SB+0x05 (R67). STATE
and BUSY stand as check 1 gives them, LOCKED as check 2 (R65); ABORTED names no check (R32). -/
def armRefused (i : Nat) (st : Status) (s : State) : State :=
  (s.armBegins i).armResult i (match st with
    | .locked => ⟨st, 2, 0, armObject 0x2000 4⟩
    | .aborted => ⟨st, 0, 0, 0⟩
    | _ => ⟨st, 1, 0, 0⟩)

def startEffect (i : Nat) (s : State) : State :=
  s.setSite i (fun t => { t with startAt := t.startAt.or (some (s.nextPoint i)) })

def pauseEffect' (i : Nat) (s : State) : State :=
  s.onlyIf (s.siteSt i == .running) (fun s => s.setSite i (fun t => { t with pausing := true }))

def resumeEffect' (i : Nat) (s : State) : State :=
  s.onlyIf (s.siteSt i == .paused) (fun s => s.setSite i (fun t => { t with resuming := true }))

/-- A site leaves FAULT without its failed bundles, or is dissolved where none remains; what a remaining bundle serves
as the lowest one moves to it (R81). -/
def State.withoutFailed (s : State) (i : Nat) : State :=
  let keep := (s.bundlesOf i).filter (fun b => !(s.bnd b).failed)
  match keep with
  | [] => s.dissolve i
  | lead :: _ =>
    let read := s.rd .bndCapRead (s.lead i)
    let s := s.wr .siteBundles (keep.foldl (fun a b => a + 2 ^ b) 0) i
    (s.wr .bndCapRead read lead).setSite i (fun t => { t with st := .ready })

def disarmEffect (i : Nat) (s : State) : State :=
  match s.siteSt i with
  | .armed => s.setSite i (fun t => { t with st := .ready, startAt := none })
  | .fault => s.withoutFailed i
  | _ => s

/-- An accepted SITE_COMMAND; none while its answer is to come. ABORT counts as the ABORT of the site (R64, R82). -/
def siteCommandEffect (rq : Rq) (service : Nat) (a : Addr) (i v : Nat) (s : State) : Option Status × State :=
  match v with
  | 1 => (none, armEffect rq service a i s)
  | 2 => (some .ok, startEffect i s)
  | 3 => (some .ok, pauseEffect' i s)
  | 4 => (some .ok, resumeEffect' i s)
  | 5 => (some .ok, disarmEffect i s)
  | _ => (some .ok, s)

/-- PAUSE_ALL and RESUME_ALL: the command to every site that accepts it (R79). -/
def allSites (v : Nat) (f : Nat → State → State) (s : State) : State :=
  s.each (upto 12) (fun i s => s.onlyIf (siteCommandState s i v == .ok) (f i))

/-! ## What takes effect later (R83, R187, R199, R215, R357) -/

/-- SITE_START_EFFECT: an accepted START reaches its coincidence point (R187). -/
def siteStartEffect (i : Nat) (s : State) : State :=
  match (s.site i).startAt with
  | none => s
  | some t => s.onlyIf (s.siteSt i == .armed && decide (t ≤ s.time)) (fun s => s.startRun i t)

def execSiteStartEffect (site : SiteNo) : State → Out := run (siteStartEffect site.val)

/-- PAUSE_EFFECT: the lanes send their idle after the symbols that they were given (R83, R215, R241). -/
def pauseTakesEffect (i : Nat) (s : State) : State :=
  s.onlyIf (s.siteSt i == .running && (s.site i).pausing) (fun s =>
    (s.idleLanes i).setSite i (fun t => { t with st := .paused, pausing := false, pausedAt := s.time, pauseBoundary := false }))

def execPauseEffect (site : SiteNo) : State → Out := run (pauseTakesEffect site.val)

/-- TIME ticks of 2 µs (R202). -/
def pauseIdleTicks : Nat := 3500

/-- PAUSE_BOUNDARY: a pause of 2 µs is a boundary, unless a training sequence runs (R83, R357). -/
def pauseBoundary (i : Nat) (s : State) : State :=
  let t := s.site i
  s.onlyIf (t.st == .paused && !t.pauseBoundary && t.sched.training.isNone
      && decide (t.pausedAt + pauseIdleTicks ≤ s.time)) (fun s =>
    (s.setSite i (fun t => { t with pauseBoundary := true })).atBoundary i)

def execPauseBoundary (site : SiteNo) : State → Out := run (pauseBoundary site.val)

/-- RESUME_EFFECT (R83, R215). -/
def execResumeEffect (site : SiteNo) : State → Out :=
  run (fun s => s.onlyIf (s.siteSt site.val == .paused && (s.site site.val).resuming) (fun s =>
    s.resumeRun site.val (s.coincidenceAt (s.lead site.val) s.time)))

/-- A START or PAUSE event at its member's coincidence point (R199). DESIGN CHOICE (log 146): a PAUSE that finds its member
ARMED, FAULT or ABORTING has no effect, as one that finds it PAUSED or READY. -/
def State.memberEvent (s : State) (e : Sched) (i point : Nat) : State :=
  match e.type, s.siteSt i with
  | 2, .armed => s.startRun i point
  | 2, .paused => s.resumeRun i point
  | 2, _ => s.memberMissed i e.group e.time point
  | _, .running => s.setSite i (fun t => { t with pausing := true })
  | _, _ => s

/-- One scheduled event that may be due: whether it has acted, and the state after. -/
def State.actEvent (s : State) (e : Sched) : Bool × State :=
  if e.type == 1 then (if e.time ≤ s.time then (true, s.syncUnits e.time) else (false, s))
  else match s.member e.group with
    | none => (decide (e.time ≤ s.time), s)
    | some i =>
      let point := s.coincidenceAt (s.lead i) e.time
      if point ≤ s.time then (true, s.memberEvent e i point) else (false, s)

/-- WARP_EVENT_DUE: every event whose point has come acts, in the order they were scheduled (R199). -/
def warpEventDue (s : State) : State :=
  s.tb.sched.foldl (fun s e =>
    if s.tb.sched.contains e then
      let (done, t) := s.actEvent e
      if done then { t with tb := { t.tb with sched := t.tb.sched.erase e } } else s
    else s) s

def execWarpEventDue : State → Out := run (fun s => s.onlyIf s.alive warpEventDue)

/-! ## Aborts as they come and end (R87 to R97) -/

/-- ABORT_DICT and the abort of the scope that a code names (R62, R87, R97). While the main die is off or in reset,
nothing changes (R95). -/
def dictAbort (src : Src) (code : Nat) (s : State) : State :=
  if !s.alive then s else
    let kind := code / 4096
    let unit := code % 16
    let s := s.raise 0x0402 kind unit (if isHost src then 2 else 1)
    match kind with
    | 0 =>
      let s := if s.role == 1 && s.dev.aborting.isNone then s.announce 4 0 s.time else s
      s.abortDevice 0x0402 false false (s.role == 1)
    | 1 => s.abortSite unit 0x0402 false
    | _ => s.abortBundle unit 0x0402

/-- The code of an ABORT is legal (R62). -/
def abortRange (code : Nat) : Status :=
  let unit := code % 16
  require (decide (code < 0x3000) && code / 16 % 256 == 0 && decide (unit < 12) && (code / 4096 != 0 || unit == 0)) .range

/-- ABORT_N acts: ABORT_PIN and the device-scope abort, with the Warp ABORT of a master (R87, R97). -/
def pinAbort (s : State) : State :=
  let s := s.raise 0x0401
  let s := if s.role == 1 && s.dev.aborting.isNone then s.announce 4 0 s.time else s
  s.abortDevice 0x0401 true false (s.role == 1)

/-- ABORT_N has been low for a time: 20 ns act, less than 5 ns do not, and what lies between is free (R87). -/
def abortN (lowNs : Nat) (s : State) : State :=
  if lowNs < 5 then s
  else
    let (v, s) := if lowNs < 20 then s.free 1 else (1, s)
    s.onlyIf (v == 1 && !s.dev.abortNLow) (fun s =>
      let s := { s with dev := { s.dev with abortNLow := true } }
      s.onlyIf s.alive pinAbort)

def execAbortN (lowNs : Nat) : State → Out := run (abortN lowNs)

/-- ABORT_N returns high (R89). -/
def execAbortNRelease : State → Out := run (fun s => { s with dev := { s.dev with abortNLow := false } })

/-- TIME ticks of 7.5 µs. -/
def flushTicks : Nat := 13125

/-- The flush of an aborting site has not run out of its 7.5 µs (R91). -/
def State.flushTime (s : State) (i : Nat) : Bool :=
  ((s.site i).abort.map (fun r => decide (s.elapsed ≤ r.since + flushTicks))).getD true

/-- ABORT_FLUSH_DONE: every record in flight reaches the ring with the END marker, and the site closes (R91, R345). A
flush that GDDR7 does not take whole is not done. -/
def abortFlushDone (i : Nat) (s : State) : State :=
  if s.siteSt i != .aborting || !s.flushTime i then s else
    let (ok, t) := s.flushSite i
    if ok then (t.closeSite i false).afterAbort else s

def execAbortFlushDone (site : SiteNo) : State → Out := memRun (abortFlushDone site.val)

/-- ABORT_FLUSH_DEADLINE: 7.5 µs have passed, and the capture is INCOMPLETE (R91, R345). -/
def execAbortFlushDeadline (site : SiteNo) : State → Out :=
  run (fun s => s.onlyIf (s.siteSt site.val == .aborting
      && ((s.site site.val).abort.map (fun r => s.passed r.since flushTicks)).getD true) (fun s =>
    ((s.flushLate site.val).closeSite site.val true).afterAbort))

/-! ## Device-wide faults and bundle faults (R77, R84) -/

/-- DEVICE_WIDE_FAULT: FAULT_SYNTH, FAULT_DICT, FAULT_LOADER or FAULT_ABORT_NET (R77, R530). -/
def execDeviceWideFault (cause : Fin 4) : State → Out :=
  run (fun s => s.onlyIf s.alive (fun s =>
    let s := if cause.val == 0 then { s with tb := { s.tb with synth := 3 } } else s
    (s.raise (0x0010 + cause.val)).deviceFault (0x0010 + cause.val)))

/-- The extension of CONTEXTS_LOST (R530). -/
def lostBitmap (b : Nat) (l : List Nat) : List Byte :=
  (upto 512).map (fun k => BitVec.ofNat 8 ((upto 8).foldl (fun a j => if l.contains (4096 * b + 8 * k + j) then a + 2 ^ j else a) 0))

/-- The bundle is FAILED and its contexts are LOST (R84). -/
def State.loseBundle (s : State) (b : Nat) : State :=
  let lost := s.ctxsOf b
  let s := s.setBnd b (fun t => { t with failed := true, passed := false })
  if lost.isEmpty then s else s.raise 0x1004 2 b lost.length ((s.siteOf b).getD 0xFF) (lostBitmap b lost)

/-- BUNDLE_FAULT (R84, R95). -/
def bundleFault (b : Nat) (sram : Bool) (s : State) : State :=
  s.onlyIf (s.alive && !(s.bnd b).failed && (s.quad (quadOfBundle b)).power == .on) (fun s =>
    let s := s.raise 0x1003 2 b (if sram then 2 else 1)
    let had := !(s.ctxsOf b).isEmpty
    let s := s.loseBundle b
    let lost := if had then [b] else []
    let s := match s.siteOf b with
      | none => s.abortBundle b 0x1003 lost
      | some i =>
        let add (r : AbortRec) : AbortRec := { r with lost := r.lost ++ lost.filter (!r.lost.contains ·) }
        if s.siteSt i == SiteSt.aborting then s.setSite i (fun t => { t with abort := t.abort.map add })
        else s.abortFormed i { cause := 0x1003, scope := some (1, i), lost := lost }
    s.each (s.ctxsOf b) (fun c s => s.setCtx c (fun x => x.abort true)))

def execBundleFault (bundle : BundleNo) (sram : Bool) : State → Out := run (bundleFault bundle.val sram)

/-! ## The discard pass (R535) -/

/-- RING_POS of the newer valid slot of a LOST context, 0 where there is none. -/
def State.lostFrom (s : State) (i cid : Nat) : Nat × State :=
  let r := s.stepRec i
  let ptr := (Store.get 0 (cid % 4096) (s.cap (cid / 4096)).index).toNat
  if r.ckptSlots ≤ ptr then (0, s)
  else
    let (grans, s) := s.readGranules ((r.ckptBase + 256 * ptr) / 32) [] 8
    let data := grans.map consumed
    match newerSlot (slotOf (data.take 4)) (slotOf (data.drop 4)) with
    | some x => (fieldAt x.1 72 8, s)
    | none => (0, s)

/-- Ring counts of the records that are still in the ring. -/
def State.ringHeld (s : State) (i : Nat) : List Nat :=
  let st := s.step1 i
  let g := s.ring i
  let old := g.write - st.ringLen
  let lo := if st.wrapMode then old else max old (s.rd .bndCapRead (s.lead i))
  ((upto (g.write - lo)).map (lo + ·)).filter (fun c => !g.flying.any (·.1 == c))

/-- What a pass has found: records marked, and whether it met an isolated channel. -/
structure Discarded where
  marked : Nat := 0
  met : Bool := false
  deriving DecidableEq, Repr, Inhabited

/-- Marks one record where it is of a LOST context from its RING_POS on. -/
def State.discardRecord (s : State) (i : Nat) (from' : List (Nat × Nat)) (c : Nat) (d : Discarded) : Discarded × State :=
  let st := s.step1 i
  let g := (st.ringBase + 32 * (c % max st.ringLen 1)) / 32
  if s.spot (32 * g) != .ok then ({ d with met := true }, s)
  else
    let (x, s) := s.readGranule g
    match consumed x with
    | none => (d, s)
    | some r =>
      let type := fieldAt r 28 1 % 16
      let own := from'.any (fun e => e.1 == fieldAt r 10 2 && decide (e.2 ≤ c))
      if decide (1 ≤ type) && decide (type ≤ 7) && own then
        ({ d with marked := d.marked + 1 }, (s.store (32 * g) (r.set 29 (r.getD 29 0#8 ||| 0x80#8))).2)
      else (d, s)

/-- The pass over a site's ring. -/
def discardPass (i : Nat) (bundles : List Nat) (s : State) : State :=
  let cids := bundles.flatMap (fun b => (s.ctxsOf b).filter (fun c => (s.ctx c).st == .lost))
  let (from', s) := cids.foldl (fun (l, s) c => let (n, s) := s.lostFrom i c; (l ++ [(c, n)], s)) (([] : List (Nat × Nat)), s)
  let (d, s) := (s.ringHeld i).foldl (fun (d, s) c => s.discardRecord i from' c d) (({} : Discarded), s)
  let s := s.wr .devRecoverState (d.marked % 2 ^ 32 * 2 ^ 32 + (if d.met then 3 else 2) * 2 ^ 28 + i * 2 ^ 24)
  let s := s.setSite i (fun t => { t with discarding := none })
  s.raise 0x1005 1 i cids.length d.marked

/-- DISCARD_DONE: the pass that runs first ends. -/
def discardDone (s : State) : State :=
  match (upto 12).find? (fun i => (s.site i).discarding.isSome) with
  | none => s
  | some i => discardPass i (((s.site i).discarding).getD []) s

def execDiscardDone : State → Out := memRun discardDone

end Sys2Proof.Machine
end

