-- ==== Sys2Proof/Machine/Device.lean ====
section
/-! DEFINITION. The device-level commands and self-test (R79, R537, R538, R543, R544). -/
namespace Sys2Proof.Machine

/-- No site is formed. -/
def State.noSite (s : State) : Bool := !s.anySite (· != .none)

/-- Step 8 for DEV_COMMAND (R79). -/
def devCommandState (s : State) (v : Nat) : Status :=
  match v with
  | 3 => require s.dev.fault.isSome .state
  | 4 => require (s.devState == 3) .state
  | 5 => if s.dev.selfTest then .busy else require (s.devState == 1 || (s.devState == 3 && s.noSite)) .state
  | _ => .ok

def devCommandRange (v : Nat) : Status := require (decide (1 ≤ v) && decide (v ≤ 5)) .range

/-- After the checks: CLEAR_FAULT while the cause persists (R79). -/
def devCommandAfter (v : Nat) (causeCleared : Bool) : Status := require (v != 3 || causeCleared) .hwFault

/-- UNLOAD: sites and configuration go; a partial load in progress ends (R79). -/
def unloadEffect (rq : Rq) (service : Nat) (a : Addr) (s : State) : State :=
  ((s.failLoad 15 0 .aborted).unloadConfig).openService rq service a .unload

/-- CLEAR_FAULT: FAULT is left for DORMANT; FAILED bundles whose self-test has since passed are FREE (R79). -/
def clearFaultEffect (rq : Rq) (service : Nat) (a : Addr) (s : State) : State :=
  let s := { s with dev := { s.dev with fault := none }, therm := { s.therm with shutdown := false } }
  let s := s.unloadConfig
  let s := s.each (upto 12) (fun b s => s.onlyIf ((s.bnd b).failed && (s.bnd b).passed) (fun s =>
    s.setBnd b (fun t => { t with failed := false, passed := false })))
  s.openService rq service a .unload

/-- SELF_TEST starts (R79, R537). -/
def selfTestEffect (s : State) : State :=
  { s.wr .devSelftestState 1 with dev := { s.dev with selfTest := true, selfTestBefore := s.rd .devSelftestState } }

/-- An accepted DEV_COMMAND; none while its answer is to come (R79). -/
def devCommandEffect (rq : Rq) (service : Nat) (a : Addr) (v : Nat) (s : State) : Option Status × State :=
  match v with
  | 1 => (some .ok, allSites 3 pauseEffect' s)
  | 2 => (some .ok, allSites 4 resumeEffect' s)
  | 3 => (none, clearFaultEffect rq service a s)
  | 4 => (none, unloadEffect rq service a s)
  | _ => (some .ok, selfTestEffect s)

/-! ## Results of self-test (R538, R543, R544) -/

/-- The failing item of a port and its error; item 0 passed. -/
def testItem (f : SelfTestFinds) (p : Nat) : Nat × BitVec 32 :=
  match f.ports.find? (fun e => e.1.val == p) with
  | some e => (e.2.1.val, e.2.2)
  | none => (0, 0)

/-- PORT_SELFTEST of a port, and its sticky TEST_FAIL. -/
def State.portTested (s : State) (f : SelfTestFinds) (p : Nat) : State :=
  let (item, err) := testItem f p
  let bytes := (if item == 0 then [1#8, 0#8, 0#8, 0#8, 0#8, 0#8, 0#8, 0#8]
    else [2#8, BitVec.ofNat 8 item, 0#8, 0#8] ++ leBytes 4 err.toNat) ++ leBytes 8 s.time
  let s := s.setDom .portSelftest p 0 0 bytes
  if item == 0 then s else s.setPort p (fun q => { q with fe := { q.fe with testFail := true } })

/-- A unit that failed is out of use: bye-stakes first, then ports (R378, R380). -/
def State.retire (s : State) (f : SelfTestFinds) (p : Nat) : State :=
  let (item, _) := testItem f p
  if item == 0 || s.retired p then s
  else if 96 ≤ p then s.failBye (p - 96)
  else s.failOffline p item

/-- A bundle's own test: FAILED with its contexts LOST, or passed. -/
def State.bundleTested (s : State) (failed : Bool) (b : Nat) : State :=
  if failed then
    let s := s.setBnd b (fun t => { t with failed := true, passed := false })
    s.each (s.ctxsOf b) (fun c s => s.setCtx c (fun x => x.abort true))
  else s.setBnd b (fun t => { t with passed := t.failed })

/-- A set of bits as a number. -/
def bitSet (l : List Nat) : Nat := (l.eraseDups.map (2 ^ ·)).foldl (· + ·) 0

/-- SELF_TEST_DONE. Units of a quadrant that is off are not tested. -/
def selfTestDone (f : SelfTestFinds) (s : State) : State :=
  s.onlyIf (s.alive && s.dev.selfTest) (fun s =>
    let bs := (upto 12).filter (fun b => (s.quad (quadOfBundle b)).power == .on)
    let ports := bs.map (96 + ·) ++ bs.flatMap dutPorts
    let badBundles := bs.filter (fun b => f.bundles.any (·.val == b))
    let badPorts := ports.filter (fun p => (testItem f p).1 != 0)
    let s := s.each ports (fun p s => s.portTested f p)
    let s := s.each ports (fun p s => s.retire f p)
    let s := s.each bs (fun b s => s.bundleTested (badBundles.contains b) b)
    let since := f.routers.foldl (fun st r => if s.noc.faults.contains r then st else Store.put 0 (96 + r.val) s.elapsed st) s.noc.since
    let s := { s with noc := { s.noc with faults := (s.noc.faults ++ f.routers).eraseDups, since := since } }
    let bad := !(badPorts.isEmpty && badBundles.isEmpty && f.routers.isEmpty)
    let s := s.setDom .devSelftestResult 0 0 0
      (leBytes 2 (bitSet bs) ++ leBytes 2 (bitSet badBundles) ++ leBytes 14 (bitSet badPorts)
        ++ leBytes 3 (bitSet (f.routers.map (·.val))) ++ [0#8, 0#8, 0#8] ++ leBytes 8 s.time)
    let s := { s.wr .devSelftestState (if bad then 3 else 2) with dev := { s.dev with selfTest := false } }
    s.raise 0x0002 0 0 (if bad then 1 else 0))

def execSelfTestDone (finds : SelfTestFinds) : State → Out := run (selfTestDone finds)

end Sys2Proof.Machine
end

