-- ==== Sys2Proof/Machine/Reads.lean ====
section
/-! DEFINITION. What a read of each entry of the base dictionary returns: the value held, or what the entry shows of the
state behind it (R27, R46, R61, R64, R85, R172, R203 to R207, R260, R299, R329, R349, R350, R374, R383 to R387, R412,
R443, R444, R460, R461, R482 to R484, R508 to R510, R527, R528, R532, R536, R542 to R544). -/
namespace Sys2Proof.Machine

/-! ## Parts of objects -/

/-- The bytes off to off + n − 1 of an object made of pieces of one size. -/
def sliceOf (size : Nat) (piece : Nat → List Byte) (off n : Nat) : List Byte :=
  let first := off / size
  let count := ceilDiv (off % size + n) size
  (((upto count).flatMap (fun i => piece (first + i))).drop (off % size)).take n

/-- The bytes off to off + n − 1 of an object given whole. -/
def part (whole : List Byte) (off n : Nat) : List Byte := (whole.drop off).take n

/-- n bytes without a stated value. -/
def State.freeBytes (s : State) : Nat → List Byte × State
  | 0 => ([], s)
  | n + 1 =>
    let (v, s) := s.free 8
    let (l, s) := s.freeBytes n
    (BitVec.ofNat 8 v :: l, s)

/-! ## Values shown of the state -/

/-- BND_STATE (R85). -/
def State.bndStateCode (s : State) (b : Nat) : Nat :=
  if (s.quad (quadOfBundle b)).power != .on then 3
  else if (s.bnd b).failed then 2
  else if (s.siteOf b).isSome then 1
  else 0

/-- DEV_CLK_RUNNING (R181, R183). -/
def State.clkRunning (s : State) : Nat :=
  let root := s.rootPresent && s.tb.cfgOnRoot
  let bit (c : Bool) (n : Nat) := if c then 2 ^ n else 0
  let on (b : Nat) := root && (s.quad (quadOfBundle b)).power == .on
  let sum (l : List Nat) := l.foldl (· + ·) 0
  bit root 0 + sum ((upto 12).map (fun b => bit (on b) (1 + b) + bit (on b && (s.bnd b).lineNext.isNone) (13 + b) + bit (on b) (41 + b)))
    + sum ((upto 16).map (fun k => bit (on (3 * (k / 4)) && s.treeRuns (k / 4) (k % 4)) (25 + k)))
    + sum ([53, 54, 55, 56].map (bit root)) + 0x0E00000000000000

/-- DEV_LINE_SETTLED (R203). -/
def State.lineSettledBits (s : State) : Nat :=
  bundleBits (fun b => s.rootPresent && s.tb.cfgOnRoot && (s.bnd b).lineNext.isNone)

/-- The port whose edge and serial status a port block shows: a bye-stake shows the port that it serves, or none (R210,
R256). -/
def State.shownPort (s : State) (p : Nat) : Option Nat :=
  if p < 96 then some p else (dutPorts (p - 96)).find? (fun q => (s.port q).cal.replaced)

/-- A status word of the port that a port block shows; 0 where it shows none. -/
def State.shown (s : State) (p : Nat) (f : Nat → Nat) : Nat := ((s.shownPort p).map f).getD 0

/-- PB+0x1D to 0x1F of a port block: of the odd port of a pair 0 (R236), of a bye-stake those of the port it serves (R256). -/
def State.laneShown (s : State) (p : Nat) (f : Nat × Nat × Nat → Nat) : Nat :=
  if s.pairedOdd p then 0 else s.shown p (fun q => f (s.lane q).words)

/-- The site whose lowest bundle is b. -/
def State.ledBy (s : State) (b : Nat) : Option Nat :=
  (s.siteOf b).filter (fun i => s.lead i == b)

/-- DEV_PCIE_DMA_ACTIVE. -/
def State.dmaActive (s : State) : Nat := (upto 16).foldl (fun a n => a + (if (s.queue n).ctrl.getLsbD 0 then 2 ^ n else 0)) 0

/-- DEV_LOST_CONTEXTS, byte i. -/
def State.lostByte (s : State) (i : Nat) : Byte :=
  BitVec.ofNat 8 ((upto 8).foldl (fun a j => a + (if (s.ctx (8 * i + j)).st == .lost then 2 ^ j else 0)) 0)

/-- DEV_FAILED_UNITS (R543). -/
def State.failedUnits (s : State) : List Byte :=
  leBytes 2 (bundleBits (fun b => (s.bnd b).failed)) ++ leBytes 2 (s.chanBits (· == .isolated))
    ++ leBytes 4 s.noc.faultBits ++ leBytes 14 (bitSet ((upto 108).filter s.portFailed)) ++ [0#8, 0#8]

/-- DEV_MGT_SUB of a slot, with the whole seconds that are left of its lease (R508). -/
def State.subImage (s : State) (k : Nat) : List Byte :=
  match (s.evt.subs[k]?).join with
  | none => List.replicate 32 0#8
  | some p =>
    let last := if p.sent then (p.seq + 65535) % 65536 else 0
    leBytes 16 p.addr.toNat ++ leBytes 2 p.port.toNat ++ [0#8, 0#8] ++ leBytes 8 p.mask.toNat
      ++ leBytes 2 (p.lease - (s.elapsed - p.since) / ticksPerSecond) ++ leBytes 2 last

/-! ## The ledger's image (R374, R375, R508, R532) -/

/-- The 1,024 bytes of a copy's place. A copy that is being written shows its new generation and bytes that the commit
has not settled. -/
def State.copyImage (s : State) (place : Nat) : List Byte × State :=
  let key := place / 2
  let p := s.pair key
  let x := if place % 2 == 0 then p.a else p.b
  if x.valid then (padTo 1024 (x.bytes key), s)
  else if x.gen == 0 then (List.replicate 1024 0#8, s)
  else
    let (l, s) := s.freeBytes 540
    (padTo 1024 (l.take 4 ++ leBytes 4 x.gen ++ l.drop 4), s)

/-- 16 log entries, from entry 16 c on. -/
def State.logImage (s : State) (c : Nat) : List Byte :=
  (upto 16).flatMap (fun k => padTo 64 (Store.get [] (16 * c + k) s.ledger.log))

/-- Bytes 1,024 c on of the ledger. -/
def State.ledgerChunk (s : State) (c : Nat) : List Byte × State :=
  if 1024 ≤ c && c < 1024 + 864 then s.copyImage (c - 1024)
  else if 2048 ≤ c && c < 2048 + 256 then (s.logImage (c - 2048), s)
  else (List.replicate 1024 0#8, s)

/-- Chunks c on, n of them. -/
def State.ledgerChunks (s : State) (c : Nat) : Nat → List Byte × State
  | 0 => ([], s)
  | n + 1 =>
    let (a, s) := s.ledgerChunk c
    let (b, s) := s.ledgerChunks (c + 1) n
    (a ++ b, s)

/-- n bytes of the ledger. -/
def State.ledgerBytes (s : State) (off n : Nat) : List Byte × State :=
  let (l, s) := s.ledgerChunks (off / 1024) (ceilDiv (off % 1024 + n) 1024)
  (part l (off % 1024) n, s)

/-! ## Scalars -/

/-- A free value where the unit behind an entry runs, 0 before. -/
def State.live (s : State) (runs : Bool) (n : Nat) : Nat × State := if runs then s.free n else (0, s)

/-- The value of a scalar entry whose quadrant is open. -/
def State.readLive (s : State) (o : Obj) (u k : Nat) : Nat × State :=
  match o with
  | .devGrade => (if s.fuses.grade32 then 32 else 56, s)
  | .devProductCode => (if s.fuses.grade32 then 0x00960020 else 0x00960038, s)
  | .devSerial => (s.fuses.serial.toNat, s)
  | .devState => (s.devState, s)
  | .devGroupStaged => (s.ctl.staged.length, s)
  | .siteState => ((s.siteSt u).code, s)
  | .bndState => (s.bndStateCode u, s)
  | .bndSite => ((s.siteOf u).getD 0xFF, s)
  | .bndPoolStatus => (s.poolStatus u, s)
  | .bndMeasControl => (s.measControlWord u, s)
  | .devClkRunning => (s.clkRunning, s)
  | .devCfgSource => (if s.tb.cfgOnRoot then 1 else 0, s)
  | .devSynthState => (s.tb.synth, s)
  | .devTbrefOffset => s.live (s.rootPresent && s.role != 2) 32
  | .devRimOscOffset => s.live s.rootPresent 32
  | .devLineSettled => (s.lineSettledBits, s)
  | .devTbState => (s.tb.state, s)
  | .timeNow => (s.time, s)
  | .devWarpDepth => (s.warpDepth, s)
  | .devWarpDelay => (unsigned 32 (max s.tb.delay 0), s)
  | .devTimeResidual => (unsigned 32 s.residual, s)
  | .devWarpLink => (s.warpLinkWord k, s)
  | .portEdgeStatus => (s.shown u (s.rd .portEdgeStatus ·), s)
  | .portCycleCount => (s.shown u (s.rd .portCycleCount ·), s)
  | .portTsetCheck => (s.shown u (s.rd .portTsetCheck ·), s)
  | .portSerStatus => (s.laneShown u (fun w => w.1), s)
  | .portSerErrors => (s.laneShown u (fun w => w.2.1), s)
  | .portSerBits => (s.laneShown u (fun w => w.2.2), s)
  | .bndPeStatus => (s.peStatus u, s)
  | .bndPeIssued => ((s.bnd u).pe.issued, s)
  | .bndSchedStatus => ((s.ledBy u).elim 0 s.schedStatus, s)
  | .bndDutErrors => ((s.ledBy u).elim 0 (fun i => (s.sched i).errorWord), s)
  | .bndSchedLast => ((s.ledBy u).elim 0 (fun i => (s.sched i).last), s)
  | .bndInjStatus => ((s.bnd u).inj.status, s)
  | .portRawStatus => ((s.port u).raw.word, s)
  | .bndCapBundle => ((s.cap u).word, s)
  | .devCalActive => (s.calActive, s)
  | .devCalSubMap => (s.calSubMap, s)
  | .devCalCommitPending => (s.commitPending, s)
  | .devCalLedgerState => (s.ledgerState, s)
  | .bndByeTarget => (s.byeSlot u, s)
  | .bndCalStatus => (s.calStatus u, s)
  | .portCalRequest => ((s.port u).cal.request, s)
  | .portCalState => (s.portCalWord u, s)
  | .qdClkStatus => (s.clkStatus u, s)
  | .qdTraceStatus => s.traceStatus u
  | .qdFabStatus => ((s.quad u).fabWord, s)
  | .devCfgState => (s.cfgState, s)
  | .devKeyStatus => (s.keyStatus, s)
  | .devSentState => (if s.scans then 1 else 0, s)
  | .devSentPasses => (s.sentPasses, s)
  | .devSentPassTime => (s.sentPassTime, s)
  | .qdPrState => (s.prStateWord u, s)
  | .qdRegionFeeds => (s.feedsWord u, s)
  | .devNocEpoch => (if s.noc.epoch then 1 else 0, s)
  | .devNocSwapState => (s.noc.swap.val, s)
  | .devNocIsolated => (s.nocIsolated, s)
  | .devNocClosed => (s.nocClosed, s)
  | .devNocRouterFault => (s.noc.faultBits, s)
  | .devNocLatencyMax => s.live s.alive 32
  | .qdNocRouterStatus => s.routerStatus (6 * u + k)
  | .qdNocLinkErr => (s.noc.linkErr (6 * u + k), s)
  | .devMemReady => (s.chanBits (fun t => t == .ready || t == .erasure), s)
  | .devMemIsolated => (s.chanBits (· == .isolated), s)
  | .devMemErasure => (s.chanBits (· == .erasure), s)
  | .devMemProtectedSites => (s.protectedBits, s)
  | .qdMemState => (s.memState (3 * u + k), s)
  | .qdMemTemp => s.live ((s.chan (3 * u + k)).st != .off) 16
  | .devMgtLink => (s.rim.link, s)
  | .devMgtMac => (s.fuses.mac.toNat, s)
  | .devMgtPodlPower => s.live s.rim.powered 16
  | .devMgtRimPower => s.live s.rim.powered 16
  | .devMgtRimFwRev => (s.fuses.rimFw.toNat, s)
  | .devPcieDmaActive => (s.dmaActive, s)
  | .devPwrSeqState => (s.rim.seq.code, s)
  | .devPwrStep => (s.rim.stepNow, s)
  | .devPwrEn => (s.rim.en.toNat, s)
  | .devPwrPg => (s.rim.pg.toNat, s)
  | .devThermFlags => (s.therm.flags, s)
  | .qdPwrState => ((s.quad u).power.code, s)
  | .devIjState => (s.ij.state, s)
  | .devLogNextSeq => (s.ledger.next, s)
  | .devLogValid => (s.logValid, s)
  | .devLogQueue => (s.evt.logQueue.length, s)
  | .devLogFirstSeq => (s.ledger.first, s)
  | .portStatus => (s.portStatus u, s)
  | o => (s.rd o u k, s)

/-! ## Closed quadrants (R72) -/

/-- The quadrant that an object lies in; the objects of QB+0xC0–0xFF are excepted. -/
def quadOfEntry (o : Obj) (u : Nat) : Option Nat :=
  match o.row.space with
  | .quad => if o.row.off < 0xC0 then some u else none
  | .bnd => some (quadOfBundle u)
  | .port => some (quadOfBundle (bundleOfPort u))
  | _ => none

/-- The scalar entries of a quadrant whose value the state behind them shows, or that the fence changes, with their
number of sub-indices; BND_STATE shows the fence itself (R85). -/
def fencedQuad : List (Obj × Nat) :=
  [(.qdClkStatus, 1), (.qdTraceStatus, 1), (.qdFabStatus, 1), (.qdPrState, 1), (.qdRegionFeeds, 1), (.qdNocRouterStatus, 6),
   (.qdNocLinkErr, 6), (.qdMemState, 3), (.qdMemTemp, 3)]
def fencedBnd : List Obj :=
  [.bndPoolStatus, .bndMeasControl, .bndPeStatus, .bndPeIssued, .bndSchedStatus, .bndDutErrors, .bndSchedLast,
   .bndInjStatus, .bndCapBundle, .bndByeTarget, .bndCalStatus]
def fencedPort : List Obj :=
  [.portEnDrive, .portEnCompare, .portEnLoad, .portEnPmu, .portEnPinsw, .portEnTerm, .portEdgeStatus, .portCycleCount,
   .portSerStatus, .portSerErrors, .portSerBits, .portRawStatus, .portCalRequest, .portCalState, .portStatus]

/-- Those entries of quadrant q: object, unit, sub-index. -/
def fencedEntries (q : Nat) : List (Obj × Nat × Nat) :=
  fencedQuad.flatMap (fun e => (upto e.2).map (fun k => (e.1, q, k)))
    ++ (upto 3).flatMap (fun j => fencedBnd.map (fun o => (o, 3 * q + j, 0)))
    ++ (upto 27).flatMap (fun j => fencedPort.map (fun o => (o, if j < 24 then 24 * q + j else 72 + 3 * q + j, 0)))

/-- The fence of quadrant q: its entries keep the values that they read as it closes (R72). -/
def State.holdReads (s : State) (q : Nat) : State :=
  let hold (x : Store (Option Nat) × State) (e : Obj × Nat × Nat) : Store (Option Nat) × State :=
    let (v, t) := x.2.readLive e.1 e.2.1 e.2.2
    (Store.put none (e.1.key e.2.1 e.2.2) (some v) x.1, t)
  let x := (fencedEntries q).foldl hold ([], s)
  x.2.setQuad q (fun t => { t with held := x.1 })

/-- The value that a closed quadrant's entry holds. -/
def State.heldValue (s : State) (o : Obj) (u k : Nat) : Option Nat :=
  match quadOfEntry o u with
  | some q => if s.quadClosed q then Store.get none (o.key u k) (s.quad q).held else none
  | none => none

/-- The value of a scalar entry. -/
def State.readScalar (s : State) (o : Obj) (u k : Nat) : Nat × State :=
  match s.heldValue o u k with
  | some v => (v, s)
  | none => s.readLive o u k

/-! ## DOM objects -/

/-- n bytes of a DOM entry from an offset. -/
def State.readDom (s : State) (o : Obj) (u k off n : Nat) : List Byte × State :=
  match o with
  | .bndPoolMap => (part ((upto 80).map (s.poolMap u)) off n, s)
  | .bndMeasCoef => (s.coefBytes u off n, s)
  | .bndMeasHistory => (part (s.measHistory u) off n, s)
  | .bndPeCtxStates => (sliceOf 1 (fun i => [BitVec.ofNat 8 (s.ctx (4096 * u + i)).stateByte]) off n, s)
  | .bndPeCtxImage => (sliceOf 64 (fun i => padTo 64 (s.ctxImage (4096 * u + i))) off n, s)
  | .bndSchedCounts => (part ((s.ledBy u).elim (List.replicate 64 0#8) (fun i => (s.sched i).countBytes)) off n, s)
  | .bndTrainResult => (sliceOf 8 (fun i => (s.port (8 * u + i)).train.bytes) off n, s)
  | .bndCapStatus => (part ((s.ledBy u).elim (List.replicate 32 0#8) (fun i => (s.ring i).status)) off n, s)
  | .bndTally => (sliceOf 16 (fun i => (Store.get {} i (s.cap u).tally).bytes) off n, s)
  | .portCalQuality => (part (padTo 16 (s.port u).cal.quality) off n, s)
  | .portCalTrims => (part (padTo 32 (s.port u).cal.trimImage) off n, s)
  | .portCalSet => (part (s.setImage u) off n, s)
  | .portCalHist => (part (padTo 1024 (s.port u).cal.hist) off n, s)
  | .qdTraceBuf => (part (padTo 8200 (s.quad u).trace.image) off n, s)
  | .qdQueueErr => (part (s.quad u).queueImage off n, s)
  | .qdLaneStatus => (part (s.laneImage u) off n, s)
  | .devNocShadow => (s.noc.image (!s.noc.epoch) off n, s)
  | .devNocActive => (s.noc.image s.noc.epoch off n, s)
  | .devNocVcFlits => s.freeBytes n
  | .qdMemLaneCorr => (part (s.chan (3 * u + k)).laneBytes off n, s)
  | .qdMemCounts => (part (s.chan (3 * u + k)).countBytes off n, s)
  | .qdMemTrain => (part (s.chan (3 * u + k)).trainBytes off n, s)
  | .devMgtOwnerAddr => (part (leBytes 16 ((s.ctl.ownerAddr.map (·.toNat)).getD 0)) off n, s)
  | .devMgtFrameCounts =>
    (part (leBytes 4 s.rim.rx ++ leBytes 4 s.rim.rxDropped ++ leBytes 4 s.rim.tx ++ leBytes 4 s.rim.evDropped) off n, s)
  | .devMgtLedger => s.ledgerBytes off n
  | .devMgtSub => (part (s.subImage k) off n, s)
  | .devEvtLast => (part (padTo 548 s.evt.last) off n, s)
  | .devEvtClassCount => (sliceOf 4 (fun i => leBytes 4 (Store.get 0 i s.evt.classCount)) off n, s)
  | .devLostContexts => (sliceOf 1 (fun i => [s.lostByte i]) off n, s)
  | .devFailedUnits => (part s.failedUnits off n, s)
  | .devLog => (sliceOf 1024 s.logImage off n, s)
  | o => (s.dom o u k off n, s)

/-- The bytes of a VSTR entry (R61). -/
def vstrBytes : Obj → List Byte
  | .devName => [0x54#8, 0x39#8, 0x36#8]
  | .devStepping => [0x42#8, 0x30#8]
  | _ => []

/-- The whole value of an entry that is no DOM. -/
def State.readValue (s : State) (o : Obj) (u k : Nat) : List Byte × State :=
  if o.row.type == .vstr then (vstrBytes o, s)
  else
    let (v, s) := s.readScalar o u k
    (leBytes o.row.size v, s)

end Sys2Proof.Machine
end

