-- ==== Sys2Proof/Machine/Checks.lean ====
section
/-! DEFINITION. The checks of a write to an entry of the base dictionary, in the order of R71: its class, its object's own
conditions, its range, the interlocks, and the refusals that its chapter makes after them (R29, R31, R48, R56, R71, R72).
The accepted write's effect is in Effects. -/
namespace Sys2Proof.Machine

/-- A write to an entry: the object, its unit, which of its sub-indices, the offset for a DOM object, the bytes. -/
structure Put where
  o : Obj
  u : Nat := 0
  k : Nat := 0
  off : Nat := 0
  data : List Byte := []
  deriving DecidableEq, Repr, Inhabited

/-- The value written (R12). -/
def Put.v (w : Put) : Nat := leNat w.data

/-- What the world outside decides of a write, where a command says it: the cause of the fault is cleared (R79). -/
structure Extra where
  cleared : Option Bool := none
  deriving DecidableEq, Repr, Inhabited

/-- A circumstance that a command does not say is free (log 4). -/
def State.orFree (s : State) (x : Option Bool) : Bool × State :=
  match x with
  | some b => (b, s)
  | none =>
    let (v, s) := s.free 1
    (v == 1, s)

/-- The circumstances of a write, settled. -/
def State.settle (s : State) (w : Put) (x : Extra) : Extra × State :=
  match w.o with
  | .devCommand => if w.v == 3 then
      let (b, s) := s.orFree x.cleared
      ({ x with cleared := some b }, s)
    else (x, s)
  | _ => (x, s)

/-! ## Step 7: closed quadrants (R72, R481) -/

def closedCheck (s : State) (w : Put) : Status :=
  (require (!((quadOfEntry w.o w.u).any s.quadClosed)) .tcClosed).and
    (if w.o == .devMemCmd then memCmdClosed s (bits w.v 8 4) else .ok)

/-! ## Step 8: the class (R29, R31, R48, R59, R109, R210, R257) -/

/-- The site that owns an object: its own, or the one that holds the bundle. -/
def State.ownerSite (s : State) (o : Obj) (u k : Nat) : Option Nat :=
  match o.row.space with
  | .site => some u
  | .bnd => s.siteOf u
  | .port => s.siteOfPort u
  | _ => if o == .devLineRatio then s.siteOf k else none

/-- A port object that the engine's hold of its port closes (R382). -/
def heldObject (o : Obj) (p : Nat) : Bool :=
  let off := o.row.off
  decide (off < 0x10) || (decide (p < 96) && ((decide (0x10 ≤ off) && decide (off ≤ 0x16)) || off == 0x18 || off == 0x1B || off == 0x1C))

/-- The scope of an RWI or RWG object is inert (R48). -/
def State.inertScope (s : State) (o : Obj) (u k : Nat) : Bool :=
  match o.row.space with
  | .site | .bnd | .port => (s.ownerSite o u k).all (fun i => (s.siteSt i).inert)
  | _ => if o == .devLineRatio then (s.ownerSite o u k).all (fun i => (s.siteSt i).inert) else !s.anySite (fun t => !t.inert)

def classCheck (s : State) (w : Put) : Status :=
  if w.o.row.acc == .rwi || w.o.row.acc == .rwg then
    firstRefusal
      [require (!((s.ownerSite w.o w.u w.k).any s.validates)) .busy,
       require (!(w.o.row.space == .port && heldObject w.o w.u && s.held w.u)) .busy,
       require (s.inertScope w.o w.u w.k) .state]
  else .ok

/-! ## Step 8: the object's own conditions -/

/-- BND_BYE_TARGET (R102, R379, R384). -/
def byeTargetState (s : State) (b v : Nat) : Status :=
  firstRefusal
    [require (!s.held (96 + b)) .busy,
     require ((s.subSlot b).isNone) .state,
     require (!(v != s.byeSlot b && (s.enables (96 + b)).pinsw)) .state]

/-- DEV_LINE_RATIO (R185, R382). -/
def lineState (s : State) (b : Nat) : Status :=
  require ((s.bnd b).lineNext.isNone && (s.bnd b).cal.cycle.isNone) .busy

/-- The fields of BND_PE_CTX_CMD (R272): op, count, first, source, reserved. -/
def ctxOp (v : Nat) : Nat := bits v 62 2
def ctxCount (v : Nat) : Nat := bits v 49 13
def ctxFirst (v : Nat) : Nat := bits v 37 12
def ctxSrc (v : Nat) : Nat := bits v 0 30

/-- The conditions of an object that fall at step 8; those of a command apply to its own code (log 60). -/
def stateCheck (s : State) (w : Put) (x : Extra) : Status :=
  let v := w.v
  match w.o with
  | .siteBundles => siteBundlesState s w.u v
  | .siteCommand => siteCommandState s w.u v
  | .devCommand => devCommandState s v
  | .portEnDrive | .portEnCompare | .portEnLoad | .portEnPmu | .portEnPinsw | .portEnTerm | .portFeConfig | .portDrvL0
  | .portDrvL1 | .portDrvL2 | .portDrvL3 | .portVtt | .portCt0 | .portCt1 | .portCt2 | .portLoad => feState s w.o w.u v
  | .bndPoolCells => poolCellsState s w.u w.off w.data
  | .bndPoolLink => poolLinkState s w.u v
  | .bndMeasCoef => measCoefState s w.u w.off w.data.length
  | .devLineRatio => lineState s w.k
  | .warpRole => warpRoleState s v
  | .devEventSend => eventSendState s v
  | .devWarpChar => warpCharState s v
  | .portMode | .portTset | .portFixDrive | .portFixCompare | .portPark => edgeState s w.o w.u
  | .portSerConfig | .portSerTxeq | .portSerRxeq | .portSerTiming | .portSerPrbs => serState s w.o w.u
  | .bndPeCtxCmd => ctxCmdState s w.u
  | .bndInjConfig | .bndInjControl => injState s w.u
  | .portCmpConfig => require (decide (w.u < 96)) .state
  | .bndCapRead => capReadState s w.u
  | .bndByeTarget => byeTargetState s w.u v
  | .bndCalCommand => if bits v 12 4 == 1 then calCommandState s w.u (v % 16) else .ok
  | .portCalRequest => calRequestState s w.u v
  | .qdClkDiv => require ((s.quad w.u).divNext.isNone) .busy
  | .qdTraceCtl => traceState s w.u v
  | .devCfgCommand => if v == 1 then beginFullState s else .ok
  | .devCfgStream => chunkState s none
  | .qdPrStream => chunkState s (some (Fin.ofNat 4 w.u))
  | .devKeyRam | .devKeyRamClear => keyState s
  | .qdPrCommand => if bits v 4 4 == 1 then prState s w.u (v % 4) else .ok
  | .devNocSwap => if v == 1 || v == 2 then nocIdle s else .ok
  | .devNocShadow => nocIdle s
  | .devMemCmd => if bits v 12 4 == 0 || 4 < bits v 12 4 then .ok else memCmdState s (bits v 12 4) (bits v 8 4)
  | .devMemRegions => regionsState s w.off w.data
  | .devPwrCommand => powerState s v
  | .qdPwrCommand => qdPowerState s w.u v
  | .devIjTarget | .devIjUnit | .devIjCount | .devIjInterval | .devIjSymbols | .devIjDuration => ijParamState s
  | .devIjControl => ijControlState s v
  | _ => .ok

/-! ## Step 9: the range -/

/-- The type and the numeric span of the range column (R46). -/
def spanCheck (w : Put) : Status :=
  let r := w.o.row
  match r.type with
  | .bool | .uint => require (decide (r.lo ≤ w.v) && decide (w.v ≤ r.hi)) .range
  | _ => .ok

/-- The values that an object's chapter allows beyond the span of its row. -/
def valueCheck (s : State) (w : Put) : Status :=
  let v := w.v
  let merged (n : Nat) := let old := s.dom w.o w.u w.k 0 n; old.take w.off ++ w.data ++ old.drop (w.off + w.data.length)
  match w.o with
  | .siteBundles => siteBundlesRange v
  | .siteStepBase => require (v % 32 == 0) .range
  | .portFeConfig | .portDrvL0 | .portDrvL1 | .portDrvL2 | .portDrvL3 | .portVtt | .portCt0 | .portCt1 | .portCt2
  | .portLoad => feRange s w.o w.u v
  | .bndPoolCells => poolCellsRange w.off w.data
  | .bndPoolLink => poolLinkRange v
  | .bndPoolWave => poolWaveRange s w.u w.off w.data
  | .bndMeasConfig => measConfigRange v
  | .bndMeasCoef => measCoefRange s w.u w.off w.data
  | .bndMeasControl => measControlRange v
  | .devLineRatio => lineRange v
  | .devEventSend => eventSendRange s v
  | .devWarpAsym => warpAsymRange v
  | .devWarpChar => warpCharRange v
  | .portTset => tsetRange w.off w.data
  | .portSerConfig | .portSerTxeq | .portSerTiming | .portSerPrbs => serRange w.o w.u v
  | .portSerRxeq => rxeqRange w.off w.data
  | .bndPeCtxCmd => ctxCmdRange (ctxOp v) (ctxCount v) (ctxFirst v) (ctxSrc v) (bits v 30 7)
  | .bndInjConfig => require (injConfigOk (merged 32)) .range
  | .portCmpConfig => require (decide (v < 8)) .range
  | .bndCapRead => capReadRange s w.u v
  | .bndByeTarget => require (decide (v < 8) || v == 0xFF) .range
  | .bndCalCommand => calCommandRange (bits v 12 4) (bits v 4 8) (v % 16)
  | .portCalRequest => calRequestRange w.u v
  | .qdClkDiv => clkDivRange v
  | .qdReset => qdResetRange v
  | .qdTraceCtl => traceRange v
  | .devCfgStream | .qdPrStream => require (w.off == 0) .range
  | .devKeyRam => keyRange w.off w.data
  | .qdPrCommand => prRange v
  | .devNocShadow => nocShadowRange w.data
  | .devMemCmd => memCmdRange (bits v 12 4) (bits v 8 4) (bits v 5 3) (v % 32)
  | .devMemScrubPeriod => require (v == 0 || (decide (60 ≤ v) && decide (v ≤ 86400))) .range
  | .devMemRegions => regionsRange s w.off w.data
  | .devEvtVector => require (w.data.all (fun b => decide (b.toNat < 64) || b == 0xFF#8)) .range
  | .devEvtSiteVector => require (decide (v < 64) || v == 0xFF) .range
  | .devIjControl => ijControlRange s v
  | _ => .ok

/-! ## Step 10, and what comes after (R104, R105, R150, R273, R378, R386, R79) -/

def interlockCheck (s : State) (w : Put) : Status :=
  match w.o with
  | .bndPoolLink => poolLinkInterlock s w.u w.v
  | .portEnDrive | .portEnLoad | .portEnPmu | .portEnTerm => feInterlock s w.o w.u w.v
  | _ => .ok

def afterCheck (s : State) (w : Put) (x : Extra) : Status :=
  let v := w.v
  match w.o with
  | .portEnDrive | .portEnCompare | .portEnLoad | .portEnPmu | .portEnPinsw | .portEnTerm => feAfter s w.o w.u v
  | .bndPoolLink => poolLinkPin s w.u v
  | .devCommand => devCommandAfter v (x.cleared.getD true)
  | .bndPeCtxCmd => ctxCmdAfter s w.u (ctxOp v) (ctxCount v) (ctxSrc v)
  | .portCalRequest => calRequestAfter s w.u
  | _ => .ok

/-- Steps 8 to 10 of R71 and the checks after them. -/
def laterChecks (s : State) (w : Put) (x : Extra) : Status :=
  firstRefusal [classCheck s w, stateCheck s w x, spanCheck w, valueCheck s w, interlockCheck s w, afterCheck s w x]

/-- What a refusal leaves behind: an INTERLOCK is counted at its bundle (R150), and an ARM writes SB+0x05 and clears
PORT_TSET_CHECK whatever refuses it (R65, R67). -/
def refusedPut (w : Put) (st : Status) (s : State) : State :=
  match w.o, st with
  | .siteCommand, st => if w.v == 1 then armRefused w.u st s else s
  | o, .interlock => if o.row.space == .port then countInterlock (bundleOfPort w.u) s else countInterlock w.u s
  | _, _ => s

end Sys2Proof.Machine
end

