-- ==== Sys2Proof/Machine/Effects.lean ====
section
/-! DEFINITION. The effect of an accepted write to an entry of the base dictionary, and the commit of the staging set
(R48, R49, R56 to R59, R63). -/
namespace Sys2Proof.Machine

/-- QD_TRACE_CTL by its COMMAND (R411, R412). -/
def traceEffect (q v : Nat) (s : State) : State :=
  match traceCommand v with
  | 0 => traceSetEffect q v s
  | 1 => traceArmEffect q v s
  | 2 => traceForceEffect q v s
  | _ => traceStopEffect q v s

/-- BND_PE_CTX_CMD: the images are read into staging, or the whole command is refused (R273). -/
def ctxCmdEffect (rq : Rq) (service : Nat) (a : Addr) (b : BundleNo) (v : Nat) (s : State) : Option Status × State :=
  let (st, l, s) := ctxCmdRead (ctxOp v) (ctxCount v) (ctxFirst v) (ctxSrc v) s
  if st != .ok then (some st, s)
  else (none, (s.setBnd b (fun t => { t with pe := { t.pe with staged := l } })).openService rq service a (.ctxCmd b))

/-- The value is held as written. -/
def Put.hold (w : Put) (s : State) : State :=
  if w.o.row.type == .dom then s.setDom w.o w.u w.k w.off w.data else s.wr w.o w.v w.u w.k

/-- DEV_LOG_CLEAR (R533). -/
def logClearEffect (s : State) : State := { s with ledger := { s.ledger with first := s.ledger.next } }

/-- POWER_DOWN of a quadrant: what it reads is held as the fence closes (R72, R518). -/
def qdCloseEffect (q : Nat) (s : State) : State :=
  (((qdDownEffect q s).setQuad q (fun t => { t with power := .on })).holdReads q).setQuad q (fun t => { t with power := .closing })

/-- The effect of an accepted write, and its answer; none while the answer is to come. -/
def putEffect (rq : Rq) (service : Nat) (a : Addr) (w : Put) (x : Extra) (s : State) : Option Status × State :=
  let v := w.v
  let u := w.u
  match w.o with
  | .siteBundles => (some .ok, siteBundlesEffect u v s)
  | .siteCommand => siteCommandEffect rq service a u v s
  | .devCommand => devCommandEffect rq service a v s
  | .portEnDrive | .portEnCompare | .portEnLoad | .portEnPmu | .portEnPinsw | .portEnTerm | .portFeConfig | .portDrvL0
  | .portDrvL1 | .portDrvL2 | .portDrvL3 | .portVtt | .portCt0 | .portCt1 | .portCt2
  | .portLoad => (some .ok, feEffect w.o u v s)
  | .bndPoolCells => (some .ok, poolCellsEffect u w.off w.data s)
  | .bndPoolLink => (some .ok, poolLinkEffect u v s)
  | .bndPoolWave => (some .ok, poolWaveEffect u w.off w.data s)
  | .bndMeasConfig => (some .ok, measConfigEffect u v s)
  | .bndMeasCoef => (some .ok, measCoefEffect u w.off w.data s)
  | .bndMeasControl => (some .ok, measControlEffect u v s)
  | .devLineRatio => (none, (lineEffect w.k v s).openService rq service a (.line (Fin.ofNat 12 w.k)))
  | .warpRole => (some .ok, warpRoleEffect v s)
  | .devEventSend => (some .ok, eventSendEffect v s)
  | .devWarpChar => (some .ok, warpCharEffect v s)
  | .portSerTxeq => (some .ok, txeqEffect u v s)
  | .portSerRxeq => (some .ok, rxeqEffect u w.data s)
  | .bndPeCtxCmd => ctxCmdEffect rq service a (Fin.ofNat 12 u) v s
  | .bndInjControl => (some .ok, injControlEffect u v s)
  | .bndCapRead => (some .ok, capReadEffect u v s)
  | .bndCalCommand => (some .ok, clearSubEffect u (v % 16) s)
  | .portCalRequest => (some .ok, calRequestEffect u v s)
  | .calAutoEnable => (some .ok, if v == 0 then autoOff (w.hold s) else w.hold s)
  | .devCalHold => (some .ok, if v == 0 then holdOff (w.hold s) else w.hold s)
  | .qdClkDiv => (none, (clkDivEffect u v s).openService rq service a (.clkDiv (Fin.ofNat 4 u)))
  | .qdClkSel => (some .ok, clkSelEffect u v s)
  | .qdReset => (some .ok, qdResetEffect u v s)
  | .qdProbeSel => (some .ok, probeSelEffect u w.off w.data s)
  | .qdTraceCtl => (some .ok, traceEffect u v s)
  | .devCfgCommand => (some .ok, beginFullEffect s)
  | .devCfgStream | .qdPrStream =>
    let (st, s) := chunkEffect w.data s
    (some st, s)
  | .devKeyRam => (some .ok, keyRamEffect w.data s)
  | .devKeyRamClear => (some .ok, keyClearEffect s)
  | .qdPrCommand => (some .ok, prEffect u (v % 4) s)
  | .devNocSwap =>
    if v == 2 then (some .ok, nocDefaultEffect s)
    else
      let (st, s) := nocSwapEffect rq service a s
      (if st == .ok then none else some st, s)
  | .devNocShadow => (some .ok, nocShadowEffect w.off w.data s)
  | .devMemCmd => (some .ok, memCmdEffect (bits v 12 4) (bits v 8 4) (v % 32) s)
  | .devPwrCommand => (some .ok, if v == 1 then powerUpEffect s else powerDownEffect s)
  | .qdPwrCommand => (some .ok, if v == 1 then qdCloseEffect u s else qdUpEffect u s)
  | .devIjUnlock => (some .ok, ijUnlockEffect v s)
  | .devIjControl => (some .ok, ijControlEffect v s)
  | .devLogClear => (some .ok, logClearEffect s)
  | .portStatusClear => (some .ok, clearSticky u s)
  | _ => (some .ok, w.hold s)

/-! ## The staging set (R56 to R59, R63) -/

/-- The address of a staged entry. -/
def addrOfKey (key : Nat) : Addr := ⟨BitVec.ofNat 16 (key / 256), BitVec.ofNat 8 (key % 256)⟩

/-- A staged write, from its key and value. -/
def stagedPut (e : Nat × Option Word) : Put :=
  match target (addrOfKey e.1) with
  | .entry o u k => { o := o, u := u, k := k, data := leBytes o.row.size ((e.2.getD 0).toNat) }
  | _ => { o := .siteStepBase, u := 0 }

/-- An accepted write of an RWG object joins the set, unless it would be the 1,025th entry (R56). -/
def stageEffect (a : Addr) (w : Put) (s : State) : Option Status × State :=
  let key := a.index.toNat * 256 + a.sub.toNat
  if (Store.get none key s.ctl.staged).isNone && decide (1024 ≤ s.ctl.staged.length) then (some .lenOver, s)
  else (some .ok, { s with ctl := { s.ctl with staged := Store.put none key (some (Word.of w.v)) s.ctl.staged } })

/-- The staging set is discarded. -/
def discardStaged (s : State) : State := { s with ctl := { s.ctl with staged := [] } }

/-- The commit: every entry is checked again, and all come into force or none (R58, R63). -/
def commitEffect (s : State) : Status × State :=
  if s.ctl.staged.isEmpty then (.ok, s)
  else match s.ctl.staged.find? (fun e => laterChecks s (stagedPut e) {} ≠ .ok) with
    | some e =>
      (.groupFail, discardStaged (s.wr .devGroupResult (e.1 * 256 + (laterChecks s (stagedPut e) {}).code)))
    | none => (.ok, discardStaged ((s.ctl.staged.foldl (fun t e => (stagedPut e).hold t) s).wr .devGroupResult 0))

/-- Steps 8 on of R71 for a write to a base entry, and its effect. -/
def servePut (rq : Rq) (service : Nat) (a : Addr) (w : Put) (x : Extra) (s : State) : Option Status × State :=
  let (x, s) := s.settle w x
  let st := laterChecks s w x
  if st ≠ .ok then (some st, refusedPut w st s)
  else if w.o.row.acc == .rwg then stageEffect a w s
  else putEffect rq service a w x s

end Sys2Proof.Machine
end

