-- ==== Sys2Proof/Machine/Services.lean ====
section
/-! DEFINITION. The service protocol: what an address names, the front checks of R71, ownership, reads, writes, block
transfers, commits and ABORT, and how a request reaches the dictionary service (R32, R39, R40, R48, R52 to R59, R68 to R74,
R95, R409, R485 to R489, R503 to R505, R541). -/
namespace Sys2Proof.Machine

/-! ## What an address names (R39, R40, R51, R409) -/

inductive Named where
  | absent (st : Status)
  | count (n : Nat)
  | base (o : Obj) (u k : Nat)
  | user (e : UserEntry)
  deriving DecidableEq, Repr, Inhabited

/-- Sub-indices that a user index declares. -/
def State.userSubs (s : State) (index : BitVec 16) : List Nat :=
  if !s.cfg.loaded then [] else (upto 256).filter (fun k => (s.userEntry ⟨index, BitVec.ofNat 8 k⟩).isSome)

/-- A user index with several entries reads its highest sub-index at sub-index 0 (R39). -/
def State.namedUser (s : State) (a : Addr) : Named :=
  match s.userEntry a with
  | some e => .user e
  | none =>
    match (s.userSubs a.index).getLast? with
    | none => .absent .noObject
    | some n => if a.sub == 0 && 0 < n then .count n else .absent .noSub

def State.named (s : State) (a : Addr) : Named :=
  if 0x6000 ≤ a.index.toNat && a.index.toNat ≤ 0x6FFF then s.namedUser a
  else match target a with
    | .noObject => .absent .noObject
    | .noSub => .absent .noSub
    | .count n => .count n
    | .entry o u k => .base o u k

def Named.acc : Named → Access
  | .base o _ _ => o.row.acc
  | .user e => e.acc
  | _ => .con

def Named.size : Named → Nat
  | .base o _ _ => o.row.size
  | .user e => e.size
  | _ => 1

def Named.isDom : Named → Bool
  | .base o _ _ => o.row.type == .dom
  | _ => false

def Named.isVstr : Named → Bool
  | .base o _ _ => o.row.type == .vstr
  | _ => false

def Named.is (n : Named) (o : Obj) : Bool :=
  match n with
  | .base o' _ _ => o' == o
  | _ => false

def abortAddr : Addr := ⟨0x2000, 6⟩
def commitAddr : Addr := ⟨0x2000, 5⟩
def ownerAddr' : Addr := ⟨0x2000, 4⟩

/-! ## The front checks: steps 1 to 6 of R71 -/

/-- The requester may not write (R52, R53, R54): the exceptions are CONTROL_OWNER while nobody owns control, and a
management write of 1 that claims unclaimed management ownership. -/
def State.lockedOut (s : State) (src : Src) (n : Named) (v : Nat) : Bool :=
  let owner := s.rd .controlOwner
  if owner == 0 then !n.is .controlOwner
  else if owner == 1 && s.ctl.ownerAddr.isNone then !(!isHost src && n.is .controlOwner && v == 1)
  else !s.owns src

/-- An ABORT is exempt from ownership and from the state checks (R52, R71, R87). -/
def Named.isAbort (n : Named) (v : Nat) : Bool := n.is .abort || (n.is .siteCommand && v == 6)

/-- While the main die is off or in reset, what the Rim serves (R36, R504, R527). -/
def rimServes (a : Addr) (write : Bool) : Bool :=
  let i := a.index.toNat
  let k := a.sub.toNat
  (decide (0x1100 ≤ i) && decide (i ≤ 0x11FF)) || (i == 0x2000 && (k == 4 || k == 6)) || (i == 0x2100 && decide (1 ≤ k) && decide (k ≤ 8))
    || (!write && ((decide (0x1000 ≤ i) && decide (i ≤ 0x10FF)) || (i == 0x2000 && k == 1) || (i == 0x2101 && k == 7)
      || (i == 0x2102 && (k == 4 || k == 5)) || (i == 0x2401 && k == 1) || (i == 0x2700 && (k == 0xF || k == 0x10))
      || (decide (0x2900 ≤ i) && decide (i ≤ 0x29FF))))

/-- The form of one request: whether it writes, whether it is a BLOCK service, its LENGTH, and for a block its start and
TOTAL; the value of a scalar write. -/
structure Form where
  write : Bool
  block : Bool
  len : Nat
  off : Nat := 0
  total : Nat := 0
  v : Nat := 0
  deriving DecidableEq, Repr, Inhabited

/-- Step 6: lengths (R69, R486, R487). -/
def lengthCheck (n : Named) (f : Form) : Status :=
  if f.block then
    if n.isDom then require (decide (f.off + f.total ≤ n.size)) .lenOver else .typeLen
  else if n.isVstr then .ok
  else if f.write && decide (n.size < f.len) then .lenOver
  else require (decide (n.size ≤ f.len)) .typeLen

/-- Steps 1 to 6 of R71, with what R486 puts before them. -/
def State.frontCheck (s : State) (src : Src) (a : Addr) (n : Named) (f : Form) : Status :=
  firstRefusal
    [require (s.alive || (rimServes a f.write && !(f.write && n.is .controlOwner && isHost src))) .state,
     require (!(n.isDom && !f.block)) .typeLen,
     (match n with | .absent st => st | _ => .ok),
     require (!(f.len == 0 || (f.block && f.total == 0))) .lenZero,
     (if f.write then require (!(n.acc == .ro || n.acc == .con)) .readOnly else require (n.acc != .wo) .writeOnly),
     require (!(f.write && !n.isAbort f.v && s.lockedOut src n f.v)) .locked,
     lengthCheck n f]

/-! ## An ABORT in the same CFG cycle (R32, R59) -/

/-- The scope code and envelope of an ABORT. -/
def abortOf : Instr → Option (Nat × Rq)
  | .abort rq code => some (code.toNat, rq)
  | .siteAbort rq i => some (0x1000 + i.val, rq)
  | .write rq a data =>
    if a == abortAddr && data.length == 2 then some (leNat data, rq)
    else match target a with
      | .entry .siteCommand i _ => if data == [6#8] then some (0x1000 + i, rq) else none
      | _ => none
  | _ => none

/-- The legal scope codes of the ABORTs that reach the dictionary service in a CFG cycle: those taken, and those that wait
behind this command. -/
def State.abortsIn (s : State) (cycle : Nat) : List Nat :=
  (s.ctl.aborts.filter (fun e => e.2 == cycle)).map (·.1)
    ++ s.pending.filterMap (fun c => match abortOf c with
      | some (code, rq) => if rq.cfg == some cycle && abortRange code == .ok then some code else none
      | none => none)

/-- A scope contains an entry (R62, R88): a bundle of a site stands for its site. -/
def State.scopeHas (s : State) (code : Nat) (o : Obj) (u k : Nat) : Bool :=
  let unit := code % 16
  if code / 4096 == 0 then true
  else
    let site := if code / 4096 == 1 then some unit else s.siteOf unit
    let inSite (b : Nat) := match site with
      | some i => s.siteOf b == some i
      | none => b == unit
    match o.row.space with
    | .site => site == some u
    | .bnd => inSite u
    | .port => inSite (bundleOfPort u)
    | _ => o == .devLineRatio && inSite k

/-- An ABORT of the same CFG cycle, whose scope contains the entry, takes precedence (R32). -/
def State.preempted (s : State) (rq : Rq) (has : Nat → Bool) : Bool :=
  match rq.cfg with
  | none => false
  | some c => s.alive && (s.abortsIn c).any has

def Named.inScope (n : Named) (s : State) (code : Nat) : Bool :=
  match n with
  | .base o u k => s.scopeHas code o u k
  | _ => code / 4096 == 0

/-! ## ABORT, CONTROL_OWNER, GROUP_COMMIT -/

/-- An ABORT of any form: its range, the abort, its mark in the CFG cycle (R32, R62, R87, R95, R504). -/
def serveAbort (rq : Rq) (code : Nat) (s : State) : Status × State :=
  if abortRange code ≠ .ok then (.range, s)
  else
    let s := dictAbort rq.src code s
    let s := match rq.cfg with
      | some c => { s with ctl := { s.ctl with aborts := (code, c) :: s.ctl.aborts.filter (fun e => e.2 == c) } }
      | none => s
    (.ok, s)

/-- A host claim of ownership that waits in the same CFG cycle (R53). -/
def State.hostClaims (s : State) (rq : Rq) : Bool :=
  match rq.cfg with
  | none => false
  | some c => s.pending.any (fun i => match i with
      | .controlOwnerWrite r v => isHost r.src && r.cfg == some c && v == 2#8
      | .write r a data => isHost r.src && r.cfg == some c && a == ownerAddr' && data == [2#8]
      | _ => false)

/-- CONTROL_OWNER past its front checks (R53 to R55, R539). -/
def serveOwner (rq : Rq) (v : Nat) (s : State) : Status × State :=
  let owner := s.rd .controlOwner
  let own := if isHost rq.src then 2 else 1
  let addr := match rq.src with | .mgt a _ => some a | .host _ => none
  if owner == 0 && v == 1 && !isHost rq.src && s.hostClaims rq then (.locked, s)
  else if decide (2 < v) || (owner == 0 && v != 0 && v != own) then (.range, s)
  else if v == owner then
    (.ok, if v == 1 && s.ctl.ownerAddr.isNone then { s with ctl := { s.ctl with ownerAddr := addr, heard := s.elapsed } } else s)
  else
    let s := s.wr .controlOwner v
    (.ok, { s with
      ctl := { s.ctl with staged := [], ownerAddr := if v == 1 && !isHost rq.src then addr else none, heard := s.elapsed }
      ij := { s.ij with state := 0, left := 0 } })

/-- GROUP_COMMIT past its front checks (R57 to R59). -/
def serveCommit (rq : Rq) (v : Nat) (s : State) : Status × State :=
  let has (code : Nat) := s.ctl.staged.any (fun e =>
    let w := stagedPut e
    s.scopeHas code w.o w.u w.k)
  if v == 1 && s.preempted rq has then (.aborted, discardStaged s)
  else if v == 1 then commitEffect s
  else if v == 2 then (.ok, discardStaged s)
  else (.range, s)

/-! ## Writes and reads -/

/-- A write to a user entry past its front checks (R409). -/
def serveUser (rq : Rq) (a : Addr) (e : UserEntry) (data : List Byte) (s : State) : Option Status × State :=
  let st := firstRefusal
    [require (!s.quadClosed e.quad) .tcClosed,
     require (!(e.acc == .rwi && s.anySite (fun t => !t.inert))) .state,
     require (!(e.type == .bool && decide (1 < leNat data))) .range]
  if st ≠ .ok then (some st, s) else (none, userWriteEffect rq a data s)

/-- A write that has passed its front checks: the commands with rules of their own, else steps 7 on of R71. -/
def serveNamed (rq : Rq) (service : Nat) (a : Addr) (n : Named) (off : Nat) (data : List Byte) (x : Extra) (s : State) :
    Option Status × State :=
  let v := leNat data
  let plain (r : Status × State) : Option Status × State := (some r.1, r.2)
  match n with
  | .base .abort _ _ => plain (serveAbort rq v s)
  | .base .groupCommit _ _ => plain (serveCommit rq v s)
  | .base o u k =>
    if o == .siteCommand && v == 6 then plain (serveAbort rq (0x1000 + u) s)
    else if s.preempted rq (fun code => s.scopeHas code o u k) then
      (some .aborted, refusedPut { o := o, u := u, k := k, off := off, data := data } .aborted s)
    else if o == .controlOwner then plain (serveOwner rq v s)
    else
      let w : Put := { o := o, u := u, k := k, off := off, data := data }
      if closedCheck s w ≠ .ok then (some .tcClosed, s) else servePut rq service a w x s
  | .user e => if s.preempted rq (fun code => code / 4096 == 0) then (some .aborted, s) else serveUser rq a e data s
  | _ => (some .readOnly, s)

/-- What a write that its front checks refuse leaves behind: an ARM that finds control LOCKED writes SB+0x05 too (R67). -/
def frontRefused (n : Named) (st : Status) (data : List Byte) (s : State) : State :=
  match n, st with
  | .base o u k, .locked => refusedPut { o := o, u := u, k := k, data := data } .locked s
  | _, _ => s

/-- A WRITE service (R71, R486). -/
def writeValue (rq : Rq) (service : Nat) (a : Addr) (data : List Byte) (x : Extra) (s : State) : Option Status × State :=
  let n := s.named a
  let st := s.frontCheck rq.src a n { write := true, block := false, len := data.length, v := leNat data }
  if st ≠ .ok then (some st, frontRefused n st data s) else serveNamed rq service a n 0 data x s

/-- A whole block transfer (R69, R70, R487). -/
def writeBlock (rq : Rq) (a : Addr) (off : Nat) (data : List Byte) (s : State) : Option Status × State :=
  let n := s.named a
  let st := s.frontCheck rq.src a n { write := true, block := true, len := data.length, off := off, total := data.length }
  if st ≠ .ok then (some st, s) else serveNamed rq svcBlockWrite a n off data {} s

/-- A READ service: the status, the value, the state after (R39, R68, R69, R486). -/
def readAt (src : Src) (a : Addr) (len : Nat) (s : State) : Status × List Byte × State :=
  let n := s.named a
  let st := s.frontCheck src a n { write := false, block := false, len := len }
  if st ≠ .ok then (st, [], s)
  else match n with
    | .count k => (.ok, leBytes 1 k, s)
    | .base o u k =>
      let (l, s') := s.readValue o u k
      if o.row.type == .vstr && decide (len < l.length) then (.typeLen, [], s) else (.ok, l, s')
    | .user e =>
      (.ok, leBytes e.size (s.shadow a).toNat, s)
    | .absent st => (st, [], s)

/-- The segments of a BLOCK_READ, in offset order (R487): offsets and lengths. -/
def segmentsOf (seg off total : Nat) : List (Nat × Nat) :=
  (upto (ceilDiv total (max seg 1))).map (fun i => (off + i * seg, min seg (total - i * seg)))

/-- Segments formed one after another. -/
def formSegments (o : Obj) (u k total : Nat) : List (Nat × Nat) → State →
    List (Status × Option (Nat × Nat) × List Byte) × State
  | [], s => ([], s)
  | (p, n) :: l, s =>
    let (d, s) := s.readDom o u k p n
    let (r, s) := formSegments o u k total l s
    ((.ok, some (p, total), d) :: r, s)

/-- A BLOCK_READ service (R487): the frames that answer it. -/
def readBlock (src : Src) (a : Addr) (seg off total : Nat) (s : State) :
    List (Status × Option (Nat × Nat) × List Byte) × State :=
  let n := s.named a
  let refuse (st : Status) := [(st, some (off, total), ([] : List Byte))]
  if 1024 < seg then (refuse .range, s)
  else
    let st := s.frontCheck src a n { write := false, block := true, len := seg, off := off, total := total }
    if st ≠ .ok then (refuse st, s)
    else match n with
      | .base o u k => formSegments o u k total (segmentsOf seg off total) s
      | _ => (refuse .typeLen, s)

/-! ## BLOCK_WRITE by segments (R487) -/

def State.transfer (s : State) (src : Src) : Option Transfer := s.ctl.transfers.find? (fun t => t.src == src)

/-- The open transfer of a requester is abandoned; nothing else changes (R70, R487). -/
def dropTransfer (src : Src) (s : State) : State :=
  { s with ctl := { s.ctl with transfers := s.ctl.transfers.filter (fun t => t.src != src) } }

/-- A segment follows the open transfer. -/
def follows (t : Option Transfer) (a : Addr) (g : Segment) : Bool :=
  match t with
  | some t => t.addr == a && g.offset == t.start + t.data.length && g.total == t.total
  | none => false

/-- One segment: its answer, none while the service's answer is to come, and the state after. -/
def blockSegment (rq : Rq) (a : Addr) (g : Segment) (s : State) : Option Status × State :=
  let old := s.transfer rq.src
  let clean := dropTransfer rq.src s
  let start := if g.first then g.offset else (old.map (·.start)).getD 0
  let before := if g.first then [] else (old.map (·.data)).getD []
  let all := before ++ g.data
  let n := s.named a
  let st := s.frontCheck rq.src a n { write := true, block := true, len := g.data.length, off := start, total := g.total }
  if 1024 < g.data.length || (!g.first && !follows old a g) then (some .range, clean)
  else if st ≠ .ok then (some st, clean)
  else if g.total < all.length || (g.last && all.length < g.total) then (some .range, clean)
  else if g.last then serveNamed rq svcBlockWrite a n start all {} clean
  else (some .ok, { clean with ctl := { clean.ctl with transfers :=
    { src := rq.src, addr := a, start := start, total := g.total, data := all, since := s.elapsed } :: clean.ctl.transfers } })

/-! ## How a request arrives (R489, R503, R541) -/

/-- A management frame is discarded and counted (R503, R508). -/
def dropFrame (s : State) : State := { s with rim := { s.rim with rxDropped := min (s.rim.rxDropped + 1) 0xFFFFFFFF } }

/-- Requests of an address that are accepted and not answered (R489). -/
def State.outstanding (s : State) (addr : BitVec 128) : Nat :=
  (s.ctl.services.filter (fun o => match o.rq.src with | .mgt a _ => a == addr | .host _ => false)).length

/-- A frame of a management address has been received: it keeps the ownership that this address holds (R54). -/
def State.hears (s : State) (addr : BitVec 128) : State :=
  if s.ctl.ownerAddr == some addr then { s with ctl := { s.ctl with heard := s.elapsed } } else s

/-- What stands between a request and its service (R489, R503, R541): the Rim is powered, injection spares the frame, its
SEQ is not one that was answered lately, and fewer than 8 requests of its address are outstanding. -/
def arrives (rq : Rq) (service : Nat) (a : Addr) (blk : Option (Nat × Nat)) (f : State → State) (s : State) : State :=
  match rq.src with
  | .host _ => f s
  | .mgt addr _ =>
    if !s.rim.powered then s
    else if 0 < s.ij.rxDrop then dropFrame { s with ij := { s.ij with rxDrop := s.ij.rxDrop - 1 } }
    else if 0 < s.ij.corrupt then dropFrame { s with ij := { s.ij with corrupt := s.ij.corrupt - 1 } }
    else
      let s := ({ s with rim := { s.rim with rx := min (s.rim.rx + 1) 0xFFFFFFFF } } : State).hears addr
      match s.ctl.replies.find? (fun r => r.addr == addr && r.seq == rq.seq) with
      | some r => s.transmit r.frames
      | none =>
        if 8 ≤ s.outstanding addr then
          s.transmit [.reply rq.src rq.seq service a true true Status.busy.code blk []]
        else f s

/-- Sends the answer of a service that has one now. -/
def answerNow (rq : Rq) (service : Nat) (a : Addr) (blk : Option (Nat × Nat)) (r : Option Status × State) : State :=
  match r.1 with
  | some st => r.2.reply rq service a st [] blk
  | none => r.2

/-- A WRITE service, from its arrival to its answer. -/
def doWrite (rq : Rq) (a : Addr) (data : List Byte) (x : Extra) : State → State :=
  arrives rq svcWrite a none (fun s => answerNow rq svcWrite a none (writeValue rq svcWrite a data x s))

/-- A write to an entry of the base dictionary. -/
def Obj.addr (o : Obj) (u : Nat := 0) (k : Nat := 0) : Addr :=
  ⟨BitVec.ofNat 16 (o.index u), BitVec.ofNat 8 (o.row.sub1 + k)⟩

/-- A WRITE of a number to a scalar entry, in the entry's size. -/
def writeTo (rq : Rq) (o : Obj) (u k v : Nat) (x : Extra := {}) : State → State :=
  doWrite rq (o.addr u k) (leBytes o.row.size v) x

/-- A block transfer to a DOM entry, from its first segment to its answer. -/
def blockTo (rq : Rq) (o : Obj) (u off : Nat) (data : List Byte) : State → State :=
  let blk := some (off, data.length)
  arrives rq svcBlockWrite (o.addr u) blk (fun s =>
    answerNow rq svcBlockWrite (o.addr u) blk (writeBlock rq (o.addr u) off data (dropTransfer rq.src s)))

/-- A READ service. -/
def doRead (rq : Rq) (a : Addr) (len : Nat) : State → State :=
  arrives rq svcRead a none (fun s =>
    let (st, l, s) := readAt rq.src a len s
    s.reply rq svcRead a st l)

/-- A BLOCK_READ service. -/
def doBlockRead (rq : Rq) (a : Addr) (seg off total : Nat) : State → State :=
  arrives rq svcBlockRead a (some (off, total)) (fun s =>
    let (frames, s) := readBlock rq.src a seg off total s
    s.replyAll rq svcBlockRead a frames)

/-- One BLOCK_WRITE frame. -/
def doBlockWrite (rq : Rq) (a : Addr) (g : Segment) : State → State :=
  let blk := some (g.offset, g.total)
  arrives rq svcBlockWrite a blk (fun s => answerNow rq svcBlockWrite a blk (blockSegment rq a g s))

/-- A GROUP_COMMIT service (R57, R486). -/
def doCommit (rq : Rq) (v : Nat) : State → State :=
  arrives rq svcCommit commitAddr none (fun s =>
    answerNow rq svcCommit commitAddr none (writeValue rq svcCommit commitAddr (leBytes 1 v) {} s))

/-- An ABORT service (R52, R62, R486). -/
def doAbort (rq : Rq) (code : Nat) : State → State :=
  arrives rq svcAbort abortAddr none (fun s =>
    answerNow rq svcAbort abortAddr none (writeValue rq svcAbort abortAddr (leBytes 2 code) {} s))

def zeroAddr : Addr := ⟨0, 0⟩

/-- A HEARTBEAT service: its token comes back (R486). -/
def doHeartbeat (rq : Rq) (token : List Byte) : State → State :=
  arrives rq svcHeartbeat zeroAddr none (fun s =>
    s.reply rq svcHeartbeat zeroAddr
      (if token.length == 0 then .lenZero else if 4 < token.length then .lenOver else require (token.length == 4) .typeLen) token)

/-- The IDENTIFY reply (R488). -/
def State.identity (s : State) : List Byte :=
  leBytes 4 (s.rd .devVendorCode) ++ leBytes 4 ((s.readScalar .devProductCode 0 0).1) ++ leBytes 4 (s.rd .devSteppingCode)
    ++ leBytes 4 s.fuses.serial.toNat ++ leBytes 1 s.devState ++ leBytes 1 (s.rd .controlOwner)
    ++ leBytes 1 ((s.readScalar .devGrade 0 0).1) ++ [0#8] ++ leBytes 6 s.fuses.mac.toNat
    ++ leBytes 2 (s.rd .devMgtUdpPort) ++ leBytes 4 s.fuses.rimFw.toNat

/-- An IDENTIFY service, answered in every state (R488). -/
def doIdentify (rq : Rq) (len : Nat) : State → State :=
  arrives rq svcIdentify zeroAddr none (fun s =>
    s.reply rq svcIdentify zeroAddr (if len == 0 then .lenZero else require (decide (32 ≤ len)) .typeLen) s.identity)

/-! ## Subscriptions (R507) -/

/-- The slot that an address and port hold, and the first free slot. -/
def State.slotHeld (s : State) (addr : BitVec 128) (port : BitVec 16) : Option Nat :=
  (upto 4).find? (fun i => match (s.evt.subs[i]?).join with | some p => p.addr == addr && p.port == port | none => false)
def State.slotFree (s : State) : Option Nat := (upto 4).find? (fun i => ((s.evt.subs[i]?).join).isNone)

/-- SUBSCRIBE past its form: the status, the slot number of the reply, the state after. -/
def subscribeSlot (addr : BitVec 128) (port : BitVec 16) (mask : BitVec 64) (lease : Nat) (s : State) : Status × Nat × State :=
  if !(10 ≤ lease && lease ≤ 3600) then (.range, 0, s)
  else match s.slotHeld addr port with
    | some i =>
      if mask == 0 then (.ok, 0, s.setSub i none)
      else (.ok, i + 1, s.setSub i (((s.evt.subs[i]?).join).map (fun p => { p with mask := mask, lease := lease, since := s.elapsed })))
    | none =>
      if mask == 0 then (.ok, 0, s)
      else match s.slotFree with
        | some i => (.ok, i + 1, s.setSub i (some { addr := addr, port := port, mask := mask, lease := lease, since := s.elapsed }))
        | none => (.busy, 0, s)

/-- A SUBSCRIBE service; from a host slot it is refused with STATE (R492, R507). -/
def doSubscribe (rq : Rq) (mask : BitVec 64) (port lease : BitVec 16) : State → State :=
  arrives rq svcSubscribe zeroAddr none (fun s =>
    match rq.src with
    | .host _ => s.reply rq svcSubscribe zeroAddr .state
    | .mgt addr sport =>
      let (st, n, s) := subscribeSlot addr (if port == 0 then sport else port) mask lease.toNat s
      s.reply rq svcSubscribe zeroAddr st (leBytes 1 n))

end Sys2Proof.Machine
end

