-- ==== Sys2Proof/Machine/Requests.lean ====
section
/-! DEFINITION. The rows that are services and writes: one meaning for each, over the service protocol of Services. -/
namespace Sys2Proof.Machine

/-! ## The services (R39 to R74, R485 to R489, R507) -/

/-- WRITE. -/
def execWrite (rq : Rq) (addr : Addr) (data : List Byte) : State → Out := memRun (doWrite rq addr data {})

/-- READ. -/
def execRead (rq : Rq) (addr : Addr) (len : Nat) : State → Out := run (doRead rq addr len)

/-- BLOCK_READ. -/
def execBlockRead (rq : Rq) (addr : Addr) (seg offset total : Nat) : State → Out := run (doBlockRead rq addr seg offset total)

/-- BLOCK_WRITE: one segment. -/
def execBlockWrite (rq : Rq) (addr : Addr) (seg : Segment) : State → Out := run (doBlockWrite rq addr seg)

/-- BLOCK_WRITE_IDLE_TIMEOUT: 1 s has passed without a segment of the requester's open transfer (R487). -/
def execBlockWriteIdleTimeout (src : Src) : State → Out :=
  run (fun s => s.onlyIf ((s.transfer src).any (fun t => s.passed t.since ticksPerSecond)) (dropTransfer src))

/-- What a service that is answered TIMEOUT had begun is not in force (R73); a swap and a wipe go on (R78, R456). -/
def undo : Waits → State → State
  | .arm i => fun s => (s.setSite i (fun t => { t with validating := none })).armResult i ⟨.timeout, 0, 0, 0⟩
  | .line b => fun s => s.setBnd b (fun t => { t with lineNext := none })
  | .clkDiv q => fun s => s.setQuad q (fun t => { t with divNext := none })
  | .ctxCmd b => fun s => s.setBnd b (fun t => { t with pe := { t.pe with staged := [] } })
  | .unload | .chunk | .swap | .user _ _ => id

/-- SERVICE_TIMEOUT: an accepted service of the requester that has waited 100 ms is answered TIMEOUT (R73). -/
def serviceTimeout (rq : Rq) (s : State) : State :=
  match s.ctl.services.find? (fun o => o.rq == rq && s.passed o.since (100 * ticksPerMs)) with
  | none => s
  | some o =>
    let s := { s with ctl := { s.ctl with services := s.ctl.services.filter (· != o) } }
    (undo o.waits s).answer o .timeout

def execServiceTimeout (rq : Rq) : State → Out := run (serviceTimeout rq)

/-- STAGED_WRITE: a WRITE to an RWG object (R56). -/
def execStagedWrite (rq : Rq) (addr : Addr) (data : List Byte) : State → Out := run (doWrite rq addr data {})

/-- GROUP_COMMIT (R57 to R59). -/
def execGroupCommit (rq : Rq) : State → Out := run (doCommit rq 1)

/-- GROUP_DISCARD (R57). -/
def execGroupDiscard (rq : Rq) : State → Out := run (doCommit rq 2)

/-- CONTROL_OWNER_WRITE (R53 to R55). -/
def execControlOwnerWrite (rq : Rq) (value : Byte) : State → Out := run (writeTo rq .controlOwner 0 0 value.toNat)

/-- OWNER_REVERT: management ownership reverts when DEV_MGT_HB_TIMEOUT has passed since the owner's latest frame, or since the
hand-over of what no source has claimed (R54). -/
def execOwnerRevert : State → Out :=
  run (fun s => s.onlyIf (s.rd .controlOwner == 1 && s.passed s.ctl.heard (s.rd .devMgtHbTimeout * ticksPerMs)) State.revertOwner)

/-- HEARTBEAT. -/
def execHeartbeat (rq : Rq) (token : BitVec 32) : State → Out := run (doHeartbeat rq (leBytes 4 token.toNat))

/-- IDENTIFY. -/
def execIdentify (rq : Rq) (len : Nat) : State → Out := run (doIdentify rq len)

/-- SUBSCRIBE. -/
def execSubscribe (rq : Rq) (mask : BitVec 64) (port lease : BitVec 16) : State → Out := run (doSubscribe rq mask port lease)

/-- SUBSCRIPTION_LEASE_EXPIRY: the slot's lease has run out (R507). -/
def execSubscriptionLeaseExpiry (slot : Fin 4) : State → Out :=
  run (fun s => s.onlyIf ((s.evt.subs[slot.val]?).join.any (fun p => s.passed p.since (p.lease * ticksPerSecond))) (·.setSub slot none))

/-- ABORT (R32, R62, R87, R95). -/
def execAbort (rq : Rq) (code : BitVec 16) : State → Out := run (doAbort rq code.toNat)

/-! ## Device and site commands (R79 to R83) -/

/-- PAUSE_ALL. -/
def execPauseAll (rq : Rq) : State → Out := run (writeTo rq .devCommand 0 0 1)

/-- RESUME_ALL. -/
def execResumeAll (rq : Rq) : State → Out := run (writeTo rq .devCommand 0 0 2)

/-- CLEAR_FAULT. -/
def execClearFault (rq : Rq) (causeCleared : Bool) : State → Out :=
  run (writeTo rq .devCommand 0 0 3 { cleared := some causeCleared })

/-- UNLOAD. -/
def execUnload (rq : Rq) : State → Out := run (writeTo rq .devCommand 0 0 4)

/-- SELF_TEST. -/
def execSelfTest (rq : Rq) : State → Out := run (writeTo rq .devCommand 0 0 5)

/-- SITE_BUNDLES_WRITE. -/
def execSiteBundlesWrite (rq : Rq) (site : SiteNo) (mask : BitVec 16) : State → Out :=
  run (writeTo rq .siteBundles site 0 mask.toNat)

/-- ARM. -/
def execArm (rq : Rq) (site : SiteNo) : State → Out := run (writeTo rq .siteCommand site 0 1)

/-- START. -/
def execStart (rq : Rq) (site : SiteNo) : State → Out := run (writeTo rq .siteCommand site 0 2)

/-- PAUSE. -/
def execPause (rq : Rq) (site : SiteNo) : State → Out := run (writeTo rq .siteCommand site 0 3)

/-- RESUME. -/
def execResume (rq : Rq) (site : SiteNo) : State → Out := run (writeTo rq .siteCommand site 0 4)

/-- DISARM. -/
def execDisarm (rq : Rq) (site : SiteNo) : State → Out := run (writeTo rq .siteCommand site 0 5)

/-- SITE_ABORT. -/
def execSiteAbort (rq : Rq) (site : SiteNo) : State → Out := run (writeTo rq .siteCommand site 0 6)

/-! ## Ports and the pool (R146, R149, R157, R544) -/

/-- PORT_STATUS_CLEAR. -/
def execPortStatusClear (rq : Rq) (port : PortNo) (value : Byte) : State → Out :=
  run (writeTo rq .portStatusClear port 0 value.toNat)

/-- POOL_CELLS_WRITE. -/
def execPoolCellsWrite (rq : Rq) (bundle : BundleNo) (offset : Nat) (data : List Byte) : State → Out :=
  run (blockTo rq .bndPoolCells bundle offset data)

/-- POOL_LINK_CLOSE. -/
def execPoolLinkClose (rq : Rq) (bundle : BundleNo) (node : BitVec 6) (cell : Fin 16) (terminal : Fin 8) : State → Out :=
  run (writeTo rq .bndPoolLink bundle 0 (linkWord true node.toNat cell terminal))

/-- POOL_LINK_OPEN. -/
def execPoolLinkOpen (rq : Rq) (bundle : BundleNo) (cell : Fin 16) (terminal : Fin 8) : State → Out :=
  run (writeTo rq .bndPoolLink bundle 0 (linkWord false 0 cell terminal))

/-- POOL_WAVE_WRITE. -/
def execPoolWaveWrite (rq : Rq) (bundle : BundleNo) (offset : Nat) (data : List Byte) : State → Out :=
  run (blockTo rq .bndPoolWave bundle offset data)

/-! ## The measurement chain (R163, R166, R167) -/

/-- MEAS_CONFIG_WRITE. -/
def execMeasConfigWrite (rq : Rq) (bundle : BundleNo) (value : BitVec 32) : State → Out :=
  run (writeTo rq .bndMeasConfig bundle 0 value.toNat)

/-- MEAS_INPUT_SELECT: INPUT changes, TARGET_BANK and FADE_LEN stay. -/
def execMeasInputSelect (rq : Rq) (bundle : BundleNo) (input : BitVec 6) : State → Out :=
  run (fun s => writeTo rq .bndMeasControl bundle 0 (input.toNat * 2 ^ 16 + bits (s.rd .bndMeasControl bundle) 0 10) {} s)

/-- SYNC: COMMAND 1, the other fields as they stand. -/
def execSync (rq : Rq) (bundle : BundleNo) : State → Out :=
  run (fun s => writeTo rq .bndMeasControl bundle 0 (measControlKept (s.rd .bndMeasControl bundle) + 2 ^ 12) {} s)

/-- SWAP: COMMAND 2 to a bank over a fade. -/
def execSwap (rq : Rq) (bundle : BundleNo) (target : Bool) (fadeLen : BitVec 9) : State → Out :=
  run (fun s => writeTo rq .bndMeasControl bundle 0
    (bits (s.rd .bndMeasControl bundle) 16 6 * 2 ^ 16 + 2 ^ 13 + (if target then 2 ^ 9 else 0) + fadeLen.toNat) {} s)

/-- MEAS_COEF_WRITE. -/
def execMeasCoefWrite (rq : Rq) (bundle : BundleNo) (offset : Nat) (data : List Byte) : State → Out :=
  run (blockTo rq .bndMeasCoef bundle offset data)

/-! ## Timebase (R180, R185, R197, R198) -/

/-- WARP_ROLE_WRITE. -/
def execWarpRoleWrite (rq : Rq) (value : Byte) : State → Out := run (writeTo rq .warpRole 0 0 value.toNat)

/-- LINE_RATIO_WRITE. -/
def execLineRatioWrite (rq : Rq) (bundle : BundleNo) (value : BitVec 64) : State → Out :=
  run (writeTo rq .devLineRatio 0 bundle value.toNat)

/-- DEV_EVENT_SEND of a type and group (R206). -/
def sendEvent (rq : Rq) (type group : Nat) : State → State := writeTo rq .devEventSend 0 0 (type * 2 ^ 12 + group)

/-- EVENT_SEND_SYNC. -/
def execEventSendSync (rq : Rq) (group : Byte) : State → Out := run (sendEvent rq 1 group.toNat)

/-- EVENT_SEND_START. -/
def execEventSendStart (rq : Rq) (group : Byte) : State → Out := run (sendEvent rq 2 group.toNat)

/-- EVENT_SEND_PAUSE. -/
def execEventSendPause (rq : Rq) (group : Byte) : State → Out := run (sendEvent rq 3 group.toNat)

/-- EVENT_SEND_HOLD. -/
def execEventSendHold (rq : Rq) (group : Byte) : State → Out := run (sendEvent rq 5 group.toNat)

/-- WARP_CHAR. -/
def execWarpChar (rq : Rq) (value : Byte) : State → Out := run (writeTo rq .devWarpChar 0 0 value.toNat)

/-! ## Contexts (R272 to R274) -/

/-- The BND_PE_CTX_CMD word (R272). -/
def ctxCmdWord (op count first src : Nat) : Nat := op * 2 ^ 62 + count * 2 ^ 49 + first * 2 ^ 37 + src

/-- LOAD. -/
def execLoad (rq : Rq) (bundle : BundleNo) (count : BitVec 13) (first : CtxNo) (src : BitVec 30) : State → Out :=
  memRun (writeTo rq .bndPeCtxCmd bundle 0 (ctxCmdWord 1 count.toNat first src.toNat))

/-- FREE. -/
def execFree (rq : Rq) (bundle : BundleNo) (count : BitVec 13) (first : CtxNo) : State → Out :=
  run (writeTo rq .bndPeCtxCmd bundle 0 (ctxCmdWord 2 count.toNat first 0))

/-- RESTORE. -/
def execRestore (rq : Rq) (bundle : BundleNo) (count : BitVec 13) (first : CtxNo) (src : BitVec 30) : State → Out :=
  memRun (writeTo rq .bndPeCtxCmd bundle 0 (ctxCmdWord 3 count.toNat first src.toNat))

/-! ## Injection, capture, lanes (R240, R244, R328, R343) -/

/-- INJ_ARM. -/
def execInjArm (rq : Rq) (bundle : BundleNo) : State → Out := run (writeTo rq .bndInjControl bundle 0 1)

/-- INJ_DISARM. -/
def execInjDisarm (rq : Rq) (bundle : BundleNo) : State → Out := run (writeTo rq .bndInjControl bundle 0 0)

/-- INJ_ONE_SHOT. -/
def execInjOneShot (rq : Rq) (bundle : BundleNo) : State → Out := run (writeTo rq .bndInjControl bundle 0 2)

/-- CAP_READ_WRITE. -/
def execCapReadWrite (rq : Rq) (bundle : BundleNo) (value : BitVec 64) : State → Out :=
  run (writeTo rq .bndCapRead bundle 0 value.toNat)

/-- TXEQ_WRITE. -/
def execTxeqWrite (rq : Rq) (port : PortNo) (value : BitVec 64) : State → Out :=
  run (writeTo rq .portSerTxeq port 0 value.toNat)

/-- RXEQ_WRITE. -/
def execRxeqWrite (rq : Rq) (port : PortNo) (offset : Nat) (data : List Byte) : State → Out :=
  run (blockTo rq .portSerRxeq port offset data)

/-! ## Calibration (R381, R386) -/

/-- CAL_REQUEST_CANCEL. -/
def execCalRequestCancel (rq : Rq) (port : PortNo) : State → Out := run (writeTo rq .portCalRequest port 0 0)

/-- CAL_REQUEST_LIVE. -/
def execCalRequestLive (rq : Rq) (port : PortNo) : State → Out := run (writeTo rq .portCalRequest port 0 1)

/-- CAL_REQUEST_OFFLINE. -/
def execCalRequestOffline (rq : Rq) (port : PortNo) : State → Out := run (writeTo rq .portCalRequest port 0 2)

/-- CLEAR_SUB. -/
def execClearSub (rq : Rq) (bundle : BundleNo) (slot : Fin 16) : State → Out :=
  run (writeTo rq .bndCalCommand bundle 0 (2 ^ 12 + slot))

/-! ## Fabric (R394 to R396, R409 to R411) -/

/-- CLK_DIV_WRITE. -/
def execClkDivWrite (rq : Rq) (quad : QuadNo) (value : BitVec 64) : State → Out :=
  run (writeTo rq .qdClkDiv quad 0 value.toNat)

/-- CLK_SEL_WRITE. -/
def execClkSelWrite (rq : Rq) (quad : QuadNo) (value : BitVec 16) : State → Out :=
  run (writeTo rq .qdClkSel quad 0 value.toNat)

/-- QD_RESET_WRITE. -/
def execQdResetWrite (rq : Rq) (quad : QuadNo) (value : Byte) : State → Out := run (writeTo rq .qdReset quad 0 value.toNat)

/-- PROBE_SEL_WRITE. -/
def execProbeSelWrite (rq : Rq) (quad : QuadNo) (offset : Nat) (data : List Byte) : State → Out :=
  run (blockTo rq .qdProbeSel quad offset data)

/-- QD_TRACE_CTL with the fields of a value and a COMMAND. -/
def traceCommandTo (rq : Rq) (q v cmd : Nat) : State → State := writeTo rq .qdTraceCtl q 0 (v - traceCommand v + cmd)

/-- TRACE_ARM. -/
def execTraceArm (rq : Rq) (quad : QuadNo) (value : BitVec 64) : State → Out := run (traceCommandTo rq quad value.toNat 1)

/-- TRACE_FORCE. -/
def execTraceForce (rq : Rq) (quad : QuadNo) (value : BitVec 64) (_ : Unit) : State → Out :=
  run (traceCommandTo rq quad value.toNat 2)

/-- TRACE_STOP. -/
def execTraceStop (rq : Rq) (quad : QuadNo) (value : BitVec 64) (_ : Unit) : State → Out :=
  run (traceCommandTo rq quad value.toNat 3)

/-- USER_OBJECT_WRITE: a WRITE to an address of the user range (R409). -/
def execUserObjectWrite (rq : Rq) (addr : Addr) (data : List Byte) : State → Out := run (doWrite rq addr data {})

/-! ## Configuration and keys (R425, R426, R437, R443) -/

/-- BEGIN_FULL. -/
def execBeginFull (rq : Rq) : State → Out := run (writeTo rq .devCfgCommand 0 0 1)

/-- A chunk of the configuration stream, or of a quadrant's partial stream. -/
def chunkTo (rq : Rq) (quad : Option QuadNo) (data : List Byte) : State → State :=
  match quad with
  | none => blockTo rq .devCfgStream 0 0 data
  | some q => blockTo rq .qdPrStream q 0 data

/-- CFG_CHUNK. -/
def execCfgChunk (rq : Rq) (quad : Option QuadNo) (data : List Byte) : State → Out := run (chunkTo rq quad data)

/-- PR_BEGIN. -/
def execPrBegin (rq : Rq) (quad : QuadNo) (region : Fin 4) : State → Out :=
  run (writeTo rq .qdPrCommand quad 0 (2 ^ 4 + region))

/-- KEY_RAM_WRITE. -/
def execKeyRamWrite (rq : Rq) (offset : Nat) (data : List Byte) : State → Out := run (blockTo rq .devKeyRam 0 offset data)

/-- KEY_RAM_CLEAR. -/
def execKeyRamClear (rq : Rq) (value : Byte) : State → Out := run (writeTo rq .devKeyRamClear 0 0 value.toNat)

/-! ## NoC and memory (R454, R456, R461, R476, R479 to R481) -/

/-- NOC_SHADOW_WRITE. -/
def execNocShadowWrite (rq : Rq) (offset : Nat) (data : List Byte) : State → Out :=
  run (blockTo rq .devNocShadow 0 offset data)

/-- NOC_SWAP. -/
def execNocSwap (rq : Rq) : State → Out := run (writeTo rq .devNocSwap 0 0 1)

/-- NOC_DEFAULT_COPY. -/
def execNocDefaultCopy (rq : Rq) : State → Out := run (writeTo rq .devNocSwap 0 0 2)

/-- MEM_REGIONS_WRITE. -/
def execMemRegionsWrite (rq : Rq) (offset : Nat) (data : List Byte) : State → Out :=
  run (blockTo rq .devMemRegions 0 offset data)

/-- DEV_MEM_CMD (R481). -/
def memCommand (rq : Rq) (op chan lane : Nat) : State → State :=
  writeTo rq .devMemCmd 0 0 (op * 2 ^ 12 + chan * 2 ^ 8 + lane)

/-- DECLARE_LANE. -/
def execDeclareLane (rq : Rq) (chan : Fin 16) (lane : Fin 32) : State → Out := run (memCommand rq 1 chan lane)

/-- ISOLATE. -/
def execIsolate (rq : Rq) (chan : Fin 16) : State → Out := run (memCommand rq 2 chan 0)

/-- RETRAIN. -/
def execRetrain (rq : Rq) (chan : Fin 16) : State → Out := run (memCommand rq 3 chan 0)

/-- SCRUB_NOW. -/
def execScrubNow (rq : Rq) (chan : Fin 16) : State → Out := run (memCommand rq 4 chan 0)

/-! ## Log, power, internal injection (R517 to R519, R533, R539, R540) -/

/-- DEV_LOG_CLEAR. -/
def execDevLogClear (rq : Rq) (value : Byte) : State → Out := run (writeTo rq .devLogClear 0 0 value.toNat)

/-- POWER_UP. -/
def execPowerUp (rq : Rq) (_ : Unit) : State → Out := run (writeTo rq .devPwrCommand 0 0 1)

/-- POWER_DOWN. -/
def execPowerDown (rq : Rq) : State → Out := run (writeTo rq .devPwrCommand 0 0 2)

/-- QD_POWER_DOWN. -/
def execQdPowerDown (rq : Rq) (quad : QuadNo) : State → Out := run (writeTo rq .qdPwrCommand quad 0 1)

/-- QD_POWER_UP. -/
def execQdPowerUp (rq : Rq) (quad : QuadNo) : State → Out := run (writeTo rq .qdPwrCommand quad 0 2)

/-- IJ_UNLOCK. -/
def execIjUnlock (rq : Rq) (value : Byte) (_ : Unit) : State → Out := run (writeTo rq .devIjUnlock 0 0 value.toNat)

/-- IJ_ARM. -/
def execIjArm (rq : Rq) : State → Out := run (writeTo rq .devIjControl 0 0 1)

/-- IJ_DISARM. -/
def execIjDisarm (rq : Rq) : State → Out := run (writeTo rq .devIjControl 0 0 2)

end Sys2Proof.Machine
end

