-- ==== Sys2Proof/Machine/Host.lean ====
section
/-! DEFINITION. The transports: service frames as bytes, the management line, service slots, BAR2, DMA queues and the
links (R485, R486, R490 to R500, R503). -/
namespace Sys2Proof.Machine

/-! ## Service frames as bytes (R485 to R487) -/

/-- The header of a frame. -/
structure Header where
  version : Nat
  flags : Nat
  seq : BitVec 16
  service : Nat
  addr : Addr
  len : Nat
  status : Nat
  spare : Nat
  deriving DecidableEq, Repr, Inhabited

def headerOfFrame (f : List Byte) : Header :=
  { version := fieldAt f 0 1, flags := fieldAt f 1 1, seq := .ofNat 16 (fieldAt f 2 2), service := fieldAt f 4 1
    addr := ⟨.ofNat 16 (fieldAt f 5 2), .ofNat 8 (fieldAt f 7 1)⟩, len := fieldAt f 8 2, status := fieldAt f 10 1
    spare := fieldAt f 11 1 }

/-- Payload bytes that a request of a service carries (R486); a service without a layout is taken to carry LENGTH bytes. -/
def payloadSize (service len : Nat) : Nat :=
  match service with
  | 1 | 10 => 0
  | 3 => 8
  | 4 => 8 + len
  | _ => len

/-- The frame is one that R485 does not discard. -/
def frameOk (f : List Byte) : Bool :=
  let h := headerOfFrame f
  decide (12 ≤ f.length) && h.version == 1 && f.length == 12 + payloadSize h.service h.len

/-- A request that R485 and R486 refuse with RANGE before the checks of R71. -/
def badRequest (h : Header) : Bool :=
  h.flags.testBit 0 || decide (8 ≤ h.flags) || h.status != 0 || h.spare != 0 ||
  match h.service with
  | 1 | 2 | 3 | 4 => false
  | 5 => h.addr != commitAddr
  | 6 => h.addr != abortAddr
  | 7 | 9 | 10 => h.addr != zeroAddr
  | _ => true

/-- Block prefix of a frame: OFFSET and TOTAL (R487). -/
def prefixOf (f : List Byte) : Nat × Nat := (fieldAt f 12 4, fieldAt f 16 4)

/-- A WRITE of any value, as a service with an address of its own. -/
def doService (rq : Rq) (service : Nat) (a : Addr) (data : List Byte) : State → State :=
  arrives rq service a none (fun s => answerNow rq service a none (writeValue rq service a data {} s))

/-- A SUBSCRIBE by its payload (R507). -/
def subscribeFrame (rq : Rq) (p : List Byte) : State → State :=
  if p.length == 12 then
    doSubscribe rq (.ofNat 64 (fieldAt p 0 8)) (.ofNat 16 (fieldAt p 8 2)) (.ofNat 16 (fieldAt p 10 2))
  else
    arrives rq svcSubscribe zeroAddr none (fun s =>
      s.reply rq svcSubscribe zeroAddr
        (if isHost rq.src then .state else if p.length == 0 then .lenZero else if p.length < 12 then .typeLen else .lenOver))

/-- A frame that is not discarded, from its arrival to its answer. -/
def serveFrame (src : Src) (f : List Byte) : State → State :=
  let h := headerOfFrame f
  let rq : Rq := { src := src, seq := h.seq }
  let p := f.drop 12
  let (off, total) := prefixOf f
  if badRequest h then
    let blk := if h.service == 3 || h.service == 4 then some (off, total) else none
    arrives rq h.service h.addr blk (fun s => s.reply rq h.service h.addr .range [] blk)
  else match h.service with
    | 1 => doRead rq h.addr h.len
    | 2 => doWrite rq h.addr p {}
    | 3 => doBlockRead rq h.addr h.len off total
    | 4 => doBlockWrite rq h.addr
        { first := h.flags.testBit 1, last := h.flags.testBit 2, offset := off, total := total, data := p.drop 8 }
    | 5 => doService rq svcCommit commitAddr p
    | 6 => doService rq svcAbort abortAddr p
    | 7 => subscribeFrame rq p
    | 9 => doHeartbeat rq p
    | _ => doIdentify rq h.len

/-! ## The management line (R485, R503) -/

/-- The source lies in fe80::/10. -/
def linkLocal (a : BitVec 128) : Bool := a.toNat / 2 ^ 118 == 0x3FA

/-- MGT_FRAME_RECEIVE: neighbor discovery and echo are answered, a datagram that carries a frame is served, and anything
else is discarded and counted. -/
def mgtFrame (f : LineFrame) (s : State) : State :=
  if !s.rim.powered then s else
    match f with
    | .neighbor src => s.send (.neighborAdv src)
    | .echo src payload => s.send (.echoReply src payload)
    | .udp src sport dport multicast checksum payload =>
      let meant := checksum && linkLocal src && dport.toNat == s.rd .devMgtUdpPort
        && (!multicast || fieldAt payload 4 1 == svcIdentify)
      if meant && frameOk payload then serveFrame (.mgt src sport) payload s else dropFrame s
    | .other => dropFrame s

def execMgtFrameReceive (frame : LineFrame) : State → Out := memRun (mgtFrame frame)

/-- MGT_LINK_UP: the PHY has trained at 1.0 V or 2.4 V. -/
def execMgtLinkUp (high : Bool) : State → Out :=
  run (fun s => s.onlyIf s.rim.powered (fun s => { s with rim := { s.rim with link := if high then 2 else 1 } }))

/-- MGT_LINK_DOWN. -/
def execMgtLinkDown : State → Out := run (fun s => { s with rim := { s.rim with link := 0 } })

/-! ## Service slots (R492) -/

/-- DOORBELL_SUBMIT: the frame of an IDLE slot. A frame that R485 discards leaves the slot IDLE. -/
def doorbellSubmit (slot : SlotNo) (frame : List Byte) (s : State) : State :=
  s.onlyIf (s.alive && (s.slot slot).state == 0 && decide (12 ≤ frame.length) && decide (frame.length ≤ 2048) && frameOk frame)
    (fun s => serveFrame (.host slot) frame (s.setSlot slot (fun t => { t with state := 1, reply := [], segments := [] })))

def execDoorbellSubmit (slot : SlotNo) (frame : List Byte) : State → Out := memRun (doorbellSubmit slot frame)

/-- DOORBELL_RELEASE: the next segment of a BLOCK_READ comes into the reply area, and after the last one the slot is
IDLE. -/
def doorbellRelease (slot : SlotNo) (s : State) : State :=
  s.onlyIf ((s.slot slot).state == 2) (fun s =>
    s.setSlot slot (fun t => match t.segments with
      | [] => { t with state := 0 }
      | [g] => { t with state := 0, reply := g, segments := [] }
      | g :: l => { t with reply := g, segments := l }))

def execDoorbellRelease (slot : SlotNo) : State → Out := run (doorbellRelease slot)

/-! ## BAR2 (R30, R471, R493) -/

/-- Endpoint ID of PCIe DMA and BAR2 (R446). -/
def hostEndpoint : Nat := 0x30

/-- The granules that n bytes from an address touch. -/
def touched (a n : Nat) : List Nat := if n == 0 then [] else (upto ((a + n - 1) / 32 + 1 - a / 32)).map (a / 32 + ·)

/-- The new contents of a granule under a write of bytes from an address: its own bytes where the write covers it whole,
else the bytes merged into what the controller decodes; none where that is uncorrectable (R471). -/
def mergeGranule (a : Nat) (data : List Byte) (g : Nat) (s : State) : Option (List Byte) × State :=
  let lo := 32 * g
  if a ≤ lo && lo + 32 ≤ a + data.length then (some ((data.drop (lo - a)).take 32), s)
  else
    let d := s.decodeGranule g []
    let s := s.countDecoded g d
    if d.bad then (none, s)
    else (some ((upto 32).map (fun i =>
      if a ≤ lo + i && lo + i < a + data.length then data.getD (lo + i - a) 0 else d.word.getD i 0)), s)

/-- Merges the granules of a list. -/
def mergeAll (a : Nat) (data : List Byte) : List Nat → State → List (Nat × List Byte × Option (BitVec 32)) × State
  | [], s => ([], s)
  | g :: l, s =>
    let (x, s) := mergeGranule a data g s
    let (r, s) := mergeAll a data l s
    (match x with | some d => (g, d, none) :: r | none => r, s)

/-- One count of protected writes for an access (R30, R477). -/
def countProtected (l : List Nat) (s : State) : State :=
  match l with
  | [] => s
  | g :: _ => s.protectedWrite hostEndpoint (32 * g)

/-- BAR2_WRITE. -/
def bar2Write (a : Nat) (data : List Byte) (s : State) : State :=
  s.onlyIf (s.alive && !data.isEmpty) (fun s =>
    let s := s.bump .devPcieH2dBytes 0 0 data.length
    if s.memCap < a + data.length then s.bump .devPcieBar2Range
    else
      let l := touched a data.length
      let guarded := l.filter (fun g => s.isProtected (32 * g))
      let open' := l.filter (fun g => !s.isProtected (32 * g))
      let lost := open'.filter (fun g => s.spot (32 * g) != .ok)
      let (w, s) := mergeAll a data (open'.filter (fun g => s.spot (32 * g) == .ok)) s
      let s := (s.writeSome w).2
      let s := countProtected guarded s
      if lost.isEmpty then s else s.bump .devNocAbsorbedWrites)

def execBar2Write (addr : Nat) (data : List Byte) : State → Out := memRun (bar2Write addr data)

/-- BAR2_READ. -/
def bar2Read (a n : Nat) (s : State) : State :=
  s.onlyIf (s.alive && decide (0 < n)) (fun s =>
    let s := s.bump .devPcieD2hBytes 0 0 n
    if s.memCap < a + n then (s.bump .devPcieBar2Range).send (.bar2Data (List.replicate n 0#8) false)
    else
      let l := touched a n
      let lost := l.any (fun g => s.spot (32 * g) != .ok)
      let (r, s) := s.readGranules (a / 32) [] l.length
      let poison := r.any (fun e => (consumed e).isNone)
      let data := ((r.flatMap (fun e => (consumed e).getD (e.1.take 32))).drop (a % 32)).take n
      let s := if lost then s.bump .devNocPoisonedReads else s
      let s := if poison then s.bump .devPciePoisoned else s
      s.send (.bar2Data data poison))

def execBar2Read (addr count : Nat) : State → Out := memRun (bar2Read addr count)

/-! ## DMA queues (R495 to R498) -/

/-- Fields of CTRL. -/
def ctrlEnable (c : BitVec 32) : Bool := c.getLsbD 0
def ctrlBind (c : BitVec 32) : Nat := bits c.toNat 1 2
def ctrlQuad (c : BitVec 32) : Nat := bits c.toNat 3 2
def ctrlVector (c : BitVec 32) : Nat := bits c.toNat 5 6
def ctrlIrq (c : BitVec 32) : Bool := c.getLsbD 11

def Queue.enabled (t : Queue) : Bool := ctrlEnable t.ctrl

/-- DMA_QUEUE_ENABLE: RING_BASE, RING_SIZE and CTRL with ENABLE set. While ENABLE is 1 the write is ignored; a queue that
is closing takes no new ENABLE. Bits [31:12] of CTRL, which R495 reserves and a BAR0 write has no reply to refuse, are
dropped and ENABLE applies (DESIGN CHOICE, log 125). -/
def queueEnable (n : QueueNo) (base : BitVec 64) (size ctrl : BitVec 32) (s : State) : State :=
  s.onlyIf (s.alive && !(s.queue n).enabled && !(s.queue n).closing) (fun s =>
    let good := base != 0 && base.toNat % 64 == 0 && decide (16 ≤ size.toNat) && decide (size.toNat ≤ 65536)
    let loader := ctrlBind ctrl != 0
    let taken := (upto 16).any (fun k => (s.queue k).enabled && ctrlBind (s.queue k).ctrl != 0)
    s.setQueue n (fun t =>
      let t := { t with base := base.toNat, size := size.toNat }
      if !good then { t with err := 1 }
      else if (loader && taken) || ctrlBind ctrl == 3 then { t with err := 2 }
      else { t with ctrl := (ctrl &&& 0xFFF#32) ||| 1#32, halted := false, err := 0 }))

def execDmaQueueEnable (queue : QueueNo) (base : BitVec 64) (size ctrl : BitVec 32) : State → Out :=
  run (queueEnable queue base size ctrl)

/-- A queue that closes has completed what was in progress. -/
def Queue.closed (t : Queue) : Queue :=
  if t.closing && t.inFlight.isEmpty then { t with closing := false, head := 0, tail := 0 } else t

/-- DMA_QUEUE_DISABLE. -/
def execDmaQueueDisable (queue : QueueNo) : State → Out :=
  run (fun s => s.onlyIf (s.queue queue).enabled (fun s =>
    s.setQueue queue (fun t => Queue.closed { t with ctrl := t.ctrl &&& ~~~1#32, closing := true })))

/-- DMA_TAIL_WRITE: a TAIL of RING_SIZE or above is ignored while the queue is enabled. -/
def execDmaTailWrite (queue : QueueNo) (tail : BitVec 32) : State → Out :=
  run (fun s => s.onlyIf (s.alive && !((s.queue queue).enabled && decide ((s.queue queue).size ≤ tail.toNat))) (fun s =>
    s.setQueue queue (fun t => { t with tail := tail.toNat })))

/-- A descriptor of 32 bytes (R496). -/
def descOf (d : List Byte) (place : Nat) : Desc :=
  { hostAddr := fieldAt d 0 8, devAddr := fieldAt d 8 8, len := fieldAt d 16 4, op := fieldAt d 20 1, flags := fieldAt d 21 1
    cookie := fieldAt d 24 4, index := place }

/-- The fields obey R496. -/
def descOk (loader : Bool) (d : List Byte) (x : Desc) : Bool :=
  decide (x.flags < 4) && fieldAt d 22 2 == 0 &&
  if loader then x.devAddr == 0 && x.op == 1 && decide (1 ≤ x.len) && decide (x.len ≤ 1048576)
  else x.devAddr % 32 == 0 && (x.op == 1 || x.op == 2) && x.len % 32 == 0 && decide (32 ≤ x.len) && decide (x.len ≤ 16777216)

/-- DMA_DESCRIPTOR_START: the queue takes the descriptor at HEAD. A FENCE waits for every earlier one, a chunk for the
answer of the one before. -/
def descStart (n : QueueNo) (d : List Byte) (s : State) : State :=
  let t := s.queue n
  let loader := ctrlBind t.ctrl != 0
  let x := descOf d (t.base + 32 * t.head)
  s.onlyIf (s.alive && t.enabled && !t.halted && t.head != t.tail && d.length == 32
      && !((loader || x.flags.testBit 1) && !t.inFlight.isEmpty) && t.inFlight.all (fun y => y.result != some 5)) (fun s =>
    let result := if !descOk loader d x then some 5
      else if !loader && decide (s.memCap < x.devAddr + x.len) then some 3 else none
    s.setQueue n (fun t => { t with
      head := (t.head + 1) % max t.size 1, inFlight := t.inFlight ++ [{ x with result := result }] }))

def execDmaDescriptorStart (queue : QueueNo) (desc : List Byte) : State → Out := run (descStart queue desc)

/-- RESULT that a granule meets (R451, R458, R497). -/
def spotResult : MemSpot → Nat
  | .closed => 2
  | .isolated => 1
  | _ => 0

/-- The highest of some codes. -/
def highest (l : List Nat) : Nat := l.foldl max 0

/-- TO_DEVICE: the granules that stand open are written; the others count by their kind. -/
def toDevice (x : Desc) (data : List Byte) (s : State) : Nat × State :=
  let l := (upto (x.len / 32)).map (x.devAddr / 32 + ·)
  let guarded := l.filter (fun g => s.isProtected (32 * g))
  let open' := l.filter (fun g => !s.isProtected (32 * g))
  let result := highest ((if guarded.isEmpty then 0 else 4) :: open'.map (fun g => spotResult (s.spot (32 * g))))
  let s := (s.writeSome (open'.map (fun g => (g, (data.drop (32 * g - x.devAddr)).take 32, none)))).2
  (result, countProtected guarded s)

/-- Pieces of data that go out as one TLP each, of at most Max Payload Size. -/
def tlps (s : State) (host : Nat) (r : List (List Byte × Bool)) : List (Nat × List Byte × Bool) :=
  let per := max (s.rd .devPcieMps / 32) 1
  (upto (ceilDiv r.length per)).map (fun k =>
    let l := (r.drop (per * k)).take per
    (host + 32 * per * k, l.flatMap (fun e => (consumed e).getD (e.1.take 32)), l.any (fun e => (consumed e).isNone)))

/-- TO_HOST: the granules go to host memory, poisoned where they do not decode. -/
def toHost (x : Desc) (s : State) : Nat × State :=
  let l := (upto (x.len / 32)).map (x.devAddr / 32 + ·)
  let spots := l.map (fun g => spotResult (s.spot (32 * g)))
  let (r, s) := s.readGranules (x.devAddr / 32) [] l.length
  let out := tlps s x.hostAddr r
  let s := out.foldl (fun s e => s.send (.hostWrite e.1 e.2.1 e.2.2)) s
  let s := s.bump .devPciePoisoned 0 0 (out.filter (fun e => e.2.2)).length
  (highest ((if r.any (fun e => (consumed e).isNone) then 1 else 0) :: spots), s.bump .devPcieD2hBytes 0 0 x.len)

/-- A chunk through a queue that is bound to the loader (R426, R498): its status. -/
def chunkResult (ctrl : BitVec 32) (data : List Byte) (s : State) : Nat × State :=
  let a := if ctrlBind ctrl == 1 then Obj.devCfgStream.addr else Obj.qdPrStream.addr (ctrlQuad ctrl)
  let (st, s) := writeBlock { src := .host 0, seq := 0 } a 0 data s
  ((st.getD .ok).code, s)

/-- What a descriptor's data does, and its RESULT. -/
def perform (ctrl : BitVec 32) (x : Desc) (data : List Byte) (failed : Bool) (s : State) : Nat × State :=
  match x.result with
  | some r => (r, s)
  | none =>
    if failed then (6, s)
    else if ctrlBind ctrl != 0 then chunkResult ctrl data (s.bump .devPcieH2dBytes 0 0 x.len)
    else if x.op == 1 then toDevice x data (s.bump .devPcieH2dBytes 0 0 x.len)
    else toHost x s

/-- The descriptor waits for a channel that is INITIALIZING (R464, R493). -/
def descWaits (ctrl : BitVec 32) (x : Desc) (s : State) : Bool :=
  x.result.isNone && ctrlBind ctrl == 0
    && (upto (x.len / 32)).any (fun k => s.spot (x.devAddr + 32 * k) == .waits)

/-- The completion of a descriptor: bytes 28–31 in the ring, the count, a halt, the interrupt (R497). -/
def finishDesc (n : QueueNo) (x : Desc) (failed : Bool) (result : Nat) (s : State) : State :=
  let s := s.send (.hostWrite (x.index + 28) [BitVec.ofNat 8 result, 1#8, 0#8, 0#8] false)
  let format := x.result == some 5
  let t := s.queue n
  let s := s.setQueue n (fun t =>
    Queue.closed { t with
      inFlight := t.inFlight.drop 1
      completed := (t.completed + 1) % 2 ^ 32
      halted := t.halted || format || failed
      err := if format then 3 else if failed then 4 else t.err })
  if x.flags.testBit 0 && ctrlIrq t.ctrl then s.msix (ctrlVector t.ctrl) else s

/-- DMA_DESCRIPTOR_COMPLETE: the oldest descriptor in progress; `hostData` is what its host memory held. -/
def descComplete (n : QueueNo) (hostData : List Byte) (hostError : Bool) (s : State) : State :=
  let t := s.queue n
  match t.inFlight with
  | [] => s
  | x :: _ =>
    let toDev := x.op == 1
    s.onlyIf (s.alive && !descWaits t.ctrl x s && (x.result.isSome || hostError || !toDev || hostData.length == x.len)) (fun s =>
      let failed := hostError && x.result.isNone
      let (result, s) := perform t.ctrl x hostData failed s
      finishDesc n x failed result s)

def execDmaDescriptorComplete (queue : QueueNo) (hostData : List Byte) (hostError : Bool) : State → Out :=
  memRun (descComplete queue hostData hostError)

/-! ## The link (R490, R494, R509) -/

/-- PCIE_LINK_UP: the link has trained within DEV_PCIE_MAX_GEN. -/
def execPcieLinkUp (gen width : Fin 16) : State → Out :=
  run (fun s => s.onlyIf (s.alive && decide (1 ≤ gen.val) && decide (gen.val ≤ s.rd .devPcieMaxGen)
      && (width == 1 || width == 2 || width == 4 || width == 8)) (fun s =>
    s.wr .devPcieLink (2 ^ 12 + width.val * 2 ^ 4 + gen.val)))

/-- PCIE_LINK_DOWN: BAR0 at its defaults, transfers and answers of the host lost, its ownership reverts. -/
def pcieLinkDown (s : State) : State :=
  let s := { s with
    pcie := {}
    ctl := { s.ctl with
      transfers := s.ctl.transfers.filter (fun t => !isHost t.src)
      services := s.ctl.services.map (fun (o : OpenService) => if isHost o.rq.src then { o with discard := true } else o) } }
  let s := (s.wr .devPcieLink 0).bump .devPcieLinkDowns
  if s.rd .controlOwner == 2 then s.revertOwner else s

def execPcieLinkDown : State → Out := run (fun s => s.onlyIf s.alive pcieLinkDown)

end Sys2Proof.Machine
end

