-- ==== Sys2Proof/Machine/Dispatch.lean ====
section
/-! DEFINITION. The dispatch of every command to its meaning, one arm per constructor of `Instr`. -/
namespace Sys2Proof.Machine

def exec (i : Instr) (s : State) : Host.Outcome State Fault Refusal :=
  match i with
  | .write rq addr data => Sys2Proof.Machine.execWrite rq addr data s
  | .read rq addr len => Sys2Proof.Machine.execRead rq addr len s
  | .blockRead rq addr seg offset total => Sys2Proof.Machine.execBlockRead rq addr seg offset total s
  | .blockWrite rq addr seg => Sys2Proof.Machine.execBlockWrite rq addr seg s
  | .blockWriteIdleTimeout src => Sys2Proof.Machine.execBlockWriteIdleTimeout src s
  | .serviceTimeout rq => Sys2Proof.Machine.execServiceTimeout rq s
  | .stagedWrite rq addr data => Sys2Proof.Machine.execStagedWrite rq addr data s
  | .groupCommit rq => Sys2Proof.Machine.execGroupCommit rq s
  | .groupDiscard rq => Sys2Proof.Machine.execGroupDiscard rq s
  | .controlOwnerWrite rq value => Sys2Proof.Machine.execControlOwnerWrite rq value s
  | .ownerRevert => Sys2Proof.Machine.execOwnerRevert s
  | .heartbeat rq token => Sys2Proof.Machine.execHeartbeat rq token s
  | .identify rq len => Sys2Proof.Machine.execIdentify rq len s
  | .subscribe rq mask port lease => Sys2Proof.Machine.execSubscribe rq mask port lease s
  | .subscriptionLeaseExpiry slot => Sys2Proof.Machine.execSubscriptionLeaseExpiry slot s
  | .mgtFrameReceive frame => Sys2Proof.Machine.execMgtFrameReceive frame s
  | .abort rq code => Sys2Proof.Machine.execAbort rq code s
  | .abortN lowNs => Sys2Proof.Machine.execAbortN lowNs s
  | .abortFlushDone site => Sys2Proof.Machine.execAbortFlushDone site s
  | .abortFlushDeadline site => Sys2Proof.Machine.execAbortFlushDeadline site s
  | .pauseAll rq => Sys2Proof.Machine.execPauseAll rq s
  | .resumeAll rq => Sys2Proof.Machine.execResumeAll rq s
  | .clearFault rq causeCleared => Sys2Proof.Machine.execClearFault rq causeCleared s
  | .unload rq => Sys2Proof.Machine.execUnload rq s
  | .configWipeComplete micros => Sys2Proof.Machine.execConfigWipeComplete micros s
  | .selfTest rq => Sys2Proof.Machine.execSelfTest rq s
  | .selfTestDone finds => Sys2Proof.Machine.execSelfTestDone finds s
  | .siteBundlesWrite rq site mask => Sys2Proof.Machine.execSiteBundlesWrite rq site mask s
  | .arm rq site => Sys2Proof.Machine.execArm rq site s
  | .armValidationDone site => Sys2Proof.Machine.execArmValidationDone site s
  | .start rq site => Sys2Proof.Machine.execStart rq site s
  | .siteStartEffect site => Sys2Proof.Machine.execSiteStartEffect site s
  | .pause rq site => Sys2Proof.Machine.execPause rq site s
  | .pauseEffect site => Sys2Proof.Machine.execPauseEffect site s
  | .pauseBoundary site => Sys2Proof.Machine.execPauseBoundary site s
  | .resume rq site => Sys2Proof.Machine.execResume rq site s
  | .resumeEffect site => Sys2Proof.Machine.execResumeEffect site s
  | .disarm rq site => Sys2Proof.Machine.execDisarm rq site s
  | .siteAbort rq site => Sys2Proof.Machine.execSiteAbort rq site s
  | .stepEnd site => Sys2Proof.Machine.execStepEnd site s
  | .stepStart site => Sys2Proof.Machine.execStepStart site s
  | .lockstepMiss site => Sys2Proof.Machine.execLockstepMiss site s
  | .resetNFall => Sys2Proof.Machine.execResetNFall s
  | .resetNRise => Sys2Proof.Machine.execResetNRise s
  | .deviceWideFault cause => Sys2Proof.Machine.execDeviceWideFault cause s
  | .bundleFault bundle sram => Sys2Proof.Machine.execBundleFault bundle sram s
  | .spanBlankEnd port dac => Sys2Proof.Machine.execSpanBlankEnd port dac s
  | .pmuLimitReached seen => Sys2Proof.Machine.execPmuLimitReached seen s
  | .drvLimitReached seen => Sys2Proof.Machine.execDrvLimitReached seen s
  | .portStatusClear rq port value => Sys2Proof.Machine.execPortStatusClear rq port value s
  | .poolCellsWrite rq bundle offset data => Sys2Proof.Machine.execPoolCellsWrite rq bundle offset data s
  | .poolBlankEnd bundle cell => Sys2Proof.Machine.execPoolBlankEnd bundle cell s
  | .poolLinkClose rq bundle node cell terminal => Sys2Proof.Machine.execPoolLinkClose rq bundle node cell terminal s
  | .poolLinkOpen rq bundle cell terminal => Sys2Proof.Machine.execPoolLinkOpen rq bundle cell terminal s
  | .poolWaveWrite rq bundle offset data => Sys2Proof.Machine.execPoolWaveWrite rq bundle offset data s
  | .measConfigWrite rq bundle value => Sys2Proof.Machine.execMeasConfigWrite rq bundle value s
  | .measInputSelect rq bundle input => Sys2Proof.Machine.execMeasInputSelect rq bundle input s
  | .sync rq bundle => Sys2Proof.Machine.execSync rq bundle s
  | .swap rq bundle target fadeLen => Sys2Proof.Machine.execSwap rq bundle target fadeLen s
  | .measCoefWrite rq bundle offset data => Sys2Proof.Machine.execMeasCoefWrite rq bundle offset data s
  | .measOutput bundle samples => Sys2Proof.Machine.execMeasOutput bundle samples s
  | .warpRoleWrite rq value => Sys2Proof.Machine.execWarpRoleWrite rq value s
  | .timebaseLocked => Sys2Proof.Machine.execTimebaseLocked s
  | .tbrefLost => Sys2Proof.Machine.execTbrefLost s
  | .tbrefReturn => Sys2Proof.Machine.execTbrefReturn s
  | .lineRatioWrite rq bundle value => Sys2Proof.Machine.execLineRatioWrite rq bundle value s
  | .lineSettled bundle => Sys2Proof.Machine.execLineSettled bundle s
  | .warpTimeCode set => Sys2Proof.Machine.execWarpTimeCode set s
  | .warpEcho out seq flags check sub => Sys2Proof.Machine.execWarpEcho out seq flags check sub s
  | .warpSync above mark time => Sys2Proof.Machine.execWarpSync above mark time s
  | .warpStart above mark group time => Sys2Proof.Machine.execWarpStart above mark group time s
  | .warpPause above mark group time => Sys2Proof.Machine.execWarpPause above mark group time s
  | .warpAbort above mark group time => Sys2Proof.Machine.execWarpAbort above mark group time s
  | .warpHold above mark time => Sys2Proof.Machine.execWarpHold above mark time s
  | .warpEventDue => Sys2Proof.Machine.execWarpEventDue s
  | .warpLoss why => Sys2Proof.Machine.execWarpLoss why s
  | .warpLinkLocked => Sys2Proof.Machine.execWarpLinkLocked s
  | .warpAligned => Sys2Proof.Machine.execWarpAligned s
  | .eventSendSync rq group => Sys2Proof.Machine.execEventSendSync rq group s
  | .eventSendStart rq group => Sys2Proof.Machine.execEventSendStart rq group s
  | .eventSendPause rq group => Sys2Proof.Machine.execEventSendPause rq group s
  | .eventSendHold rq group => Sys2Proof.Machine.execEventSendHold rq group s
  | .warpChar rq value => Sys2Proof.Machine.execWarpChar rq value s
  | .warpCharDone delay => Sys2Proof.Machine.execWarpCharDone delay s
  | .cycleStart site obs => Sys2Proof.Machine.execCycleStart site obs s
  | .instructionIssue site rx fab => Sys2Proof.Machine.execInstructionIssue site rx fab s
  | .next cid => Sys2Proof.Machine.execNext cid s
  | .jump cid target => Sys2Proof.Machine.execJump cid target s
  | .branch cid sel target xw yw bw fab => Sys2Proof.Machine.execBranch cid sel target xw yw bw fab s
  | .loop cid k target => Sys2Proof.Machine.execLoop cid k target s
  | .setlc cid k imm => Sys2Proof.Machine.execSetlc cid k imm s
  | .call cid target => Sys2Proof.Machine.execCall cid target s
  | .ret cid => Sys2Proof.Machine.execRet cid s
  | .wait cid kind imm => Sys2Proof.Machine.execWait cid kind imm s
  | .waitTimerExpiry cid => Sys2Proof.Machine.execWaitTimerExpiry cid s
  | .waitDrainDone cid => Sys2Proof.Machine.execWaitDrainDone cid s
  | .waitFabricEvent site level => Sys2Proof.Machine.execWaitFabricEvent site level s
  | .spawn cid imm => Sys2Proof.Machine.execSpawn cid imm s
  | .setreg cid reg imm => Sys2Proof.Machine.execSetreg cid reg imm s
  | .halt cid => Sys2Proof.Machine.execHalt cid s
  | .haltDone cid => Sys2Proof.Machine.execHaltDone cid s
  | .checkpoint cid => Sys2Proof.Machine.execCheckpoint cid s
  | .checkpointComplete cid => Sys2Proof.Machine.execCheckpointComplete cid s
  | .calBoundary site => Sys2Proof.Machine.execCalBoundary site s
  | .fabTrigger site => Sys2Proof.Machine.execFabTrigger site s
  | .patternCacheFill site line => Sys2Proof.Machine.execPatternCacheFill site line s
  | .load rq bundle count first src => Sys2Proof.Machine.execLoad rq bundle count first src s
  | .free rq bundle count first => Sys2Proof.Machine.execFree rq bundle count first s
  | .restore rq bundle count first src => Sys2Proof.Machine.execRestore rq bundle count first src s
  | .ctxCmdDone bundle => Sys2Proof.Machine.execCtxCmdDone bundle s
  | .act site ck => Sys2Proof.Machine.execAct site ck s
  | .rd site ck => Sys2Proof.Machine.execRd site ck s
  | .wr site ck => Sys2Proof.Machine.execWr site ck s
  | .rda site ck => Sys2Proof.Machine.execRda site ck s
  | .wra site ck => Sys2Proof.Machine.execWra site ck s
  | .pre site ck => Sys2Proof.Machine.execPre site ck s
  | .prea site ck => Sys2Proof.Machine.execPrea site ck s
  | .ref site ck => Sys2Proof.Machine.execRef site ck s
  | .refsb site ck => Sys2Proof.Machine.execRefsb site ck s
  | .mrw site ck => Sys2Proof.Machine.execMrw site ck s
  | .mrr site ck => Sys2Proof.Machine.execMrr site ck s
  | .des site ck => Sys2Proof.Machine.execDes site ck s
  | .pde site ck => Sys2Proof.Machine.execPde site ck s
  | .pdx site ck => Sys2Proof.Machine.execPdx site ck s
  | .sre site ck => Sys2Proof.Machine.execSre site ck s
  | .srx site ck => Sys2Proof.Machine.execSrx site ck s
  | .zqcal site ck => Sys2Proof.Machine.execZqcal site ck s
  | .train site ck => Sys2Proof.Machine.execTrain site ck s
  | .trainDone site failed => Sys2Proof.Machine.execTrainDone site failed s
  | .ucodeEnd site => Sys2Proof.Machine.execUcodeEnd site s
  | .ucodeCmd site ck => Sys2Proof.Machine.execUcodeCmd site ck s
  | .ucodeWait site => Sys2Proof.Machine.execUcodeWait site s
  | .ucodeWaitExpiry site => Sys2Proof.Machine.execUcodeWaitExpiry site s
  | .ucodeSweep site => Sys2Proof.Machine.execUcodeSweep site s
  | .sweepEnd site passes => Sys2Proof.Machine.execSweepEnd site passes s
  | .ucodePattern site => Sys2Proof.Machine.execUcodePattern site s
  | .ucodeLoop site => Sys2Proof.Machine.execUcodeLoop site s
  | .refreshDebtAccrue site rank => Sys2Proof.Machine.execRefreshDebtAccrue site rank s
  | .refreshInsert site target ck => Sys2Proof.Machine.execRefreshInsert site target ck s
  | .readBurstCompare site beats => Sys2Proof.Machine.execReadBurstCompare site beats s
  | .dutError site kind burst port ck => Sys2Proof.Machine.execDutError site kind burst port ck s
  | .injArm rq bundle => Sys2Proof.Machine.execInjArm rq bundle s
  | .injDisarm rq bundle => Sys2Proof.Machine.execInjDisarm rq bundle s
  | .injOneShot rq bundle => Sys2Proof.Machine.execInjOneShot rq bundle s
  | .injTransactionArrival site => Sys2Proof.Machine.execInjTransactionArrival site s
  | .reorderWindowTimeout site => Sys2Proof.Machine.execReorderWindowTimeout site s
  | .ringWrite bundle => Sys2Proof.Machine.execRingWrite bundle s
  | .recordCommit site count => Sys2Proof.Machine.execRecordCommit site count s
  | .capReadWrite rq bundle value => Sys2Proof.Machine.execCapReadWrite rq bundle value s
  | .laneLockAcquired port => Sys2Proof.Machine.execLaneLockAcquired port s
  | .laneLockLoss port => Sys2Proof.Machine.execLaneLockLoss port s
  | .laneElastic port full => Sys2Proof.Machine.execLaneElastic port full s
  | .markerAligned port => Sys2Proof.Machine.execMarkerAligned port s
  | .laneDeskew port arrivals => Sys2Proof.Machine.execLaneDeskew port arrivals s
  | .prbsLocked port samples odd own => Sys2Proof.Machine.execPrbsLocked port samples odd own s
  | .adaptDone port taps => Sys2Proof.Machine.execAdaptDone port taps s
  | .txeqWrite rq port value => Sys2Proof.Machine.execTxeqWrite rq port value s
  | .rxeqWrite rq port offset data => Sys2Proof.Machine.execRxeqWrite rq port offset data s
  | .laneEq port pre2 pre1 post1 post2 => Sys2Proof.Machine.execLaneEq port pre2 pre1 post1 post2 s
  | .temperatureSample bundle temp => Sys2Proof.Machine.execTemperatureSample bundle temp s
  | .vrefCheck microvolts => Sys2Proof.Machine.execVrefCheck microvolts s
  | .calRequestCancel rq port => Sys2Proof.Machine.execCalRequestCancel rq port s
  | .calRequestLive rq port => Sys2Proof.Machine.execCalRequestLive rq port s
  | .calRequestOffline rq port => Sys2Proof.Machine.execCalRequestOffline rq port s
  | .clearSub rq bundle slot => Sys2Proof.Machine.execClearSub rq bundle slot s
  | .calCycleStart bundle => Sys2Proof.Machine.execCalCycleStart bundle s
  | .calPrepareDone bundle finds => Sys2Proof.Machine.execCalPrepareDone bundle finds s
  | .calListenDone bundle stats => Sys2Proof.Machine.execCalListenDone bundle stats s
  | .calListenLimit bundle transitions => Sys2Proof.Machine.execCalListenLimit bundle transitions s
  | .calTakeover bundle => Sys2Proof.Machine.execCalTakeover bundle s
  | .calCalibrateDone bundle finds => Sys2Proof.Machine.execCalCalibrateDone bundle finds s
  | .calRejoinDone bundle => Sys2Proof.Machine.execCalRejoinDone bundle s
  | .calReturn bundle => Sys2Proof.Machine.execCalReturn bundle s
  | .calSurveyListen bundle slot stats => Sys2Proof.Machine.execCalSurveyListen bundle slot stats s
  | .ledgerCommit => Sys2Proof.Machine.execLedgerCommit s
  | .ledgerCommitDone => Sys2Proof.Machine.execLedgerCommitDone s
  | .clkDivWrite rq quad value => Sys2Proof.Machine.execClkDivWrite rq quad value s
  | .clkDivSettled quad => Sys2Proof.Machine.execClkDivSettled quad s
  | .clkSelWrite rq quad value => Sys2Proof.Machine.execClkSelWrite rq quad value s
  | .clkSwitchDone quad tree => Sys2Proof.Machine.execClkSwitchDone quad tree s
  | .qdResetWrite rq quad value => Sys2Proof.Machine.execQdResetWrite rq quad value s
  | .probeSelWrite rq quad offset data => Sys2Proof.Machine.execProbeSelWrite rq quad offset data s
  | .traceArm rq quad value => Sys2Proof.Machine.execTraceArm rq quad value s
  | .traceForce rq quad value since => Sys2Proof.Machine.execTraceForce rq quad value since s
  | .traceStop rq quad value since => Sys2Proof.Machine.execTraceStop rq quad value since s
  | .traceDone quad samples => Sys2Proof.Machine.execTraceDone quad samples s
  | .userObjectWrite rq addr data => Sys2Proof.Machine.execUserObjectWrite rq addr data s
  | .userObjectAnswer rq answer => Sys2Proof.Machine.execUserObjectAnswer rq answer s
  | .fabricPortRequest quad req => Sys2Proof.Machine.execFabricPortRequest quad req s
  | .fabricPortResponse quad tag => Sys2Proof.Machine.execFabricPortResponse quad tag s
  | .recWrite port data => Sys2Proof.Machine.execRecWrite port data s
  | .beginFull rq => Sys2Proof.Machine.execBeginFull rq s
  | .cfgChunk rq quad data => Sys2Proof.Machine.execCfgChunk rq quad data s
  | .cfgStalled => Sys2Proof.Machine.execCfgStalled s
  | .waitLock region => Sys2Proof.Machine.execWaitLock region s
  | .lockTimeout region => Sys2Proof.Machine.execLockTimeout region s
  | .releaseGsr region => Sys2Proof.Machine.execReleaseGsr region s
  | .enableWrites region => Sys2Proof.Machine.execEnableWrites region s
  | .releaseOutputs region => Sys2Proof.Machine.execReleaseOutputs region s
  | .prBegin rq quad region => Sys2Proof.Machine.execPrBegin rq quad region s
  | .prWipeDone quad region => Sys2Proof.Machine.execPrWipeDone quad region s
  | .keyRamWrite rq offset data => Sys2Proof.Machine.execKeyRamWrite rq offset data s
  | .keyRamClear rq value => Sys2Proof.Machine.execKeyRamClear rq value s
  | .cfgFrameMismatch frame => Sys2Proof.Machine.execCfgFrameMismatch frame s
  | .cfgSentinelVote => Sys2Proof.Machine.execCfgSentinelVote s
  | .nocLinkRetry router link failures => Sys2Proof.Machine.execNocLinkRetry router link failures s
  | .nocMalformed seen => Sys2Proof.Machine.execNocMalformed seen s
  | .nocLinkDownTimeout router link => Sys2Proof.Machine.execNocLinkDownTimeout router link s
  | .isolatedTargetAnswer dest src vc epoch rest => Sys2Proof.Machine.execIsolatedTargetAnswer dest src vc epoch rest s
  | .nocShadowWrite rq offset data => Sys2Proof.Machine.execNocShadowWrite rq offset data s
  | .nocSwap rq => Sys2Proof.Machine.execNocSwap rq s
  | .nocDefaultCopy rq => Sys2Proof.Machine.execNocDefaultCopy rq s
  | .nocBackpressureDone cycles => Sys2Proof.Machine.execNocBackpressureDone cycles s
  | .nocDrainDone cycles => Sys2Proof.Machine.execNocDrainDone cycles s
  | .memInitDone chan failedPins otherFail micros offsets => Sys2Proof.Machine.execMemInitDone chan failedPins otherFail micros offsets s
  | .memAccess write addr data count shows => Sys2Proof.Machine.execMemAccess write addr data count shows s
  | .scrubGroup chan upsets overtaken => Sys2Proof.Machine.execScrubGroup chan upsets overtaken s
  | .scrubVoteUpset chan => Sys2Proof.Machine.execScrubVoteUpset chan s
  | .memRegionsWrite rq offset data => Sys2Proof.Machine.execMemRegionsWrite rq offset data s
  | .declareLane rq chan lane => Sys2Proof.Machine.execDeclareLane rq chan lane s
  | .isolate rq chan => Sys2Proof.Machine.execIsolate rq chan s
  | .retrain rq chan => Sys2Proof.Machine.execRetrain rq chan s
  | .retrainDone chan failedPins otherFail => Sys2Proof.Machine.execRetrainDone chan failedPins otherFail s
  | .scrubNow rq chan => Sys2Proof.Machine.execScrubNow rq chan s
  | .doorbellSubmit slot frame => Sys2Proof.Machine.execDoorbellSubmit slot frame s
  | .doorbellRelease slot => Sys2Proof.Machine.execDoorbellRelease slot s
  | .dmaQueueEnable queue base size ctrl => Sys2Proof.Machine.execDmaQueueEnable queue base size ctrl s
  | .dmaQueueDisable queue => Sys2Proof.Machine.execDmaQueueDisable queue s
  | .dmaTailWrite queue tail => Sys2Proof.Machine.execDmaTailWrite queue tail s
  | .dmaDescriptorStart queue desc => Sys2Proof.Machine.execDmaDescriptorStart queue desc s
  | .dmaDescriptorComplete queue hostData hostError => Sys2Proof.Machine.execDmaDescriptorComplete queue hostData hostError s
  | .bar2Write addr data => Sys2Proof.Machine.execBar2Write addr data s
  | .bar2Read addr count => Sys2Proof.Machine.execBar2Read addr count s
  | .pcieLinkDown => Sys2Proof.Machine.execPcieLinkDown s
  | .logWrite => Sys2Proof.Machine.execLogWrite s
  | .devLogClear rq value => Sys2Proof.Machine.execDevLogClear rq value s
  | .rimStart => Sys2Proof.Machine.execRimStart s
  | .pwrLineLoss => Sys2Proof.Machine.execPwrLineLoss s
  | .powerUp rq cooled => Sys2Proof.Machine.execPowerUp rq cooled s
  | .powerDown rq => Sys2Proof.Machine.execPowerDown rq s
  | .powerUpStep => Sys2Proof.Machine.execPowerUpStep s
  | .pwrPgTimeout => Sys2Proof.Machine.execPwrPgTimeout s
  | .powerRelease micros => Sys2Proof.Machine.execPowerRelease micros s
  | .powerDownStep pgLow => Sys2Proof.Machine.execPowerDownStep pgLow s
  | .pwrPgLost input => Sys2Proof.Machine.execPwrPgLost input s
  | .thermalSample temps rim => Sys2Proof.Machine.execThermalSample temps rim s
  | .railMeterSample rails vbat rimVin domains milliJoules => Sys2Proof.Machine.execRailMeterSample rails vbat rimVin domains milliJoules s
  | .qdPowerDown rq quad => Sys2Proof.Machine.execQdPowerDown rq quad s
  | .fenceDrainDone quad nanos => Sys2Proof.Machine.execFenceDrainDone quad nanos s
  | .qdPowerUp rq quad => Sys2Proof.Machine.execQdPowerUp rq quad s
  | .qdSwitchDone quad => Sys2Proof.Machine.execQdSwitchDone quad s
  | .qdRestoreDone quad failedRegions micros => Sys2Proof.Machine.execQdRestoreDone quad failedRegions micros s
  | .qdPwrUpFailed quad micros => Sys2Proof.Machine.execQdPwrUpFailed quad micros s
  | .discardDone => Sys2Proof.Machine.execDiscardDone s
  | .ijUnlock rq value within10ms => Sys2Proof.Machine.execIjUnlock rq value within10ms s
  | .ijArm rq => Sys2Proof.Machine.execIjArm rq s
  | .ijDisarm rq => Sys2Proof.Machine.execIjDisarm rq s
  | .ijFired => Sys2Proof.Machine.execIjFired s
  | .ijWindowExpiry => Sys2Proof.Machine.execIjWindowExpiry s
  | .abortNRelease => Sys2Proof.Machine.execAbortNRelease s
  | .pcieLinkUp gen width => Sys2Proof.Machine.execPcieLinkUp gen width s
  | .mgtLinkUp high => Sys2Proof.Machine.execMgtLinkUp high s
  | .mgtLinkDown => Sys2Proof.Machine.execMgtLinkDown s
  | .vbatLow millivolts => Sys2Proof.Machine.execVbatLow millivolts s
  | .streamUnderrun bundle wd => Sys2Proof.Machine.execStreamUnderrun bundle wd s
  | .txUnderrun port => Sys2Proof.Machine.execTxUnderrun port s
  | .rxOverflow port => Sys2Proof.Machine.execRxOverflow port s
  | .eqClear port => Sys2Proof.Machine.execEqClear port s
  | .fabricClkSelect quad tree sel => Sys2Proof.Machine.execFabricClkSelect quad tree sel s
  | .fabricUserReset quad tree level => Sys2Proof.Machine.execFabricUserReset quad tree level s
  | .traceTrigger quad since sample => Sys2Proof.Machine.execTraceTrigger quad since sample s
  | .nocLinkUp router link => Sys2Proof.Machine.execNocLinkUp router link s
  | .warpQuietEnd out => Sys2Proof.Machine.execWarpQuietEnd out s
  | .calSetsLoaded => Sys2Proof.Machine.execCalSetsLoaded s
  | .prFailWipeDone quad region => Sys2Proof.Machine.execPrFailWipeDone quad region s

end Sys2Proof.Machine
end

