-- ==== Sys2Proof/Machine/Tick.lean ====
section
/-! DEFINITION. What time alone does: one TIME tick on an empty queue (log 3). -/
namespace Sys2Proof.Machine

/-- Strobes, cycle ends and drive events of the sites that run or pause come as TIME passes them (R215, R222, R231). -/
def State.edgeTick (s : State) : State :=
  s.each (upto 12) (fun i s => if s.siteSt i == .running || s.siteSt i == .paused then s.settleSite i s.now else s)

/-- TIME goes on by one, and with it everything that a clock of the device drives without a command: strobes and drive events
(R222), the serial lanes' idle, equalizers and fabric FIFOs (R241, R244, R404), the loaded design's cells, queues and traces
(R388, R400, R411), CK and WCK (R307), the timers of waits (R283), the analogue pool and the modulators (R141, R154, R159), the
survey and trims that waited (R366, R372), and the Warp links (R189, R194). -/
def State.nextTime (s : State) : State :=
  let s := { s with time := (s.time + 1) % 2 ^ 64 }
  ((((((s.traceTick (s.fabricTick (s.laneTick s))).clockTick.timerTick).edgeTick).analogueTick).surveyTick).trimTick).warpTick

/-- An idle step: one tick of real time, and with it a TIME tick while TIME runs; what it sends and raises goes out with it
(log 3, log 141). -/
def State.tick (s : State) : State :=
  let s := { s with elapsed := s.elapsed + 1, out := [] }
  if s.timeRuns then s.keepFixed s.nextTime.deliver else s

end Sys2Proof.Machine
end

