-- ==== Sys2Proof/WellFormed.lean ====
section
/-! DEFINITION. Which commands are well formed: operands that the wires of the block could carry (R12, R46, R69, R211,
R290, R485, R487, R491 to R493, R496, R503, R521, R527). -/
namespace Sys2Proof

/-- A length that a 16-bit LENGTH field carries (R485). -/
def shortLen (n : Nat) : Bool := decide (n < 2 ^ 16)

/-- Data of one frame (R485). -/
def shortData (l : List Byte) : Bool := shortLen l.length

/-- An offset or total of a block prefix, 32 bits wide (R487). -/
def longLen (n : Nat) : Bool := decide (n < 2 ^ 32)

/-- A 64-bit bus or memory address. -/
def busAddr (n : Nat) : Bool := decide (n < 2 ^ 64)

/-- No number stands twice. -/
def distinct : List Nat → Bool
  | [] => true
  | n :: l => !l.contains n && distinct l

/-- A payload that fits one frame of the management line (R503). -/
def lineFrameOk : LineFrame → Bool
  | .neighbor _ | .other => true
  | .echo _ payload | .udp _ _ _ _ _ payload => shortData payload

/-- A command whose operands the wires of the block could carry. -/
def Instr.wf : Instr → Bool
  | .write _ _ data => shortData data
  | .read _ _ len => shortLen len
  | .blockRead _ _ seg offset total => shortLen seg && longLen offset && longLen total
  | .blockWrite _ _ seg => shortData seg.data && longLen seg.offset && longLen seg.total
  | .stagedWrite _ _ data => shortData data
  | .identify _ len => shortLen len
  | .mgtFrameReceive frame => lineFrameOk frame
  | .poolCellsWrite _ _ offset _ => longLen offset
  | .poolWaveWrite _ _ offset _ => longLen offset
  | .measCoefWrite _ _ offset _ => longLen offset
  | .cycleStart _ obs => distinct (obs.map (·.port.val))
  | .instructionIssue _ rx _ => distinct (rx.map (·.port.val)) && rx.all (fun o => decide (o.samples.length = 64))
  | .prbsLocked _ samples _ _ => decide (samples.length = 64)
  | .rxeqWrite _ _ offset _ => longLen offset
  | .probeSelWrite _ _ offset _ => longLen offset
  | .userObjectWrite _ _ data => shortData data
  | .keyRamWrite _ offset _ => longLen offset
  | .nocShadowWrite _ offset _ => longLen offset
  | .memAccess _ addr _ _ _ => busAddr addr
  | .memRegionsWrite _ offset _ => longLen offset
  | .doorbellSubmit _ frame => decide (frame.length ≤ 2048)
  | .dmaDescriptorStart _ desc => decide (desc.length = 32)
  | .bar2Write addr _ => busAddr addr
  | .bar2Read addr _ => busAddr addr
  | .thermalSample temps _ => decide (temps.length = 16)
  | .railMeterSample rails _ _ domains _ => decide (rails.length = 12) && decide (domains.length = 16)
  | .blockWriteIdleTimeout .. | .serviceTimeout .. | .groupCommit .. | .groupDiscard .. | .controlOwnerWrite ..
  | .ownerRevert | .heartbeat .. | .subscribe .. | .subscriptionLeaseExpiry .. | .abort .. | .abortN ..
  | .abortFlushDone .. | .abortFlushDeadline .. | .pauseAll .. | .resumeAll .. | .clearFault .. | .unload ..
  | .configWipeComplete .. | .selfTest .. | .selfTestDone .. | .siteBundlesWrite .. | .arm .. | .armValidationDone ..
  | .start .. | .siteStartEffect .. | .pause .. | .pauseEffect .. | .pauseBoundary .. | .resume .. | .resumeEffect ..
  | .disarm .. | .siteAbort .. | .stepEnd .. | .stepStart .. | .lockstepMiss .. | .resetNFall | .resetNRise
  | .deviceWideFault .. | .bundleFault .. | .spanBlankEnd .. | .pmuLimitReached .. | .drvLimitReached ..
  | .portStatusClear .. | .poolBlankEnd .. | .poolLinkClose .. | .poolLinkOpen .. | .measConfigWrite ..
  | .measInputSelect .. | .sync .. | .swap .. | .measOutput .. | .warpRoleWrite .. | .timebaseLocked | .tbrefLost
  | .tbrefReturn | .lineRatioWrite .. | .lineSettled .. | .warpTimeCode .. | .warpEcho .. | .warpSync ..
  | .warpStart .. | .warpPause .. | .warpAbort .. | .warpHold .. | .warpEventDue | .warpLoss .. | .warpLinkLocked
  | .warpAligned | .eventSendSync .. | .eventSendStart .. | .eventSendPause .. | .eventSendHold .. | .warpChar ..
  | .warpCharDone .. | .next .. | .jump .. | .branch .. | .loop .. | .setlc .. | .call .. | .ret .. | .wait ..
  | .waitTimerExpiry .. | .waitDrainDone .. | .waitFabricEvent .. | .spawn .. | .setreg .. | .halt .. | .haltDone ..
  | .checkpoint .. | .checkpointComplete .. | .calBoundary .. | .fabTrigger .. | .patternCacheFill .. | .load ..
  | .free .. | .restore .. | .ctxCmdDone .. | .act .. | .rd .. | .wr .. | .rda .. | .wra .. | .pre .. | .prea ..
  | .ref .. | .refsb .. | .mrw .. | .mrr .. | .des .. | .pde .. | .pdx .. | .sre .. | .srx .. | .zqcal .. | .train ..
  | .trainDone .. | .ucodeEnd .. | .ucodeCmd .. | .ucodeWait .. | .ucodeWaitExpiry .. | .ucodeSweep .. | .sweepEnd ..
  | .ucodePattern .. | .ucodeLoop .. | .refreshDebtAccrue .. | .refreshInsert .. | .readBurstCompare ..
  | .dutError .. | .injArm .. | .injDisarm .. | .injOneShot .. | .injTransactionArrival .. | .reorderWindowTimeout ..
  | .ringWrite .. | .recordCommit .. | .capReadWrite .. | .laneLockAcquired .. | .laneLockLoss .. | .laneElastic ..
  | .markerAligned .. | .laneDeskew .. | .adaptDone .. | .txeqWrite .. | .laneEq .. | .temperatureSample ..
  | .vrefCheck .. | .calRequestCancel .. | .calRequestLive .. | .calRequestOffline .. | .clearSub ..
  | .calCycleStart .. | .calPrepareDone .. | .calListenDone .. | .calListenLimit .. | .calTakeover ..
  | .calCalibrateDone .. | .calRejoinDone .. | .calReturn .. | .calSurveyListen .. | .ledgerCommit
  | .ledgerCommitDone | .clkDivWrite .. | .clkDivSettled .. | .clkSelWrite .. | .clkSwitchDone .. | .qdResetWrite ..
  | .traceArm .. | .traceForce .. | .traceStop .. | .traceDone .. | .userObjectAnswer .. | .fabricPortRequest ..
  | .fabricPortResponse .. | .recWrite .. | .beginFull .. | .cfgChunk .. | .cfgStalled | .waitLock ..
  | .lockTimeout .. | .releaseGsr .. | .enableWrites .. | .releaseOutputs .. | .prBegin .. | .prWipeDone ..
  | .keyRamClear .. | .cfgFrameMismatch .. | .cfgSentinelVote | .nocLinkRetry .. | .nocMalformed ..
  | .nocLinkDownTimeout .. | .isolatedTargetAnswer .. | .nocSwap .. | .nocDefaultCopy .. | .nocBackpressureDone ..
  | .nocDrainDone .. | .memInitDone .. | .scrubGroup .. | .scrubVoteUpset .. | .declareLane .. | .isolate ..
  | .retrain .. | .retrainDone .. | .scrubNow .. | .doorbellRelease .. | .dmaQueueEnable .. | .dmaQueueDisable ..
  | .dmaTailWrite .. | .dmaDescriptorComplete .. | .pcieLinkDown | .logWrite | .devLogClear .. | .rimStart
  | .pwrLineLoss | .powerUp .. | .powerDown .. | .powerUpStep | .pwrPgTimeout | .powerRelease .. | .powerDownStep ..
  | .pwrPgLost .. | .qdPowerDown .. | .fenceDrainDone .. | .qdPowerUp .. | .qdSwitchDone .. | .qdRestoreDone ..
  | .qdPwrUpFailed .. | .discardDone | .ijUnlock .. | .ijArm .. | .ijDisarm .. | .ijFired | .ijWindowExpiry
  | .abortNRelease | .pcieLinkUp .. | .mgtLinkUp .. | .mgtLinkDown | .vbatLow .. | .streamUnderrun ..
  | .txUnderrun .. | .rxOverflow .. | .eqClear .. | .fabricClkSelect .. | .fabricUserReset .. | .traceTrigger ..
  | .nocLinkUp .. | .warpQuietEnd .. | .calSetsLoaded | .prFailWipeDone .. => true

end Sys2Proof
end

