-- ==== Sys2Proof/Safety.lean ====
section
/-! DEFINITION. The terms in which claims are made: the parts of the state and which of them a command may change, what
an answer to a request is, when a request reaches the dictionary service, when the checks of R71 accept a write, and the
canonical form of sparse data. -/
namespace Sys2Proof.Safety
open Sys2Proof.Machine

/-! ## The parts of the state -/

/-- The parts of the state that a frame names. -/
inductive Part where
  | time | free | regs | doms | ctl | replies | evt | dev | sites | bnds | ports | ctxs | tb | rim | therm | ij | pcie
  | slots | quads | cfg | noc | mem | chans | cal | ledger
  deriving DecidableEq, Repr

/-- Registers that reporting an event changes: DEV_LOG_LAST_CODE, PORT_EVENT_COUNT, DEV_EVT_MASKED, DEV_EVT_HOST_WRITTEN,
DEV_EVT_HOST_LOST, DEV_LOG_LOST, DEV_IJ_LAST_EVENT (R501, R510, R531, R533, R541). -/
def eventKey (key : Nat) : Prop :=
  key ∈ [Obj.devLogLastCode.key, Obj.devEvtMasked.key, Obj.devEvtHostWritten.key, Obj.devEvtHostLost.key,
    Obj.devLogLost.key, Obj.devIjLastEvent.key] ∨ ∃ u, key = Obj.portEventCount.key u

/-- A part is the same in two states, but for what reporting events and receiving frames change: counts of frames and events,
the place in the host's event ring, pending MSI-X bits, when the subscriptions were last served, and when the owning controller
was last heard (R54, R500, R501, R507, R508, R531). -/
def Part.same : Part → State → State → Prop
  | .time, s, t => t.time = s.time ∧ t.timeRuns = s.timeRuns ∧ t.elapsed = s.elapsed
  | .free, s, t => t.freeCount = s.freeCount
  | .regs, s, t => ∀ key d, ¬ eventKey key → Store.get d key t.dict.regs = Store.get d key s.dict.regs
  | .doms, s, t => t.dict.doms = s.dict.doms
  | .ctl, s, t => { t.ctl with replies := s.ctl.replies, heard := s.ctl.heard } = s.ctl
  | .replies, s, t => t.ctl.replies = s.ctl.replies
  | .evt, s, t => t.evt.subs.map (fun o => o.map (fun p => (p.addr, p.port, p.mask, p.lease, p.since)))
      = s.evt.subs.map (fun o => o.map (fun p => (p.addr, p.port, p.mask, p.lease, p.since)))
  | .dev, s, t => t.dev = s.dev
  | .sites, s, t => t.sites = s.sites
  | .bnds, s, t => t.bnds = s.bnds
  | .ports, s, t => t.ports = s.ports
  | .ctxs, s, t => t.ctxs = s.ctxs
  | .tb, s, t => t.tb = s.tb
  | .rim, s, t => { t.rim with rx := s.rim.rx, tx := s.rim.tx, evDropped := s.rim.evDropped } = s.rim
  | .therm, s, t => t.therm = s.therm
  | .ij, s, t => { t.ij with watch := s.ij.watch, txDrop := s.ij.txDrop } = s.ij
  | .pcie, s, t => { t.pcie with slots := s.pcie.slots, pendingBits := s.pcie.pendingBits, evtHead := s.pcie.evtHead,
                                 evtSeq := s.pcie.evtSeq } = s.pcie
  | .slots, s, t => t.pcie.slots = s.pcie.slots
  | .quads, s, t => t.quads = s.quads
  | .cfg, s, t => t.cfg = s.cfg
  | .noc, s, t => t.noc = s.noc
  | .mem, s, t => t.mem = s.mem ∧ t.memChk = s.memChk
  | .chans, s, t => t.chans = s.chans
  | .cal, s, t => t.cal = s.cal
  | .ledger, s, t => t.ledger = s.ledger

/-- Every part but those listed is the same, and so are the commands that wait and the fused values. -/
def Keeps (but : List Part) (s t : State) : Prop :=
  t.pending = s.pending ∧ t.fuses = s.fuses ∧ ∀ p, p ∉ but → p.same s t

/-- The registers are the same but those of the keys listed, and but what reporting events changes. -/
def RegsBut (keys : List Nat) (s t : State) : Prop :=
  ∀ key d, key ∉ keys → ¬ eventKey key → Store.get d key t.dict.regs = Store.get d key s.dict.regs

/-- No context but one differs, and nothing but contexts and the parts listed. -/
def OnlyCtx (cid : Nat) (but : List Part) (s t : State) : Prop :=
  (∀ c, c ≠ cid → t.ctx c = s.ctx c) ∧ Keeps (.ctxs :: but) s t

/-- No site but one differs, and nothing but sites and the parts listed. -/
def OnlySite (i : Nat) (but : List Part) (s t : State) : Prop :=
  (∀ j, j ≠ i → t.site j = s.site j) ∧ Keeps (.sites :: but) s t

/-- No bundle but one differs, and nothing but bundles and the parts listed. -/
def OnlyBnd (b : Nat) (but : List Part) (s t : State) : Prop :=
  (∀ c, c ≠ b → t.bnd c = s.bnd c) ∧ Keeps (.bnds :: but) s t

/-- No port but one differs, and nothing but ports and the parts listed. -/
def OnlyPort (p : Nat) (but : List Part) (s t : State) : Prop :=
  (∀ q, q ≠ p → t.port q = s.port q) ∧ Keeps (.ports :: but) s t

/-- No quadrant but one differs, and nothing but quadrants and the parts listed. -/
def OnlyQuad (q : Nat) (but : List Part) (s t : State) : Prop :=
  (∀ r, r ≠ q → t.quad r = s.quad r) ∧ Keeps (.quads :: but) s t

/-- No memory channel but one differs, and nothing but channels and the parts listed. -/
def OnlyChan (m : Nat) (but : List Part) (s t : State) : Prop :=
  (∀ c, c ≠ m → t.chan c = s.chan c) ∧ Keeps (.chans :: but) s t

/-! ## Requests -/

/-- A request that arrives reaches the dictionary service: the host's always; one of the management line where the Rim is
powered, injection spares the frame, its SEQ is not one that was answered lately, and fewer than 8 requests of its
address wait (R489, R503, R541). -/
def Arrives (rq : Rq) (s : State) : Prop :=
  match rq.src with
  | .host _ => True
  | .mgt a _ => s.rim.powered = true ∧ s.ij.rxDrop = 0 ∧ s.ij.corrupt = 0
      ∧ s.ctl.replies.find? (fun r => r.addr == a && r.seq == rq.seq) = none ∧ s.outstanding a < 8

/-- The state in which a request that arrives is served: what the command sends starts empty, and a management frame is
counted and, from the owning controller, heard (R54, R508). -/
def received (rq : Rq) (s : State) : State :=
  match rq.src with
  | .host _ => { s with out := [] }
  | .mgt a _ => ({ s with out := [], rim := { s.rim with rx := min (s.rim.rx + 1) 0xFFFFFFFF } } : State).hears a

/-- Every check of R71 admits a write, no ABORT of its CFG cycle takes precedence (R32), and nothing after the checks
refuses it. -/
def Admitted (rq : Rq) (w : Put) (f : Form) (x : Extra) (s : State) : Prop :=
  s.frontCheck rq.src (w.o.addr w.u w.k) (.base w.o w.u w.k) f = .ok
    ∧ s.preempted rq (fun code => s.scopeHas code w.o w.u w.k) = false
    ∧ closedCheck s w = .ok ∧ laterChecks s w x = .ok

/-- The WRITE of a number to a scalar entry reaches the dictionary service and is admitted. -/
def Accepted (rq : Rq) (o : Obj) (u k v : Nat) (x : Extra) (s : State) : Prop :=
  Arrives rq s ∧ Admitted rq { o := o, u := u, k := k, data := leBytes o.row.size v }
    { write := true, block := false, len := o.row.size, v := leNat (leBytes o.row.size v) } x (received rq s)

/-- A whole block transfer to a DOM entry reaches the dictionary service and is admitted. -/
def AcceptedBlock (rq : Rq) (o : Obj) (u off : Nat) (data : List Byte) (s : State) : Prop :=
  Arrives rq s ∧ Admitted rq { o := o, u := u, off := off, data := data }
    { write := true, block := true, len := data.length, off := off, total := data.length, v := leNat data } {}
    (dropTransfer rq.src (received rq s))

/-- A WRITE reaches the dictionary service and passes steps 1 to 6 of R71. -/
def FrontOk (rq : Rq) (a : Addr) (data : List Byte) (s : State) : Prop :=
  Arrives rq s ∧ (received rq s).frontCheck rq.src a ((received rq s).named a)
    { write := true, block := false, len := data.length, v := leNat data } = .ok

/-- Objects that a write leaves as written and that read as written, with no effect and no live value of their own. -/
def plainObjs : List Obj :=
  [.portMode, .portFixDrive, .portFixCompare, .portPark, .portSerConfig, .portSerTiming, .portSerPrbs, .devEvtHostMask,
   .devLogMask, .devEvtMgtRate, .devEvtSiteVector, .devWarpAsym, .devEventTime, .devHoldoverAbort,
   .devMemScrubPeriod, .devTjWarn, .devPwrLimit, .devSentAction, .portCmpConfig]

/-- The reply frame of a service is among what was sent; injection may discard a management frame (R541). -/
def Replied (rq : Rq) (service : Nat) (a : Addr) (st : Status) (s t : State) : Prop :=
  isHost rq.src = true ∨ s.ij.txDrop = 0 →
    Msg.reply rq.src rq.seq service a true true st.code none [] ∈ t.out

/-- The same for a block transfer, whose reply carries the block prefix (R487). -/
def RepliedBlock (rq : Rq) (a : Addr) (off total : Nat) (st : Status) (s t : State) : Prop :=
  isHost rq.src = true ∨ s.ij.txDrop = 0 →
    Msg.reply rq.src rq.seq svcBlockWrite a true true st.code (some (off, total)) [] ∈ t.out

/-- The write that a last segment asks for: what the transfer held, and the segment. -/
def wholePut (src : Src) (g : Segment) (o : Obj) (u k : Nat) (s : State) : Put :=
  { o := o, u := u, k := k,
    off := if g.first then g.offset else ((s.transfer src).map (·.start)).getD 0,
    data := (if g.first then [] else ((s.transfer src).map (·.data)).getD []) ++ g.data }

/-- A last segment completes a transfer that every check of R71 admits. -/
def Completes (rq : Rq) (a : Addr) (g : Segment) (s : State) : Prop :=
  ∃ o u k, (received rq s).named a = .base o u k ∧
    (received rq s).frontCheck rq.src a (.base o u k)
      { write := true, block := true, len := g.data.length, off := (wholePut rq.src g o u k s).off, total := g.total }
      = .ok ∧
    (received rq s).preempted rq (fun code => s.scopeHas code o u k) = false ∧
    closedCheck (received rq s) (wholePut rq.src g o u k s) = .ok ∧
    laterChecks (received rq s) (wholePut rq.src g o u k s) {} = .ok

/-- The parts that answering a request changes beside its effect. -/
def answerParts : List Part := [.replies, .slots]

/-! ## Memory -/

/-- No channel has counts of the last second that would change its state: a command that reads or writes GDDR7 leaves the
channels in service as they are (R479, R480). -/
def ChansQuiet (s : State) : Prop :=
  ∀ c, c < 12 → (s.chan c).recentBad.length < 64 ∧
    ∀ l, l < 32 → (s.chan c).laneRate l = 0 ∨ (s.chan c).laneRate l < s.rd .devMemLaneThreshold

/-- The channels are quiet, and every granule's stored check bytes are those of its data. -/
def Healthy (s : State) : Prop := ChansQuiet s ∧ ∀ g, Store.get 0 g s.memChk = 0

/-- Nothing is undelivered, and the stored bytes and check differences of GDDR7 are in canonical form: addresses strictly
rising, no entry equal to what an unlisted one reads as. -/
def Settled (s : State) : Prop :=
  s.evt.now = [] ∧ Store.wf (fun _ => (0 : Byte)) s.mem = true ∧ Store.wf (fun _ => (0 : BitVec 32)) s.memChk = true

/-! ## Aborts -/

/-- A site is ABORTING with a cause. -/
def AbortsWith (i cause : Nat) (t : State) : Prop :=
  t.siteSt i = .aborting ∧ (t.site i).abort.map (·.cause) = some cause

/-- A device-scope abort would begin now: the main die runs, with no fault and no abort in progress (R76, R95). -/
def Abortable (s : State) : Prop := s.alive = true ∧ s.dev.fault = none ∧ s.dev.aborting = none

/-- Every site that runs is ABORTING with a cause. -/
def RunningAbort (cause : Nat) (s t : State) : Prop := ∀ i, i < 12 → s.siteSt i = .running → AbortsWith i cause t

/-! ## Steps -/

/-- The state of a site's scheduler in which the command of a CK edge is picked: what has come in has arrived, and insertions
and delays that are due have begun (R309, R318, R326, R327). -/
def atEdge (s : State) (i : Nat) (ck : Int) : State :=
  ((({ s with out := [] } : State).arrivals i).beginInserts i).markReady i ck

/-- The rows of the DUT commands, each with its number (R308). -/
def dutRows : List ((SiteNo → Nat → Instr) × Nat) :=
  [(.act, 1), (.rd, 2), (.wr, 3), (.rda, 4), (.wra, 5), (.pre, 6), (.prea, 7), (.ref, 8), (.refsb, 9), (.mrw, 10), (.mrr, 11),
   (.des, 12), (.pde, 13), (.pdx, 14), (.sre, 15), (.srx, 16), (.zqcal, 17)]

/-- The address that a DUT command shows: MRW, MRR and DES their argument, the others ADDR of BND_SCHED_LAST (R329). -/
def shownAddr (cmd bank row col arg : Nat) : Nat :=
  if ([10, 11, 12] : List Nat).contains cmd then arg else sentAddr cmd bank row col

/-- A step whose INIT names the microcode sequence reaches its word 0, and the word may be executed there (R319, R320). -/
def beginsWell (r : StepRec) : Prop :=
  r.init = 0x80 → 0 < r.ucodeLen ∧ wordOk r { number := 0x80 } (r.ucodeWord 0) = true

/-- A microcode sequence may go on to a word: it lies in the microcode and may be executed where it stands (R320). -/
def ucodeGoesOn (r : StepRec) (q : Training) (n : Nat) : Prop :=
  n < r.ucodeLen ∧ wordOk r q (r.ucodeWord n) = true

end Sys2Proof.Safety
end

