-- ==== Sys2Proof/Certificates/Slice0/Obligations.lean ====
section
/-! DEFINITION. What is claimed of the block, for the provers. Every statement is about the commands' meanings and the
step; each says which rules of spec/ it rests on. -/
open Sys2Proof Sys2Proof.Machine Sys2Proof.Safety

/-- NEXT, JUMP, CALL and RET choose the next PC; WAIT and HALT put a context into WAITING. On a READY context of a site
whose step runs, NEXT goes to PC + 1, JUMP to TARGET, CALL saves PC + 1 in RET_PC and goes to TARGET, RET goes to
RET_PC; nothing else of the context changes, no other context, and no other part of the state. WAIT goes to PC + 1 and
waits with TIMER, DRAIN or FABRIC; a TIMER of 0 does not wait. HALT goes to PC + 1 and waits with HALTING. No other
context and no other part of the state changes. (R277, R280, R283) -/
def Obligations.FlowTransfers : Prop :=
  (∀ (cid : Cid) (target : BitVec 24) (s : State), s.issuing cid = true →
      (∃ t, exec (.next cid) s = .next t ∧ t.ctx cid = { s.ctx cid with pc := (s.ctx cid).pc + 1 } ∧ OnlyCtx cid [] s t) ∧
      (∃ t, exec (.jump cid target) s = .next t ∧ t.ctx cid = { s.ctx cid with pc := target } ∧ OnlyCtx cid [] s t) ∧
      (∃ t, exec (.call cid target) s = .next t ∧
        t.ctx cid = { s.ctx cid with pc := target, retPc := (s.ctx cid).pc + 1 } ∧ OnlyCtx cid [] s t) ∧
      (∃ t, exec (.ret cid) s = .next t ∧ t.ctx cid = { s.ctx cid with pc := (s.ctx cid).retPc } ∧ OnlyCtx cid [] s t)) ∧
  (∀ (cid : Cid) (imm : BitVec 32) (s : State), s.issuing cid = true →
      (∃ t, exec (.wait cid 0 imm) s = .next t ∧ OnlyCtx cid [] s t ∧
        t.ctx cid = (if imm = 0 then { s.ctx cid with pc := (s.ctx cid).pc + 1 }
          else { s.ctx cid with pc := (s.ctx cid).pc + 1, st := .waiting, cause := .timer, timer := imm.toNat })) ∧
      (∃ t, exec (.wait cid 1 imm) s = .next t ∧ OnlyCtx cid [] s t ∧
        t.ctx cid = { s.ctx cid with pc := (s.ctx cid).pc + 1, st := .waiting, cause := .drain }) ∧
      (∃ t, exec (.wait cid 2 imm) s = .next t ∧ OnlyCtx cid [] s t ∧
        t.ctx cid = { s.ctx cid with pc := (s.ctx cid).pc + 1, st := .waiting, cause := .fabric }) ∧
      (∃ t, exec (.halt cid) s = .next t ∧ OnlyCtx cid [] s t ∧
        t.ctx cid = { s.ctx cid with pc := (s.ctx cid).pc + 1, st := .waiting, cause := .halting }))

/-- BRANCH, LOOP, SETLC and SETREG read and write what R280 and R282 give them. BRANCH goes to TARGET exactly where the
condition that SEL names holds, and a test of FAIL clears it; LOOP counts LCk down and repeats while it is above 1;
SETLC loads LCk; SETREG writes the register that SEL names and leaves the others. No other context and no other part
of the state changes. (R280, R282) -/
def Obligations.FlowDecisions : Prop :=
  ∀ (cid : Cid) (s : State), s.issuing cid = true →
    (∀ (sel : Fin 10) (target : BitVec 24) (xw yw bw fab : Bool),
      ∃ t, exec (.branch cid sel target xw yw bw fab) s = .next t ∧ OnlyCtx cid [] s t ∧
        t.ctx cid = { s.ctx cid with
          pc := if [xw, !xw, yw, !yw, bw, !bw, (s.ctx cid).fail, !(s.ctx cid).fail, fab, !fab].getD sel false
            then target else (s.ctx cid).pc + 1
          fail := (s.ctx cid).fail && !(sel == 6 || sel == 7) }) ∧
    (∀ (k : Fin 4) (target : BitVec 24),
      ∃ t, exec (.loop cid k target) s = .next t ∧ OnlyCtx cid [] s t ∧
        ((t.ctx cid).lc k).toNat = ((s.ctx cid).lc k).toNat - 1 ∧
        (∀ j, j ≠ k → (t.ctx cid).lc j = (s.ctx cid).lc j) ∧
        (t.ctx cid).pc = (if 1 < ((s.ctx cid).lc k).toNat then target else (s.ctx cid).pc + 1)) ∧
    (∀ (k : Fin 4) (imm : BitVec 32),
      ∃ t, exec (.setlc cid k imm) s = .next t ∧ OnlyCtx cid [] s t ∧ (t.ctx cid).lc k = imm ∧
        (∀ j, j ≠ k → (t.ctx cid).lc j = (s.ctx cid).lc j) ∧ (t.ctx cid).pc = (s.ctx cid).pc + 1) ∧
    (∀ (reg : Fin 8) (imm : BitVec 32),
      ∃ t, exec (.setreg cid reg imm) s = .next t ∧ OnlyCtx cid [] s t ∧ (t.ctx cid).pc = (s.ctx cid).pc + 1 ∧
        (t.ctx cid).d0.extractLsb' 0 32 = (if reg = 0 then imm else (s.ctx cid).d0.extractLsb' 0 32) ∧
        (t.ctx cid).d0.extractLsb' 32 32 = (if reg = 1 then imm else (s.ctx cid).d0.extractLsb' 32 32) ∧
        (t.ctx cid).d1.extractLsb' 0 32 = (if reg = 2 then imm else (s.ctx cid).d1.extractLsb' 0 32) ∧
        (t.ctx cid).d1.extractLsb' 32 32 = (if reg = 3 then imm else (s.ctx cid).d1.extractLsb' 32 32) ∧
        (t.ctx cid).seed = (if reg = 4 then imm else (s.ctx cid).seed) ∧
        (t.ctx cid).xMax = (if reg = 5 then imm.setWidth 24 else (s.ctx cid).xMax) ∧
        (t.ctx cid).yMax = (if reg = 6 then imm.setWidth 16 else (s.ctx cid).yMax) ∧
        (t.ctx cid).bankMax = (if reg = 7 then imm.setWidth 8 else (s.ctx cid).bankMax))

/-- Waits end when their cause is satisfied. In a site whose step runs: a TIMER whose WORD cycles have passed makes its
context READY; a DRAIN wait and a HALT end only once nothing that the context supplied is left to be driven or
compared, READY and DONE; a high event line makes exactly the contexts of the site that wait for FABRIC READY. Beside
the context, only a HALT's last row summary reaches the capture unit. (R270, R283, R339) -/
def Obligations.WaitsEnd : Prop :=
  ∀ (cid : Cid) (site : SiteNo) (s : State), s.siteOfCtx cid = some site.val → s.stepping site = true →
    ((s.ctx cid).st = .waiting → (s.ctx cid).cause = .timer → (s.ctx cid).timer = 0 →
      ∃ t, exec (.waitTimerExpiry cid) s = .next t ∧ OnlyCtx cid [] s t ∧
        t.ctx cid = { s.ctx cid with st := .ready, cause := .none, timer := 0 }) ∧
    ((s.ctx cid).st = .waiting → (s.ctx cid).cause = .drain → s.owes site cid = false →
      ∃ t, exec (.waitDrainDone cid) s = .next t ∧ OnlyCtx cid [] s t ∧
        t.ctx cid = { s.ctx cid with st := .ready, cause := .none, timer := 0 }) ∧
    ((s.ctx cid).st = .waiting → (s.ctx cid).cause = .halting → s.owes site cid = false →
      ∃ t, exec (.haltDone cid) s = .next t ∧ OnlyCtx cid [.bnds, .sites] s t ∧
        t.ctx cid = { s.ctx cid with st := .done, cause := .none, rows := none }) ∧
    (∃ t, exec (.waitFabricEvent site true) s = .next t ∧ Keeps [.ctxs] s t ∧
      ∀ c, t.ctx c = if c ∈ s.siteCtxs site ∧ (s.ctx c).st = .waiting ∧ (s.ctx c).cause = .fabric
        then { s.ctx c with st := .ready, cause := .none, timer := 0 } else s.ctx c)

/-- SPAWN readies contexts, CHECKPOINT waits for its drain, and a context command completes. SPAWN goes to PC + 1 and the
LOADED context of the site that IMM names becomes READY. CHECKPOINT numbers the next slot, s = CKPT_SEQ + 1 modulo
65,536, and its 128 bytes go to CKPT_BASE + 256 CKPT_PTR + 128 (s mod 2) without holding the context; when the write
completes, memory holds them where every granule reaches its channel, and the context's write is no longer on its way.
The contexts that a LOAD, FREE or RESTORE has staged replace those of the bundle, in ascending order, and nothing
stays staged; the bundle's other contexts and every other bundle's stay. (R273, R281, R296, R297, R536) -/
def Obligations.SpawnAndCheckpoint : Prop :=
  (∀ (cid : Cid) (i : Nat) (s : State), s.siteOfCtx cid = some i →
      (∀ imm : BitVec 32, s.issuing cid = true → s.spawnable i imm.toNat = true →
        ∃ t, exec (.spawn cid imm) s = .next t ∧ Keeps [.ctxs] s t ∧
          t.ctx cid = { s.ctx cid with pc := (s.ctx cid).pc + 1 } ∧
          t.ctx imm.toNat = { s.ctx imm.toNat with st := .ready } ∧
          ∀ c, c ≠ cid.val → c ≠ imm.toNat → t.ctx c = s.ctx c) ∧
      (s.issuing cid = true → (s.ctx cid).ckptPtr.toNat < (s.stepRec i).ckptSlots →
        ∃ t, exec (.checkpoint cid) s = .next t ∧ OnlyCtx cid [] s t ∧ (t.ctx cid).st = .ready ∧
          (t.ctx cid).pc = (s.ctx cid).pc ∧ (t.ctx cid).ckptSeq = (s.ctx cid).ckptSeq + 1 ∧
          ∃ w, (t.ctx cid).ckpts = (s.ctx cid).ckpts ++ [w] ∧ w.bytes.length = 128 ∧
            w.addr = (s.stepRec i).ckptBase + 256 * (s.ctx cid).ckptPtr.toNat
              + 128 * (((s.ctx cid).ckptSeq.toNat + 1) % 65536 % 2)) ∧
      (∀ w rest, Healthy s → (s.ctx cid).ckpts = w :: rest →
        ∃ t, exec (.checkpointComplete cid) s = .next t ∧ t.ctx cid = { s.ctx cid with ckpts := rest } ∧
          OnlyCtx cid [.regs, .mem, .chans] s t ∧
          (w.bytes.length = 128 → w.addr % 32 = 0 → (∀ k, k < 4 → s.spot (w.addr + 32 * k) = .ok) →
            Store.gets 0 w.addr 128 t.mem = w.bytes))) ∧
  (∀ (b : BundleNo) (s : State), (s.bnd b).pe.staged ≠ [] → ((s.bnd b).pe.staged.map (·.1)).Nodup →
      ∃ t, exec (.ctxCmdDone b) s = .next t ∧ (t.bnd b).pe.staged = [] ∧
        (∀ e ∈ (s.bnd b).pe.staged, t.ctx (4096 * b + e.1) = e.2) ∧
        (∀ c, (∀ e ∈ (s.bnd b).pe.staged, c ≠ 4096 * b + e.1) → t.ctx c = s.ctx c) ∧
        (∀ d, d ≠ b.val → t.bnd d = s.bnd d) ∧ Keeps [.ctl, .replies, .slots, .bnds, .ctxs] s t)

/-- A faulting instruction puts its context into FAULT and aborts the site. A SPAWN of a context that is not LOADED, is
outside the site or has IMM[31:16] other than 0, and a CHECKPOINT with CKPT_PTR at or beyond CKPT_SLOTS, have no
effect of their own: the context is in FAULT with SPAWN_STATE or CKPT_RANGE, its PC and registers as before, and its
site ABORTING. (R271, R281) -/
def Obligations.ContextFault : Prop :=
  ∀ (cid : Cid) (i : Nat) (imm : BitVec 32) (s : State), s.siteOfCtx cid = some i → s.issuing cid = true →
    (s.bnd (cid / 4096)).failed = false →
    (s.spawnable i imm.toNat = false → ∃ t, exec (.spawn cid imm) s = .next t ∧ t.siteSt i = .aborting ∧
      (t.ctx cid).st = .fault ∧ (t.ctx cid).faultCode = .spawnState ∧ (t.ctx cid).pc = (s.ctx cid).pc ∧
      t.mem = s.mem) ∧
    ((s.stepRec i).ckptSlots ≤ (s.ctx cid).ckptPtr.toNat → ∃ t, exec (.checkpoint cid) s = .next t ∧
      t.siteSt i = .aborting ∧ (t.ctx cid).st = .fault ∧ (t.ctx cid).faultCode = .ckptRange ∧
      (t.ctx cid).ckpts = (s.ctx cid).ckpts ∧ t.mem = s.mem)

/-- In a WORD cycle the first candidate issues its instruction. Once the oldest driven word has met its received symbols
and the WORD cycle's own are driven, and contexts that waited for room are READY again, the first of the candidates in
the order of R290 issues where its instruction meets no fault and finds room: it becomes the last issuer,
BND_PE_ISSUED of its bundle counts one more, and its PC, address registers, data registers and SEED are those of steps
1 to 5 of R279 (a SETREG, opcode 9, writes D0, D1 and SEED itself). No other context but a spawned one changes, and a
spawned one is READY. (R279, R284, R286, R290) -/
def Obligations.InstructionIssues : Prop :=
  ∀ (site : SiteNo) (rx : List LaneObs) (fab : Bool) (s w : State) (cid : Nat) (rest : List Nat) (inst : Inst),
    s.stepping site = true →
    w = (({ s with out := [] } : State).compareWord site rx).driveWord site →
    w.stepping site = true → (w.site site).pausing = false → (∀ a, (w.site site).resumeAt = some a → a ≤ s.time) →
    (w.wake site).candidates site = cid :: rest → (w.wake site).fetch site ((w.wake site).ctx cid) = .inr inst →
    ((w.wake site).site site).sched.accepts inst.slots.length = true → (w.wake site).cyclesFit site inst = true →
    ∃ t, exec (.instructionIssue site rx fab) s = .next t ∧ (t.run' site).lastCid = some cid ∧
      (t.bnd (cid / 4096)).pe.issued = (w.bnd (cid / 4096)).pe.issued + 1 ∧
      (t.ctx cid).x = BitVec.ofNat 24 (addressAfter inst ((w.wake site).ctx cid)).x ∧
      (t.ctx cid).y = BitVec.ofNat 16 (addressAfter inst ((w.wake site).ctx cid)).y ∧
      (t.ctx cid).bank = BitVec.ofNat 8 (addressAfter inst ((w.wake site).ctx cid)).bank ∧
      (inst.opcode ≠ 9 → ((t.ctx cid).d0, (t.ctx cid).d1)
          = dataAfter inst.dop ((w.wake site).ctx cid).d0 ((w.wake site).ctx cid).d1 ∧
        (t.ctx cid).seed = (inst.wordList ((w.wake site).ctx cid) ((w.wake site).wideWords site) inst.cyc
          ((w.wake site).ctx cid).seed).2) ∧
      (t.ctx cid).pc = (((w.wake site).ctx cid).flow inst (addressAfter inst ((w.wake site).ctx cid)) fab).pc ∧
      (inst.opcode = 8 → (t.ctx (inst.imm % 65536)).st = .ready) ∧
      (∀ c, c ≠ cid → (inst.opcode = 8 → c ≠ inst.imm % 65536) → t.ctx c = (w.wake site).ctx c)

/-- A cycle that is due is taken from the formatter's queue. In a site whose step has begun and runs and whose next cycle
is due, the oldest cycle leaves the queue, and the next one is due PERIOD of its timing set later, unless the cycle
stops the site (an undefined TSET or PMAP, a NOT_Z conflict); the site stays RUNNING. The cycle before is complete, so
its ports' cycle counts and status may change, and strobes that have come may count and record fails or store raw
bytes: beside them nothing outside registers, counts of fails, ports, sites, bundles, contexts, memory and the memory
channels changes; the memory channels are taken to be without errors. (R211, R213, R214) -/
def Obligations.CycleStarts : Prop :=
  ∀ (site : SiteNo) (obs : List PortObs) (s v u : State) (c : Cycle) (rest : List Cycle) (bytes : List Byte),
    s.stepping site = true → (s.run' site).begun = true → (s.stepRec site).hasCycles = true →
    (s.run' site).nextCycle / stepsPerTick ≤ s.time → (s.run' site).cycles = c :: rest →
    v = ({ s with out := [] } : State).completeCycle site (s.run' site).nextCycle →
    (match c.vec with
      | some n => v.vectorOf (s.stepRec site) n
      | none => ([], v)) = (bytes, u) →
    u.cycleStops site c (u.cycleCodes site c (leNat bytes)) = none → Healthy s →
    ∃ t, exec (.cycleStart site obs) s = .next t ∧ (t.run' site).cycles = rest ∧ (t.run' site).cycling = true ∧
      (t.run' site).nextCycle
        = (s.run' site).nextCycle + (u.tset ((s.stepRec site).mappedPorts.headD 0) c.tset).period ∧
      t.siteSt site = .running ∧
      Keeps [.free, .regs, .doms, .sites, .bnds, .ports, .ctxs, .mem, .chans] s t

/-- An empty formatter queue or symbol stream aborts the site. A due cycle that finds the queue empty while a context can
still supply one aborts the site with CYCLE_UNDERRUN at the cycle's start, and lanes with the GENERATOR source that
have no symbols abort it with SYMBOL_UNDERRUN at the launch of the first missing symbol; a lane with the FABRIC source
that lacks the bits of a WORD cycle sets TX_UNDERRUN and aborts nothing. (R214, R242) -/
def Obligations.QueueStarved : Prop :=
  ∀ (site : SiteNo) (obs : List PortObs) (p : PortNo) (s : State), s.stepping site = true →
    (s.run' site).begun = true →
    ((s.stepRec site).hasCycles = true → (s.run' site).nextCycle / stepsPerTick ≤ s.time →
      (s.run' site).cycles = [] → s.suppliesNoMore site = false →
      ∃ t, exec (.cycleStart site obs) s = .next t ∧ AbortsWith site 0x0C01 t ∧
        (t.site site).abort.map (·.time) = some ((s.run' site).nextCycle / stepsPerTick) ∧ t.mem = s.mem) ∧
    (∀ q t0, s.laneLive p = true → p.val < 96 → (s.ser p).txSource = 0 → s.siteOfPort p = some site.val →
      (s.lanesOf site).contains p.val = true → (s.run' site).words = [] → s.suppliesNoMore site = false →
      s.firstMissing site = some (q, t0) → t0 ≤ s.now →
      ∃ t, exec (.txUnderrun p) s = .next t ∧ AbortsWith site 0x0C05 t ∧
        (t.site site).abort.map (·.time) = some (t0 / stepsPerTick) ∧ t.mem = s.mem) ∧
    (s.laneLive p = true → p.val < 96 → (s.ser p).txSource = 2 → s.siteOfPort p = some site.val →
      (s.lanesOf site).contains p.val = true → (s.lane p).txFifo = [] → (s.lane p).tx.bits.length < (s.ser p).wordBits →
      ∃ t, exec (.txUnderrun p) s = .next t ∧ OnlyPort p [] s t ∧
        t.port p = { s.port p with lane := { (s.port p).lane with txUnderrun := true } })

/-- A boundary, the trigger line and the pattern cache. In a site whose step runs, a boundary brings the recomputed trims
of its ports into force and is remembered until the next cycle or symbol, but while a training sequence runs there is
none; FAB_TRIGGER inverts the trigger line. A line of the program that arrives is held: its granules are in the cache
and it is the newest line (the memory channels are taken to be without errors). (R278, R291, R357, R366) -/
def Obligations.EngineMarks : Prop :=
  ∀ (site : SiteNo) (s : State),
    (s.stepping site = true → (s.site site).sched.training = none →
      ∃ t, exec (.calBoundary site) s = .next t ∧ (t.run' site).boundary = true ∧ t.siteSt site = .running ∧
        (∀ p ∈ s.portsOf site, ∀ n, (s.port p).cal.next = some n → (t.port p).cal.inForce = n) ∧
        Keeps [.sites, .ports] s t) ∧
    (s.stepping site = true → (s.site site).sched.training ≠ none →
      ∃ t, exec (.calBoundary site) s = .next t ∧ Keeps [] s t) ∧
    (s.stepping site = true →
      ∃ t, exec (.fabTrigger site) s = .next t ∧ OnlySite site [] s t ∧
        t.site site = { s.site site with run := { s.run' site with trig := !(s.run' site).trig } }) ∧
    (∀ line, Healthy s → (s.siteSt site).active = true → 1 ≤ (s.run' site).step → 8 * line < (s.stepRec site).progLen →
      (∀ k, k < min 8 ((s.stepRec site).progLen - 8 * line) →
        s.spot (32 * ((s.stepRec site).granule (8 * line) + k)) ≠ .waits) →
      ∃ t, exec (.patternCacheFill site line) s = .next t ∧
        (t.run' site).lines.getLast? = some ((s.stepRec site).granule (8 * line)) ∧
        (∀ k, k < min 8 ((s.stepRec site).progLen - 8 * line) →
          (Store.get none ((s.stepRec site).granule (8 * line) + k) (t.run' site).cache).isSome = true) ∧
        OnlySite site [.free, .regs, .chans] s t)

/-- An accepted START takes effect, and a later step begins, at its instant. At its coincidence point an ARMED site with
an accepted START becomes RUNNING in step 1; a site in transition begins its next step. A step whose INIT names
microcode begins at a word that R320 admits. The entry contexts are READY, and SITE_STEP_NOW reads the step. Cycle 0
follows 2,048 ticks after the step start instant, which a first step, a lockstep member's step and a step with an INIT
sequence have at once (log 139); every other later step has not begun until its first instruction issues. (R33, R187,
R212, R277) -/
def Obligations.RunStartsAndSteps : Prop :=
  ∀ (site : SiteNo) (s : State),
    (∀ p, (s.site site).startAt = some p → s.siteSt site = .armed → p ≤ s.time →
      beginsWell ((s.run' site).stepRec 1) →
      ∃ t, exec (.siteStartEffect site) s = .next t ∧ t.siteSt site = .running ∧ (t.run' site).step = 1 ∧
        (t.run' site).begun = true ∧ (t.run' site).stepStart = p ∧ (t.run' site).cycle0 = p + 2048 ∧
        t.rd .siteStepNow site = 1 ∧
        (∀ c ∈ s.entries site ((s.run' site).stepRec 1), (t.ctx c).st = .ready) ∧ t.mem = s.mem) ∧
    (∀ p, p = s.coincidenceAt (s.lead site) (if s.isMember site then s.realignAt site else s.time) →
      s.siteSt site = .running → (s.site site).transition = true → (s.isMember site = true → p ≤ s.time) →
      (s.run' site).step < 65535 → beginsWell ((s.run' site).stepRec ((s.run' site).step + 1)) →
      ∃ t, exec (.stepStart site) s = .next t ∧ t.siteSt site = .running ∧ (t.site site).transition = false ∧
        (t.run' site).step = (s.run' site).step + 1 ∧ t.rd .siteStepNow site = (s.run' site).step + 1 ∧
        (let r := (s.run' site).stepRec ((s.run' site).step + 1)
         if s.isMember site = true ∨ (r.isMemory = true ∧ r.init ≠ 0) ∨ (s.run' site).step = 0
         then (t.run' site).begun = true ∧ (t.run' site).cycle0 = p + 2048 else (t.run' site).begun = false) ∧
        (∀ c ∈ s.entries site ((s.run' site).stepRec ((s.run' site).step + 1)), (t.ctx c).st = .ready) ∧ t.mem = s.mem)

/-- A step ends when no context of its site is READY or WAITING; PAUSE and RESUME take effect. The last step's end makes
the site READY with SITE_STEP_NOW 0; an earlier step's end holds the site RUNNING in the transition to the next one,
in which a lockstep member has the next step's entry contexts WAITING with SLOT. In both, contexts keep their states
otherwise, and nothing but registers, sites, bundles, ports and contexts changes. A lockstep member that has not ended
a step, not the last, when T of R294 has passed aborts with LOCKSTEP_MISS at T, by STEP_END as by LOCKSTEP_MISS. A
RUNNING site with an accepted PAUSE becomes PAUSED at its time, its lanes go idle, and nothing but that site and ports
changes. A pause of 2 µs becomes a boundary, with the recomputed trims of the site's ports in force, unless a training
sequence runs. A PAUSED site with an accepted RESUME runs again: its next cycle, and its next symbols, begin 2,048
ticks after the next coincidence point, and the time that it was paused moves T of R294; nothing else of the state
changes. (R33, R83, R215, R277, R294, R357) -/
def Obligations.StepsEndAndPauses : Prop :=
  (∀ (site : SiteNo) (s : State), s.stepping site = true →
      ((s.siteCtxs site).all (fun c => (s.ctx c).st != .ready && (s.ctx c).st != .waiting) = true →
        (s.lastStep site = true →
          ∃ t, exec (.stepEnd site) s = .next t ∧ t.siteSt site = .ready ∧ t.rd .siteStepNow site = 0 ∧
            (∀ c, (t.ctx c).st = (s.ctx c).st) ∧ Keeps [.regs, .sites, .bnds, .ports, .ctxs] s t) ∧
        (s.lastStep site = false → (s.isMember site = true → s.time < s.realignAt site) →
          ∃ t, exec (.stepEnd site) s = .next t ∧ t.siteSt site = .running ∧ (t.site site).transition = true ∧
            (∀ c, s.isMember site = true →
              c ∈ s.entries site ((s.run' site).stepRec ((s.run' site).step + 1)) →
              (t.ctx c).st = .waiting ∧ (t.ctx c).cause = .slot) ∧
            (∀ c, (s.isMember site = true → c ∉ s.entries site ((s.run' site).stepRec ((s.run' site).step + 1))) →
              (t.ctx c).st = (s.ctx c).st) ∧
            Keeps [.sites, .bnds, .ports, .ctxs] s t) ∧
        (s.lastStep site = false → s.isMember site = true → s.realignAt site ≤ s.time →
          ∃ t, exec (.stepEnd site) s = .next t ∧ AbortsWith site 0x0805 t ∧
            (t.site site).abort.map (·.time) = some (s.realignAt site) ∧ t.mem = s.mem)) ∧
      (s.isMember site = true → s.lastStep site = false → s.realignAt site ≤ s.time →
        ∃ t, exec (.lockstepMiss site) s = .next t ∧ AbortsWith site 0x0805 t ∧
          (t.site site).abort.map (·.time) = some (s.realignAt site) ∧ t.mem = s.mem)) ∧
  (∀ (site : SiteNo) (s : State),
      (s.siteSt site = .running → (s.site site).pausing = true →
        ∃ t, exec (.pauseEffect site) s = .next t ∧ OnlySite site [.ports] s t ∧
          t.site site = { s.site site with st := .paused, pausing := false, pausedAt := s.time, pauseBoundary := false }) ∧
      (s.siteSt site = .paused → (s.site site).pauseBoundary = false → (s.site site).sched.training = none →
        (s.site site).pausedAt + 3500 ≤ s.time →
        ∃ t, exec (.pauseBoundary site) s = .next t ∧ OnlySite site [.ports] s t ∧
          t.site site = { s.site site with pauseBoundary := true, run := { s.run' site with boundary := true } } ∧
          (∀ p ∈ s.portsOf site, ∀ n, (s.port p).cal.next = some n → (t.port p).cal.inForce = n)) ∧
      ((s.site site).sched.training ≠ none → ∃ t, exec (.pauseBoundary site) s = .next t ∧ Keeps [] s t) ∧
      (s.siteSt site = .paused → (s.site site).resuming = true →
        ∀ at', at' = s.coincidenceAt (s.lead site) s.time + 2048 →
        ∃ t, exec (.resumeEffect site) s = .next t ∧ OnlySite site [] s t ∧
          t.site site = { s.site site with
            st := .running, resuming := false, pausing := false, pauseBoundary := false, resumeAt := some at'
            run := { s.run' site with
              boundary := false, paused := (s.run' site).paused + (s.time - (s.site site).pausedAt)
              nextCycle := at' * stepsPerTick, wordOrigin := at' * stepsPerTick, wordCount := 0, wordTaken := 0 } }))

/-- Slots become DUT commands in order, and no command that breaks the bank model is sent. For each of the 17 DUT
commands, at an edge that has come: where the transaction picked for the edge carries that command, is not dropped by
injection and does not violate the bank model, or violates it only through an injection that fired, the command goes
out with its rank, bank and address, the bank model takes it, and it leaves the queue; a read or MRR is expected, a
write places its burst. Where an inserted refresh has a command for the edge, that one goes out instead, and the queue
stays. Nothing but registers, sites, bundles and ports changes, and, where an injection marks the transaction, what
FORCE_EDC counts and records. Where the transaction picked for an edge, TRAIN too, violates the bank model and no
injection caused it, no DUT command goes out on that edge, and the site becomes ABORTING with TXN_STATE, the edge's
TIME as the trigger instant. (R308, R310, R311, R313, R318, R329) -/
def Obligations.DutCommandsSent : Prop :=
  (∀ (site : SiteNo) (ck : Nat) (s u : State), s.scheduling site = true → s.edgeCame site ck = true → u = atEdge s site ck →
      ∀ f ∈ dutRows,
      (∀ (k : Nat) (x : Txn) (row : Nat), u.pickInsert site ck = none → u.pickProgram site ck = some (k, x) → x.inject ≠ 1 →
        ((u.sched site).banks.violates x.cmd x.rank x.bank = false ∨
          (x.bad = false ∧ 0 < (u.bnd (u.lead site)).inj.fired)) → x.cmd = f.2 →
        row = (if x.cmd = 1 ∨ usesCol x.cmd = false then x.x else ((u.sched site).banks.row x.rank x.bank).getD 0) →
        ∃ t, exec (f.1 site ck) s = .next t ∧
          (∃ parity, Msg.dutCommand site ck x.rank x.cmd x.bank (shownAddr x.cmd x.bank row x.y x.arg) parity ∈ t.out) ∧
          (t.sched site).banks = (u.sched site).banks.apply x.cmd x.rank x.bank row ∧
          (t.sched site).queue = (u.sched site).queue.eraseIdx k ∧
          (isRead x.cmd = true ∨ x.cmd = 11 →
            ∃ b, (t.sched site).bursts = (u.sched site).bursts ++ [b] ∧ b.ck = (ck : Int) ∧ b.txn.cmd = x.cmd) ∧
          (isWrite x.cmd = true → ∃ beats crc, Msg.dutBurst site (ck + (s.stepRec site).timingEntry 1) beats crc ∈ t.out) ∧
          (x.inject ≠ 2 → Keeps [.regs, .sites, .bnds, .ports] s t) ∧
          Keeps [.regs, .doms, .sites, .bnds, .ports, .ctxs] s t) ∧
      (∀ (k rank bank row : Nat), u.pickInsert site ck = some (k, f.2, rank, bank, row) →
        ∃ t, exec (f.1 site ck) s = .next t ∧
          Msg.dutCommand site ck rank f.2 bank (shownAddr f.2 bank row 0 0)
            ((s.stepRec site).parityOf rank f.2 bank (shownAddr f.2 bank row 0 0) false) ∈ t.out ∧
          (t.sched site).banks = (u.sched site).banks.apply f.2 rank bank row ∧
          (t.sched site).queue = (u.sched site).queue ∧ Keeps [.regs, .sites, .bnds, .ports] s t)) ∧
  (∀ (site : SiteNo) (ck : Nat) (s u : State) (k : Nat) (x : Txn), s.scheduling site = true → s.edgeCame site ck = true →
      u = atEdge s site ck → u.pickInsert site ck = none → u.pickProgram site ck = some (k, x) → x.inject ≠ 1 →
      (u.sched site).banks.violates x.cmd x.rank x.bank = true → (x.bad = true ∨ (u.bnd (u.lead site)).inj.fired = 0) →
      ∀ f ∈ dutRows ++ [(.train, 18)], x.cmd = f.2 →
      ∃ t, exec (f.1 site ck) s = .next t ∧ AbortsWith site 0x1002 t ∧
        (t.site site).abort.map (·.time) = some (u.edgeAt site ck / stepsPerTick) ∧
        (∀ rank cmd bank addr parity, Msg.dutCommand site ck rank cmd bank addr parity ∉ t.out) ∧ t.mem = s.mem)

/-- Refresh debt, inserted refreshes, and transactions that arrive. In a scheduling site: once tREFI has passed since a
rank's last rise, its debt, or that of each of its banks under REF_PER_BANK, is one higher, but not in self-refresh;
in each of the three cases of R318 an insertion joins the list for its rank; arriving transactions are no longer fresh
and none is lost; a REORDER window open for 1,024 CK periods issues reversed after the queue. (R317, R318, R326, R327) -/
def Obligations.RefreshAndInjection : Prop :=
  ∀ (site : SiteNo) (s : State), s.scheduling site = true →
    (∀ (rank : Fin 4) (due : Rat), (s.stepRec site).refAuto = true → rank.val < (s.stepRec site).ranks →
      due = Store.get ((s.sched site).edge0 : Rat) rank (s.sched site).rises + s.ckTime site ((s.stepRec site).timingEntry 17) →
      due ≤ (s.now : Rat) →
      ∃ t, exec (.refreshDebtAccrue site rank) s = .next t ∧ OnlySite site [] s t ∧
        (rank.val, due) ∈ (t.sched site).rises ∧
        ((s.stepRec site).banks ≤ 32 → ∀ r b, b < 32 → (t.sched site).debtOf r b = (s.sched site).debtOf r b
          + (if r = rank.val ∧ (s.sched site).banks.refresh.contains rank.val = false ∧
              (if (s.stepRec site).refPerBank = true then b < (s.stepRec site).banks else b = 0)
            then 1 else 0))) ∧
    (∀ (rank : Fin 4) (bank : Fin 32) (ck b : Nat) (mine : List Txn), s.edgeCame site ck = true →
      (s.stepRec site).refAuto = true → rank.val < (s.stepRec site).ranks →
      b = (if (s.stepRec site).refPerBank then bank.val else 0) → b < (s.stepRec site).banks →
      (s.sched site).banks.refresh.contains rank.val = false → (s.sched site).inserts.any (·.rank == rank.val) = false →
      mine = (s.sched site).queue.filter (·.rank == rank.val) →
      (((s.stepRec site).timingEntry 27 : Int) < (s.sched site).debtOf rank b ∨
        (1 ≤ (s.sched site).debtOf rank b ∧ s.rankCanIssue site ck rank = false) ∨
        (mine = [] ∧ -((s.stepRec site).timingEntry 28 : Int) < (s.sched site).debtOf rank b)) →
      ∃ t, exec (.refreshInsert site ⟨rank, bank⟩ ck) s = .next t ∧ OnlySite site [] s t ∧
        (t.sched site).inserts.length = (s.sched site).inserts.length + 1 ∧
        (t.sched site).queue = (s.sched site).queue ∧
        ∃ x ∈ (t.sched site).inserts, x.rank = rank.val ∧
          x.bank = (if (s.stepRec site).refPerBank then some b else none) ∧
          x.forced = decide (((s.stepRec site).timingEntry 27 : Int) < (s.sched site).debtOf rank b)) ∧
    (∃ t, exec (.injTransactionArrival site) s = .next t ∧ Keeps [.sites, .bnds, .regs] s t ∧
      (∀ x ∈ (t.sched site).queue, x.fresh = true → x ∈ (s.sched site).window) ∧
      (t.sched site).queue.length + (t.sched site).window.length
        = (s.sched site).queue.length + (s.sched site).window.length) ∧
    (((s.sched site).windowAt : Rat) + s.ckTime site 1024 ≤ (s.now : Rat) →
      ∃ t, exec (.reorderWindowTimeout site) s = .next t ∧ OnlySite site [] s t ∧ (t.sched site).window = [] ∧
        (t.sched site).queue = (s.sched site).queue ++ (s.sched site).window.reverse)

/-- Read bursts are taken in order and DUT errors are counted. In a scheduling site the oldest expected burst leaves the
list once its beats have come; its compares change nothing but registers, fail counts, sites, bundles, ports and
contexts. A sampled ALERT on a port with that role, a read CRC or EDC mismatch where read CRC is on, and a write CRC
mismatch where write CRC is on each count in one field of BND_DUT_ERRORS, up to 0xFFFF, an ALERT as a write CRC error
where it answers a write under write CRC; the check of a burst that FORCE_EDC has failed already counts nothing more
(log 147). (R313, R324) -/
def Obligations.DutResults : Prop :=
  ∀ (site : SiteNo) (s : State), s.scheduling site = true →
    (∀ (beats : List (List (PortNo × Option PinDrive))) (u : Burst) (rest : List Burst), (s.sched site).bursts = u :: rest →
      s.burstCame site u = true →
      ∃ t, exec (.readBurstCompare site beats) s = .next t ∧ (t.sched site).bursts = rest ∧
        (t.sched site).queue = (s.sched site).queue ∧ Keeps [.free, .regs, .doms, .sites, .bnds, .ports, .ctxs] s t) ∧
    (∀ (kind : Fin 3) (burst : Option Cid) (p : PortNo) (ck : Nat), (s.dutPortsOf site).contains p.val = true →
      s.sampled p = true →
      (match kind with
        | 0 => (s.stepRec site).rcrc = true ∧ ((s.roleOf site p).1 = 8 ∨ (s.roleOf site p).1 = 5)
        | 1 => (s.stepRec site).wcrc = true ∧ (s.roleOf site p).1 = 8
        | 2 => (s.roleOf site p).1 = 9) →
      ∀ forced, forced = (kind ≠ 2 ∧ ∃ c e, burst = some c ∧ s.edcCommand site (kind == 1) c = some e ∧ e.forced = true) →
      (¬ forced → ∃ t k, exec (.dutError site kind burst p ck) s = .next t ∧
        (t.sched site).errors = (s.sched site).errors.set k (min ((s.sched site).errors.getD k 0 + 1) 0xFFFF) ∧
        k = (match kind with
          | 0 => 2
          | 1 => 1
          | 2 => if (s.stepRec site).wcrc && (s.alertCommand site ck).any (fun e => isWrite e.cmd) then 1 else 0) ∧
        Keeps [.regs, .doms, .sites, .bnds, .ports, .ctxs] s t) ∧
      (forced → ∃ t, exec (.dutError site kind burst p ck) s = .next t ∧ Keeps [] s t))

/-- A training sequence begins, and the built-in ones end. At an edge that has come, where the transaction picked is a
TRAIN that the bank model admits, it leaves the queue and its sequence is in progress, microcode at a word 0 that may
be executed there. A built-in sequence's next slot, or the CMD word where microcode stands, goes out where the timing
and the bank model admit it, and the sequence moves on. When a built-in sequence ends, no sequence is in progress;
every port of its targets has its offsets and is DONE, or where it failed is marked FAILED and keeps its offsets. A
microcode sequence ends at its END word, outside every sweep. (R319, R320, R321, R329) -/
def Obligations.TrainingRuns : Prop :=
  (∀ (site : SiteNo) (ck : Nat) (s : State), s.scheduling site = true → s.edgeCame site ck = true →
      (∀ (u : State) (k : Nat) (x : Txn), u = atEdge s site ck →
        u.pickInsert site ck = none → u.pickProgram site ck = some (k, x) → x.cmd = 18 → x.inject ≠ 1 →
        (u.sched site).banks.violates 18 x.rank x.bank = false →
        (x.arg % 256 = 0x80 → ucodeGoesOn (s.stepRec site) { number := 0x80, txn := some x } 0) →
        ∃ t, exec (.train site ck) s = .next t ∧ Keeps [.regs, .sites, .bnds, .ports] s t ∧
          (t.sched site).queue = (u.sched site).queue.eraseIdx k ∧
          ∃ q, (t.sched site).training = some q ∧ q.number = x.arg % 256 ∧ q.txn = some x ∧ q.pc = 0) ∧
      (∀ (q : Training) (v : Nat) (rest : List Nat), (s.sched site).training = some q → q.todo = v :: rest →
        ((({ s with out := [] } : State).beginInserts site).sendMicro site ck q v).1 = true →
        ∃ t, exec (.ucodeCmd site ck) s = .next t ∧ Keeps [.sites, .ports] s t ∧
          (t.sched site).training = some { q with todo := rest } ∧
          ∃ bank addr parity, Msg.dutCommand site ck (slotRank v) (slotCmd v) bank addr parity ∈ t.out) ∧
      (∀ (q : Training) (w : Nat), (s.sched site).training = some q → q.todo = [] → q.number = 0x80 → q.waiting = 0 →
        q.pc < (s.stepRec site).ucodeLen → w = (s.stepRec site).ucodeWord q.pc → bits w 28 4 = 1 →
        wordOk (s.stepRec site) q w = true → ucodeGoesOn (s.stepRec site) q (q.pc + 1) →
        ((({ s with out := [] } : State).beginInserts site).sendMicro site ck q (bits w 0 24)).1 = true →
        ∃ t, exec (.ucodeCmd site ck) s = .next t ∧ Keeps [.sites, .ports] s t ∧
          (t.sched site).training = some { q with pc := q.pc + 1 } ∧
          ∃ bank addr parity,
            Msg.dutCommand site ck (slotRank (bits w 0 24)) (slotCmd (bits w 0 24)) bank addr parity ∈ t.out)) ∧
  (∀ (site : SiteNo) (failed : Bool) (s : State) (q : Training), s.scheduling site = true →
      (s.sched site).training = some q →
      (q.number ≠ 0x80 →
        ∃ t, exec (.trainDone site failed) s = .next t ∧ (t.sched site).training = none ∧
          Keeps [.free, .sites, .ports, .ctxs] s t ∧
          (∀ e ∈ builtInTargets (s.stepRec site) q.number, ∀ p ∈ s.sweepPorts site e.2,
            (failed = false → (t.port p).train.state = 1) ∧
            (failed = true → (t.port p).train.state = 2 ∧ (t.port p).train.tx = (s.port p).train.tx ∧
              (t.port p).train.rx = (s.port p).train.rx))) ∧
      (q.number = 0x80 → q.pc < (s.stepRec site).ucodeLen → bits ((s.stepRec site).ucodeWord q.pc) 28 4 = 0 → q.sweeps = [] →
        ∃ t, exec (.trainDone site failed) s = .next t ∧ (t.sched site).training = none ∧ Keeps [.sites, .ctxs] s t))

/-- The words of a microcode sequence. Where a scheduling site's microcode stands at a word of its OP and the word it goes
on to is admitted: WAIT holds until its CK periods have passed and then goes on; SWEEP opens a sweep at its first
point, with the offsets that its ports had; SWEEP_END runs the body again until the last point and then closes the
sweep; PATTERN selects the pattern; LOOP jumps back while repetitions are left, its count met anew, and goes on after
them; END ends the sequence. The other parts of the training state stay. (R319, R320, R321) -/
def Obligations.MicrocodeWords : Prop :=
  ∀ (site : SiteNo) (s : State) (q : Training) (w : Nat), s.scheduling site = true → (s.sched site).training = some q →
    q.number = 0x80 → q.pc < (s.stepRec site).ucodeLen → w = (s.stepRec site).ucodeWord q.pc →
    (q.waiting = 0 → wordOk (s.stepRec site) q w = true →
      (bits w 28 4 = 0 →
        ∃ t, exec (.ucodeEnd site) s = .next t ∧ (t.sched site).training = none ∧ Keeps [.sites, .ctxs] s t) ∧
      (bits w 28 4 = 2 →
        ∃ t, exec (.ucodeWait site) s = .next t ∧ OnlySite site [] s t ∧
          (t.sched site).training = some { q with waiting := bits w 0 20, waitAt := s.now }) ∧
      (bits w 28 4 = 3 →
        ∀ x : Sweep, x = { target := bits w 26 2, points := bits w 16 10, step := bits w 0 16, body := q.pc + 1
                           before := (s.sweepPorts site (bits w 26 2)).map (fun p => (p, s.offsetOf (bits w 26 2) p)) } →
        ucodeGoesOn (s.stepRec site) { q with sweeps := x :: q.sweeps } (q.pc + 1) →
        ∃ t, exec (.ucodeSweep site) s = .next t ∧ OnlySite site [.ports] s t ∧
          (t.sched site).training = some { q with sweeps := x :: q.sweeps, pc := q.pc + 1 }) ∧
      (bits w 28 4 = 4 →
        ∀ (x : Sweep) (rest : List Sweep), q.sweeps = x :: rest →
        (x.point + 1 < x.points → ucodeGoesOn (s.stepRec site) { q with sweeps := { x with point := x.point + 1 } :: rest } x.body →
          ∃ t, exec (.sweepEnd site ()) s = .next t ∧ OnlySite site [.ports] s t ∧
            (t.sched site).training = some { q with sweeps := { x with point := x.point + 1 } :: rest, pc := x.body }) ∧
        (x.points ≤ x.point + 1 → ucodeGoesOn (s.stepRec site) { q with sweeps := rest } (q.pc + 1) →
          ∃ t, exec (.sweepEnd site ()) s = .next t ∧ OnlySite site [.ports, .ctxs] s t ∧
            (t.sched site).training = some { q with sweeps := rest, pc := q.pc + 1 })) ∧
      (bits w 28 4 = 5 → ucodeGoesOn (s.stepRec site) q (q.pc + 1) →
        ∃ t, exec (.ucodePattern site) s = .next t ∧ OnlySite site [] s t ∧
          (t.sched site).training = some { q with pattern := bits w 0 8, pc := q.pc + 1 }) ∧
      (bits w 28 4 = 6 →
        ∀ left goal, left = (if Store.get 0 q.pc q.loops = 0 then bits w 16 12 else Store.get 0 q.pc q.loops - 1) →
        goal = (if left = 0 then q.pc + 1 else bits w 0 12) → ucodeGoesOn (s.stepRec site) q goal →
        ∃ t p, exec (.ucodeLoop site) s = .next t ∧ OnlySite site [] s t ∧ (t.sched site).training = some p ∧
          p.pc = goal ∧ Store.get 0 q.pc p.loops = left ∧ p = { q with pc := p.pc, loops := p.loops })) ∧
    (q.waiting ≠ 0 → (q.waitAt : Rat) + s.ckTime site q.waiting ≤ (s.now : Rat) →
      ucodeGoesOn (s.stepRec site) q (q.pc + 1) →
      ∃ t, exec (.ucodeWaitExpiry site) s = .next t ∧ OnlySite site [] s t ∧
        (t.sched site).training = some { q with pc := q.pc + 1, waiting := 0 })

/-- A live calibration cycle goes through its phases, or substitutes its port for good. With a cycle of bundle b in
progress: Prepare that finds a point goes on to Listen, or waits for DEV_CAL_HOLD, and one that finds none ends the
cycle with the bye-stake FAILED; a Listen of 200 µs goes on to wait for takeover once it has 65,536 transitions at a
density of 1/64 and the bye-stake's receiver has converged; one that is sparse then, or that reaches
DEV_CAL_LISTEN_LIMIT, falls back to internal stimulus; the takeover at a boundary makes the bye-stake serve the pin;
Calibrate that passes goes on to Rejoin, and Rejoin, 20 µs later with the receiver locked where it must, to the wait
for Return; Return lets the port and the bye-stake go and ends the cycle. An offline cycle that passes ends with DONE.
Where Calibrate on the load of a DUT port finds no point within the limits, the cycle ends with SUBSTITUTED, and the
port is substituted by its bye-stake with all its own enables 0. An offline cycle of a DUT port that finds none ends
with the port substituted or FAILED and all its enables 0; one of the bye-stake itself with the bye-stake FAILED.
(R256, R358, R359, R361, R362, R363, R364, R373, R377, R378, R380) -/
def Obligations.CalCycleAdvances : Prop :=
  (∀ (b : BundleNo) (c : CalCycle) (p : Nat) (s : State), (s.bnd b).cal.cycle = some c → p = portOfSlot b c.slot →
      (∀ f : CalFinds, c.phase = 1 → c.ready = false →
        (calPasses f = true → s.rd .devCalHold ≠ 1 →
          ∃ t, exec (.calPrepareDone b f) s = .next t ∧
            (t.bnd b).cal.cycle = some { c with phase := 2, ready := false, since := s.time } ∧
            (t.port p).cal.held = true ∧ Keeps [.free, .regs, .bnds, .ports, .cal, .ledger] s t) ∧
        (calPasses f = true → s.rd .devCalHold = 1 →
          ∃ t, exec (.calPrepareDone b f) s = .next t ∧ (t.bnd b).cal.cycle = some { c with ready := true } ∧
            Keeps [.free, .regs, .bnds, .ports, .cal, .ledger] s t) ∧
        (calPasses f = false →
          ∃ t, exec (.calPrepareDone b f) s = .next t ∧ (t.bnd b).cal.cycle = none ∧ (t.bnd b).cal.byeFailed = true ∧
            (t.bnd b).cal.lastResult = 6 ∧ Keeps [.regs, .bnds, .ports, .cal, .ledger] s t)) ∧
      (∀ st : ListenStats, c.phase = 2 → c.since + ticks200us ≤ s.time →
        (listenSparse st = false → listenComplete st = true → s.byeConverged b p = true →
          ∃ t, exec (.calListenDone b st) s = .next t ∧
            (t.bnd b).cal.cycle = some { c with phase := 3, stats := some st } ∧ Keeps [.free, .bnds, .ports] s t) ∧
        (listenSparse st = true →
          ∃ t, exec (.calListenDone b st) s = .next t ∧
            (t.bnd b).cal.cycle = some { c with phase := 3, internal := true, stats := none } ∧
            (t.port p).cal.internalStim = true ∧ t.rd .devCalFallbacks = min (s.rd .devCalFallbacks + 1) 0xFFFFFFFF ∧
            Keeps [.regs, .bnds, .ports] s t)) ∧
      (∀ transitions, c.phase = 2 → c.since + s.rd .devCalListenLimit * ticks1ms ≤ s.time →
        ∃ t, exec (.calListenLimit b transitions) s = .next t ∧
          (t.bnd b).cal.cycle = some { c with phase := 3, internal := true, stats := none } ∧
          (t.port p).cal.internalStim = true ∧ t.rd .devCalFallbacks = min (s.rd .devCalFallbacks + 1) 0xFFFFFFFF ∧
          Keeps [.regs, .bnds, .ports] s t) ∧
      (c.phase = 3 → s.rd .devCalHold = 0 → s.boundaryNow b c.internal = true →
        ∃ t, exec (.calTakeover b) s = .next t ∧ (t.bnd b).cal.cycle = some { c with phase := 4 } ∧
          (t.port p).cal.replaced = true ∧ Keeps [.bnds, .ports] s t) ∧
      (∀ f : CalFinds, calPasses f = true →
        (c.phase = 4 → ∃ t, exec (.calCalibrateDone b f) s = .next t ∧
          (t.bnd b).cal.cycle = some { c with phase := 5, since := s.time } ∧
          t.rd .devCalCycles = min (s.rd .devCalCycles + 1) 0xFFFFFFFF ∧
          Keeps [.free, .regs, .bnds, .ports, .cal] s t) ∧
        (c.phase = 7 → ∃ t, exec (.calCalibrateDone b f) s = .next t ∧ (t.bnd b).cal.cycle = none ∧
          (t.bnd b).cal.lastResult = 1 ∧ (t.port p).cal.held = false ∧
          t.rd .devCalCycles = min (s.rd .devCalCycles + 1) 0xFFFFFFFF ∧
          Keeps [.free, .regs, .bnds, .ports, .cal, .ledger] s t)) ∧
      (c.phase = 5 → c.since + ticks20us ≤ s.time → s.rejoined b p = true →
        ∃ t, exec (.calRejoinDone b) s = .next t ∧ (t.bnd b).cal.cycle = some { c with phase := 6 } ∧
          OnlyBnd b [] s t) ∧
      (c.phase = 6 → s.boundaryNow b false = true →
        ∃ t, exec (.calReturn b) s = .next t ∧ (t.bnd b).cal.cycle = none ∧ (t.bnd b).cal.lastResult = c.result ∧
          (t.port p).cal.replaced = false ∧ (t.port p).cal.held = false ∧
          (t.port (96 + b)).cal.held = false ∧ Keeps [.bnds, .ports, .cal, .ledger] s t)) ∧
  (∀ (b : BundleNo) (c : CalCycle) (f : CalFinds) (s : State), (s.bnd b).cal.cycle = some c → calPasses f = false →
      (c.phase = 4 → c.slot < 8 →
        ∃ t, exec (.calCalibrateDone b f) s = .next t ∧ (t.bnd b).cal.cycle = none ∧ (t.bnd b).cal.lastResult = 4 ∧
          (t.port (8 * b + c.slot)).cal.substituted = true ∧ (t.port (8 * b + c.slot)).cal.replaced = true ∧
          (t.enables (8 * b + c.slot)).none = true ∧ Keeps [.regs, .bnds, .ports, .cal, .ledger] s t) ∧
      (c.phase = 7 → c.slot < 8 →
        ∃ t, exec (.calCalibrateDone b f) s = .next t ∧ (t.bnd b).cal.cycle = none ∧
          ((t.bnd b).cal.lastResult = 4 ∧ (t.port (8 * b + c.slot)).cal.substituted = true ∨
            (t.bnd b).cal.lastResult = 5 ∧ (t.port (8 * b + c.slot)).cal.failed = true) ∧
          (t.enables (8 * b + c.slot)).none = true ∧ Keeps [.regs, .bnds, .ports, .cal, .ledger] s t) ∧
      (c.phase = 7 → 8 ≤ c.slot →
        ∃ t, exec (.calCalibrateDone b f) s = .next t ∧ (t.bnd b).cal.cycle = none ∧ (t.bnd b).cal.lastResult = 6 ∧
          (t.bnd b).cal.byeFailed = true ∧ Keeps [.regs, .bnds, .ports, .cal, .ledger] s t))

/-- Calibration observes and starts; the Rim commits sets and writes log entries one at a time. While the main die runs: a
temperature sample is the bundle's; VREF_EXT is the reference exactly within 25 mV of 2.5 V; a cycle starts where the
bundle is ready and no survey listen runs and a port has a trigger pending, and takes the port's triggers; a survey
listen of 200 µs ends and lets its port and the bye-stake go, one that is complete gives the port its figures, one
that is sparse or reaches DEV_CAL_LISTEN_LIMIT gives none; the ledger's sets come to the engine once. With the Rim
powered: a commit that begins takes the oldest set that waits and invalidates the copy that is not in force, whose
generation it numbers; when it ends that copy holds the set and is valid, and the other copy is as it was. The oldest
event that waits becomes the log entry of the next sequence number, unless a commit is under way. (R352, R353, R355,
R356, R372, R373, R375, R532, R533) -/
def Obligations.CalAndLedger : Prop :=
  (∀ (s : State), s.alive = true →
      (∀ (b : BundleNo) (temp : BitVec 16), ∃ t, exec (.temperatureSample b temp) s = .next t ∧
        (t.bnd b).cal.temp = some (signed 16 temp.toNat) ∧ (∀ c, c ≠ b.val → t.bnd c = s.bnd c) ∧
        Keeps [.bnds, .ports] s t) ∧
      (∀ microvolts : BitVec 32, ∃ t, exec (.vrefCheck microvolts) s = .next t ∧ Keeps [.regs, .cal] s t ∧
        t.cal.vref = decide ((signed 32 microvolts.toNat - 2500000).natAbs ≤ 25000) ∧
        t.rd .devCalRefSource = if (signed 32 microvolts.toNat - 2500000).natAbs ≤ 25000 then 1 else 0) ∧
      (∀ (b : BundleNo) (p : Nat) (live : Bool), s.calReady b = true → (s.bnd b).cal.cycle = none →
        (s.bnd b).cal.surveying = none → s.nextCycleOf b = some (p, live) →
        ∃ t c, exec (.calCycleStart b) s = .next t ∧ (t.bnd b).cal.cycle = some c ∧ c.live = live ∧
          c.slot = slotOfPort p ∧ c.kinds = (s.port p).cal.pending ∧ (t.port p).cal.pending = [] ∧
          (∀ d, d ≠ b.val → t.bnd d = s.bnd d) ∧ Keeps [.bnds, .ports] s t) ∧
      (∀ (b : BundleNo) (slot : Fin 8) (st : ListenStats) (p : Nat) (good : Prop), p = 8 * b + slot →
        (s.bnd b).cal.surveying = some slot.val → (s.bnd b).cal.surveySince + ticks200us ≤ s.time →
        good = (listenComplete st = true ∧ listenSparse st = false ∧ s.byeConverged b p = true) →
        (good → ∃ t grade, exec (.calSurveyListen b slot st) s = .next t ∧ (t.bnd b).cal.surveying = none ∧
          (t.port p).cal.held = false ∧ (t.port (96 + b)).cal.held = false ∧
          (t.port p).cal.quality = listenBytes st grade (if 65536 ≤ st.driven then 3 else 1) ∧
          Keeps [.free, .bnds, .ports] s t) ∧
        (¬ good → (listenSparse st = true ∨ (s.bnd b).cal.surveySince + s.rd .devCalListenLimit * ticks1ms ≤ s.time) →
          ∃ t, exec (.calSurveyListen b slot st) s = .next t ∧ (t.bnd b).cal.surveying = none ∧
            (t.port p).cal.held = false ∧ (t.port (96 + b)).cal.held = false ∧
            (t.port p).cal.quality = (s.port p).cal.quality ∧ Keeps [.bnds, .ports] s t)) ∧
      (s.tb.cfgOnRoot = true → s.cal.loaded = false →
        ∃ t, exec .calSetsLoaded s = .next t ∧ t.cal.loaded = true ∧ Keeps [.regs, .cal, .bnds, .ports] s t)) ∧
  (∀ (s : State), s.rim.powered = true →
      (∀ key v rest, s.ledger.committing = none → s.ledger.queue = (key, v) :: rest →
        ∃ t toB, exec .ledgerCommit s = .next t ∧ Keeps [.ledger] s t ∧ t.ledger.queue = rest ∧
          t.ledger.committing = some (key, v, toB) ∧
          (if toB = true then (t.pair key).b.valid = false ∧ (t.pair key).a = (s.pair key).a
            else (t.pair key).a.valid = false ∧ (t.pair key).b = (s.pair key).b) ∧
          (∀ j, j ≠ key → t.pair j = s.pair j)) ∧
      (∀ key v toB, s.ledger.committing = some (key, v, toB) →
        ∃ t, exec .ledgerCommitDone s = .next t ∧ Keeps [.ledger, .regs, .cal] s t ∧ t.ledger.committing = none ∧
          (if toB = true then (t.pair key).b.valid = true ∧ (t.pair key).b.set = v ∧ (t.pair key).a = (s.pair key).a
            else (t.pair key).a.valid = true ∧ (t.pair key).a.set = v ∧ (t.pair key).b = (s.pair key).b) ∧
          (∀ j, j ≠ key → t.pair j = s.pair j)) ∧
      (∀ e rest, s.evt.logQueue = e :: rest → s.evt.now = [] → s.ledger.committing = none →
        ∃ t, exec .logWrite s = .next t ∧ Keeps [.ledger] s t ∧ t.evt.logQueue = rest ∧
          t.ledger.next = s.ledger.next + 1 ∧ Store.get [] (s.ledger.next % 4096) t.ledger.log = logEntry e s.ledger.next))

/-- Swaps flip the epoch and end; routers answer for links, bad packets and closed targets. While DEV_NOC_SWAP_STATE is
BACKPRESSURE, the end of back-pressure flips the epoch, DEV_NOC_BP_MAX takes its cycles and the state is DRAINING.
While it is DRAINING, the end of draining makes it IDLE, DEV_NOC_DRAIN_TIME takes the NOC cycles since the epoch
flipped, DEV_NOC_SWAP_COUNT counts one more up to its maximum, and no service waits for the swap any longer. The
tables stay. With the main die running: a flit that fails f times is retried f + 1 times, at most 8, and its link is
down after 8 failed retries; a packet with a malformed header is counted in DEV_NOC_MALFORMED; a link that injection
held down comes up again when its time has passed; a link down, or a router at fault, for 10 ms on a link that the
active table still needs is a device-wide fault. The edge router of an isolated or closed endpoint answers RD_REQ with
COUNT poisoned granules, WR_REQ and CTL_REQ with the STATUS, back to the source with the request's tag and address and
in the epoch of new packets, and absorbs and counts the rest. (R448, R449, R454, R456, R457, R458, R461) -/
def Obligations.NocEvents : Prop :=
  (∀ (cycles : Fin 65) (s : State),
      (s.noc.swap = 1 → ∃ t, exec (.nocBackpressureDone cycles) s = .next t ∧
        t.noc = { s.noc with swap := 2, swapSince := s.elapsed, epoch := !s.noc.epoch } ∧ t.rd .devNocBpMax = cycles.val ∧
        RegsBut [Obj.devNocBpMax.key] s t ∧ Keeps [.regs, .noc] s t) ∧
      (s.noc.swap = 2 → ∃ t, exec (.nocDrainDone ()) s = .next t ∧ t.noc = { s.noc with swap := 0 } ∧
        t.rd .devNocDrainTime = min (s.elapsed - s.noc.swapSince) 0xFFFFFFFF ∧
        t.rd .devNocSwapCount = min (s.rd .devNocSwapCount + 1) 0xFFFFFFFF ∧
        t.ctl.services = s.ctl.services.filter (fun o => o.waits != .swap) ∧
        RegsBut [Obj.devNocDrainTime.key, Obj.devNocSwapCount.key] s t ∧
        Keeps [.regs, .noc, .ctl, .replies, .slots] s t)) ∧
  (∀ (router : Fin 24) (link : Fin 4) (s : State), s.alive = true →
      (∀ failures, s.noc.linkDown router link = false →
        ∃ t, exec (.nocLinkRetry router link failures) s = .next t ∧
          Store.get 0 (4 * router.val + link.val) t.noc.retries
            = min (Store.get 0 (4 * router.val + link.val) s.noc.retries + min (failures + 1) 8) 0xFFFF ∧
          (∀ k, k ≠ 4 * router.val + link.val → Store.get 0 k t.noc.retries = Store.get 0 k s.noc.retries) ∧
          t.noc.linkDown router link = decide (8 ≤ failures) ∧ Keeps [.noc] s t) ∧
      (∀ head, (nocHead head).malformed = true →
        ∃ t, exec (.nocMalformed ⟨router, head⟩) s = .next t ∧
          t.rd .devNocMalformed = min (s.rd .devNocMalformed + 1) 0xFFFFFFFF ∧ RegsBut [Obj.devNocMalformed.key] s t ∧
          Keeps [.regs] s t) ∧
      (∀ k, k = Fin.ofNat 96 (4 * router.val + link.val) → s.noc.held.contains k = true →
        Store.get 0 k.val s.noc.heldTill ≤ s.elapsed →
        ∃ t, exec (.nocLinkUp router link) s = .next t ∧
          t.noc = { s.noc with held := s.noc.held.filter (· != k), down := s.noc.down.filter (· != k) } ∧
          Keeps [.noc] s t) ∧
      ((∃ k, (k = 4 * router.val + link.val ∨ k = 4 * nocPeer router link + nocBack link) ∧
          s.noc.down.any (·.val == k) = true ∧ s.passed (Store.get 0 k s.noc.since) (10 * ticksPerMs) = true) ∨
        (s.noc.faults.contains router = true ∧
          s.passed (Store.get 0 (96 + router.val) s.noc.since) (10 * ticksPerMs) = true) →
        s.noc.needs router link = true →
        ∃ t, exec (.nocLinkDownTimeout router link) s = .next t ∧ t.mem = s.mem ∧
          (s.dev.fault = none → s.dev.aborting = none →
            (t.dev.fault = some 0x1804 ∨ t.dev.faultNext = some 0x1804) ∧ t.rd .devFaultCause = 0x1804)) ∧
      (∀ (dest src : BitVec 6) (vc : BitVec 3) (epoch : Bool) (rest : BitVec 80) (h : NocHead)
            (answer : Nat → Nat → Bool → BitVec 96), h = nocHead (headOf dest src vc epoch rest) → h.malformed = false →
        (s.endpointClosed h.dest || s.endpointIsolated h.dest) = true →
        answer = (fun type count poison => NocHead.word { dest := h.src, src := h.dest, vc := h.vc + 1, epoch := s.noc.epoch
                                                          type := type, status := if s.endpointClosed h.dest then 2 else 1
                                                          poison := poison, tag := h.tag, count := count, addr := h.addr }) →
        ∃ t, exec (.isolatedTargetAnswer dest src vc epoch rest) s = .next t ∧ Keeps [.regs] s t ∧
          (h.type = 0 → Msg.nocAnswer (answer 2 h.count true) ∈ t.out ∧
            t.rd .devNocPoisonedReads = min (s.rd .devNocPoisonedReads + 1) (2 ^ 64 - 1)) ∧
          (h.type = 1 → Msg.nocAnswer (answer 3 0 false) ∈ t.out) ∧
          (h.type = 4 → Msg.nocAnswer (answer 5 0 false) ∈ t.out) ∧
          t.rd .devNocAbsorbedWrites = (if h.type = 0 ∨ h.type = 4 then s.rd .devNocAbsorbedWrites
            else min (s.rd .devNocAbsorbedWrites + 1) (2 ^ 64 - 1)) ∧
          t.rd .devNocFlushAbsorbed = (if h.vc = 4 ∧ h.type = 1 then min (s.rd .devNocFlushAbsorbed + 1) 0xFFFFFFFF
            else s.rd .devNocFlushAbsorbed) ∧
          t.rd .devNocStaleAbsorbed = (if h.epoch = s.noc.epoch then s.rd .devNocStaleAbsorbed
            else min (s.rd .devNocStaleAbsorbed + 1) 0xFFFFFFFF)))

/-- Training fills a channel with zeros and decides its state. A channel whose first training, or retraining, ends is
READY where nothing failed, in ERASURE with the failed pin as its declared lane where one pin failed, ISOLATED with
cause 1 where more failed. Its bytes read zero, and the bytes of every other channel stay, as do the other channels.
The first training writes its time in µs; retraining ends with DEV_MEM_CMD_STATE 0. (R464, R465, R479, R481) -/
def Obligations.ChannelTraining : Prop :=
  ∀ (c : ChanNo) (failed : List (Fin 32)) (other : Bool) (offsets : List (BitVec 16)) (s : State) (i : Instr),
    ((s.chan c).st = .init ∧ (s.chan c).retraining = false ∧ i = .memInitDone c failed other () offsets) ∨
      ((s.chan c).retraining = true ∧ i = .retrainDone c failed other) →
    ∃ t, exec i s = .next t ∧
      (other = false → failed.eraseDups = [] → (t.chan c).st = .ready ∧ (t.chan c).lane = none) ∧
      (∀ l, other = false → failed.eraseDups = [l] → (t.chan c).st = .erasure ∧ (t.chan c).lane = some l) ∧
      (other = true ∨ 2 ≤ failed.eraseDups.length → (t.chan c).st = .isolated ∧ (t.chan c).cause = 1) ∧
      (t.chan c).retraining = false ∧
      (∀ a, s.chanOf a = c.val → Store.get 0 a t.mem = 0) ∧
      (∀ a, s.chanOf a ≠ c.val → Store.get 0 a t.mem = Store.get 0 a s.mem) ∧
      (∀ d, d ≠ c.val → t.chan d = s.chan d) ∧
      ((s.chan c).retraining = true → t.rd .devMemCmdState = 0) ∧
      ((s.chan c).retraining = false → t.rd .devMemInitTime = s.microsSince (s.chan c).initSince)

/-- A granule that is written reads back, every other byte stays, and the scrubber goes on group by group. On a channel
that serves, with no upset and no stored error in the group, and a transfer that fails at most 4 times, which counts
as many retries: writing a granule stores its 32 bytes and leaves every other byte of GDDR7 as it was; reading a
granule sends the stored bytes, not poisoned, and stores nothing. After a fifth failure a read is poisoned and a write
does not reach memory (log 164). An access to a channel that still trains changes no byte. On a channel that the
scrubber works on, with a period other than 0 or a pass that SCRUB_NOW began: a group without a stored error or an
upset is read and left as it is, and the scrubber is at the next group. An outvoted disagreement is counted and goes
on at the next group. After the last group a pass is counted, and the scrubber starts again at group 0. (R458, R463,
R466, R471, R478, R481, R484) -/
def Obligations.MemoryAccesses : Prop :=
  (∀ (addr : Nat) (data : List Byte) (tries : Fin 6) (s : State), addr % 32 = 0 → data.length = 32 →
      (∀ g, g / 8 = addr / 256 → Store.get 0 g s.memChk = 0) →
      (s.spot addr = .ok → tries.val < 5 →
        (∃ t, exec (.memAccess true addr data 0 ⟨[], tries⟩) s = .next t ∧ t.mem = Store.puts 0 addr data s.mem ∧
          (∀ a, a < addr ∨ addr + 32 ≤ a → Store.get 0 a t.mem = Store.get 0 a s.mem) ∧
          Store.gets 0 addr 32 t.mem = data ∧
          t.rd .devMemLinkRetries = min (s.rd .devMemLinkRetries + tries.val) (2 ^ 64 - 1)) ∧
        (∃ t, exec (.memAccess false addr [] 1 ⟨[], tries⟩) s = .next t ∧ t.mem = s.mem ∧ t.memChk = s.memChk ∧
          Msg.memData (Store.gets 0 addr 32 s.mem) [false] ∈ t.out)) ∧
      (s.spot addr = .ok → tries.val = 5 →
        (∃ t, exec (.memAccess true addr data 0 ⟨[], tries⟩) s = .next t ∧ t.mem = s.mem ∧ t.memChk = s.memChk) ∧
        (∃ t, exec (.memAccess false addr [] 1 ⟨[], tries⟩) s = .next t ∧ t.mem = s.mem ∧ t.memChk = s.memChk ∧
          Msg.memData (Store.gets 0 addr 32 s.mem) [true] ∈ t.out)) ∧
      (s.spot addr = .waits →
        ∃ t, exec (.memAccess true addr data 0 ⟨[], tries⟩) s = .next t ∧ t.mem = s.mem ∧ t.memChk = s.memChk)) ∧
  (∀ (c : ChanNo) (next : Chan) (s : State), s.scrubs c = true →
      next = (if (s.chan c).scrub + 1 < s.chanGroups then { s.chan c with scrub := (s.chan c).scrub + 1 }
        else { s.chan c with scrub := 0, scrubNow := false }) →
      (s.rd .devMemScrubPeriod ≠ 0 ∨ (s.chan c).scrubNow = true →
        (∀ g, g / 8 = s.groupAddr c (s.chan c).scrub / 256 → Store.get 0 g s.memChk = 0) →
        ∃ t, exec (.scrubGroup c [] false) s = .next t ∧ t.mem = s.mem ∧ t.memChk = s.memChk ∧
          (t.chan c).scrub = next.scrub ∧ (t.chan c).scrubNow = next.scrubNow) ∧
      (∃ t, exec (.scrubVoteUpset c) s = .next t ∧ OnlyChan c [.regs] s t ∧ t.chan c = next ∧
        t.rd .devMemScrubVoteUpsets = min (s.rd .devMemScrubVoteUpsets + 1) 0xFFFFFFFF ∧
        t.rd .devMemScrubPasses = (if (s.chan c).scrub + 1 < s.chanGroups then s.rd .devMemScrubPasses
          else min (s.rd .devMemScrubPasses + 1) 0xFFFFFFFF) ∧
        RegsBut [Obj.devMemScrubVoteUpsets.key, Obj.devMemScrubPasses.key] s t))

/-- Lock, loss of lock, alignment and the elastic buffer of a lane. On a SERIAL lane of a formed site that no abort has
frozen (a bye-stake under its port's settings): lock sets SIGNAL and LOCKED, and centres the elastic buffer at the
first lock of a step; loss of lock clears the alignments with it, counts one more, and aborts the site exactly where
the lane asks for it; markers align a locked lane that has a PCS; a buffer that empties or fills aborts the site; a
group of which every lane has received the marker is deskewed to the latest and, where all its lanes are marked,
aligned, if no skew is beyond 512 symbols; else its lanes have DESKEW_FAIL, and the site aborts exactly where a lane
of it asks for it. (R246, R247, R248, R249, R256, R265) -/
def Obligations.LaneLocks : Prop :=
  ∀ (p : PortNo) (c : SerConfig) (s : State), s.laneLive p = true → c = s.ser (s.feOf p) →
    (∃ t, exec (.laneLockAcquired p) s = .next t ∧ OnlyPort p [] s t ∧
      t.lane p = { s.lane p with signal := true, locked := true, everLocked := true, fill :=
        if c.rxClk != 0 && c.rxSink != 2 && !(s.lane p).everLocked then 512 else (s.lane p).fill }) ∧
    ((s.lane p).locked = true → (s.lane p).everLocked = true → c.lossAbort = false →
      ∃ t, exec (.laneLockLoss p) s = .next t ∧ OnlyPort p [] s t ∧
        t.lane p = (s.lane p).unlocked (min ((s.lane p).lockLosses + 1) 0xFFFF)) ∧
    (∀ i, (s.lane p).locked = true → (s.lane p).everLocked = true → c.lossAbort = true →
      s.siteOfPort p = some i → s.siteSt i = .running ∨ s.siteSt i = .paused →
      ∃ t, exec (.laneLockLoss p) s = .next t ∧ AbortsWith i 0x0C07 t ∧
        (t.lane p).lockLosses = min ((s.lane p).lockLosses + 1) 0xFFFF ∧ t.mem = s.mem) ∧
    ((s.lane p).locked = true → c.pcs ≠ 0 →
      ∃ t, exec (.markerAligned p) s = .next t ∧ OnlyPort p [] s t ∧
        t.lane p = { s.lane p with markerAligned := true, rx := { (s.lane p).rx with bits := [] } }) ∧
    (∀ i full, (s.ser p).rxClk ≠ 0 → (s.ser p).rxSink ≠ 2 → (s.lane p).everLocked = true →
      s.siteOfPort p = some i → s.siteSt i = .running ∨ s.siteSt i = .paused →
      ∃ t, exec (.laneElastic p full) s = .next t ∧ AbortsWith i 0x0C06 t ∧ t.mem = s.mem) ∧
    (∀ (arrivals : List (PortNo × Nat)) (group : List Nat) (latest : Nat), (s.ser p).group ≠ 0 →
      ((s.ser p).rxSink = 1 ∨ (s.ser p).rxSink = 3) → (s.ser p).pcs ≠ 0 → group = s.groupPorts (s.ser p).group →
      (∀ q ∈ group, ∃ e ∈ arrivals, e.1.val = q) →
      latest = ((arrivals.filter (fun e => group.contains e.1.val)).map (·.2)).foldl max 0 →
      ((∀ e ∈ arrivals, e.1.val ∈ group → latest ≤ e.2 + 512) → group.all (fun q => (s.lane q).markerAligned) = true →
        ∃ t, exec (.laneDeskew p arrivals) s = .next t ∧ Keeps [.ports] s t ∧
          ∀ q ∈ group, (t.lane q).groupAligned = true ∧ (t.lane q).deskewFail = false ∧
            ∃ e ∈ arrivals, e.1.val = q ∧ (t.lane q).deskew = latest - e.2) ∧
      ((∃ e ∈ arrivals, e.1.val ∈ group ∧ e.2 + 512 < latest) →
        (group.any (fun q => (s.ser q).lossAbort) = false →
          ∃ t, exec (.laneDeskew p arrivals) s = .next t ∧ Keeps [.ports] s t ∧
            ∀ q ∈ group, (t.lane q).groupAligned = false ∧ (t.lane q).deskewFail = true) ∧
        (∀ i, group.any (fun q => (s.ser q).lossAbort) = true → s.siteOfPort p = some i →
          s.siteSt i = .running ∨ s.siteSt i = .paused →
          ∃ t, exec (.laneDeskew p arrivals) s = .next t ∧ AbortsWith i 0x0C08 t ∧ t.mem = s.mem)))

/-- What a lane's checker, adaptation and fabric port leave. A PRBS checker takes the 64 symbols that its lane decides up
to the present instant, as bits of its pattern, while the lane is locked, and is as it was while it is not; STEP
adaptation that has run its length is done; the fabric's clear takes FABRIC_EQ_SUPERSEDED away; an entry that found
the receive FIFO full is counted in RX_OVERFLOW; taps from the fabric read as the TXEQ, unless a dictionary write came
in the same WORD cycle, which sets FABRIC_EQ_SUPERSEDED, and taps beyond the rules of R239 are counted in EQ_REJECT.
Nothing but that port, its equalizer settings and its raw capture changes. (R239, R240, R243, R244, R253, R265, R404,
R405) -/
def Obligations.LaneMeasures : Prop :=
  ∀ (p : PortNo) (s : State),
    (∀ (o : LaneObs) (at' : Nat → Nat) (syms : List Nat) (u : State), o.port = p → s.laneLive p = true → p.val < 96 →
      (s.ser p).rxSink = 2 → s.listens p = true → (s.reg .portSerPrbs p).fld 12 4 ≠ 7 →
      at' = (fun k => s.now - (s.symbolSteps (bundleOfPort p) (63 - k : Nat)).toNat) → (s.lane p).rx.upTo < at' 0 →
      ({ s with out := [] } : State).decideWord p o at' = (syms, u) →
      ∃ t, exec (.prbsLocked o.port o.samples o.odd ⟨o.clock, o.slip, o.adapted⟩) s = .next t ∧ (∀ q, q ≠ p.val → t.port q = s.port q) ∧
        Keeps [.free, .doms, .sites, .ports, .mem] s t ∧ (t.lane p).rx.upTo = at' 63 ∧
        (t.lane p).rx.check = (if (s.lane p).locked = true then
          ((((s.ser p).patternForm.bitsOf (u.incoming p syms).1).map (fun b => b != (s.reg .portSerPrbs p).getLsbD 1)).foldl
            (Checker.bit ((s.reg .portSerPrbs p).fld 12 4)) (s.lane p).rx.check)
          else (s.lane p).rx.check)) ∧
    (s.laneLive p = true → s.adaptMode p = 1 → (s.lane p).locked = true → (s.lane p).adaptDone = false →
      s.adaptSymbols p ≤ (s.lane p).rx.symbols →
      ∃ t, exec (.adaptDone p ()) s = .next t ∧ OnlyPort p [] s t ∧ t.lane p = { s.lane p with adaptDone := true }) ∧
    (s.laneLive p = true → (s.ser p).rxSink = 3 → (s.lane p).rx.lost ≠ 0 →
      ∃ t, exec (.rxOverflow p) s = .next t ∧ OnlyPort p [] s t ∧
        t.lane p = { s.lane p with rxOverflow := min ((s.lane p).rxOverflow + 1) 0xFFFF
                                   rx := { (s.lane p).rx with lost := (s.lane p).rx.lost - 1 } }) ∧
    (∀ (a b c d : Byte) (taps : List Int), taps = [a, b, c, d].map (fun x => signed 8 x.toNat) → s.alive = true →
      p.val < 96 → s.isSerial p = true →
      (tapsOk taps = false →
        ∃ t, exec (.laneEq p a b c d) s = .next t ∧ OnlyPort p [] s t ∧
          t.lane p = { s.lane p with eqReject := min ((s.lane p).eqReject + 1) 0xFFFF }) ∧
      (tapsOk taps = true → (s.lane p).eqDict = some (s.wordIndex (bundleOfPort p)) →
        ∃ t, exec (.laneEq p a b c d) s = .next t ∧ OnlyPort p [] s t ∧
          t.lane p = { s.lane p with superseded := true }) ∧
      (tapsOk taps = true → (s.lane p).eqDict ≠ some (s.wordIndex (bundleOfPort p)) →
        ∃ t, exec (.laneEq p a b c d) s = .next t ∧ OnlyPort p [.regs] s t ∧ RegsBut [Obj.portSerTxeq.key p] s t ∧
          txTaps (t.reg .portSerTxeq p) = taps ∧ (t.lane p).eqFabric = some (s.wordIndex (bundleOfPort p)) ∧
          (s.timeRuns = true → (t.lane p).tx.next = some (s.wordIndex (bundleOfPort p), taps)) ∧
          (s.timeRuns = false → (t.lane p).tx.taps = taps))) ∧
    (∃ t, exec (.eqClear p) s = .next t ∧ OnlyPort p [] s t ∧ t.lane p = { s.lane p with superseded := false })

/-- Blanks, limits, underruns and results of the analogue units. The end of a span blank, 5 µs after the change, takes
that DAC out of the blanks; an enabled PMU, and an enabled driver or termination, that is at its limit against what
the DUT presents sets its flag and its sticky bit. No other port and no other part of the state changes. The end of a
cell's blank, 5 µs after the change, frees it; a fabric-streamed wave DAC that finds no sample sets its own underrun
bit. The measurement chain completes an output exactly where it has the sinc outputs that one takes: BND_MEAS counts
one more result, whose record is the latest one of the ring, and those sinc outputs are used; with fewer nothing
changes. (R113, R117, R118, R124, R132, R146, R158, R162, R164, R170, R172, R544) -/
def Obligations.AnalogueEvents : Prop :=
  (∀ (p : PortNo) (s : State),
      (∀ dac : Fin 10, s.passed (Store.get 0 dac.val (s.port p).fe.blankAt) (5 * ticksPerUs) = true →
        ∃ t, exec (.spanBlankEnd p dac) s = .next t ∧ OnlyPort p [] s t ∧
          t.port p = { s.port p with fe := { (s.port p).fe with blanks := (s.port p).fe.blanks.filter (· != dac) } }) ∧
      (∀ dut, (s.enables p).pmu = true → (s.portSettled p dut).limited = true →
        ∃ t, exec (.pmuLimitReached ⟨p, dut⟩) s = .next t ∧ OnlyPort p [] s t ∧
          t.port p = { s.port p with fe := { (s.port p).fe with pmuLimit := true, pmuSeen := true } } ∧
          t.portStatus p % 2 = 1 ∧ t.portStatus p / 2 ^ 8 % 2 = 1) ∧
      (∀ dut, (s.acting p).drive = true ∨ (s.acting p).term = true → (s.portSettled p dut).limited = true →
        ∃ t, exec (.drvLimitReached ⟨p, dut⟩) s = .next t ∧ OnlyPort p [] s t ∧
          t.port p = { s.port p with fe := { (s.port p).fe with drvLimit := true, drvSeen := true } } ∧
          t.portStatus p / 2 % 2 = 1 ∧ t.portStatus p / 2 ^ 9 % 2 = 1)) ∧
  (∀ (b : BundleNo) (s : State),
      (∀ cell : Fin 16, s.passed (Store.get 0 cell.val (s.bnd b).pool.blankAt) (5 * ticksPerUs) = true →
        ∃ t, exec (.poolBlankEnd b cell) s = .next t ∧ OnlyBnd b [] s t ∧
          t.bnd b = { s.bnd b with pool := { (s.bnd b).pool with
            blanks := (s.bnd b).pool.blanks.filter (· != cell) } }) ∧
      (∀ wd : Fin 2, s.cellMode b (10 + wd.val) = 2 → (s.osc b wd.val).fifo = [] →
        ∃ t, exec (.streamUnderrun b wd) s = .next t ∧ OnlyBnd b [] s t ∧ (t.bnd b).meas = (s.bnd b).meas ∧
          t.osc b wd.val = { s.osc b wd.val with underrun := true } ∧
          t.osc b (1 - wd.val) = s.osc b (1 - wd.val)) ∧
      (s.sincNeeded b ≤ (s.bnd b).meas.waiting.length →
        ∃ t, exec (.measOutput b ()) s = .next t ∧ OnlyBnd b [.regs] s t ∧
          RegsBut [Obj.bndMeasLast.key b] s t ∧
          (t.bnd b).meas.writeCount = ((s.bnd b).meas.writeCount + 1) % 2 ^ 32 ∧
          (t.bnd b).meas.outN = (s.bnd b).meas.outN + 1 ∧
          (t.bnd b).meas.waiting = (s.bnd b).meas.waiting.drop (s.sincNeeded b) ∧
          t.reg .bndMeasLast b = Store.get 0 (((t.bnd b).meas.writeCount + 1023) % 1024) (t.bnd b).meas.ring ∧
          (t.bnd b).pool = (s.bnd b).pool) ∧
      ((s.bnd b).meas.waiting.length < s.sincNeeded b →
        ∃ t, exec (.measOutput b ()) s = .next t ∧ t.bnd b = s.bnd b ∧ OnlyBnd b [] s t))

/-- A low ABORT_N aborts the device. A low time of 20 ns or more acts: the device records the low line, and with the main
die running, no fault and no abort in progress, ABORT_PIN is reported as the cause, every running or paused site is
ABORTING with PIN set, every READY site stays READY, and every port of a running site has its enables at 0. Less than
5 ns changes nothing, what lies between acts or not, and the line's return only clears its record. (R87, R89, R91,
R92, R95) -/
def Obligations.AbortLine : Prop :=
  ∀ (lowNs : Nat) (s : State),
    (20 ≤ lowNs → s.dev.abortNLow = false → s.alive = true → s.dev.fault = none → s.dev.aborting = none →
      ∃ t, exec (.abortN lowNs) s = .next t ∧ t.dev.abortNLow = true ∧ t.rd .devFaultCause = 0x0401 ∧
        (∀ i, i < 12 → s.siteSt i = .running ∨ s.siteSt i = .paused →
          t.siteSt i = .aborting ∧ (t.site i).abort.map (fun r => (r.cause, r.pin)) = some (0x0401, true)) ∧
        (∀ i, i < 12 → s.siteSt i = .running → ∀ p ∈ s.portsOf i, (t.enables p).none = true) ∧
        (∀ i, i < 12 → s.siteSt i = .ready → t.siteSt i = .ready) ∧ t.mem = s.mem) ∧
    (lowNs < 5 → ∃ t, exec (.abortN lowNs) s = .next t ∧ Keeps [] s t) ∧
    (5 ≤ lowNs → lowNs < 20 →
      ∃ t, exec (.abortN lowNs) s = .next t ∧ (Keeps [.free] s t ∨ t.dev.abortNLow = true)) ∧
    (∃ t, exec .abortNRelease s = .next t ∧ Keeps [.dev] s t ∧ t.dev = { s.dev with abortNLow := false })

/-- The Flush phase of an aborting site ends; device-wide and bundle faults strike. At the flush deadline, 7.5 µs after
the abort began, the site is READY, or in FAULT with a failed bundle; its capture is INCOMPLETE with no record left in
the FIFOs; SITE_ABORT_CAUSE takes the cause and SITE_STEP_NOW reads 0. Where GDDR7 takes every record in flight before
it, the end of the flush closes the site with its capture complete. A discard pass that ends at the first site that
waits for one leaves DEV_RECOVER_STATE with that site and a result. A device-wide fault of a running main die is the
device's fault once every abort is complete, and DEV_FAULT_CAUSE names it; while sites still flush it waits;
DEV_SYNTH_STATE is FAULT where it is the synthesizer's. A fault of a bundle makes the bundle FAILED and every context
of it that is not FREE LOST; a running or paused site that holds it aborts with BUNDLE_FAULT, and a bundle of no site
has its abort objects written. No byte of GDDR7 changes. (R76, R77, R84, R85, R91, R345, R530, R535) -/
def Obligations.FlushAndFaults : Prop :=
  (∀ (i : SiteNo) (s : State),
      (∀ r, s.rim.seq ≠ .abort → s.siteSt i = .aborting → (s.site i).abort = some r → r.cause < 2 ^ 16 →
        (s.passed r.since flushTicks = true →
          ∃ t, exec (.abortFlushDeadline i) s = .next t ∧ t.rd .siteAbortCause i = r.cause ∧ t.rd .siteStepNow i = 0 ∧
          t.siteSt i = (if (s.bundlesOf i).any (fun b => (s.bnd b).failed) then .fault else .ready) ∧
          (t.site i).abort = none ∧ (t.ring i).incomplete = true ∧
          (∀ b ∈ s.bundlesOf i, (t.cap b).fifo = []) ∧ t.mem = s.mem) ∧
        (s.elapsed ≤ r.since + flushTicks → (({ s with out := [] } : State).flushSite i).1 = true →
          ∃ t, exec (.abortFlushDone i) s = .next t ∧ t.rd .siteAbortCause i = r.cause ∧
            t.siteSt i = (if (s.bundlesOf i).any (fun b => (s.bnd b).failed) then .fault else .ready) ∧
            (t.ring i).incomplete = (s.ring i).incomplete ∧ (t.ring i).flying = [])) ∧
      ((∀ j b, s.siteSt j = .armed → b ∈ s.bundlesOf j → (s.bnd b).failed = false) →
        (upto 12).find? (fun j => (s.site j).discarding.isSome) = some i.val →
        ∃ t, exec .discardDone s = .next t ∧ (t.site i).discarding = none ∧
          t.rd .devRecoverState / 2 ^ 24 % 16 = i.val ∧
          (t.rd .devRecoverState / 2 ^ 28 % 16 = 2 ∨ t.rd .devRecoverState / 2 ^ 28 % 16 = 3))) ∧
  (∀ (s : State), s.alive = true →
      (∀ cause : Fin 4, s.dev.fault = none → s.dev.aborting = none →
        ∃ t, exec (.deviceWideFault cause) s = .next t ∧ t.rd .devFaultCause = 0x10 + cause.val ∧ t.mem = s.mem ∧
          (cause = 0 → t.tb.synth = 3) ∧
          (if t.anySite (· == .aborting) = true then t.dev.faultNext = some (0x10 + cause.val) ∧ t.dev.fault = none
            else t.dev.fault = some (0x10 + cause.val) ∧ t.dev.faultNext = none)) ∧
      (∀ (b : BundleNo) (sram : Bool), (s.bnd b).failed = false → (s.quad (quadOfBundle b)).power = .on →
        ∃ t, exec (.bundleFault b sram) s = .next t ∧ (t.bnd b).failed = true ∧ t.mem = s.mem ∧
          (∀ c, c / 4096 = b.val → (s.ctx c).st ≠ .free → (t.ctx c).st = .lost) ∧
          (∀ i, s.siteOf b = some i → s.siteSt i = .running ∨ s.siteSt i = .paused → AbortsWith i 0x1003 t) ∧
          (s.siteOf b = none → t.rd .bndAbortCause b = 0x1003 ∧ t.rd .bndAbortTime b = s.time)))

/-- The validation of an ARM ends. An ARM that validates ends: where every check passes the site is ARMED with the
snapshot of its steps, an empty ring and SB+0x05 reading OK with check 0; where one fails SB+0x05 reads its status,
check, step and object and the site stays as it was. In both cases the validation is over and no service waits for it.
No byte of GDDR7 changes. (R65, R67, R258, R341) -/
def Obligations.ArmEnds : Prop :=
  ∀ (i : SiteNo) (rq : Rq) (s : State), (s.site i).validating = some rq →
    (∀ steps u, validate i (isHost rq.src) { s with out := [] } = (.ok steps, u) → ChansQuiet u →
      ∃ t, exec (.armValidationDone i) s = .next t ∧ t.siteSt i = .armed ∧ (t.site i).validating = none ∧
        (t.run' i).steps = steps ∧ (t.run' i).step = 0 ∧ (t.ring i).flying = [] ∧ (t.ring i).write = 0 ∧
        t.rd .siteArmStatus i = 0 ∧ t.rd .siteArmCheck i = 0 ∧
        t.ctl.services.any (fun o => o.waits == .arm i) = false ∧ t.mem = s.mem) ∧
    (∀ f u, validate i (isHost rq.src) { s with out := [] } = (.error f, u) → ChansQuiet u → f.check < 256 →
      f.step < 65536 → f.obj < 2 ^ 32 →
      ∃ t, exec (.armValidationDone i) s = .next t ∧ t.siteSt i = s.siteSt i ∧ (t.site i).validating = none ∧
        t.rd .siteArmStatus i = f.status.code ∧ t.rd .siteArmCheck i = f.check ∧ t.rd .siteArmStep i = f.step ∧
        t.rd .siteArmObject i = f.obj ∧ t.ctl.services.any (fun o => o.waits == .arm i) = false ∧ t.mem = s.mem)

/-- Records reach the ring and are committed one by one. A record submitted by the fabric enters the FIFO of its bundle
where that has room. The oldest record of a bundle's FIFO leaves it and reaches the ring writer. A record in flight
whose write GDDR7 takes leaves the flight, so that it counts as committed. A count that is not in flight changes
nothing. (R336, R338, R342, R343, R406) -/
def Obligations.CaptureRecords : Prop :=
  ∀ (i : SiteNo) (s : State),
    (∀ (p : PortNo) (d : List Byte), s.siteOfPort p = some i.val → s.laneLive p = true → (s.ser p).rxSink = 3 →
      d.length = 18 → s.siteSt i = .running ∨ s.siteSt i = .paused → (s.cap (bundleOfPort p)).fifo.length < 256 →
      ∃ t r, exec (.recWrite p d) s = .next t ∧ (t.cap (bundleOfPort p)).fifo = (s.cap (bundleOfPort p)).fifo ++ [r] ∧
        r.type = 6 ∧ r.time = s.time ∧ r.sub = 0 ∧ r.step = (s.run' i).step ∧ OnlyBnd (bundleOfPort p) [] s t) ∧
    (∀ (b : BundleNo) (r : Record) (l : List Record), s.siteOf b = some i.val → (s.cap b).fifo = r :: l →
      ∃ t, exec (.ringWrite b) s = .next t ∧ (t.cap b).fifo = l ∧ t.mem = s.mem ∧ Keeps [.bnds, .sites] s t ∧
        (1 ≤ s.ringRoom i → (s.ring i).lost = 0 →
          (t.ring i).flying = (s.ring i).flying ++ [((s.ring i).write, r.bytes (s.ring i).write)] ∧
          (t.ring i).write = (s.ring i).write + 1)) ∧
    (∀ (c : Nat) (e : Nat × List Byte), (s.ring i).flying.find? (fun x => x.1 == c) = some e →
      (({ s with out := [] } : State).store ((s.step1 i).ringBase + 32 * (c % max (s.step1 i).ringLen 1)) e.2).1 = true →
      ∃ t, exec (.recordCommit i c) s = .next t ∧ (t.ring i).write = (s.ring i).write ∧
        (t.ring i).flying = (s.ring i).flying.filter (fun x => x.1 != c)) ∧
    (∀ c, (s.ring i).flying.find? (fun x => x.1 == c) = none → ChansQuiet s →
      ∃ t, exec (.recordCommit i c) s = .next t ∧ Keeps [] s t)

/-- The timebase goes through its states. With the main die running. At a device that is no follower: lock starts TIME (at
0 the first time) and reads LOCKED; a lost reference reads absent, and a locked ROOT enters HOLDOVER, counted, and
aborts the device where DEV_HOLDOVER_ABORT asks for it; the reference's return reads present. At a follower that
acquires or is FREE: valid code groups on Warp-in begin a re-lock, with Warp-in read locked; its end is LINK_LOCKED,
with TIME running and its count kept. Alignment completes where the parent is aligned at a depth of at most 2 and the
residual lies within 100 fs. A lost Warp-in (silence, code groups lost, or two time code sets missing or bad) leaves
ROOT free, is counted, and aborts what runs; where ROOT is free already it is not counted again. (R98, R180, R181,
R193, R195, R200, R201) -/
def Obligations.RootStates : Prop :=
  ∀ (s : State), s.alive = true →
    (s.role ≠ 2 →
      (s.tb.state = 0 ∨ s.tb.state = 2 →
        ∃ t, exec .timebaseLocked s = .next t ∧ t.tb.state = 1 ∧ t.tb.started = true ∧ t.timeRuns = true ∧
          t.tb.cfgOnRoot = true ∧ t.time = (if s.tb.started then s.time else 0) ∧ t.rd .devTbrefPresent = 1 ∧
          RegsBut [Obj.devTbrefPresent.key] s t ∧ Keeps [.time, .regs, .tb, .chans] s t) ∧
      (∃ t, exec .tbrefLost s = .next t ∧ t.rd .devTbrefPresent = 0 ∧ t.mem = s.mem ∧
        t.tb.state = (if s.tb.state = 1 then 2 else s.tb.state) ∧
        (s.tb.state = 1 → t.rd .devSynthLossCount = min (s.rd .devSynthLossCount + 1) 0xFFFFFFFF) ∧
        (s.tb.state = 1 → s.rd .devHoldoverAbort = 1 → Abortable s → RunningAbort 0x0803 s t) ∧
        (s.tb.state ≠ 1 ∨ s.rd .devHoldoverAbort ≠ 1 → Keeps [.regs, .tb] s t)) ∧
      (∃ t, exec .tbrefReturn s = .next t ∧ t.rd .devTbrefPresent = 1 ∧ RegsBut [Obj.devTbrefPresent.key] s t ∧
        Keeps [.regs] s t)) ∧
    (s.role = 2 →
      (s.tb.state = 3 ∨ s.tb.state = 6 →
        (s.tb.relock = false →
          ∃ t, exec .warpLinkLocked s = .next t ∧ t.tb.relock = true ∧ t.tb.state = s.tb.state ∧
            t.tb.synth = 1 ∧ (t.link 0).signal = true ∧ (t.link 0).locked = true ∧ (t.link 0).lost = false ∧
            Keeps [.tb] s t) ∧
        (s.tb.relock = true →
          ∃ t, exec .warpLinkLocked s = .next t ∧ t.tb.relock = false ∧ t.tb.state = 4 ∧ t.tb.synth = 2 ∧
            t.tb.cfgOnRoot = true ∧ t.timeRuns = true ∧ t.time = s.time ∧ Keeps [.time, .tb, .chans] s t)) ∧
      (s.tb.state = 4 → (s.link 0).peerAligned = true → (s.link 0).peerDepth ≤ 2 → -100 ≤ s.residual → s.residual ≤ 100 →
        ∃ t, exec .warpAligned s = .next t ∧ t.tb = { s.tb with state := 5 } ∧ Keeps [.tb] s t) ∧
      (∀ why : Fin 3, s.tb.state = 4 ∨ s.tb.state = 5 ∨ s.tb.state = 6 → (s.link 0).locked = true → (s.link 0).lost = false →
        (why = 2 → 2 ≤ (s.link 0).bad ∨ (s.link 0).heard + 2560 ≤ s.time) →
        ∃ t, exec (.warpLoss why) s = .next t ∧ t.tb.state = 6 ∧ (t.link 0).lost = true ∧ (t.link 0).peerAligned = false ∧
          t.rd .devSynthLossCount
            = (if s.tb.state = 6 then s.rd .devSynthLossCount else min (s.rd .devSynthLossCount + 1) 0xFFFFFFFF) ∧
          t.mem = s.mem ∧ (Abortable s → RunningAbort 0x0801 s t)))

/-- A LINE ratio, time codes, echoes and the fixture measurement. A LINE ratio that has settled is in force with its read-
only half and no service waits for it. At a follower whose Warp-in is locked, a time code set with a bad CRC is
counted as an error and as a bad set, and nothing else changes; a good one shows the parent's ALIGNED and DEPTH, and
in LINK_LOCKED or ALIGNED waits for its echo; with a LOOP for a set that it echoed it gives the DN delay, and in
LINK_LOCKED the correction leaves an offset of 0. At a running Warp-out an echo set with a bad CRC is counted; a good
one shows the child's ALIGNED, and the time it took is the LOOP of the later time code sets there. A fixture
measurement ends with its delay, or with 0xFFFFFFFF when 10 ms have passed without a signal. (R185, R186, R189, R194,
R195, R197, R207) -/
def Obligations.LineAndLoop : Prop :=
  ∀ (s : State),
    (∀ (b : BundleNo) (pq : Nat), (s.bnd b).lineNext = some pq →
      ∃ t, exec (.lineSettled b) s = .next t ∧ (t.bnd b).lineNext = none ∧
        t.reg .devLineRatio 0 b = Word.of (lineWord pq) ∧
        t.ctl.services = s.ctl.services.filter (fun o => o.waits != .line b) ∧
        RegsBut [Obj.devLineRatio.key 0 b] s t ∧ (∀ c, c ≠ b.val → t.bnd c = s.bnd c) ∧
        Keeps [.regs, .bnds, .ctl, .replies, .slots] s t) ∧
    (∀ (data : List Byte) (sub : BitVec 15), s.alive = true → s.role = 2 → (s.link 0).locked = true →
      (checkedOf 16 data = none →
        ∃ t, exec (.warpTimeCode ⟨data, sub⟩) s = .next t ∧ Keeps [.tb] s t ∧
          t.tb = (s.setLink 0 (fun l => { l with errors := min (l.errors + 1) 0xFFFF, bad := l.bad + 1 })).tb) ∧
      (∀ l c, checkedOf 16 data = some l → c = timeCodeOf l →
        ∃ t, exec (.warpTimeCode ⟨data, sub⟩) s = .next t ∧ Keeps [.time, .tb] s t ∧ t.tb.state = s.tb.state ∧
          (t.link 0).peerDepth = c.flags % 16 ∧ (t.link 0).peerAligned = c.flags.testBit 6 ∧
          (t.link 0).masterHoldover = c.flags.testBit 7 ∧ (t.link 0).bad = 0 ∧
          (s.tb.turns.find? (fun e => e.1 == c.loopSeq) = none → t.time = s.time ∧
            (s.tb.state = 4 ∨ s.tb.state = 5 → t.tb.echoes = s.tb.echoes ++ [(c.seq, s.now + sub.toNat)])) ∧
          (∀ e : Nat × Nat, s.tb.turns.find? (fun e => e.1 == c.loopSeq) = some e → s.tb.state = 4 →
            t.tb.offsets = 0 :: s.tb.offsets.take 63 ∧
            t.tb.delay = fsOfSteps (roundDiv ((c.loop : Int) - e.2 + stepsOfFs (signed 32 (s.rd .devWarpAsym))) 2)))) ∧
    (∀ (out : Fin 4) (seq flags check : Byte) (sub : BitVec 15), s.outRuns out = true →
      (checkedOf 3 [seq, flags, check] = none →
        ∃ t, exec (.warpEcho out seq flags check sub) s = .next t ∧ Keeps [.tb] s t ∧ t.tb = (s.linkError (out.val + 1)).tb) ∧
      (∀ l, checkedOf 3 [seq, flags, check] = some l →
        ∃ t, exec (.warpEcho out seq flags check sub) s = .next t ∧ Keeps [.tb] s t ∧
          (t.link (out.val + 1)).locked = true ∧ (t.link (out.val + 1)).lost = false ∧
          (t.link (out.val + 1)).peerAligned = (leNat (l.drop 1)).testBit 6 ∧
          (∀ e : Nat × Nat, s.tb.codes.find? (fun e => e.1 == leNat (l.take 1)) = some e →
            (out.val, (leNat (l.take 1), s.now + sub.toNat - e.2 * stepsPerTick)) ∈ t.tb.loops))) ∧
    (∀ delay : Option (BitVec 32), s.tb.charOut.isSome = true → (delay = none → s.tb.charSince + 10 * ticksPerMs ≤ s.elapsed) →
      ∃ t, exec (.warpCharDone delay) s = .next t ∧ t.rd .devWarpCharResult = (delay.map (·.toNat)).getD 0xFFFFFFFF ∧
        t.tb = { s.tb with charOut := none } ∧ RegsBut [Obj.devWarpCharResult.key] s t ∧ Keeps [.regs, .tb] s t)

/-- Event sets from the master are passed down, and a scheduled event acts at its coincidence point. At a follower whose
Warp-in is locked, a set from Warp-in with a good check byte that is no duplicate is passed down every running output,
twice, back to back. A SYNC, START or PAUSE whose count has not passed waits for it. A START or PAUSE that comes too
late aborts its running member and sends a group ABORT up, from a READY member too; a late SYNC is not scheduled. HOLD
and an ABORT of group 0 abort what runs on the device, an ABORT of a group aborts its running member, and an ABORT
from below goes up. A set with a bad check byte is counted and a duplicate is ignored. With one event scheduled whose
count has come: a SYNC is done; a START takes its ARMED member to step 1 at the coincidence point (where a step that
INIT begins with microcode begins at a word that R320 admits), and its PAUSED member to RUNNING; a PAUSE asks its
RUNNING member to pause. An event that is not due stays scheduled and nothing changes. (R96, R97, R98, R187, R190,
R191, R199) -/
def Obligations.WarpEvents : Prop :=
  (∀ (seq group : Byte) (time : BitVec 64) (s : State), s.alive = true → s.role = 2 → (s.link 0).locked = true →
      (∀ w : WarpSet, w = ⟨1, 0, seq.toNat, time.toNat⟩ → (s.link 0).last ≠ some w →
        ∃ t, exec (.warpSync none ⟨seq, crc8 w.body⟩ time) s = .next t ∧ Keeps [.bnds, .tb] s t ∧
          (∀ n ∈ s.outsRunning, [Msg.warp (some n) (checked w.body), .warp (some n) (checked w.body)] <:+: t.out) ∧
          (t.link 0).last = some w ∧
          t.tb.sched = (if s.time ≤ time.toNat then s.tb.sched ++ [{ type := 1, group := 0, time := time.toNat }] else s.tb.sched)) ∧
      (∀ w : WarpSet, w = ⟨2, group.toNat, seq.toNat, time.toNat⟩ → (s.link 0).last ≠ some w →
        (s.time ≤ time.toNat →
          ∃ t, exec (.warpStart none ⟨seq, crc8 w.body⟩ group time) s = .next t ∧ Keeps [.tb] s t ∧
            t.tb.sched = s.tb.sched ++ [{ type := 2, group := group.toNat, time := time.toNat }] ∧
            ∀ n ∈ s.outsRunning, [Msg.warp (some n) (checked w.body), .warp (some n) (checked w.body)] <:+: t.out) ∧
        (∀ i u, time.toNat < s.time → s.member group.toNat = some i → s.siteSt i = .running ∨ s.siteSt i = .ready →
          u = WarpSet.body ⟨4, group.toNat, s.tb.txSeq, s.time⟩ →
          ∃ t, exec (.warpStart none ⟨seq, crc8 w.body⟩ group time) s = .next t ∧
            [Msg.warp none (checked u), .warp none (checked u)] <:+: t.out ∧
            (s.siteSt i = .running → AbortsWith i 0x0805 t))) ∧
      (∀ w : WarpSet, w = ⟨3, group.toNat, seq.toNat, time.toNat⟩ → (s.link 0).last ≠ some w →
        (s.time ≤ time.toNat →
          ∃ t, exec (.warpPause none ⟨seq, crc8 w.body⟩ group time) s = .next t ∧ Keeps [.tb] s t ∧
            t.tb.sched = s.tb.sched ++ [{ type := 3, group := group.toNat, time := time.toNat }] ∧
            ∀ n ∈ s.outsRunning, [Msg.warp (some n) (checked w.body), .warp (some n) (checked w.body)] <:+: t.out) ∧
        (∀ i u, time.toNat < s.time → s.member group.toNat = some i → s.siteSt i = .running ∨ s.siteSt i = .ready →
          u = WarpSet.body ⟨4, group.toNat, s.tb.txSeq, s.time⟩ →
          ∃ t, exec (.warpPause none ⟨seq, crc8 w.body⟩ group time) s = .next t ∧
            [Msg.warp none (checked u), .warp none (checked u)] <:+: t.out ∧
            (s.siteSt i = .running → AbortsWith i 0x0805 t))) ∧
      (∀ w : WarpSet, w = ⟨5, 0, seq.toNat, time.toNat⟩ → (s.link 0).last ≠ some w →
        ∃ t, exec (.warpHold none ⟨seq, crc8 w.body⟩ time) s = .next t ∧
          t.tb.state = (if s.rootPresent then 6 else s.tb.state) ∧ t.tb.relock = false ∧ t.mem = s.mem ∧
          (∀ n ∈ s.outsRunning, [Msg.warp (some n) (checked w.body), .warp (some n) (checked w.body)] <:+: t.out) ∧
          (Abortable s → RunningAbort 0x0802 s t)) ∧
      (∀ w : WarpSet, w = ⟨4, group.toNat, seq.toNat, time.toNat⟩ →
        ((s.link 0).last ≠ some w →
          ∃ t, exec (.warpAbort none ⟨seq, crc8 w.body⟩ group time) s = .next t ∧ t.mem = s.mem ∧
            (∀ n ∈ s.outsRunning, [Msg.warp (some n) (checked w.body), .warp (some n) (checked w.body)] <:+: t.out) ∧
            (group = 0 → Abortable s → RunningAbort 0x0403 s t) ∧
            (∀ i, s.member group.toNat = some i → s.siteSt i = .running → AbortsWith i 0x0403 t)) ∧
        (∀ n : Fin 4, s.outRuns n = true → (s.link (n.val + 1)).last ≠ some w →
          ∃ t, exec (.warpAbort (some n) ⟨seq, crc8 w.body⟩ group time) s = .next t ∧ Keeps [.tb] s t ∧
            [Msg.warp none (checked w.body), .warp none (checked w.body)] <:+: t.out) ∧
        ((s.link 0).last = some w →
          ∃ t, exec (.warpAbort none ⟨seq, crc8 w.body⟩ group time) s = .next t ∧ Keeps [] s t) ∧
        (∀ crc, crc ≠ crc8 w.body →
          ∃ t, exec (.warpAbort none ⟨seq, crc⟩ group time) s = .next t ∧ Keeps [.tb] s t ∧ t.tb = (s.linkError 0).tb))) ∧
  (∀ (e : Sched) (i : Nat) (s : State), s.alive = true → s.tb.sched = [e] →
      (e.type = 1 → e.time ≤ s.time → ∃ t, exec .warpEventDue s = .next t ∧ t.tb.sched = [] ∧ Keeps [.bnds, .tb] s t) ∧
      (e.type = 2 → s.member e.group = some i → s.coincidenceAt (s.lead i) e.time ≤ s.time →
        (s.siteSt i = .armed → beginsWell ((s.run' i).stepRec 1) →
          ∃ t, exec .warpEventDue s = .next t ∧ t.tb.sched = [] ∧ t.siteSt i = .running ∧ (t.run' i).step = 1 ∧
            (t.run' i).cycle0 = s.coincidenceAt (s.lead i) e.time + 2048 ∧ t.mem = s.mem) ∧
        (s.siteSt i = .paused →
          ∃ t, exec .warpEventDue s = .next t ∧ t.tb.sched = [] ∧ t.siteSt i = .running ∧
            (t.site i).resumeAt = some (s.coincidenceAt (s.lead i) e.time + 2048) ∧ OnlySite i [.tb] s t)) ∧
      (e.type = 3 → s.member e.group = some i → s.coincidenceAt (s.lead i) e.time ≤ s.time → s.siteSt i = .running →
        ∃ t, exec .warpEventDue s = .next t ∧ t.tb.sched = [] ∧ OnlySite i [.tb] s t ∧
          t.site i = { s.site i with pausing := true }) ∧
      (e.type = 1 → s.time < e.time → ∃ t, exec .warpEventDue s = .next t ∧ Keeps [] s t) ∧
      (e.type ≠ 1 → s.member e.group = some i → s.time < s.coincidenceAt (s.lead i) e.time →
        ∃ t, exec .warpEventDue s = .next t ∧ Keeps [] s t))

/-- Clock ratios, tree switches, select and reset lines, the trace, and the answer to a user write. Ratios that have
settled are in force and no service waits for them. A switch that ends puts its tree on the new divider, and takes up
a selection that differs meanwhile. The fabric's select lines and reset line act on their tree alone, and an asserted
reset is on at once. The newest sample of an armed trace, taken now, that meets the trigger condition triggers it,
with its own place and TIME; a triggered trace that has its POST samples is done and no longer armed. The design's
answer OK to a write of an entry that is not read-only makes the value the shadow value, any other answer leaves it;
either way that service is open no longer. (R394, R395, R396, R409, R411, R412) -/
def Obligations.FabricEvents : Prop :=
  (∀ (q : QuadNo) (r : Fin 4) (s : State),
      (∀ v, (s.quad q).divNext = some v →
        ∃ t, exec (.clkDivSettled q) s = .next t ∧ t.quad q = { s.quad q with divNext := none } ∧
          t.reg .qdClkDiv q = Word.of v ∧ t.ctl.services = s.ctl.services.filter (fun o => o.waits != .clkDiv q) ∧
          RegsBut [Obj.qdClkDiv.key q] s t ∧ (∀ p, p ≠ q.val → t.quad p = s.quad p) ∧
          Keeps [.regs, .quads, .ctl, .replies, .slots] s t) ∧
      (∀ d, (s.tree q r).switch = some d → s.treeRuns q r = true →
        ∃ t, exec (.clkSwitchDone q r) s = .next t ∧ OnlyQuad q [] s t ∧ (t.tree q r).src = d ∧
          (t.tree q r).switch = (if s.treeWants q r = d then none else some (s.treeWants q r)) ∧
          (∀ k, k ≠ r.val → t.tree q k = s.tree q k)) ∧
      (s.alive = true → s.quadClosed q = false →
        (∀ sel, ∃ t, exec (.fabricClkSelect q r sel) s = .next t ∧ OnlyQuad q [] s t ∧ (t.tree q r).lines = sel ∧
          (t.tree q r).src = (s.tree q r).src ∧
          (s.treeBySrc q r = false → (s.tree q r).switch = none →
            (t.tree q r).switch = if sel = (s.tree q r).src then none else some sel) ∧
          (∀ k, k ≠ r.val → t.tree q k = s.tree q k)) ∧
        (∀ level, ∃ t, exec (.fabricUserReset q r level) s = .next t ∧ OnlyQuad q [] s t ∧
          (t.tree q r).fabReset = level ∧ (level = true → (t.tree q r).reset = true) ∧
          (∀ k, k ≠ r.val → t.tree q k = s.tree q k)))) ∧
  (∀ (q : QuadNo) (s : State),
      (∀ x, (s.quad q).trace.armed = true → (s.quad q).trace.triggered = false → (s.quad q).trace.last = s.time →
        (s.quad q).trace.samples.head? = some x → s.traceHits q (s.quad q).trace x = true →
        ∃ t, exec (.traceTrigger q () ()) s = .next t ∧ OnlyQuad q [] s t ∧ (t.quad q).trace.triggered = true ∧
          (t.quad q).trace.trigAt = (s.quad q).trace.taken - 1 ∧ (t.quad q).trace.trigTime = s.time ∧
          (t.quad q).trace.taken = (s.quad q).trace.taken ∧ (t.quad q).trace.samples = (s.quad q).trace.samples) ∧
      ((s.quad q).trace.armed = true → (s.quad q).trace.triggered = true →
        (s.quad q).trace.trigAt + 1 + tracePost (s.quad q).trace.ctl ≤ (s.quad q).trace.taken →
        ∃ t, exec (.traceDone q ()) s = .next t ∧ OnlyQuad q [] s t ∧
          (t.quad q).trace = { (s.quad q).trace with armed := false, done := true }) ∧
      (∀ (rq : Rq) (answer : Fin 3) (a : Addr) (d : List Byte) (o : OpenService), o.waits = .user a d →
        (s.userEntry a).any (fun e => e.acc == .ro) = false →
        s.ctl.services.find? (fun o => o.rq == rq && (match o.waits with | .user _ _ => true | _ => false)) = some o →
        ∃ t, exec (.userObjectAnswer rq answer) s = .next t ∧ o ∉ t.ctl.services ∧
          t.shadow a = (if answer = 0 then Word.of (leNat d) else s.shadow a) ∧ Keeps [.cfg, .ctl, .replies, .slots] s t))

/-- A quadrant's NoC fabric port answers its requests. A well-formed request with a free tag is outstanding. A response
takes the request away; where some granule lies beyond the memory it is answered RANGE, where a write touches a
protected region PROTECTED, and neither changes a byte of GDDR7; a write whose channels serve stores its granules'
data and is answered OK; a read of an error-free memory is answered OK with 36 bytes for each granule. A request that
would meet a channel still in training waits. (R30, R407, R408, R464, R477) -/
def Obligations.FabricPort : Prop :=
  ∀ (q : QuadNo) (r : FabricReq) (s : State), s.alive = true →
    (s.quadClosed q = false → fabricForm r = true → (s.quad q).requests.length < 256 →
      (∀ x ∈ (s.quad q).requests, x.tag ≠ r.tag) →
      ∃ t, exec (.fabricPortRequest q r) s = .next t ∧ OnlyQuad q [] s t ∧
        t.quad q = { s.quad q with requests := (s.quad q).requests ++ [r] }) ∧
    (Healthy s → (s.quad q).requests.find? (fun x => x.tag == r.tag) = some r →
      (s.spots r).contains .waits = false →
      ∃ t, exec (.fabricPortResponse q r.tag) s = .next t ∧
        (t.quad q).requests = (s.quad q).requests.filter (fun x => x.tag != r.tag) ∧
        ((s.spots r).contains .beyond = true → Msg.fabricPort q r.tag.toNat 3 [] ∈ t.out ∧ t.mem = s.mem) ∧
        (∀ a, (s.spots r).contains .beyond = false → r.write = true →
          s.touchesProtected r.addr (32 * r.count) = some a →
          Msg.fabricPort q r.tag.toNat 4 [] ∈ t.out ∧ t.mem = s.mem ∧ t.rd .devMemProtectedLast = a % 2 ^ 64) ∧
        ((∀ x ∈ s.spots r, x = .ok) → fabricForm r = true →
          (r.write = true → s.touchesProtected r.addr (32 * r.count) = none →
            Msg.fabricPort q r.tag.toNat 0 [] ∈ t.out ∧ Store.gets 0 r.addr (32 * r.count) t.mem = r.data ∧
            (∀ a, a < r.addr ∨ r.addr + 32 * r.count ≤ a → Store.get 0 a t.mem = Store.get 0 a s.mem)) ∧
          (r.write = false → t.mem = s.mem ∧
            ∃ d, d.length = 36 * r.count ∧ Msg.fabricPort q r.tag.toNat 0 d ∈ t.out))) ∧
    (ChansQuiet s → (s.quad q).requests.find? (fun x => x.tag == r.tag) = some r →
      (s.spots r).contains .waits = true →
      ∃ t, exec (.fabricPortResponse q r.tag) s = .next t ∧ Keeps [] s t)

/-- Service slots, the management line and the links. In an IDLE slot of a running main die: a frame that R485 discards
leaves everything as it is; a good HEARTBEAT is answered with its token and a request of an unknown service with
RANGE, and the slot is then DONE. A release of a DONE slot gives the next segment or leaves the slot IDLE. On the
powered Rim, neighbor solicitations and echo requests are answered; a datagram to its port from a link-local source
with a good checksum that carries a WRITE frame does what that WRITE's row does, a good HEARTBEAT is answered with its
token and an unknown service with RANGE; a datagram that is not meant or whose frame R485 discards, and any other
frame, are counted as dropped. A link that trains within its limits, and the management PHY, read what they have
trained to. (R485, R486, R487, R490, R492, R503, R508) -/
def Obligations.HostSlots : Prop :=
  ∀ (s : State), ChansQuiet s →
    (∀ (slot : SlotNo) (f : List Byte), s.alive = true → (s.slot slot).state = 0 → 12 ≤ f.length → f.length ≤ 2048 →
      (frameOk f = false → ∃ t, exec (.doorbellSubmit slot f) s = .next t ∧ Keeps [] s t) ∧
      (frameOk f = true → badRequest (headerOfFrame f) = false → (headerOfFrame f).service = 9 → f.length = 16 →
        ∃ t, exec (.doorbellSubmit slot f) s = .next t ∧ (t.slot slot).state = 2 ∧ Keeps [.slots] s t ∧
          Msg.reply (.host slot) (headerOfFrame f).seq 9 ⟨0, 0⟩ true true 0 none (f.drop 12) ∈ t.out) ∧
      (frameOk f = true → 10 < (headerOfFrame f).service →
        ∃ t, exec (.doorbellSubmit slot f) s = .next t ∧ (t.slot slot).state = 2 ∧ Keeps [.slots] s t ∧
          Msg.reply (.host slot) (headerOfFrame f).seq (headerOfFrame f).service (headerOfFrame f).addr true true 6 none []
            ∈ t.out)) ∧
    (∀ slot : SlotNo, (s.slot slot).state = 2 →
      ∃ t, exec (.doorbellRelease slot) s = .next t ∧ Keeps [.slots] s t ∧
        (t.slot slot).state = (if (s.slot slot).segments.length ≤ 1 then 0 else 2) ∧
        (t.slot slot).reply = (s.slot slot).segments.headD (s.slot slot).reply ∧
        (∀ k, k ≠ slot.val → t.slot k = s.slot k)) ∧
    (s.rim.powered = true →
      (∀ src, ∃ t, exec (.mgtFrameReceive (.neighbor src)) s = .next t ∧ Msg.neighborAdv src ∈ t.out ∧ Keeps [] s t) ∧
      (∀ src p, ∃ t, exec (.mgtFrameReceive (.echo src p)) s = .next t ∧ Msg.echoReply src p ∈ t.out ∧ Keeps [] s t) ∧
      (∀ (src : BitVec 128) (sport dport : BitVec 16) (multicast checksum : Bool) (p : List Byte),
        let h := headerOfFrame p
        let rq : Rq := { src := .mgt src sport, seq := h.seq }
        (frameOk p = true → checksum = true → linkLocal src = true → dport.toNat = s.rd .devMgtUdpPort → multicast = false →
          (badRequest h = false → h.service = 2 →
            exec (.mgtFrameReceive (.udp src sport dport multicast checksum p)) s = exec (.write rq h.addr (p.drop 12)) s) ∧
          (badRequest h = false → h.service = 9 → p.length = 16 → Arrives rq s →
            ∃ t, exec (.mgtFrameReceive (.udp src sport dport multicast checksum p)) s = .next t ∧ Keeps [.replies] s t ∧
              (s.ij.txDrop = 0 → Msg.reply rq.src rq.seq 9 ⟨0, 0⟩ true true 0 none (p.drop 12) ∈ t.out)) ∧
          (10 < h.service → Arrives rq s →
            ∃ t, exec (.mgtFrameReceive (.udp src sport dport multicast checksum p)) s = .next t ∧ Keeps [.replies] s t ∧
              Replied rq h.service h.addr .range s t)) ∧
        (frameOk p = false ∨ checksum = false ∨ linkLocal src = false ∨ dport.toNat ≠ s.rd .devMgtUdpPort ∨
            (multicast = true ∧ h.service ≠ 10) →
          ∃ t, exec (.mgtFrameReceive (.udp src sport dport multicast checksum p)) s = .next t ∧ Keeps [.rim] s t ∧
            t.rim = { s.rim with rxDropped := min (s.rim.rxDropped + 1) 0xFFFFFFFF })) ∧
      (∃ t, exec (.mgtFrameReceive .other) s = .next t ∧ Keeps [.rim] s t ∧
        t.rim = { s.rim with rxDropped := min (s.rim.rxDropped + 1) 0xFFFFFFFF }) ∧
      (∀ high, ∃ t, exec (.mgtLinkUp high) s = .next t ∧ Keeps [.rim] s t ∧
        t.rim = { s.rim with link := if high then 2 else 1 })) ∧
    (∃ t, exec .mgtLinkDown s = .next t ∧ Keeps [.rim] s t ∧ t.rim = { s.rim with link := 0 }) ∧
    (∀ gen width : Fin 16, s.alive = true → 1 ≤ gen.val → gen.val ≤ s.rd .devPcieMaxGen →
      width = 1 ∨ width = 2 ∨ width = 4 ∨ width = 8 →
      ∃ t, exec (.pcieLinkUp gen width) s = .next t ∧ RegsBut [Obj.devPcieLink.key] s t ∧ Keeps [.regs] s t ∧
        t.rd .devPcieLink = 4096 + 16 * width.val + gen.val)

/-- DMA queues take, start and complete descriptors. A queue that is not enabled takes a legal ring and binding and is
enabled with no error; an illegal ring gives ERR 1 and leaves it off. Clearing ENABLE of an idle queue empties it.
TAIL is taken where it lies within the ring. An enabled queue with a descriptor takes it: HEAD moves on and the
descriptor is in progress, its RESULT already 5 where its fields break R496. The oldest descriptor in progress
completes: it leaves, the count goes up, bytes 28 to 31 of its entry are written with the RESULT, and a descriptor of
bad form halts the queue with ERR 3. A TO_DEVICE descriptor of an error-free memory stores its data and completes with
RESULT 0. (R495, R496, R497) -/
def Obligations.DmaQueues : Prop :=
  ∀ (n : QueueNo) (s : State), s.alive = true →
    (∀ (base : BitVec 64) (size ctrl : BitVec 32), (s.queue n).enabled = false → (s.queue n).closing = false →
      (base ≠ 0 → base.toNat % 64 = 0 → 16 ≤ size.toNat → size.toNat ≤ 65536 → ctrlBind ctrl = 0 →
        ∃ t, exec (.dmaQueueEnable n base size ctrl) s = .next t ∧ (t.queue n).enabled = true ∧ (t.queue n).err = 0 ∧
          (t.queue n).base = base.toNat ∧ (t.queue n).size = size.toNat ∧ (t.queue n).halted = false ∧
          (∀ k, k ≠ n.val → t.queue k = s.queue k) ∧ Keeps [.pcie] s t) ∧
      (base = 0 ∨ base.toNat % 64 ≠ 0 ∨ size.toNat < 16 ∨ 65536 < size.toNat →
        ∃ t, exec (.dmaQueueEnable n base size ctrl) s = .next t ∧ (t.queue n).enabled = false ∧ (t.queue n).err = 1 ∧
          Keeps [.pcie] s t)) ∧
    ((s.queue n).enabled = true → (s.queue n).inFlight = [] →
      ∃ t, exec (.dmaQueueDisable n) s = .next t ∧ (t.queue n).enabled = false ∧ (t.queue n).head = 0 ∧
        (t.queue n).tail = 0 ∧ (∀ k, k ≠ n.val → t.queue k = s.queue k) ∧ Keeps [.pcie] s t) ∧
    (∀ tail : BitVec 32, (s.queue n).enabled = false ∨ tail.toNat < (s.queue n).size →
      ∃ t, exec (.dmaTailWrite n tail) s = .next t ∧ t.queue n = { s.queue n with tail := tail.toNat } ∧
        (∀ k, k ≠ n.val → t.queue k = s.queue k) ∧ Keeps [.pcie] s t) ∧
    (∀ d : List Byte, (s.queue n).enabled = true → (s.queue n).halted = false → (s.queue n).head ≠ (s.queue n).tail →
      d.length = 32 → (s.queue n).inFlight = [] →
      ∃ t x, exec (.dmaDescriptorStart n d) s = .next t ∧ (t.queue n).inFlight = [x] ∧
        x.index = (s.queue n).base + 32 * (s.queue n).head ∧ x.len = fieldAt d 16 4 ∧
        (x.result = some 5 ↔
          descOk (ctrlBind (s.queue n).ctrl != 0) d (descOf d ((s.queue n).base + 32 * (s.queue n).head)) = false) ∧
        (t.queue n).head = ((s.queue n).head + 1) % max (s.queue n).size 1 ∧
        (∀ k, k ≠ n.val → t.queue k = s.queue k) ∧ Keeps [.pcie] s t) ∧
    (∀ (x : Desc) (l : List Desc) (data : List Byte), (s.queue n).inFlight = x :: l → Healthy s →
      (x.result = some 5 →
        ∃ t, exec (.dmaDescriptorComplete n data false) s = .next t ∧ (t.queue n).inFlight = l ∧
          (t.queue n).completed = ((s.queue n).completed + 1) % 2 ^ 32 ∧ (t.queue n).halted = true ∧
          (t.queue n).err = 3 ∧ Msg.hostWrite (x.index + 28) [5, 1, 0, 0] false ∈ t.out ∧ Keeps [.pcie] s t) ∧
      (x.result = none → ctrlBind (s.queue n).ctrl = 0 → x.op = 1 → x.devAddr % 32 = 0 → x.len % 32 = 0 →
        data.length = x.len →
        (∀ k, k < x.len / 32 → s.spot (x.devAddr + 32 * k) = .ok ∧ s.isProtected (x.devAddr + 32 * k) = false) →
        ∃ t, exec (.dmaDescriptorComplete n data false) s = .next t ∧ (t.queue n).inFlight = l ∧
          Msg.hostWrite (x.index + 28) [0, 1, 0, 0] false ∈ t.out ∧ (t.queue n).halted = (s.queue n).halted ∧
          Store.gets 0 x.devAddr x.len t.mem = data ∧
          (∀ a, a < x.devAddr ∨ x.devAddr + x.len ≤ a → Store.get 0 a t.mem = Store.get 0 a s.mem)))

/-- BAR2 accesses, and what the host link's loss takes away. In an error-free memory, a BAR2 write whose granules serve
and are not protected stores exactly its bytes, whatever its alignment; one that reaches a protected region, a channel
that does not serve or beyond the memory stores nothing there. A BAR2 read answers with its number of bytes at once,
with zeros beyond the memory, and stores nothing. When the link goes down the BAR0 state is at its defaults, no
transfer of the host is open, the link word reads 0 and ownership of the host reverts. (R30, R54, R464, R471, R490,
R493, R494, R509) -/
def Obligations.HostMemory : Prop :=
  ∀ (addr : Nat) (s : State), s.alive = true → Healthy s →
    (∀ data : List Byte, data ≠ [] →
      ∃ t, exec (.bar2Write addr data) s = .next t ∧
        t.rd .devPcieH2dBytes = min (s.rd .devPcieH2dBytes + data.length) (2 ^ 64 - 1) ∧
        (∀ a, a < addr ∨ addr + data.length ≤ a → Store.get 0 a t.mem = Store.get 0 a s.mem) ∧
        (addr + data.length ≤ s.memCap →
          (∀ g ∈ touched addr data.length, s.spot (32 * g) = .ok ∧ s.isProtected (32 * g) = false) →
          Store.gets 0 addr data.length t.mem = data) ∧
        (s.memCap < addr + data.length ∨
          (∀ g ∈ touched addr data.length, s.spot (32 * g) ≠ .ok ∨ s.isProtected (32 * g) = true) → t.mem = s.mem)) ∧
    (∀ n, 0 < n →
      ∃ t d p, exec (.bar2Read addr n) s = .next t ∧ d.length = n ∧ Msg.bar2Data d p ∈ t.out ∧ t.mem = s.mem ∧
        t.memChk = s.memChk ∧ (s.memCap < addr + n → d = List.replicate n 0 ∧ p = false)) ∧
    (∃ t, exec .pcieLinkDown s = .next t ∧ t.pcie.queues = [] ∧ t.pcie.slots = [] ∧ t.rd .devPcieLink = 0 ∧
      t.rd .devPcieLinkDowns = min (s.rd .devPcieLinkDowns + 1) 0xFFFFFFFF ∧
      t.ctl.transfers.all (fun x => !isHost x.src) = true ∧
      t.rd .controlOwner = (if s.rd .controlOwner = 2 then 0 else s.rd .controlOwner) ∧
      Keeps [.regs, .ctl, .ij, .pcie, .slots] s t)

/-- A configuration load goes through its wipe, its upsett and its failures. With a load in progress: the wipe of a
region's load makes it receive, with the region's frames blank; ten seconds without a chunk end a receiving load with
error 14, after which a region is wiped anew. Each upsett step that START_UPSETT's order names next, once its GAP has
passed, does its work and counts; WAIT_LOCK needs ROOT locked, and 100 ms without it end the load with error 13. The
fourth step of a full load makes the configuration loaded and every region READY. (R428, R429, R432, R433, R434, R435,
R439) -/
def Obligations.LoaderAdvances : Prop :=
  ∀ (l : Load) (s : State), s.cfg.load = some l →
    (∀ (q : QuadNo) (r : Fin 4), l.kind = .part q r → l.phase = .wipe →
      ∃ t, exec (.prWipeDone q r) s = .next t ∧ t.cfg.load = some { l with phase := .receive, chunkAt := s.elapsed } ∧
        (t.region q r).st = .receiving ∧ t.cfg.frames.all (fun e => frameRegion e.1 != some (q.val, r.val)) = true ∧
        OnlyQuad q [.cfg] s t) ∧
    (l.phase = .receive → s.passed l.chunkAt (10 * ticksPerSecond) = true →
      ∃ t, exec .cfgStalled s = .next t ∧ t.cfg.load = none ∧
        Keeps [.regs, .dev, .quads, .cfg, .ctl, .replies, .slots] s t ∧
        (l.kind = .full → t.cfg.loaded = false ∧ t.dev.wiping = true ∧ t.rd .devCfgError = 14) ∧
        (∀ q r, l.kind = .part q r → t.rd .qdPrError q = 14 ∧ (t.region q r).st = .wiping ∧ (q, r) ∈ t.cfg.rewipe)) ∧
    (∀ region : Option (Fin 16), l.phase = .upsett → l.kind = kindOf region → l.steps < 3 → l.stepBegins ≤ s.elapsed →
      (bits l.parse.upsett (2 * l.steps) 2 = 0 → s.rootLocked = true →
        ∃ t, exec (.waitLock region) s = .next t ∧
          t.cfg.load = some { l with steps := l.steps + 1, stepTime := s.elapsed } ∧ Keeps [.cfg] s t) ∧
      (bits l.parse.upsett (2 * l.steps) 2 = 0 → s.rootLocked = false → s.passed l.stepBegins (100 * ticksPerMs) = true →
        ∃ t, exec (.lockTimeout region) s = .next t ∧ t.cfg.load = none ∧ t.mem = s.mem ∧
          (l.kind = .full → t.rd .devCfgError = 13) ∧ (∀ q r, l.kind = .part q r → t.rd .qdPrError q = 13)) ∧
      (bits l.parse.upsett (2 * l.steps) 2 = 1 →
        ∃ t, exec (.releaseGsr region) s = .next t ∧
          t.cfg.load = some { l with steps := l.steps + 1, stepTime := s.elapsed } ∧
          Keeps [.cfg, .quads] s t ∧ ∀ g ∈ l.kind.regions, (t.region (g / 4) (g % 4)).gsr = false) ∧
      (bits l.parse.upsett (2 * l.steps) 2 = 2 →
        ∃ t, exec (.enableWrites region) s = .next t ∧
          t.cfg.load = some { l with steps := l.steps + 1, stepTime := s.elapsed } ∧
          Keeps [.cfg, .quads] s t ∧ ∀ g ∈ l.kind.regions, (t.region (g / 4) (g % 4)).writes = true) ∧
      (bits l.parse.upsett (2 * l.steps) 2 = 3 →
        ∃ t, exec (.releaseOutputs region) s = .next t ∧
          t.cfg.load = some { l with steps := l.steps + 1, stepTime := s.elapsed } ∧
          Keeps [.cfg, .quads] s t ∧
          ∀ g ∈ l.kind.regions, (t.region (g / 4) (g % 4)).outputs = true ∧ (t.region (g / 4) (g % 4)).closed = false)) ∧
    (l.kind = .full → l.phase = .upsett → l.steps = 3 → l.stepBegins ≤ s.elapsed → bits l.parse.upsett 6 2 = 3 →
      ∃ t, exec (.releaseOutputs none) s = .next t ∧ t.cfg.load = none ∧ t.cfg.loaded = true ∧
        (∀ g, g < 16 → (t.region (g / 4) (g % 4)).st = .ready ∧ (t.region (g / 4) (g % 4)).clocks = true) ∧
        t.mem = s.mem)

/-- Wipes end, the frame sentinel reports, and a flat battery loses the key. The end of a wipe leaves no frame and every
region EMPTY, writes its time, and answers what waited for it; the end of a failed region's wipe leaves that region
EMPTY and its frames blank. A mismatch that the sentinel may read is counted and recorded, and aborts the running
sites it concerns where DEV_SENT_ACTION is 1; an outvoted disagreement is counted and the scan starts anew. VBAT below
1.0 V clears the key RAM, and otherwise changes nothing. (R78, R79, R435, R439, R440, R441, R442, R525) -/
def Obligations.WipesAndSentinel : Prop :=
  ∀ (s : State),
    (s.dev.wiping = true →
      ∃ t, exec (.configWipeComplete ()) s = .next t ∧ t.dev.wiping = false ∧ t.cfg.frames = [] ∧
        t.rd .devCfgWipeTime = s.microsSince s.dev.wipeSince % 2 ^ 64 ∧ (∀ q r, q < 4 → r < 4 → (t.region q r).st = .empty) ∧
        t.ctl.services = s.ctl.services.filter (fun o => o.waits != .unload) ∧ RegsBut [Obj.devCfgWipeTime.key] s t ∧
        Keeps [.regs, .dev, .quads, .cfg, .ctl, .replies, .slots] s t) ∧
    (∀ (q : QuadNo) (r : Fin 4), s.cfg.rewipe.contains (q, r) = true →
      ∃ t, exec (.prFailWipeDone q r) s = .next t ∧ (t.region q r).st = .empty ∧
        t.cfg.frames.all (fun e => frameRegion e.1 != some (q.val, r.val)) = true ∧
        t.cfg.rewipe.contains (q, r) = false ∧ OnlyQuad q [.cfg] s t) ∧
    (∀ frame : BitVec 20, s.sentinelReads frame.toNat = true →
      ∃ t, exec (.cfgFrameMismatch frame) s = .next t ∧ t.rd .devSentLastMismatch = frame.toNat ∧
        t.rd .devSentMismatches = min (s.rd .devSentMismatches + 1) 0xFFFFFFFF ∧ t.mem = s.mem ∧
        (s.rd .devSentAction ≠ 1 → Keeps [.regs] s t) ∧
        (∀ i, i < 12 → s.rd .devSentAction = 1 → s.frameHits frame.toNat i = true → s.siteSt i = .running →
          AbortsWith i 0x1C02 t)) ∧
    (s.scans = true → ∃ t, exec .cfgSentinelVote s = .next t ∧
      t.rd .devSentVoteUpsets = min (s.rd .devSentVoteUpsets + 1) 0xFFFFFFFF ∧ RegsBut [Obj.devSentVoteUpsets.key] s t ∧
      t.cfg = { s.cfg with passes := s.sentPasses, scanFrom := s.time } ∧ Keeps [.regs, .cfg] s t) ∧
    (∀ mv : BitVec 16, ∃ t, exec (.vbatLow mv) s = .next t ∧ Keeps [.cfg] s t ∧
      t.cfg = { s.cfg with keyRam := if mv.toNat < 1000 then none else s.cfg.keyRam })

/-- The sequencer raises and lowers the rails one by one; RESET_N low holds the main die, and its release starts it.
During a power-up, the end of step k, 1 ms after PG_k reads high and within its 20 ms, raises the next enable, and
step 7 goes to Release; 2 ms later the rails are on, the internal main reset is released and nobody owns control, and
the power-up is counted and timed. A power-good that has not come in 20 ms lowers that enable and leaves its step and
cause; a power-good that falls while the rails are on asserts the main reset and lowers enable 7 first, and ownership
of the host is gone. In a power-down each step lowers the next enable, 10 µs after Hold began or once PG is low or 5
ms have passed, and step 0 ends in OFF. A line loss lowers every enable and unpowers the Rim, and a start of the Rim
finds it powered with the rails off. When RESET_N falls the main die does not run, its control is owned by nobody and
its GDDR7 lists nothing; when RESET_N rises with the rails on, every main-die register reads its default, the Rim's
own state is as before and the device is DORMANT. The ledger stays in both. Where the main die does not run already,
the line's fall is recorded and nothing else. (R54, R99, R100, R511, R514, R515, R516) -/
def Obligations.PowerAndReset : Prop :=
  (∀ (s : State),
      (∀ k : Fin 8, s.rim.seq = .step k →
        (s.rim.since + ticksPerMs ≤ s.elapsed → s.elapsed ≤ s.rim.since + 21 * ticksPerMs →
          ∃ t, exec .powerUpStep s = .next t ∧ Keeps [.rim] s t ∧ t.rim.pg.getLsbD k.val = true ∧
            (k.val = 7 → t.rim.seq = .release ∧ t.rim.en = s.rim.en) ∧
            (k.val < 7 → t.rim.seq = .step (k + 1) ∧ t.rim.en.getLsbD (k.val + 1) = true)) ∧
        (s.rim.since + 20 * ticksPerMs ≤ s.elapsed →
          ∃ t, exec .pwrPgTimeout s = .next t ∧ t.rim.seq = .down k ∧ t.rim.en.getLsbD k.val = false ∧
            t.rim.failedStep = some k ∧ t.rd .devPwrFaultCause = 0x2401 ∧ RegsBut [Obj.devPwrFaultCause.key] s t ∧
            Keeps [.regs, .rim] s t)) ∧
      (s.rim.seq = .release → s.rim.since + 2 * ticksPerMs ≤ s.elapsed →
        ∃ t, exec (.powerRelease ()) s = .next t ∧ t.rim.seq = .on ∧ t.rim.mainReset = false ∧
          t.rd .controlOwner = 0 ∧ t.rd .devPwrSeqTime = s.microsSince s.rim.upSince % 2 ^ 64 ∧
          t.rd .devPwrCycles = min (s.rd .devPwrCycles + 1) 0xFFFFFFFF ∧ t.mem = [] ∧ t.ledger = s.ledger ∧
          (s.rim.powered = true → s.dev.resetNLow = false → t.alive = true ∧ t.devState = 1)) ∧
      (∀ pgLow,
        (s.rim.seq = .hold → s.rim.since + 10 * ticksPerUs ≤ s.elapsed →
          ∃ t, exec (.powerDownStep pgLow) s = .next t ∧ Keeps [.rim] s t ∧ t.rim.seq = .down 7 ∧
            t.rim.en.getLsbD 7 = false) ∧
        (∀ k : Fin 8, s.rim.seq = .down k → pgLow = true ∨ s.rim.since + 5 * ticksPerMs ≤ s.elapsed →
          ∃ t, exec (.powerDownStep pgLow) s = .next t ∧ Keeps [.rim] s t ∧
            (k.val = 0 → t.rim.seq = .off) ∧
            (0 < k.val → t.rim.seq = .down (k - 1) ∧ t.rim.en.getLsbD (k.val - 1) = false))) ∧
      (∀ input : Fin 8, s.rim.seq = .on → s.rim.en.getLsbD input.val = true →
        ∃ t, exec (.pwrPgLost input) s = .next t ∧ t.rim.seq = .down 7 ∧ t.rim.mainReset = true ∧
          t.rim.pg.getLsbD input.val = false ∧ t.rim.en.getLsbD 7 = false ∧ t.rd .devPwrFaultCause = 0x2402 ∧
          t.rd .controlOwner = (if s.alive = true ∧ s.rd .controlOwner = 2 then 0 else s.rd .controlOwner) ∧
          t.ledger = s.ledger) ∧
      (s.rim.powered = true → ∃ t, exec .pwrLineLoss s = .next t ∧ t.rim.powered = false ∧ t.rim.en = 0 ∧
        t.alive = false ∧ t.ledger.committing = none ∧ t.ledger.log = s.ledger.log) ∧
      (s.rim.powered = false → ∃ t, exec .rimStart s = .next t ∧ t.rim.powered = true ∧ t.rim.seq = .off ∧ t.rim.en = 0 ∧
        t.ledger.log = s.ledger.log ∧ t.mem = s.mem ∧ (s.rim.lineLost = true → t.rd .devPwrFaultCause = 0x2403))) ∧
  (∀ (s : State),
      (s.dev.resetNLow = false → s.alive = true → ∃ t, exec .resetNFall s = .next t ∧ t.dev.resetNLow = true ∧
        t.alive = false ∧ t.rd .controlOwner = 0 ∧ t.mem = [] ∧ t.ledger = s.ledger ∧
        { t.rim with rx := 0, tx := 0, evDropped := 0 } = { s.rim with rx := 0, tx := 0, evDropped := 0 }) ∧
      (s.dev.resetNLow = false → s.alive = false → ∃ t, exec .resetNFall s = .next t ∧
        t.dev = { s.dev with resetNLow := true } ∧ Keeps [.dev] s t) ∧
      (s.dev.resetNLow = true → s.railsOn = true → s.rim.mainReset = false →
        ∃ t, exec .resetNRise s = .next t ∧ t.alive = true ∧ t.devState = 1 ∧ t.mem = [] ∧ t.ledger = s.ledger ∧
          t.sites = [] ∧ t.bnds = [] ∧ t.ports = [] ∧ t.ctxs = [] ∧ t.quads = [] ∧ t.chans = [] ∧
          { t.rim with rx := 0, tx := 0, evDropped := 0 } = { s.rim with rx := 0, tx := 0, evDropped := 0 } ∧
          (∀ key d, rimHeld key = false → ¬ eventKey key → Store.get d key t.dict.regs = d)))

/-- Thermal samples and rail meters. A thermal sample of a running main die gives the highest sensor as DEV_TJ_NOW, the
flags OVER above 105 °C and UNDER below 10 °C, and the bytes of DEV_TJ_SENSORS; a third reading in a row of 115 °C or
more at one sensor is a thermal shutdown that aborts what runs. A rail sample adds its energy and gives the total of
the rails, whose highest value DEV_PWR_PEAK keeps. (R516, R521, R527, R528) -/
def Obligations.Sampling : Prop :=
  ∀ (s : State), s.alive = true →
    (∀ (raw : List (BitVec 16)) (rim : BitVec 16), raw.length = 16 →
      ∃ t, exec (.thermalSample raw rim) s = .next t ∧
        ((∀ n ∈ s.therm.hot, n = 0) →
          t.rd .devTjNow = unsigned 16 (hottest (raw.map tempOf)) ∧
          t.therm.overTemp = decide (105 * 16 < hottest (raw.map tempOf)) ∧
          t.therm.underTemp = decide (hottest (raw.map tempOf) < 160) ∧
          t.dom .devTjSensors 0 0 0 32 = raw.flatMap (fun v => leBytes 2 v.toNat) ∧
          Keeps [.regs, .doms, .therm] s t) ∧
        (∀ k, k < 16 → (s.therm.hot.getD k 0) = 2 → 115 * 16 ≤ tempOf (raw.getD k 0) → Abortable s →
          s.therm.shutdown = false → s.rd .devPwrThermalOff = 0 → s.rim.seq = .on → t.mem = s.mem ∧ t.therm.shutdown = true ∧ t.rd .devFaultCause = 0x2406 ∧
          RunningAbort 0x2406 s t)) ∧
    (∀ (rails : List (BitVec 16 × BitVec 32)) (vbat vin : BitVec 16) (domains : List (BitVec 32)) (mj : Nat),
      rails.length = 12 → domains.length = 16 → (rails.map railPower).foldl (· + ·) 0 < 2 ^ 64 →
      ∃ t, exec (.railMeterSample rails vbat vin domains mj) s = .next t ∧ Keeps [.regs, .doms] s t ∧
        t.rd .devPwrTotal = (rails.map railPower).foldl (· + ·) 0 ∧
        t.rd .devPwrPeak = max ((rails.map railPower).foldl (· + ·) 0) (s.rd .devPwrPeak) ∧
        t.rd .devPwrEnergy = (s.rd .devPwrEnergy + mj) % 2 ^ 64 ∧
        (∀ k, k < 16 → t.rd .qdPwrDomain (k / 4) (k % 4) = (domains.getD k 0).toNat))

/-- A quadrant closes, opens, or fails to open. The end of a fence makes the domain OFF with every enable of its ports at
0, its channels off and no request outstanding, and gives the time that it took. The end of Switch, within 1 ms,
begins the training of its three channels; once they are trained, the end of Restore, within 90 ms, opens the
quadrant, makes its contexts FREE and its counters 0, and gives the time; a phase that has run out of its time leaves
it OFF with its cause. No other quadrant changes. (R459, R464, R519, R520, R528) -/
def Obligations.QuadrantPower : Prop :=
  ∀ (q : QuadNo) (s : State),
    ((s.quad q).power = .closing →
      ∃ t, exec (.fenceDrainDone q ()) s = .next t ∧ (t.quad q).power = .off ∧ (t.quad q).requests = [] ∧
        t.rd .devNocFenceTime = (s.elapsed - (s.quad q).since) * 4 / 7 % 2 ^ 64 ∧
        (∀ p ∈ quadPorts q, (t.enables p).none = true) ∧ (∀ c ∈ quadBundles q, (t.chan c).st = .off) ∧
        (∀ c, c ∉ quadBundles q → t.chan c = s.chan c) ∧ OnlyQuad q [.regs, .ports, .bnds, .chans] s t) ∧
    ((s.quad q).power = .switching → s.elapsed ≤ (s.quad q).since + ticksPerMs →
      ∃ t, exec (.qdSwitchDone q) s = .next t ∧ (t.quad q).power = .restoring ∧
        (∀ c ∈ quadBundles q, (t.chan c).st = .init ∧ (t.chan c).retraining = false) ∧
        (∀ c, c ∉ quadBundles q → t.chan c = s.chan c) ∧ OnlyQuad q [.chans] s t) ∧
    (∀ failed : List (Fin 4), (s.quad q).power = .restoring → s.elapsed ≤ (s.quad q).since + 90 * ticksPerMs →
      (∀ c ∈ quadBundles q, (s.chan c).st ≠ .init) →
      ∃ t, exec (.qdRestoreDone q failed ()) s = .next t ∧ (t.quad q).power = .on ∧
        t.rd .qdPwrUpTime q = s.microsSince (s.quad q).upSince % 2 ^ 64 ∧
        (∀ b ∈ quadBundles q, t.rd .bndAbortCount b = 0 ∧ (t.bnd b).cap.formed = 0 ∧ (t.bnd b).pe.issued = 0) ∧
        (∀ c, c / 12288 = q.val → (t.ctx c).st = .free) ∧ (∀ c, c / 12288 ≠ q.val → t.ctx c = s.ctx c) ∧
        t.mem = s.mem) ∧
    (((s.quad q).power = .switching ∧ (s.quad q).since + ticksPerMs ≤ s.elapsed) ∨
        ((s.quad q).power = .restoring ∧ (s.quad q).since + 90 * ticksPerMs ≤ s.elapsed) →
      ∃ t, exec (.qdPwrUpFailed q ()) s = .next t ∧ t.quad q = { s.quad q with power := .off, failed := true } ∧
        (∀ c ∈ quadBundles q, (t.chan c).st = .off) ∧ t.rd .qdPwrFaultCause q = 0x2408 ∧
        RegsBut [Obj.qdPwrFaultCause.key q, Obj.devMemCmdState.key] s t ∧ OnlyQuad q [.regs, .chans] s t)

/-- Internal injections fire, and a self-test ends. An armed injection that fires when its interval has passed is counted
and timed, one fewer is left, and the last one leaves the injector LOCKED; management-frame injections mark the next
frame. An UNLOCKED window that has passed is LOCKED, and a quieted output sends again once its time has passed. A
self-test that ends writes PASS where nothing failed and FAIL where a router or a bundle did; a bundle that failed is
FAILED. PORT_SELFTEST of every port whose quadrant is on reads passed or its failing item with the error, and TIME,
and a failing item leaves the sticky TEST_FAIL. (R195, R537, R538, R541, R542, R543, R544) -/
def Obligations.InjectionAndTest : Prop :=
  ∀ (s : State),
    (s.alive = true → s.ij.state = 2 → 0 < s.ij.left → s.ij.due ≤ s.elapsed →
      ∃ t, exec .ijFired s = .next t ∧ t.rd .devIjFired = min (s.rd .devIjFired + 1) 0xFFFFFFFF ∧
        t.rd .devIjLastTime = s.time % 2 ^ 64 ∧ t.ij.left = s.ij.left - 1 ∧
        t.ij.due = s.ij.due + s.rd .devIjInterval * ticksPerUs ∧
        t.ij.state = (if s.ij.left = 1 then 0 else 2) ∧ t.mem = s.mem ∧
        (s.rd .devIjTarget = 8 → t.ij.rxDrop = s.ij.rxDrop + 1) ∧
        (s.rd .devIjTarget = 10 → t.ij.corrupt = s.ij.corrupt + 1)) ∧
    (s.ij.state = 1 → s.ij.openedAt + s.rd .devIjWindow * ticksPerSecond ≤ s.elapsed →
      ∃ t, exec .ijWindowExpiry s = .next t ∧ t.ij = { s.ij with state := 0 } ∧ Keeps [.ij] s t) ∧
    (∀ out : Fin 4, s.tb.quiet.contains out = true → Store.get 0 out.val s.tb.quietTill ≤ s.elapsed →
      ∃ t, exec (.warpQuietEnd out) s = .next t ∧ t.tb.quiet.contains out = false ∧ Keeps [.tb] s t) ∧
    (∀ f : SelfTestFinds, s.alive = true → s.dev.selfTest = true →
      ∃ t, exec (.selfTestDone f) s = .next t ∧ t.dev.selfTest = false ∧ t.mem = s.mem ∧
        (f.bundles = [] → f.ports = [] → f.routers = [] → t.rd .devSelftestState = 2) ∧
        (f.routers ≠ [] → t.rd .devSelftestState = 3 ∧ ∀ r ∈ f.routers, r ∈ t.noc.faults) ∧
        (∀ b ∈ f.bundles, (s.quad (quadOfBundle b)).power = .on → (t.bnd b).failed = true ∧ t.rd .devSelftestState = 3) ∧
        (∀ p : PortNo, (s.quad (quadOfBundle (bundleOfPort p))).power = .on →
          t.dom .portSelftest p 0 0 16 =
            (if (testItem f p).1 = 0 then [1, 0, 0, 0, 0, 0, 0, 0]
              else [2, BitVec.ofNat 8 (testItem f p).1, 0, 0] ++ leBytes 4 (testItem f p).2.toNat) ++ leBytes 8 s.time ∧
          ((testItem f p).1 ≠ 0 → (t.port p).fe.testFail = true)))

/-- Accepted writes are held, staged, committed, or presented to the design. An accepted WRITE to an object without an
effect of its own is answered OK and that entry alone reads the value; an accepted WRITE to an RWG object joins the
staging set and no register changes. A GROUP_COMMIT whose entries all pass their later checks puts every staged scalar
in force and empties the set; one with an entry that fails puts none in force. A GROUP_DISCARD empties the set. An
accepted WRITE to a user object is presented to the design and waits for its answer. (R42, R48, R56, R57, R58, R71,
R409) -/
def Obligations.WritesAreHeld : Prop :=
  ∀ (rq : Rq) (s : State), ChansQuiet s →
    (∀ (o : Obj) (u k v : Nat), o ∈ plainObjs → target (o.addr u k) = .entry o u k → v < 2 ^ (8 * o.row.size) →
      Accepted rq o u k v {} s →
      ∃ t, exec (.write rq (o.addr u k) (leBytes o.row.size v)) s = .next t ∧ Replied rq svcWrite (o.addr u k) .ok s t ∧
        t.rd o u k = v ∧ RegsBut [o.key u k] s t ∧ Keeps (.regs :: answerParts) s t) ∧
    (∀ (o : Obj) (u k v : Nat), o.row.acc = .rwg → target (o.addr u k) = .entry o u k → v < 2 ^ (8 * o.row.size) →
      Accepted rq o u k v {} s → s.ctl.staged.length < 1024 →
      ∃ t, exec (.stagedWrite rq (o.addr u k) (leBytes o.row.size v)) s = .next t ∧
        Replied rq svcWrite (o.addr u k) .ok s t ∧
        Store.get none ((o.addr u k).index.toNat * 256 + (o.addr u k).sub.toNat) t.ctl.staged = some (Word.of v) ∧
        RegsBut [] s t ∧ Keeps (.ctl :: answerParts) s t) ∧
    (FrontOk rq commitAddr [1] s →
      (received rq s).preempted rq (fun code => s.ctl.staged.any (fun e =>
        s.scopeHas code (stagedPut e).o (stagedPut e).u (stagedPut e).k)) = false →
      ((∀ e ∈ s.ctl.staged, laterChecks (received rq s) (stagedPut e) {} = .ok) → (s.ctl.staged.map (·.1)).Nodup →
        (∀ e ∈ s.ctl.staged, (stagedPut e).o.key (stagedPut e).u (stagedPut e).k = e.1 ∧
          (stagedPut e).o.row.type ≠ .dom ∧ ¬ eventKey e.1) →
        ∃ t, exec (.groupCommit rq) s = .next t ∧ Replied rq svcCommit commitAddr .ok s t ∧ t.ctl.staged = [] ∧
          (∀ e ∈ s.ctl.staged, e.1 ≠ Obj.devGroupResult.key →
            t.rd (stagedPut e).o (stagedPut e).u (stagedPut e).k = (stagedPut e).v) ∧
          RegsBut (Obj.devGroupResult.key :: s.ctl.staged.map (·.1)) s t ∧ Keeps (.regs :: .ctl :: answerParts) s t) ∧
      ((∃ e ∈ s.ctl.staged, laterChecks (received rq s) (stagedPut e) {} ≠ .ok) →
        ∃ t, exec (.groupCommit rq) s = .next t ∧ Replied rq svcCommit commitAddr .groupFail s t ∧ t.ctl.staged = [] ∧
          RegsBut [Obj.devGroupResult.key] s t ∧ Keeps (.regs :: .ctl :: answerParts) s t)) ∧
    (FrontOk rq commitAddr [2] s →
      ∃ t, exec (.groupDiscard rq) s = .next t ∧ Replied rq svcCommit commitAddr .ok s t ∧ t.ctl.staged = [] ∧
        RegsBut [] s t ∧ Keeps (.ctl :: answerParts) s t) ∧
    (∀ (a : Addr) (e : UserEntry) (data : List Byte), FrontOk rq a data s → s.named a = .user e →
      (received rq s).preempted rq (fun code => code / 4096 == 0) = false → s.quadClosed e.quad = false →
      e.acc ≠ .rwi → e.type ≠ .bool →
      ∃ t, exec (.userObjectWrite rq a data) s = .next t ∧ Msg.userWrite a data ∈ t.out ∧
        t.ctl.services = s.ctl.services ++ [{ rq := rq, service := svcWrite, addr := a, waits := .user a data, since := s.elapsed }] ∧
        Keeps [.ctl] s t)

/-- Reads, block reads, heartbeats and identification answer with their data. A READ of an object without a live value,
which no closed quadrant's fence holds, answers with its bytes, sub-index 0 of an index with several entries with the
highest sub-index; a BLOCK_READ of a stored DOM object within one segment answers with its bytes and its place; a
HEARTBEAT gives its token back; an IDENTIFY of 32 bytes or more gives the identity. None of them changes any part of
the state but the count of free values and the stored replies. (R39, R68, R69, R486, R487, R488) -/
def Obligations.ReadsAnswer : Prop :=
  ∀ (rq : Rq) (s : State), Arrives rq s → (isHost rq.src = true ∨ s.ij.txDrop = 0) →
    (∀ (o : Obj) (u k len : Nat), o ∈ plainObjs → target (o.addr u k) = .entry o u k → s.heldValue o u k = none →
      (received rq s).frontCheck rq.src (o.addr u k) (.base o u k) { write := false, block := false, len := len } = .ok →
      ∃ t, exec (.read rq (o.addr u k) len) s = .next t ∧ Keeps (.free :: answerParts) s t ∧
        Msg.reply rq.src rq.seq svcRead (o.addr u k) true true 0 none (leBytes o.row.size (s.rd o u k)) ∈ t.out) ∧
    (∀ (a : Addr) (n len : Nat), s.named a = .count n →
      (received rq s).frontCheck rq.src a (.count n) { write := false, block := false, len := len } = .ok →
      ∃ t, exec (.read rq a len) s = .next t ∧ Keeps (.free :: answerParts) s t ∧
        Msg.reply rq.src rq.seq svcRead a true true 0 none (leBytes 1 n) ∈ t.out) ∧
    (∀ (o : Obj) (u off total seg : Nat), o ∈ [Obj.portTset, .portSerRxeq, .devEvtVector, .bndPoolWave] →
      target (o.addr u) = .entry o u 0 → 0 < total → total ≤ seg → seg ≤ 1024 →
      (received rq s).frontCheck rq.src (o.addr u) (.base o u 0)
        { write := false, block := true, len := seg, off := off, total := total } = .ok →
      ∃ t, exec (.blockRead rq (o.addr u) seg off total) s = .next t ∧ Keeps (.free :: answerParts) s t ∧
        Msg.reply rq.src rq.seq svcBlockRead (o.addr u) true true 0 (some (off, total)) (s.dom o u 0 off total) ∈ t.out) ∧
    (∀ token : BitVec 32, ∃ t, exec (.heartbeat rq token) s = .next t ∧ Keeps answerParts s t ∧
      Msg.reply rq.src rq.seq svcHeartbeat ⟨0, 0⟩ true true 0 none (leBytes 4 token.toNat) ∈ t.out) ∧
    (∀ len, 32 ≤ len → ∃ t, exec (.identify rq len) s = .next t ∧ Keeps answerParts s t ∧
      Msg.reply rq.src rq.seq svcIdentify ⟨0, 0⟩ true true 0 none s.identity ∈ t.out)

/-- Block transfers, time limits, ownership and subscriptions. The first of several segments opens a transfer and stores
nothing; a single whole segment to a stored DOM object stores its bytes; a transfer that has been idle for 1 s is
abandoned and nothing else changes. A service that has waited 100 ms is answered TIMEOUT and is open no longer, and
what an ARM, a LINE ratio, divider ratios or a context command of it had begun is gone. Where nobody owns control the
host's 2 and the management's 1 take it; management ownership that has not been renewed for DEV_MGT_HB_TIMEOUT reverts
with everything staged. A subscription takes its address's slot or the first free one, a mask of 0 frees its slot, and
its lease's end frees it too. (R53, R54, R55, R70, R73, R487, R505, R507) -/
def Obligations.TransfersAndOwners : Prop :=
  ∀ (rq : Rq) (s : State),
    (∀ (o : Obj) (u : Nat) (g : Segment), o ∈ [Obj.portTset, .devEvtVector] → target (o.addr u) = .entry o u 0 →
      Arrives rq s → g.first = true → g.data.length ≤ 1024 →
      (received rq s).frontCheck rq.src (o.addr u) (.base o u 0)
        { write := true, block := true, len := g.data.length, off := g.offset, total := g.total } = .ok →
      (g.last = false → g.data.length ≤ g.total →
        ∃ t, exec (.blockWrite rq (o.addr u) g) s = .next t ∧ Keeps (.ctl :: answerParts) s t ∧
          t.transfer rq.src = some
            { src := rq.src, addr := o.addr u, start := g.offset, total := g.total, data := g.data, since := s.elapsed } ∧
          RepliedBlock rq (o.addr u) g.offset g.total .ok s t) ∧
      (g.last = true → g.data.length = g.total → AcceptedBlock rq o u g.offset g.data s →
        ∃ t, exec (.blockWrite rq (o.addr u) g) s = .next t ∧ Keeps (.doms :: .ctl :: answerParts) s t ∧
          t.dom o u 0 g.offset g.data.length = g.data ∧ t.transfer rq.src = none ∧
          RepliedBlock rq (o.addr u) g.offset g.total .ok s t)) ∧
    (∀ src x, s.transfer src = some x → s.passed x.since ticksPerSecond = true →
      ∃ t, exec (.blockWriteIdleTimeout src) s = .next t ∧ t.transfer src = none ∧
        (∀ other, other ≠ src → t.transfer other = s.transfer other) ∧ Keeps [.ctl] s t) ∧
    (∀ o : OpenService, s.ctl.services.find? (fun x => x.rq == rq && s.passed x.since (100 * ticksPerMs)) = some o →
      o.discard = false → isHost rq.src = true ∨ s.ij.txDrop = 0 →
      ∃ t, exec (.serviceTimeout rq) s = .next t ∧ o ∉ t.ctl.services ∧
        Msg.reply rq.src rq.seq o.service o.addr true true 0x0E none [] ∈ t.out ∧
        (∀ i, o.waits = .arm i → (t.site i).validating = none ∧ t.rd .siteArmStatus i = 0x0E) ∧
        (∀ b, o.waits = .line b → (t.bnd b).lineNext = none) ∧
        (∀ q, o.waits = .clkDiv q → (t.quad q).divNext = none) ∧
        (∀ b, o.waits = .ctxCmd b → (t.bnd b).pe.staged = []) ∧
        (o.waits = .swap ∨ o.waits = .unload → Keeps (.ctl :: answerParts) s t) ∧
        Keeps (.regs :: .sites :: .bnds :: .quads :: .ctl :: answerParts) s t) ∧
    (∀ v : Byte, v = (if isHost rq.src then 2 else 1) → s.rd .controlOwner = 0 → Arrives rq s → s.alive = true →
      s.hostClaims rq = false → (received rq s).preempted rq (fun code => s.scopeHas code .controlOwner 0 0) = false →
      ∃ t, exec (.controlOwnerWrite rq v) s = .next t ∧ t.rd .controlOwner = v.toNat ∧ t.ctl.staged = [] ∧
        t.ctl.ownerAddr = (match rq.src with | .mgt a _ => some a | .host _ => none) ∧ t.owns rq.src = true ∧
        Replied rq svcWrite Obj.controlOwner.addr .ok s t ∧ RegsBut [Obj.controlOwner.key] s t ∧
        Keeps (.regs :: .ctl :: .ij :: answerParts) s t) ∧
    (s.rd .controlOwner = 1 → s.passed s.ctl.heard (s.rd .devMgtHbTimeout * ticksPerMs) = true →
      ∃ t, exec .ownerRevert s = .next t ∧ t.rd .controlOwner = 0 ∧ t.ctl.staged = [] ∧ t.ctl.ownerAddr = none ∧
        RegsBut [Obj.controlOwner.key] s t ∧ Keeps [.regs, .ctl, .ij] s t) ∧
    (∀ (a : BitVec 128) (sport port own lease : BitVec 16) (mask : BitVec 64) (i : Nat), rq.src = .mgt a sport → Arrives rq s →
      own = (if port = 0 then sport else port) → 10 ≤ lease.toNat → lease.toNat ≤ 3600 →
      s.evt.subs.length = 4 → s.evt.now = [] →
      s.slotHeld a own = some i ∨ (s.slotHeld a own = none ∧ s.slotFree = some i ∧ mask ≠ 0) →
      ∃ t, exec (.subscribe rq mask port lease) s = .next t ∧
        (mask = 0 → (t.evt.subs[i]?).join = none) ∧
        (mask ≠ 0 → ∃ x, (t.evt.subs[i]?).join = some x ∧ x.addr = a ∧ x.port = own ∧ x.mask = mask ∧
          x.lease = lease.toNat ∧ x.since = s.elapsed) ∧
        (∀ j, j ≠ i → t.evt.subs[j]? = s.evt.subs[j]?) ∧ Keeps (.evt :: answerParts) s t) ∧
    (∀ (slot : Fin 4) x, s.evt.now = [] → (s.evt.subs[slot.val]?).join = some x →
      s.passed x.since (x.lease * ticksPerSecond) = true →
      ∃ t, exec (.subscriptionLeaseExpiry slot) s = .next t ∧
        (t.evt.subs[slot.val]?).join = none ∧ (∀ j, j ≠ slot.val → t.evt.subs[j]? = s.evt.subs[j]?) ∧ Keeps [.evt] s t)

/-- An ABORT aborts its scope, whoever owns control. An ABORT that arrives with a legal code and passes the front checks
is answered OK, and what runs in its scope is ABORTING with cause ABORT_DICT: every running site for the device, one
site by its number, and the site of a bundle. A code that R62 does not give is answered RANGE and changes nothing.
SITE_COMMAND 6 is the abort of its site. (R32, R52, R62, R82, R87, R88, R97) -/
def Obligations.AbortRequests : Prop :=
  ∀ (rq : Rq) (s : State),
    (∀ code : BitVec 16, FrontOk rq abortAddr (leBytes 2 code.toNat) s →
      (abortRange code.toNat = .ok →
        ∃ t, exec (.abort rq code) s = .next t ∧ Replied rq svcAbort abortAddr .ok s t ∧ t.mem = s.mem ∧
          (code = 0 → Abortable s → RunningAbort 0x0402 s t) ∧
          (∀ i, i < 12 → s.alive = true → code.toNat = 0x1000 + i → s.siteSt i = .running →
            AbortsWith i 0x0402 t) ∧
          (∀ b i, s.alive = true → code.toNat = 0x2000 + b → s.siteOf b = some i → s.siteSt i = .running →
            AbortsWith i 0x0402 t)) ∧
      (abortRange code.toNat ≠ .ok →
        ∃ t, exec (.abort rq code) s = .next t ∧ Replied rq svcAbort abortAddr .range s t ∧ Keeps answerParts s t)) ∧
    (∀ site : SiteNo, FrontOk rq (Obj.siteCommand.addr site) [6] s → s.alive = true → s.siteSt site = .running →
      ∃ t, exec (.siteAbort rq site) s = .next t ∧ Replied rq svcWrite (Obj.siteCommand.addr site) .ok s t ∧
        AbortsWith site 0x0402 t ∧ t.mem = s.mem)

/-- Accepted site and device commands begin what they say. An accepted SITE_BUNDLES of bundles forms a READY site of them.
An accepted ARM validates and is not answered yet. START remembers the site's next coincidence point, unless one is
remembered already; PAUSE and RESUME are remembered until they take effect, and a PAUSED or a RUNNING site stays so;
DISARM makes an ARMED site READY and leaves a READY one; PAUSE_ALL and RESUME_ALL do this for every site that accepts
it. UNLOAD and CLEAR_FAULT begin to wipe the configuration and are not answered yet; SELF_TEST begins. (R29, R31, R64,
R79, R80, R81, R82, R83, R89, R187) -/
def Obligations.SiteCommands : Prop :=
  ∀ (rq : Rq) (s : State),
    (∀ (i : SiteNo) (mask : BitVec 16), mask ≠ 0 → Accepted rq .siteBundles i 0 mask.toNat {} s →
      ∃ t, exec (.siteBundlesWrite rq i mask) s = .next t ∧ Replied rq svcWrite (Obj.siteBundles.addr i) .ok s t ∧
        t.rd .siteBundles i = mask.toNat ∧ t.siteSt i = .ready ∧ RegsBut [Obj.siteBundles.key i] s t ∧
        OnlySite i (.regs :: answerParts) s t) ∧
    (∀ i : SiteNo,
      (Accepted rq .siteCommand i 0 1 {} s →
        ∃ t, exec (.arm rq i) s = .next t ∧ (t.site i).validating = some rq ∧ OnlySite i [.regs, .ctl] s t ∧
          t.ctl.services = s.ctl.services ++
            [{ rq := rq, service := svcWrite, addr := Obj.siteCommand.addr i, waits := .arm i, since := s.elapsed }]) ∧
      (Accepted rq .siteCommand i 0 2 {} s →
        ∃ t, exec (.start rq i) s = .next t ∧ Replied rq svcWrite (Obj.siteCommand.addr i) .ok s t ∧
          t.site i = { s.site i with startAt := (s.site i).startAt.or (some (s.nextPoint i)) } ∧ OnlySite i answerParts s t) ∧
      (Accepted rq .siteCommand i 0 3 {} s → s.siteSt i = .running →
        ∃ t, exec (.pause rq i) s = .next t ∧ Replied rq svcWrite (Obj.siteCommand.addr i) .ok s t ∧
          t.site i = { s.site i with pausing := true } ∧ OnlySite i answerParts s t) ∧
      (Accepted rq .siteCommand i 0 3 {} s → s.siteSt i = .paused →
        ∃ t, exec (.pause rq i) s = .next t ∧ Replied rq svcWrite (Obj.siteCommand.addr i) .ok s t ∧ Keeps answerParts s t) ∧
      (Accepted rq .siteCommand i 0 4 {} s → s.siteSt i = .running →
        ∃ t, exec (.resume rq i) s = .next t ∧ Replied rq svcWrite (Obj.siteCommand.addr i) .ok s t ∧ Keeps answerParts s t) ∧
      (Accepted rq .siteCommand i 0 5 {} s → s.siteSt i = .ready →
        ∃ t, exec (.disarm rq i) s = .next t ∧ Replied rq svcWrite (Obj.siteCommand.addr i) .ok s t ∧ Keeps answerParts s t) ∧
      (Accepted rq .siteCommand i 0 4 {} s → s.siteSt i = .paused →
        ∃ t, exec (.resume rq i) s = .next t ∧ Replied rq svcWrite (Obj.siteCommand.addr i) .ok s t ∧
          t.site i = { s.site i with resuming := true } ∧ OnlySite i answerParts s t) ∧
      (Accepted rq .siteCommand i 0 5 {} s → s.siteSt i = .armed →
        ∃ t, exec (.disarm rq i) s = .next t ∧ Replied rq svcWrite (Obj.siteCommand.addr i) .ok s t ∧
          t.site i = { s.site i with st := .ready, startAt := none } ∧ OnlySite i answerParts s t)) ∧
    (Accepted rq .devCommand 0 0 1 {} s →
      ∃ t, exec (.pauseAll rq) s = .next t ∧ Replied rq svcWrite Obj.devCommand.addr .ok s t ∧
        Keeps (.sites :: answerParts) s t ∧
        ∀ i, i < 12 → t.site i = { s.site i with pausing := (s.site i).pausing ||
          (s.siteSt i == .running && siteCommandState s i 3 == .ok) }) ∧
    (Accepted rq .devCommand 0 0 2 {} s →
      ∃ t, exec (.resumeAll rq) s = .next t ∧ Replied rq svcWrite Obj.devCommand.addr .ok s t ∧
        Keeps (.sites :: answerParts) s t ∧
        ∀ i, i < 12 → t.site i = { s.site i with resuming := (s.site i).resuming ||
          (s.siteSt i == .paused && siteCommandState s i 4 == .ok) }) ∧
    (Accepted rq .devCommand 0 0 3 { cleared := some true } s →
      ∃ t, exec (.clearFault rq true) s = .next t ∧ t.dev.fault = none ∧ t.dev.wiping = true ∧ t.cfg.loaded = false ∧
        (∀ i, i < 12 → t.siteSt i = .none) ∧ t.mem = s.mem ∧
        { rq := rq, service := svcWrite, addr := Obj.devCommand.addr, waits := Waits.unload, since := s.elapsed } ∈ t.ctl.services) ∧
    (Accepted rq .devCommand 0 0 4 {} s →
      ∃ t, exec (.unload rq) s = .next t ∧ t.dev.wiping = true ∧ t.cfg.loaded = false ∧
        (∀ i, i < 12 → t.siteSt i = .none) ∧ t.mem = s.mem ∧
        { rq := rq, service := svcWrite, addr := Obj.devCommand.addr, waits := Waits.unload, since := s.elapsed } ∈ t.ctl.services) ∧
    (Accepted rq .devCommand 0 0 5 {} s →
      ∃ t, exec (.selfTest rq) s = .next t ∧ Replied rq svcWrite Obj.devCommand.addr .ok s t ∧ t.dev.selfTest = true ∧
        t.rd .devSelftestState = 1 ∧ RegsBut [Obj.devSelftestState.key] s t ∧ Keeps (.regs :: .dev :: answerParts) s t)

/-- Accepted writes to the front end, the pool and the measurement chain. An accepted clear of PORT_STATUS leaves no
sticky bit; pool cells read the bytes written, and wave registers too, but that ACC_CLEAR reads 0; a link joins its
terminal to its node or opens it, and no other link changes. The measurement configuration reads as written with a
synchronising reset at the next MOD edge; the select of another input and SYNC reset the chain too, and keep
TARGET_BANK and FADE_LEN; SWAP queues behind a fade, waits for the next output where the FIR is bypassed, and
otherwise begins a fade to the other bank. Coefficients of the bank not in use are written and every other tap stays.
(R146, R147, R148, R157, R163, R166, R167, R175, R544) -/
def Obligations.AnalogueWrites : Prop :=
  ∀ (rq : Rq) (b : BundleNo) (s : State),
    (∀ (p : PortNo) (v : Byte), Accepted rq .portStatusClear p 0 v.toNat {} s →
      ∃ t, exec (.portStatusClear rq p v) s = .next t ∧ Replied rq svcWrite (Obj.portStatusClear.addr p) .ok s t ∧
        t.portStatus p / 2 ^ 8 = 0 ∧ t.portStatus p % 2 ^ 8 = s.portStatus p % 2 ^ 8 ∧ OnlyPort p answerParts s t) ∧
    (∀ (off : Nat) (data : List Byte), AcceptedBlock rq .bndPoolCells b off data s →
      ∃ t, exec (.poolCellsWrite rq b off data) s = .next t ∧
        RepliedBlock rq (Obj.bndPoolCells.addr b) off data.length .ok s t ∧
        t.dom .bndPoolCells b 0 off data.length = data ∧ OnlyBnd b (.doms :: .ctl :: answerParts) s t) ∧
    (∀ (node : BitVec 6) (cell : Fin 16) (terminal : Fin 8),
      (Accepted rq .bndPoolLink b 0 (linkWord true node.toNat cell terminal) {} s →
        ∃ t, exec (.poolLinkClose rq b node cell terminal) s = .next t ∧
          Replied rq svcWrite (Obj.bndPoolLink.addr b) .ok s t ∧ t.linkOf b cell terminal = node.toNat ∧
          (∀ c n : Nat, 8 * c + n ≠ 8 * cell.val + terminal.val → t.linkOf b c n = s.linkOf b c n) ∧
          OnlyBnd b (.regs :: answerParts) s t) ∧
      (Accepted rq .bndPoolLink b 0 (linkWord false 0 cell terminal) {} s →
        ∃ t, exec (.poolLinkOpen rq b cell terminal) s = .next t ∧
          Replied rq svcWrite (Obj.bndPoolLink.addr b) .ok s t ∧ t.linkOf b cell terminal = 0x3F ∧
          (∀ c n : Nat, 8 * c + n ≠ 8 * cell.val + terminal.val → t.linkOf b c n = s.linkOf b c n) ∧
          OnlyBnd b (.regs :: answerParts) s t)) ∧
    (∀ (off : Nat) (data : List Byte), AcceptedBlock rq .bndPoolWave b off data s →
      ∃ t, exec (.poolWaveWrite rq b off data) s = .next t ∧
        RepliedBlock rq (Obj.bndPoolWave.addr b) off data.length .ok s t ∧
        (∀ k x, data[k]? = some x → t.dom .bndPoolWave b 0 (off + k) 1
          = [if off + k = 12 ∨ off + k = 28 then BitVec.ofNat 8 (x.toNat / 2 * 2) else x]) ∧ OnlyBnd b (.doms :: .ctl :: answerParts) s t) ∧
    (∀ v : BitVec 32, Accepted rq .bndMeasConfig b 0 v.toNat {} s →
      ∃ t, exec (.measConfigWrite rq b v) s = .next t ∧ Replied rq svcWrite (Obj.bndMeasConfig.addr b) .ok s t ∧
        t.rd .bndMeasConfig b = v.toNat ∧ (t.bnd b).meas.syncTime = nextMod s.time ∧ (t.bnd b).meas.outN = 0 ∧
        (t.bnd b).meas.fade = none ∧ RegsBut [Obj.bndMeasConfig.key b] s t ∧ OnlyBnd b (.regs :: answerParts) s t) ∧
    (∀ input : BitVec 6, Accepted rq .bndMeasControl b 0
        (input.toNat * 2 ^ 16 + bits (s.rd .bndMeasControl b) 0 10) {} s →
      ∃ t, exec (.measInputSelect rq b input) s = .next t ∧ Replied rq svcWrite (Obj.bndMeasControl.addr b) .ok s t ∧
        (t.reg .bndMeasControl b).fld 16 6 = input.toNat ∧
        bits (t.rd .bndMeasControl b) 0 10 = bits (s.rd .bndMeasControl b) 0 10 ∧
        (t.bnd b).meas.syncTime
          = (if (s.reg .bndMeasControl b).fld 16 6 = input.toNat then (s.bnd b).meas.syncTime else nextMod s.time) ∧
        OnlyBnd b (.regs :: answerParts) s t) ∧
    (Accepted rq .bndMeasControl b 0 (measControlKept (s.rd .bndMeasControl b) + 2 ^ 12) {} s →
      ∃ t, exec (.sync rq b) s = .next t ∧ Replied rq svcWrite (Obj.bndMeasControl.addr b) .ok s t ∧
        t.rd .bndMeasControl b = measControlKept (s.rd .bndMeasControl b) ∧
        (t.bnd b).meas.syncTime = nextMod s.time ∧ OnlyBnd b (.regs :: answerParts) s t) ∧
    (∀ (target : Bool) (len : BitVec 9), Accepted rq .bndMeasControl b 0
        (bits (s.rd .bndMeasControl b) 16 6 * 2 ^ 16 + 2 ^ 13 + (if target then 2 ^ 9 else 0) + len.toNat) {} s →
      ∃ t, exec (.swap rq b target len) s = .next t ∧ Replied rq svcWrite (Obj.bndMeasControl.addr b) .ok s t ∧
        (t.bnd b).meas =
          (if (s.bnd b).meas.fade.isSome then { (s.bnd b).meas with queued := some (target, len.toNat) }
          else if (s.measPreset b).sinc5 = false ∨ s.measScs b = true then { (s.bnd b).meas with instant := some target }
          else if target = (s.bnd b).meas.active then (s.bnd b).meas
          else { (s.bnd b).meas with fade := some ⟨0, len.toNat, target⟩ }) ∧
        OnlyBnd b (.regs :: answerParts) s t) ∧
    (∀ (off : Nat) (data : List Byte), AcceptedBlock rq .bndMeasCoef b off data s →
      ∃ t, exec (.measCoefWrite rq b off data) s = .next t ∧
        RepliedBlock rq (Obj.bndMeasCoef.addr b) off data.length .ok s t ∧
        (∀ k, k < 128 → 4 * k + 4 ≤ off ∨ off + data.length ≤ 4 * k →
          Store.get none k (t.bnd b).meas.taps = Store.get none k (s.bnd b).meas.taps) ∧
        (∀ k, k < 128 → off ≤ 4 * k → 4 * k + 4 ≤ off + data.length →
          Store.get none k (t.bnd b).meas.taps
            = some (BitVec.ofNat 32 (leNat ((data.drop (4 * k - off)).take 4)))) ∧
        OnlyBnd b (.ctl :: answerParts) s t)

/-- Accepted writes to the timebase. An accepted role is the role, a new one starts acquisition anew, and the one in force
changes nothing; an accepted LINE ratio stops WORD until it has settled and is not answered yet. A master's SYNC,
START or PAUSE goes down every running output, twice, back to back, and waits for DEV_EVENT_TIME; HOLD goes down at
once. A fixture measurement begins at its output with the result at 0. (R180, R185, R197, R198, R206) -/
def Obligations.TimebaseWrites : Prop :=
  ∀ (rq : Rq) (s : State),
    (∀ v : Byte, Accepted rq .warpRole 0 0 v.toNat {} s →
      ∃ t, exec (.warpRoleWrite rq v) s = .next t ∧ Replied rq svcWrite Obj.warpRole.addr .ok s t ∧ t.role = v.toNat ∧
        t.tb.state = (if v.toNat = s.role then s.tb.state else if s.devState = 7 ∧ s.cfg.loaded = true then 2 else if v = 2 then 3 else 0) ∧
        (v.toNat = s.role → Keeps answerParts s t) ∧
        Keeps (.time :: .regs :: .tb :: answerParts) s t) ∧
    (∀ (b : BundleNo) (v : BitVec 64), Accepted rq .devLineRatio 0 b v.toNat {} s →
      ∃ t, exec (.lineRatioWrite rq b v) s = .next t ∧
        t.bnd b = { s.bnd b with lineNext := some (v.toNat % 2 ^ 32) } ∧ OnlyBnd b [.ctl] s t ∧
        t.ctl.services = s.ctl.services ++
          [{ rq := rq, service := svcWrite, addr := Obj.devLineRatio.addr 0 b, waits := .line b, since := s.elapsed }]) ∧
    (∀ group : Byte,
      (Accepted rq .devEventSend 0 0 (1 * 2 ^ 12 + group.toNat) {} s →
        ∃ t, exec (.eventSendSync rq group) s = .next t ∧ Replied rq svcWrite Obj.devEventSend.addr .ok s t ∧
          t.tb.sched = s.tb.sched ++ [{ type := 1, group := group.toNat, time := s.rd .devEventTime }] ∧
          (∀ w, w = WarpSet.body ⟨1, group.toNat, s.tb.txSeq, s.rd .devEventTime⟩ → ∀ n ∈ s.outsRunning,
            [Msg.warp (some n) (checked w), .warp (some n) (checked w)] <:+: t.out) ∧
          Keeps (.tb :: answerParts) s t) ∧
      (Accepted rq .devEventSend 0 0 (2 * 2 ^ 12 + group.toNat) {} s →
        ∃ t, exec (.eventSendStart rq group) s = .next t ∧ Replied rq svcWrite Obj.devEventSend.addr .ok s t ∧
          t.tb.sched = s.tb.sched ++ [{ type := 2, group := group.toNat, time := s.rd .devEventTime }] ∧
          (∀ w, w = WarpSet.body ⟨2, group.toNat, s.tb.txSeq, s.rd .devEventTime⟩ → ∀ n ∈ s.outsRunning,
            [Msg.warp (some n) (checked w), .warp (some n) (checked w)] <:+: t.out) ∧
          Keeps (.tb :: answerParts) s t) ∧
      (Accepted rq .devEventSend 0 0 (3 * 2 ^ 12 + group.toNat) {} s →
        ∃ t, exec (.eventSendPause rq group) s = .next t ∧ Replied rq svcWrite Obj.devEventSend.addr .ok s t ∧
          t.tb.sched = s.tb.sched ++ [{ type := 3, group := group.toNat, time := s.rd .devEventTime }] ∧
          (∀ w, w = WarpSet.body ⟨3, group.toNat, s.tb.txSeq, s.rd .devEventTime⟩ → ∀ n ∈ s.outsRunning,
            [Msg.warp (some n) (checked w), .warp (some n) (checked w)] <:+: t.out) ∧
          Keeps (.tb :: answerParts) s t) ∧
      (Accepted rq .devEventSend 0 0 (5 * 2 ^ 12 + group.toNat) {} s →
        ∃ t, exec (.eventSendHold rq group) s = .next t ∧ Replied rq svcWrite Obj.devEventSend.addr .ok s t ∧
          t.tb.sched = s.tb.sched ∧ (∀ w, w = WarpSet.body ⟨5, 0, s.tb.txSeq, s.time⟩ → ∀ n ∈ s.outsRunning,
            [Msg.warp (some n) (checked w), .warp (some n) (checked w)] <:+: t.out) ∧
          Keeps (.tb :: answerParts) s t)) ∧
    (∀ v : Byte, Accepted rq .devWarpChar 0 0 v.toNat {} s →
      ∃ t, exec (.warpChar rq v) s = .next t ∧ Replied rq svcWrite Obj.devWarpChar.addr .ok s t ∧
        t.rd .devWarpCharResult = 0 ∧ t.tb = { s.tb with charOut := some (Fin.ofNat 4 v.toNat), charSince := s.elapsed } ∧
        RegsBut [Obj.devWarpCharResult.key] s t ∧ Keeps (.regs :: .tb :: answerParts) s t)

/-- Accepted writes to contexts, injection, capture, lanes and calibration. An accepted FREE stages FREE contexts for its
range, and LOAD and RESTORE stage the images they read or refuse the whole command; none is answered before it
completes. Injection is armed, disarmed or armed for one shot. BND_CAP_READ outside WRAP mode moves on to its value.
TXEQ reads the taps written, tied to the lane's WORD cycle, and RXEQ comes into force at the lane's next WORD
boundary, at once while TIME does not run. A calibration request is the port's, or its running cycle's before that has
passed Listen; a cancelled one is gone; CLEAR_SUB ends a substitution. (R240, R263, R273, R328, R343, R350, R378,
R381, R386) -/
def Obligations.EngineWrites : Prop :=
  ∀ (rq : Rq) (b : BundleNo) (s : State),
    (∀ (count : BitVec 13) (first : CtxNo), Accepted rq .bndPeCtxCmd b 0 (ctxCmdWord 2 count.toNat first 0) {} s →
      ∃ t, exec (.free rq b count first) s = .next t ∧
        (t.bnd b).pe.staged = (upto count.toNat).map (fun k => (first.val + k, default)) ∧ OnlyBnd b [.ctl] s t ∧
        t.ctl.services = s.ctl.services ++
          [{ rq := rq, service := svcWrite, addr := Obj.bndPeCtxCmd.addr b, waits := .ctxCmd b, since := s.elapsed }]) ∧
    (∀ (op : Nat) (i : Instr) (count : BitVec 13) (first : CtxNo) (src : BitVec 30), Healthy s →
      (op = 1 ∧ i = .load rq b count first src) ∨ (op = 3 ∧ i = .restore rq b count first src) →
      Accepted rq .bndPeCtxCmd b 0 (ctxCmdWord op count.toNat first src.toNat) {} s →
      ((ctxCmdRead op count.toNat first src.toNat (received rq s)).1 = .ok →
        ∃ t, exec i s = .next t ∧
          (t.bnd b).pe.staged = (ctxCmdRead op count.toNat first src.toNat (received rq s)).2.1 ∧
          t.mem = s.mem ∧ OnlyBnd b [.free, .regs, .ctl, .chans] s t) ∧
      (∀ st, (ctxCmdRead op count.toNat first src.toNat (received rq s)).1 = st → st ≠ .ok →
        ∃ t, exec i s = .next t ∧ Replied rq svcWrite (Obj.bndPeCtxCmd.addr b) st s t ∧ t.bnd b = s.bnd b ∧
          t.mem = s.mem ∧ ∀ c, t.ctx c = s.ctx c)) ∧
    ((Accepted rq .bndInjControl b 0 1 {} s →
        ∃ t, exec (.injArm rq b) s = .next t ∧ Replied rq svcWrite (Obj.bndInjControl.addr b) .ok s t ∧
          t.rd .bndInjControl b = 1 ∧ (t.bnd b).inj.oneShot = false ∧
          (s.rd .bndInjControl b = 0 → (t.bnd b).inj.hits = 0) ∧ OnlyBnd b (.regs :: answerParts) s t) ∧
      (Accepted rq .bndInjControl b 0 0 {} s →
        ∃ t, exec (.injDisarm rq b) s = .next t ∧ Replied rq svcWrite (Obj.bndInjControl.addr b) .ok s t ∧
          t.rd .bndInjControl b = 0 ∧ (t.bnd b).inj = { (s.bnd b).inj with oneShot := false } ∧
          OnlyBnd b (.regs :: answerParts) s t) ∧
      (Accepted rq .bndInjControl b 0 2 {} s →
        ∃ t, exec (.injOneShot rq b) s = .next t ∧ Replied rq svcWrite (Obj.bndInjControl.addr b) .ok s t ∧
          t.rd .bndInjControl b = 2 ∧ (t.bnd b).inj.oneShot = true ∧ OnlyBnd b (.regs :: answerParts) s t)) ∧
    (∀ (v : BitVec 64) (i : Nat), Accepted rq .bndCapRead b 0 v.toNat {} s → s.siteOf b = some i →
      (s.step1 i).wrapMode = false → (s.ring i).endDue = none →
      ∃ t, exec (.capReadWrite rq b v) s = .next t ∧ Replied rq svcWrite (Obj.bndCapRead.addr b) .ok s t ∧
        t.rd .bndCapRead b = v.toNat ∧ RegsBut [Obj.bndCapRead.key b] s t ∧ Keeps (.regs :: answerParts) s t) ∧
    (∀ (p : PortNo) (v : BitVec 64), Accepted rq .portSerTxeq p 0 v.toNat {} s →
      ∃ t, exec (.txeqWrite rq p v) s = .next t ∧ Replied rq svcWrite (Obj.portSerTxeq.addr p) .ok s t ∧
        txTaps (t.reg .portSerTxeq p) = txTaps v ∧ (t.lane p).eqDict = some (s.wordIndex (bundleOfPort p)) ∧
        RegsBut [Obj.portSerTxeq.key p] s t ∧ OnlyPort p (.regs :: answerParts) s t) ∧
    (∀ (p : PortNo) (off : Nat) (data : List Byte), AcceptedBlock rq .portSerRxeq p off data s →
      ∃ t, exec (.rxeqWrite rq p off data) s = .next t ∧
        RepliedBlock rq (Obj.portSerRxeq.addr p) off data.length .ok s t ∧
        (s.timeRuns = false → t.dom .portSerRxeq p 0 off data.length = data ∧ (t.lane p).rx.next = none) ∧
        (s.timeRuns = true → (t.lane p).rx.next = some (s.wordIndex (bundleOfPort p), data)) ∧
        OnlyPort p (.doms :: .ctl :: answerParts) s t) ∧
    (∀ p : PortNo,
      (Accepted rq .portCalRequest p 0 0 {} s →
        ∃ t, exec (.calRequestCancel rq p) s = .next t ∧ Replied rq svcWrite (Obj.portCalRequest.addr p) .ok s t ∧
          (t.port p).cal.request = 0 ∧ (t.port p).cal.pending = (s.port p).cal.pending.filter (· != trigHost) ∧
          OnlyPort p answerParts s t) ∧
      (∀ (v : Nat) (i : Instr), (v = 1 ∧ i = .calRequestLive rq p) ∨ (v = 2 ∧ i = .calRequestOffline rq p) →
        Accepted rq .portCalRequest p 0 v {} s →
        (s.merges p = none →
          ∃ t, exec i s = .next t ∧ Replied rq svcWrite (Obj.portCalRequest.addr p) .ok s t ∧
            (t.port p).cal.request = v ∧ (s.retired p = false → trigHost ∈ (t.port p).cal.pending) ∧
            OnlyPort p answerParts s t) ∧
        (∀ c, s.merges p = some c → s.retired p = false →
          ∃ t, exec i s = .next t ∧ Replied rq svcWrite (Obj.portCalRequest.addr p) .ok s t ∧
            (t.bnd (bundleOfPort p)).cal.cycle = some { c with request := v, kinds := (trigHost :: c.kinds).eraseDups } ∧
            Keeps (.bnds :: .ports :: answerParts) s t))) ∧
    (∀ slot : Fin 16, Accepted rq .bndCalCommand b 0 (2 ^ 12 + slot.val) {} s →
      ∃ t, exec (.clearSub rq b slot) s = .next t ∧ Replied rq svcWrite (Obj.bndCalCommand.addr b) .ok s t ∧
        (t.port (8 * b + slot.val)).cal.substituted = false ∧ (t.port (8 * b + slot.val)).cal.replaced = false ∧
        (t.port (8 * b + slot.val)).cal.failed = false ∧ Keeps (.regs :: .bnds :: .ports :: answerParts) s t)

/-- Accepted writes to the fabric, the loader and the keys. Accepted divider ratios wait until they settle; a clock
selection and a reset read as written; a reset that is asked for is on; probe selections read as written and come into
force later. ARM starts the trace empty with the fields of the value, FORCE makes the next sample of an armed MANUAL
trace its trigger and STOP ends it. BEGIN_FULL dissolves every site, makes every port inert and begins a load; a
partial load begins with the wipe of its region behind closed latches; a chunk is taken in as the parser reads it: its
bytes are counted, the upsett begins where the stream ends without an error and every frame of a full load is written,
and the load ends where the stream or its ending is in error. The key RAM takes its key and loses it. (R394, R395,
R396, R410, R411, R425, R426, R437, R443) -/
def Obligations.FabricWrites : Prop :=
  ∀ (rq : Rq) (q : QuadNo) (s : State),
    (∀ v : BitVec 64, Accepted rq .qdClkDiv q 0 v.toNat {} s →
      ∃ t, exec (.clkDivWrite rq q v) s = .next t ∧ t.quad q = { s.quad q with divNext := some v.toNat } ∧
        OnlyQuad q [.ctl] s t ∧ t.ctl.services = s.ctl.services ++
          [{ rq := rq, service := svcWrite, addr := Obj.qdClkDiv.addr q, waits := .clkDiv q, since := s.elapsed }]) ∧
    (∀ v : BitVec 16, Accepted rq .qdClkSel q 0 v.toNat {} s →
      ∃ t, exec (.clkSelWrite rq q v) s = .next t ∧ Replied rq svcWrite (Obj.qdClkSel.addr q) .ok s t ∧
        t.rd .qdClkSel q = v.toNat ∧ RegsBut [Obj.qdClkSel.key q] s t ∧ OnlyQuad q (.regs :: answerParts) s t) ∧
    (∀ v : Byte, Accepted rq .qdReset q 0 v.toNat {} s →
      ∃ t, exec (.qdResetWrite rq q v) s = .next t ∧ Replied rq svcWrite (Obj.qdReset.addr q) .ok s t ∧
        t.rd .qdReset q = v.toNat ∧ (∀ r, r < 4 → v.getLsbD r = true → (t.tree q r).reset = true) ∧
        RegsBut [Obj.qdReset.key q] s t ∧ OnlyQuad q (.regs :: answerParts) s t) ∧
    (∀ (off : Nat) (data : List Byte), AcceptedBlock rq .qdProbeSel q off data s →
      ∃ t, exec (.probeSelWrite rq q off data) s = .next t ∧
        RepliedBlock rq (Obj.qdProbeSel.addr q) off data.length .ok s t ∧
        t.dom .qdProbeSel q 0 off data.length = data ∧
        t.quad q = { s.quad q with probeDue := (s.quad q).probeDue ++ [(s.time + 175, t.dom .qdProbeSel q 0 0 16)] } ∧
        OnlyQuad q (.doms :: .ctl :: answerParts) s t) ∧
    (∀ v : BitVec 64,
      (Accepted rq .qdTraceCtl q 0 (v.toNat - traceCommand v.toNat + 1) {} s →
        ∃ t, exec (.traceArm rq q v) s = .next t ∧ Replied rq svcWrite (Obj.qdTraceCtl.addr q) .ok s t ∧
          (t.quad q).trace.armed = true ∧ (t.quad q).trace.taken = 0 ∧ (t.quad q).trace.samples = [] ∧
          (t.quad q).trace.triggered = false ∧ t.rd .qdTraceCtl q = v.toNat - traceCommand v.toNat ∧
          OnlyQuad q (.regs :: answerParts) s t) ∧
      (Accepted rq .qdTraceCtl q 0 (v.toNat - traceCommand v.toNat + 2) {} s →
        ∃ t, exec (.traceForce rq q v ()) s = .next t ∧ Replied rq svcWrite (Obj.qdTraceCtl.addr q) .ok s t ∧
          (t.quad q).trace = { (s.quad q).trace with forced := (s.quad q).trace.forced ||
            ((s.quad q).trace.armed && !(s.quad q).trace.triggered && traceSrc (s.quad q).trace.ctl == 0) } ∧
          OnlyQuad q (.regs :: answerParts) s t) ∧
      (Accepted rq .qdTraceCtl q 0 (v.toNat - traceCommand v.toNat + 3) {} s →
        ∃ t, exec (.traceStop rq q v ()) s = .next t ∧ Replied rq svcWrite (Obj.qdTraceCtl.addr q) .ok s t ∧
          (t.quad q).trace.armed = false ∧ (t.quad q).trace.done = true ∧ OnlyQuad q (.regs :: answerParts) s t)) ∧
    (Accepted rq .devCfgCommand 0 0 1 {} s →
      ∃ t, exec (.beginFull rq) s = .next t ∧ Replied rq svcWrite Obj.devCfgCommand.addr .ok s t ∧
        t.cfg.load = some { kind := .full, phase := .receive, chunkAt := s.elapsed } ∧ t.cfg.frames = [] ∧ t.cfg.loaded = false ∧
        (∀ i, i < 12 → t.siteSt i = .none) ∧ (∀ p, p < 108 → (t.enables p).none = true) ∧ t.mem = s.mem) ∧
    (∀ (quad : Option QuadNo) (o : Obj) (u : Nat) (data : List Byte) (l : Load) (g : Fed),
      (quad = none ∧ o = .devCfgStream ∧ u = 0) ∨ (∃ r : QuadNo, quad = some r ∧ o = .qdPrStream ∧ u = r) →
      AcceptedBlock rq o u 0 data s → s.cfg.load = some l →
      g = streamRun l.kind s.keys (l.parse.buf.length + data.length + l.parse.body.length + 2)
        { parse := { l.parse with buf := l.parse.buf ++ data } } →
      ∃ t, exec (.cfgChunk rq quad data) s = .next t ∧ t.mem = s.mem ∧
        (quad = none → t.rd .devCfgBytes = min (s.rd .devCfgBytes + data.length) 0xFFFFFFFFFFFFFFFF) ∧
        (∀ r : QuadNo, quad = some r →
          t.rd .qdPrBytes r = min (s.rd .qdPrBytes r + data.length) (2 ^ (8 * Obj.qdPrBytes.row.size) - 1)) ∧
        t.cfg.frames = g.wrote.foldl (fun m e => Store.put [] e.1 e.2 m) s.cfg.frames ∧
        (∀ code place, g.err = some (code, place) →
          RepliedBlock rq (o.addr u) 0 data.length (chunkStatus code) s t ∧ t.cfg.load = none) ∧
        (g.err = none → g.start = false →
          RepliedBlock rq (o.addr u) 0 data.length .ok s t ∧
          t.cfg.load = some { l with parse := g.parse, chunkAt := s.elapsed } ∧
          Keeps (.regs :: .ctl :: .cfg :: answerParts) s t) ∧
        (g.err = none → g.start = true →
          (l.kind = .full ∧ t.cfg.frames.length ≠ frameCount →
            RepliedBlock rq (o.addr u) 0 data.length .range s t ∧ t.cfg.load = none ∧ t.rd .devCfgError = 11) ∧
          (l.kind ≠ .full ∨ t.cfg.frames.length = frameCount →
            RepliedBlock rq (o.addr u) 0 data.length .ok s t ∧
            t.cfg.load = some { l with parse := g.parse, chunkAt := s.elapsed, phase := .upsett, steps := 0, stepTime := s.elapsed }))) ∧
    (∀ r : Fin 4, Accepted rq .qdPrCommand q 0 (2 ^ 4 + r.val) {} s →
      ∃ t, exec (.prBegin rq q r) s = .next t ∧ Replied rq svcWrite (Obj.qdPrCommand.addr q) .ok s t ∧
        t.cfg.load = some { kind := .part q r, phase := .wipe, chunkAt := s.elapsed } ∧ (t.region q r).st = .wiping ∧
        (t.region q r).closed = true ∧ (t.region q r).outputs = false ∧
        OnlyQuad q (.regs :: .cfg :: answerParts) s t) ∧
    (∀ data : List Byte, AcceptedBlock rq .devKeyRam 0 0 data s →
      ∃ t, exec (.keyRamWrite rq 0 data) s = .next t ∧ RepliedBlock rq Obj.devKeyRam.addr 0 data.length .ok s t ∧
        t.cfg = { s.cfg with keyRam := some data } ∧ Keeps (.cfg :: .ctl :: answerParts) s t) ∧
    (∀ v : Byte, Accepted rq .devKeyRamClear 0 0 v.toNat {} s →
      ∃ t, exec (.keyRamClear rq v) s = .next t ∧ Replied rq svcWrite Obj.devKeyRamClear.addr .ok s t ∧
        t.cfg = { s.cfg with keyRam := none } ∧ Keeps (.cfg :: answerParts) s t)

/-- Accepted writes to the NoC, the memory, the log, power and injection. The shadow table reads as written and the
default copy clears it; a SWAP whose check passes begins back-pressure and is not answered yet, one whose check fails
is answered RANGE with its reason. Memory regions read as written. A declared lane puts its channel into ERASURE,
ISOLATE isolates it with cause 4, RETRAIN begins its training, SCRUB_NOW starts its pass anew. A cleared log has no
entry. POWER_UP raises enable 0 and changes nothing while the rails are on, POWER_DOWN without a site in use goes to
Hold, aborts the running sites first, and in a power-up lowers the enable of its step; a quadrant begins to close and
begins to switch on. Injection unlocks on its second value within 10 ms, is armed with its count, and is disarmed.
(R454, R456, R461, R476, R479, R481, R515, R517, R518, R519, R533, R540) -/
def Obligations.SystemWrites : Prop :=
  ∀ (rq : Rq) (s : State),
    (∀ (off : Nat) (data : List Byte), AcceptedBlock rq .devNocShadow 0 off data s →
      ∃ t, exec (.nocShadowWrite rq off data) s = .next t ∧
        RepliedBlock rq Obj.devNocShadow.addr off data.length .ok s t ∧
        t.noc.image (!s.noc.epoch) off data.length = data ∧ t.noc.epoch = s.noc.epoch ∧
        (∀ k, t.noc.entry s.noc.epoch k = s.noc.entry s.noc.epoch k) ∧ Keeps (.noc :: .ctl :: answerParts) s t) ∧
    (Accepted rq .devNocSwap 0 0 1 {} s →
      (s.noc.check (!s.noc.epoch) = none →
        ∃ t, exec (.nocSwap rq) s = .next t ∧ t.noc = { s.noc with swap := 1, swapSince := s.elapsed } ∧ t.rd .devNocSwapResult = 0 ∧
          t.ctl.services = s.ctl.services ++
            [{ rq := rq, service := svcWrite, addr := Obj.devNocSwap.addr, waits := .swap, since := s.elapsed }] ∧
          RegsBut [Obj.devNocSwapResult.key] s t ∧ Keeps [.regs, .noc, .ctl] s t) ∧
      (∀ r n d, s.noc.check (!s.noc.epoch) = some (r, n, d) → r < 256 → n < 256 → d < 256 →
        ∃ t, exec (.nocSwap rq) s = .next t ∧ Replied rq svcWrite Obj.devNocSwap.addr .range s t ∧
          t.rd .devNocSwapResult = 0x06000000 + r * 65536 + n * 256 + d ∧ RegsBut [Obj.devNocSwapResult.key] s t ∧
          Keeps (.regs :: answerParts) s t)) ∧
    (Accepted rq .devNocSwap 0 0 2 {} s →
      ∃ t, exec (.nocDefaultCopy rq) s = .next t ∧ Replied rq svcWrite Obj.devNocSwap.addr .ok s t ∧
        (∀ k, t.noc.entry (!s.noc.epoch) k = defaultEntry k) ∧
        (∀ k, t.noc.entry s.noc.epoch k = s.noc.entry s.noc.epoch k) ∧ Keeps (.noc :: answerParts) s t) ∧
    (∀ (off : Nat) (data : List Byte), AcceptedBlock rq .devMemRegions 0 off data s →
      ∃ t, exec (.memRegionsWrite rq off data) s = .next t ∧
        RepliedBlock rq Obj.devMemRegions.addr off data.length .ok s t ∧
        t.dom .devMemRegions 0 0 off data.length = data ∧ Keeps (.doms :: .ctl :: answerParts) s t) ∧
    (∀ (c : Fin 16) (lane : Fin 32),
      (Accepted rq .devMemCmd 0 0 (1 * 2 ^ 12 + c.val * 2 ^ 8 + lane.val) {} s →
        ∃ t, exec (.declareLane rq c lane) s = .next t ∧ Replied rq svcWrite Obj.devMemCmd.addr .ok s t ∧
          t.chan c = { s.chan c with st := .erasure, lane := some lane, recent := [] } ∧ OnlyChan c answerParts s t) ∧
      (Accepted rq .devMemCmd 0 0 (2 * 2 ^ 12 + c.val * 2 ^ 8 + 0) {} s →
        ∃ t, exec (.isolate rq c) s = .next t ∧ Replied rq svcWrite Obj.devMemCmd.addr .ok s t ∧
          (t.chan c).st = .isolated ∧ (t.chan c).cause = 4 ∧ (∀ d, d ≠ c.val → t.chan d = s.chan d) ∧ t.mem = s.mem ∧
          (∀ i, i < 12 → s.siteSt i = .running → s.siteHolds i c = true → AbortsWith i 0x1403 t)) ∧
      (Accepted rq .devMemCmd 0 0 (3 * 2 ^ 12 + c.val * 2 ^ 8 + 0) {} s →
        ∃ t, exec (.retrain rq c) s = .next t ∧ Replied rq svcWrite Obj.devMemCmd.addr .ok s t ∧
          t.chan c = { s.chan c with st := .init, initSince := s.elapsed, retraining := true } ∧ t.rd .devMemCmdState = 1 ∧
          OnlyChan c (.regs :: answerParts) s t) ∧
      (Accepted rq .devMemCmd 0 0 (4 * 2 ^ 12 + c.val * 2 ^ 8 + 0) {} s →
        ∃ t, exec (.scrubNow rq c) s = .next t ∧ Replied rq svcWrite Obj.devMemCmd.addr .ok s t ∧
          t.chan c = { s.chan c with scrub := 0, scrubNow := true } ∧ OnlyChan c answerParts s t)) ∧
    (∀ v : Byte, Accepted rq .devLogClear 0 0 v.toNat {} s → s.evt.now = [] →
      ∃ t, exec (.devLogClear rq v) s = .next t ∧ Replied rq svcWrite Obj.devLogClear.addr .ok s t ∧ t.logValid = 0 ∧
        Keeps (.ledger :: answerParts) s t) ∧
    (Accepted rq .devPwrCommand 0 0 1 {} s →
      (s.rim.seq = .off →
        ∃ t, exec (.powerUp rq ()) s = .next t ∧ Replied rq svcWrite Obj.devPwrCommand.addr .ok s t ∧
          t.rim.seq = .step 0 ∧ t.rim.since = s.elapsed ∧ t.rim.en.getLsbD 0 = true ∧ t.rim.mainReset = true ∧
          Keeps (.rim :: answerParts) s t) ∧
      (s.rim.seq = .on →
        ∃ t, exec (.powerUp rq ()) s = .next t ∧ Replied rq svcWrite Obj.devPwrCommand.addr .ok s t ∧ Keeps answerParts s t)) ∧
    (Accepted rq .devPwrCommand 0 0 2 {} s →
      (s.rim.seq = .on → s.anySite SiteSt.active = false →
        ∃ t, exec (.powerDown rq) s = .next t ∧ Replied rq svcWrite Obj.devPwrCommand.addr .ok s t ∧ t.rim.seq = .hold ∧
          t.rim.mainReset = true ∧ t.alive = false ∧ t.ledger = s.ledger) ∧
      (∀ i, i < 12 → s.rim.seq = .on → Abortable s → s.siteSt i = .running →
        ∃ t, exec (.powerDown rq) s = .next t ∧ Replied rq svcWrite Obj.devPwrCommand.addr .ok s t ∧ t.rim.seq = .abort ∧
          RunningAbort 0x2404 s t) ∧
      (∀ k, s.rim.seq = .step k →
        ∃ t, exec (.powerDown rq) s = .next t ∧ Replied rq svcWrite Obj.devPwrCommand.addr .ok s t ∧ t.rim.seq = .down k ∧
          t.rim.en.getLsbD k.val = false ∧ Keeps (.rim :: answerParts) s t)) ∧
    (∀ q : QuadNo,
      (Accepted rq .qdPwrCommand q 0 1 {} s →
        ∃ t, exec (.qdPowerDown rq q) s = .next t ∧ Replied rq svcWrite (Obj.qdPwrCommand.addr q) .ok s t ∧
          (t.quad q).power = .closing ∧ (∀ b ∈ quadBundles q, (t.bnd b).cal.cycle = none) ∧ t.mem = s.mem) ∧
      (Accepted rq .qdPwrCommand q 0 2 {} s →
        ∃ t, exec (.qdPowerUp rq q) s = .next t ∧ Replied rq svcWrite (Obj.qdPwrCommand.addr q) .ok s t ∧
          t.quad q = { s.quad q with power := .switching, failed := false, since := s.elapsed, upSince := s.elapsed } ∧ OnlyQuad q answerParts s t)) ∧
    ((∀ v : Byte, Accepted rq .devIjUnlock 0 0 v.toNat {} s →
        ∃ t, exec (.ijUnlock rq v ()) s = .next t ∧ Replied rq svcWrite Obj.devIjUnlock.addr .ok s t ∧
          t.ij.first = decide (v = 0x5A) ∧
          t.ij.firstAt = s.elapsed ∧
          t.ij.state = (if v = 0xA5 ∧ s.ij.first = true ∧ s.elapsed ≤ s.ij.firstAt + 10 * ticksPerMs ∧ s.ij.state = 0
            then 1 else s.ij.state) ∧
          Keeps (.ij :: answerParts) s t) ∧
      (Accepted rq .devIjControl 0 0 1 {} s →
        ∃ t, exec (.ijArm rq) s = .next t ∧ Replied rq svcWrite Obj.devIjControl.addr .ok s t ∧ t.ij.state = 2 ∧
          t.ij.left = s.rd .devIjCount ∧ t.rd .devIjArms = min (s.rd .devIjArms + 1) 0xFFFFFFFF ∧
          Keeps (.regs :: .ij :: answerParts) s t) ∧
      (Accepted rq .devIjControl 0 0 2 {} s →
        ∃ t, exec (.ijDisarm rq) s = .next t ∧ Replied rq svcWrite Obj.devIjControl.addr .ok s t ∧ t.ij.state = 0 ∧
          t.ij.left = 0 ∧ Keeps (.ij :: answerParts) s t))

/-- A BLOCK_WRITE takes effect only with its last segment. A segment that is not the last changes only what the service
itself holds of the transfer and its answer. So does a last segment unless it completes a transfer that every check of
R71 admits: one that is out of order, of another length, refused or preempted by an ABORT leaves every object as it
was. A transfer that is abandoned because it idles leaves every object as it was. (R70) -/
def Obligations.BlockWriteEndsWhole : Prop :=
  ∀ (rq : Rq) (a : Addr) (g : Segment) (s : State), Arrives rq s →
    (g.last = false → ∃ t, exec (.blockWrite rq a g) s = .next t ∧ Keeps (.ctl :: answerParts) s t) ∧
    (¬ Completes rq a g s → ∃ t, exec (.blockWrite rq a g) s = .next t ∧ Keeps (.ctl :: answerParts) s t) ∧
    (∃ t, exec (.blockWriteIdleTimeout rq.src) s = .next t ∧ Keeps [.ctl] s t ∧
      ∀ x, s.transfer rq.src = some x → s.passed x.since ticksPerSecond = true → t.transfer rq.src = none)

/-- GROUP_COMMIT and a write of 1 commit alike, a write of 2 discards. While no channel has an error in its last second, a
WRITE of 1 to 0x2000:05 and a GROUP_COMMIT from one state leave states that differ in nothing but the answer, and
where the request passes its front checks the staging set is empty after both. An admitted WRITE of 2 empties the
staging set and changes no register. (R57) -/
def Obligations.CommitForms : Prop :=
  ∀ (rq : Rq) (s : State), (∀ c, (s.chan c).recent = [] ∧ (s.chan c).recentBad = []) →
    (∃ t t', exec (.write rq commitAddr [1]) s = .next t ∧ exec (.groupCommit rq) s = .next t' ∧
      Keeps answerParts t t' ∧ (FrontOk rq commitAddr [1] s → t.ctl.staged = [] ∧ t'.ctl.staged = [])) ∧
    (FrontOk rq commitAddr [2] s →
      ∃ t, exec (.write rq commitAddr [2]) s = .next t ∧ Replied rq svcWrite commitAddr .ok s t ∧ t.ctl.staged = [] ∧
        RegsBut [] s t ∧ Keeps (.ctl :: answerParts) s t)

/-- A commit beside an ABORT of its scope is aborted, and one under a validation fails with BUSY. A commit in whose CFG
cycle an ABORT reaches the service with a staged entry in its scope is answered ABORTED and its set is discarded. A
commit with an entry of a site that validates is answered GROUP_FAIL, puts no entry in force, and where that entry is
the first that fails DEV_GROUP_RESULT names it with status BUSY. (R59) -/
def Obligations.CommitRefusals : Prop :=
  ∀ (rq : Rq) (s : State), FrontOk rq commitAddr [1] s →
    ((received rq s).preempted rq (fun code => s.ctl.staged.any (fun e =>
        s.scopeHas code (stagedPut e).o (stagedPut e).u (stagedPut e).k)) = true →
      ∃ t, exec (.groupCommit rq) s = .next t ∧ Replied rq svcCommit commitAddr .aborted s t ∧ t.ctl.staged = [] ∧
        RegsBut [] s t ∧ Keeps (.ctl :: answerParts) s t) ∧
    (∀ e ∈ s.ctl.staged, (received rq s).preempted rq (fun code => s.ctl.staged.any (fun e =>
        s.scopeHas code (stagedPut e).o (stagedPut e).u (stagedPut e).k)) = false →
      (stagedPut e).o.row.acc = .rwg →
      (s.ownerSite (stagedPut e).o (stagedPut e).u (stagedPut e).k).any s.validates = true →
      ∃ t, exec (.groupCommit rq) s = .next t ∧ Replied rq svcCommit commitAddr .groupFail s t ∧ t.ctl.staged = [] ∧
        RegsBut [Obj.devGroupResult.key] s t ∧ Keeps (.regs :: .ctl :: answerParts) s t ∧
        ∀ l l', s.ctl.staged = l ++ e :: l' → (∀ x ∈ l, laterChecks (received rq s) (stagedPut x) {} = .ok) →
          e.1 < 2 ^ 24 → t.rd .devGroupResult = e.1 * 2 ^ 8 + 0x09)

/-- A read is served in every state, and leaves everything as it is. A READ or a BLOCK_READ that arrives, whatever it
names and whatever the state, changes no part of the state but the count of free values and what answering it leaves:
no unit of the data path is altered. Wherever the main die runs, or the Rim serves the object while it does not, a
READ of any readable entry with room for its value and a BLOCK_READ of any readable DOM entry inside its size are
answered OK, in every state of the device and of its sites. (R27) -/
def Obligations.ReadsAreServed : Prop :=
  ∀ (rq : Rq) (s : State), Arrives rq s →
    (∀ (a : Addr) (len : Nat), ∃ t, exec (.read rq a len) s = .next t ∧ Keeps (.free :: answerParts) s t) ∧
    (∀ (a : Addr) (seg off total : Nat), ∃ t, exec (.blockRead rq a seg off total) s = .next t ∧
      Keeps (.free :: answerParts) s t) ∧
    (∀ (o : Obj) (u k : Nat), target (o.addr u k) = .entry o u k → o.row.acc ≠ .wo →
      s.alive = true ∨ rimServes (o.addr u k) false = true → isHost rq.src = true ∨ s.ij.txDrop = 0 →
      (∀ len, o.row.type ≠ .dom → 3 ≤ len → o.row.size ≤ len →
        ∃ t data, exec (.read rq (o.addr u k) len) s = .next t ∧ data.length ≤ len ∧
          Msg.reply rq.src rq.seq svcRead (o.addr u k) true true 0 none data ∈ t.out) ∧
      (∀ seg off n, o.row.type = .dom → 0 < n → n ≤ seg → seg ≤ 1024 → off + n ≤ o.row.size →
        ∃ t data, exec (.blockRead rq (o.addr u k) seg off n) s = .next t ∧
          Msg.reply rq.src rq.seq svcBlockRead (o.addr u k) true true 0 (some (off, n)) data ∈ t.out))

/-- A step runs the command at the front of the queue. With a command at the front of the queue, a step is that command's
meaning on the state with the queue's rest. On an empty queue the block idles: one tick of time passes, TIME counts it
while it runs, and while it does not run nothing else changes but that nothing is sent; what a tick is and what it
brings about while TIME runs are this model's choice (logs 3 and 141). (R71, R531) -/
def Obligations.StepRunsFront : Prop :=
  ∀ (c : Instr) (rest : List Instr) (s : State),
    Machine.step { s with pending := c :: rest } = exec c { s with pending := rest } ∧
    (s.pending = [] → Machine.step s = .next s.tick ∧ s.tick.pending = [] ∧ s.tick.fuses = s.fuses ∧
      s.tick.elapsed = s.elapsed + 1 ∧ s.tick.time = (if s.timeRuns then (s.time + 1) % 2 ^ 64 else s.time) ∧
      (s.timeRuns = false → s.tick = { s with elapsed := s.elapsed + 1, out := [] }))

/-- A write that a check refuses is answered and changes nothing. A WRITE that arrives and that one of steps 1 to 6 of R71
refuses is answered with that status, and no register, no memory and no unit changes, but that an ARM which finds
control LOCKED writes its site's SB+0x05 and clears PORT_TSET_CHECK. One that step 7 refuses is answered TC_CLOSED
with the same frame, and one that a later check refuses is answered with its status and changes no register but the
counts and results that go with the refusal. (R39, R48, R52, R71, R72, R74, R150) -/
def Obligations.RefusedWrites : Prop :=
  ∀ (rq : Rq) (s : State), ChansQuiet s → Arrives rq s →
    (∀ (a : Addr) (data : List Byte) (st : Status), (received rq s).frontCheck rq.src a ((received rq s).named a)
        { write := true, block := false, len := data.length, v := leNat data } = st → st ≠ .ok →
      ∃ t, exec (.write rq a data) s = .next t ∧ Replied rq svcWrite a st s t ∧ Keeps (.regs :: answerParts) s t ∧
        ((∀ i, target a = .entry .siteCommand i 0 → leNat data = 1 → st ≠ .locked) → Keeps answerParts s t)) ∧
    (∀ (o : Obj) (u k : Nat) (data : List Byte) (st : Status), o ∈ plainObjs → target (o.addr u k) = .entry o u k →
      FrontOk rq (o.addr u k) data s →
      (received rq s).preempted rq (fun code => s.scopeHas code o u k) = false →
      ((closedCheck (received rq s) { o := o, u := u, k := k, data := data } ≠ .ok ∧ st = .tcClosed) ∨
        (closedCheck (received rq s) { o := o, u := u, k := k, data := data } = .ok ∧
          laterChecks (received rq s) { o := o, u := u, k := k, data := data } {} = st ∧ st ≠ .ok)) →
      ∃ t, exec (.write rq (o.addr u k) data) s = .next t ∧ Replied rq svcWrite (o.addr u k) st s t ∧
        RegsBut [] s t ∧ t.mem = s.mem ∧ t.sites = s.sites ∧ t.ctxs = s.ctxs ∧ t.quads = s.quads)

/-- After reset the device is DORMANT and every unit is at its default. In the state after reset no command waits, no
event is undelivered, the device is DORMANT, no site is formed, every context is FREE, every register reads its
object's default and GDDR7 lists nothing (the reset point is this model's choice, log 1). (R50, R75, R76, R85, R99) -/
def Obligations.ResetState : Prop :=
  Settled State.reset ∧ State.reset.pending = [] ∧ State.reset.devState = 1 ∧ State.reset.alive = true ∧
    (∀ i, State.reset.siteSt i = .none) ∧ (∀ c, (State.reset.ctx c).st = .free) ∧
    (∀ o u k, State.reset.reg o u k = o.dflt) ∧ State.reset.mem = [] ∧ State.reset.rd .controlOwner = 0 ∧
    ∀ p, p < 108 → (State.reset.enables p).none = true

/-- Every step keeps the memory canonical, delivers every event and changes no fused value. From every state, whatever
command stands at the front, a step takes that command from the queue, leaves no event undelivered and every fused
value as it is; and where the stored GDDR7 bytes and check bytes are in canonical form before it, they are so after
it. (R27, R466, R467, R531) -/
def Obligations.StepsStaySettled : Prop :=
  ∀ (s t : State), Machine.step s = .next t →
    t.pending = s.pending.drop 1 ∧ t.fuses = s.fuses ∧ (s.pending ≠ [] → t.evt.now = []) ∧ (Settled s → Settled t)
end

