-- ==== Sys2Proof/Laws/Store.lean ====
section
/-! SUPPORT. The laws of sparse data: what a read gives after a write, for any list, and that every operation keeps the
canonical form. -/
namespace Sys2Proof.Laws
open Sys2Proof.Machine

variable {α : Type}

@[simp] theorem Store_get_nil (d : α) (k : Nat) : Store.get d k [] = d := rfl

theorem Store_get_del (d : α) (j k : Nat) (l : Store α) :
    Store.get d j (Store.del k l) = if j = k then d else Store.get d j l := by
  induction l with
  | nil => simp [Store.del, Store.get]
  | cons e l ih =>
    obtain ⟨i, v⟩ := e
    by_cases hik : i = k <;> by_cases hij : i = j <;> by_cases hjk : j = k <;>
      simp_all [Store.del, Store.get]

theorem Store_get_place_ne (d : α) (j k : Nat) (v : α) (l : Store α) (h : j ≠ k) :
    Store.get d j (Store.place k v l) = Store.get d j l := by
  induction l with
  | nil => simp [Store.place, Store.get, h.symm]
  | cons e l ih =>
    obtain ⟨i, w⟩ := e
    simp only [Store.place]
    split
    · simp [Store.get, h.symm]
    · simp [Store.get, ih]

theorem Store_get_place_same (d : α) (k : Nat) (v : α) (l : Store α) (h : Store.get none k (l.map (fun e => (e.1, some e.2))) = none) :
    Store.get d k (Store.place k v l) = v := by
  induction l with
  | nil => simp [Store.place, Store.get]
  | cons e l ih =>
    obtain ⟨i, w⟩ := e
    simp only [List.map_cons, Store.get] at h
    split at h
    · cases h
    · simp only [Store.place]
      split
      · simp [Store.get]
      · simp_all [Store.get]

theorem Store_del_absent (k : Nat) (l : Store α) :
    Store.get none k ((Store.del k l).map (fun e => (e.1, some e.2))) = none := by
  induction l with
  | nil => rfl
  | cons e l ih =>
    obtain ⟨i, w⟩ := e
    simp only [Store.del]
    split
    · exact ih
    · simp_all [Store.get]

/-- A read after a write at the same key gives the value written; at another key, what was there. -/
@[simp] theorem Store_get_put [DecidableEq α] (d : α) (j k : Nat) (v : α) (l : Store α) :
    Store.get d j (Store.put d k v l) = if j = k then v else Store.get d j l := by
  unfold Store.put
  split
  · subst_vars; exact Store_get_del _ _ _ _
  · by_cases h : j = k
    · subst h
      simpa [Store.ins] using Store_get_place_same d j v _ (Store_del_absent j l)
    · simp [Store.ins, Store_get_place_ne _ _ _ _ _ h, Store_get_del, h]

/-- A read at another key with another default is not disturbed by a write. -/
theorem Store_get_put_ne [DecidableEq α] (d e : α) (j k : Nat) (v : α) (l : Store α) (h : j ≠ k) :
    Store.get e j (Store.put d k v l) = Store.get e j l := by
  unfold Store.put
  split
  · simp [Store_get_del, h]
  · simp [Store.ins, Store_get_place_ne _ _ _ _ _ h, Store_get_del, h]

theorem Store_get_puts_below [DecidableEq α] (d e : α) (j k : Nat) (vs : List α) (l : Store α) (h : j < k) :
    Store.get e j (Store.puts d k vs l) = Store.get e j l := by
  induction vs generalizing k l with
  | nil => rfl
  | cons v vs ih => rw [Store.puts, ih _ _ (by omega), Store_get_put_ne _ _ _ _ _ _ (by omega)]

/-- A read after consecutive writes. -/
theorem Store_get_puts [DecidableEq α] (d : α) (j k : Nat) (vs : List α) (l : Store α) :
    Store.get d j (Store.puts d k vs l) = if k ≤ j ∧ j < k + vs.length then vs.getD (j - k) d else Store.get d j l := by
  induction vs generalizing k l with
  | nil => rw [if_neg (fun h => by have := h.2; simp only [List.length_nil] at this; omega)]; rfl
  | cons v vs ih =>
    rw [Store.puts, ih]
    by_cases hj : j = k
    · subst hj
      rw [if_neg (by omega)]; simp
    · rw [Store_get_put, if_neg hj]
      by_cases hk : k ≤ j
      · obtain ⟨n, rfl⟩ : ∃ n, j = k + 1 + n := ⟨j - k - 1, by omega⟩
        have : k + 1 + n - k = n + 1 := by omega
        simp [this]
        congr 1
        simp; omega
      · simp [hk]; omega

theorem Store_gets_length (d : α) (k n : Nat) (l : Store α) : (Store.gets d k n l).length = n := by
  induction n generalizing k with
  | zero => rfl
  | succ n ih => simp [Store.gets, ih]

theorem Store_gets_get (d : α) (k n i : Nat) (l : Store α) (h : i < n) :
    (Store.gets d k n l)[i]? = some (Store.get d (k + i) l) := by
  induction n generalizing k i with
  | zero => omega
  | succ n ih =>
    cases i with
    | zero => simp [Store.gets]
    | succ i => simp [Store.gets, ih (k + 1) i (by omega)]; congr 1; omega

/-- Reading back what was written. -/
theorem Store_gets_puts [DecidableEq α] (d : α) (k : Nat) (vs : List α) (l : Store α) :
    Store.gets d k vs.length (Store.puts d k vs l) = vs := by
  apply List.ext_getElem?
  intro i
  by_cases h : i < vs.length
  · rw [Store_gets_get _ _ _ _ _ h, Store_get_puts, if_pos (by omega)]
    simp [h]
  · rw [List.getElem?_eq_none (by rw [Store_gets_length]; omega), List.getElem?_eq_none (by omega)]

/-! ## The canonical form -/

/-- The canonical form from a key on, as a proposition: keys above `lo` and rising, no entry as an unlisted key reads. -/
theorem Store_wfFrom_cons [DecidableEq α] (d : Nat → α) (lo : Option Nat) (i : Nat) (v : α) (l : Store α) :
    Store.wfFrom d lo ((i, v) :: l) = true ↔
      (∀ b, lo = some b → b < i) ∧ v ≠ d i ∧ Store.wfFrom d (some i) l = true := by
  cases lo <;> simp [Store.wfFrom, and_assoc]

theorem Store_wfFrom_weaken [DecidableEq α] (d : Nat → α) (lo hi : Option Nat) (l : Store α)
    (h : Store.wfFrom d hi l = true) (hl : ∀ b, lo = some b → ∃ c, hi = some c ∧ b ≤ c) : Store.wfFrom d lo l = true := by
  cases l with
  | nil => simp [Store.wfFrom]
  | cons e l =>
    obtain ⟨i, v⟩ := e
    rw [Store_wfFrom_cons] at h ⊢
    refine ⟨fun b hb => ?_, h.2⟩
    obtain ⟨c, hc, hbc⟩ := hl b hb
    have := h.1 c hc
    omega

theorem Store_del_wfFrom [DecidableEq α] (d : Nat → α) (lo : Option Nat) (k : Nat) (l : Store α)
    (h : Store.wfFrom d lo l = true) : Store.wfFrom d lo (Store.del k l) = true := by
  induction l generalizing lo with
  | nil => exact h
  | cons e l ih =>
    obtain ⟨i, v⟩ := e
    rw [Store_wfFrom_cons] at h
    simp only [Store.del]
    split
    · exact ih _ (Store_wfFrom_weaken _ _ _ _ h.2.2 (fun b hb => ⟨i, rfl, Nat.le_of_lt (h.1 b hb)⟩))
    · rw [Store_wfFrom_cons]; exact ⟨h.1, h.2.1, ih _ h.2.2⟩

theorem Store_place_wfFrom [DecidableEq α] (d : Nat → α) (lo : Option Nat) (k : Nat) (v : α) (l : Store α)
    (h : Store.wfFrom d lo l = true) (hv : v ≠ d k) (hlo : ∀ b, lo = some b → b < k)
    (habs : ∀ e ∈ l, e.1 ≠ k) : Store.wfFrom d lo (Store.place k v l) = true := by
  induction l generalizing lo with
  | nil => rw [Store.place, Store_wfFrom_cons]; exact ⟨hlo, hv, rfl⟩
  | cons e l ih =>
    obtain ⟨i, w⟩ := e
    rw [Store_wfFrom_cons] at h
    simp only [Store.place]
    split
    · rw [Store_wfFrom_cons, Store_wfFrom_cons]
      exact ⟨hlo, hv, by simpa using ‹k < i›, h.2.1, h.2.2⟩
    · rw [Store_wfFrom_cons]
      refine ⟨h.1, h.2.1, ih _ h.2.2 ?_ (fun e he => habs e (List.mem_cons_of_mem _ he))⟩
      intro b hb
      have : i ≠ k := habs (i, w) List.mem_cons_self
      simp at hb
      omega

theorem Store_del_keys (k : Nat) (l : Store α) : ∀ e ∈ Store.del k l, e.1 ≠ k := by
  induction l with
  | nil => simp [Store.del]
  | cons e l ih =>
    obtain ⟨i, w⟩ := e
    simp only [Store.del]
    split
    · exact ih
    · intro e he
      rcases List.mem_cons.mp he with rfl | he
      · assumption
      · exact ih e he

/-- A write keeps the canonical form. -/
theorem Store_put_wf [DecidableEq α] (d : Nat → α) (k : Nat) (v : α) (l : Store α) (h : Store.wf d l = true) :
    Store.wf d (Store.put (d k) k v l) = true := by
  unfold Store.put
  split
  · exact Store_del_wfFrom _ _ _ _ h
  · exact Store_place_wfFrom _ _ _ _ _ (Store_del_wfFrom _ _ _ _ h) ‹_› (by simp) (Store_del_keys k l)

/-- Removing a key keeps the canonical form. -/
theorem Store_del_wf [DecidableEq α] (d : Nat → α) (k : Nat) (l : Store α) (h : Store.wf d l = true) :
    Store.wf d (Store.del k l) = true := Store_del_wfFrom _ _ _ _ h

/-- Consecutive writes keep the canonical form. -/
theorem Store_puts_wf [DecidableEq α] (d : α) (k : Nat) (vs : List α) (l : Store α) (h : Store.wf (fun _ => d) l = true) :
    Store.wf (fun _ => d) (Store.puts d k vs l) = true := by
  induction vs generalizing k l with
  | nil => exact h
  | cons v vs ih => exact ih _ _ (Store_put_wf (fun _ => d) k v l h)

theorem Store_filter_wfFrom [DecidableEq α] (d : Nat → α) (lo : Option Nat) (p : Nat × α → Bool) (l : Store α)
    (h : Store.wfFrom d lo l = true) : Store.wfFrom d lo (l.filter p) = true := by
  induction l generalizing lo with
  | nil => exact h
  | cons e l ih =>
    obtain ⟨i, v⟩ := e
    rw [Store_wfFrom_cons] at h
    rw [List.filter_cons]
    split
    · rw [Store_wfFrom_cons]; exact ⟨h.1, h.2.1, ih _ h.2.2⟩
    · exact ih _ (Store_wfFrom_weaken _ _ _ _ h.2.2 (fun b hb => ⟨i, rfl, Nat.le_of_lt (h.1 b hb)⟩))

/-- Removing entries keeps the canonical form. -/
theorem Store_filter_wf [DecidableEq α] (d : Nat → α) (p : Nat × α → Bool) (l : Store α) (h : Store.wf d l = true) :
    Store.wf d (l.filter p) = true := Store_filter_wfFrom _ _ _ _ h

end Sys2Proof.Laws
end

