-- ==== Sys2Proof/Laws/State.lean ====
section
/-! SUPPORT. What each operation that updates the state leaves in each field, and what each reads afterwards: no proof
needs to unfold a record update. -/
namespace Sys2Proof.Laws
open Sys2Proof.Machine

/-! ## setReg -/

@[simp] theorem setReg_pending (s : State) (o : Obj) (v : Word) (u k : Nat) : (s.setReg o v u k).pending = s.pending := rfl
@[simp] theorem setReg_out (s : State) (o : Obj) (v : Word) (u k : Nat) : (s.setReg o v u k).out = s.out := rfl
@[simp] theorem setReg_time (s : State) (o : Obj) (v : Word) (u k : Nat) : (s.setReg o v u k).time = s.time := rfl
@[simp] theorem setReg_elapsed (s : State) (o : Obj) (v : Word) (u k : Nat) : (s.setReg o v u k).elapsed = s.elapsed := rfl
@[simp] theorem setReg_timeRuns (s : State) (o : Obj) (v : Word) (u k : Nat) : (s.setReg o v u k).timeRuns = s.timeRuns := rfl
@[simp] theorem setReg_freeCount (s : State) (o : Obj) (v : Word) (u k : Nat) : (s.setReg o v u k).freeCount = s.freeCount := rfl
@[simp] theorem setReg_ctl (s : State) (o : Obj) (v : Word) (u k : Nat) : (s.setReg o v u k).ctl = s.ctl := rfl
@[simp] theorem setReg_evt (s : State) (o : Obj) (v : Word) (u k : Nat) : (s.setReg o v u k).evt = s.evt := rfl
@[simp] theorem setReg_dev (s : State) (o : Obj) (v : Word) (u k : Nat) : (s.setReg o v u k).dev = s.dev := rfl
@[simp] theorem setReg_fuses (s : State) (o : Obj) (v : Word) (u k : Nat) : (s.setReg o v u k).fuses = s.fuses := rfl
@[simp] theorem setReg_sites (s : State) (o : Obj) (v : Word) (u k : Nat) : (s.setReg o v u k).sites = s.sites := rfl
@[simp] theorem setReg_bnds (s : State) (o : Obj) (v : Word) (u k : Nat) : (s.setReg o v u k).bnds = s.bnds := rfl
@[simp] theorem setReg_ports (s : State) (o : Obj) (v : Word) (u k : Nat) : (s.setReg o v u k).ports = s.ports := rfl
@[simp] theorem setReg_ctxs (s : State) (o : Obj) (v : Word) (u k : Nat) : (s.setReg o v u k).ctxs = s.ctxs := rfl
@[simp] theorem setReg_tb (s : State) (o : Obj) (v : Word) (u k : Nat) : (s.setReg o v u k).tb = s.tb := rfl
@[simp] theorem setReg_rim (s : State) (o : Obj) (v : Word) (u k : Nat) : (s.setReg o v u k).rim = s.rim := rfl
@[simp] theorem setReg_therm (s : State) (o : Obj) (v : Word) (u k : Nat) : (s.setReg o v u k).therm = s.therm := rfl
@[simp] theorem setReg_ij (s : State) (o : Obj) (v : Word) (u k : Nat) : (s.setReg o v u k).ij = s.ij := rfl
@[simp] theorem setReg_pcie (s : State) (o : Obj) (v : Word) (u k : Nat) : (s.setReg o v u k).pcie = s.pcie := rfl
@[simp] theorem setReg_quads (s : State) (o : Obj) (v : Word) (u k : Nat) : (s.setReg o v u k).quads = s.quads := rfl
@[simp] theorem setReg_cfg (s : State) (o : Obj) (v : Word) (u k : Nat) : (s.setReg o v u k).cfg = s.cfg := rfl
@[simp] theorem setReg_noc (s : State) (o : Obj) (v : Word) (u k : Nat) : (s.setReg o v u k).noc = s.noc := rfl
@[simp] theorem setReg_mem (s : State) (o : Obj) (v : Word) (u k : Nat) : (s.setReg o v u k).mem = s.mem := rfl
@[simp] theorem setReg_memChk (s : State) (o : Obj) (v : Word) (u k : Nat) : (s.setReg o v u k).memChk = s.memChk := rfl
@[simp] theorem setReg_chans (s : State) (o : Obj) (v : Word) (u k : Nat) : (s.setReg o v u k).chans = s.chans := rfl
@[simp] theorem setReg_cal (s : State) (o : Obj) (v : Word) (u k : Nat) : (s.setReg o v u k).cal = s.cal := rfl
@[simp] theorem setReg_ledger (s : State) (o : Obj) (v : Word) (u k : Nat) : (s.setReg o v u k).ledger = s.ledger := rfl
@[simp] theorem setReg_site (s : State) (o : Obj) (v : Word) (u k : Nat) (j : Nat) : (s.setReg o v u k).site j = s.site j := rfl
@[simp] theorem setReg_bnd (s : State) (o : Obj) (v : Word) (u k : Nat) (j : Nat) : (s.setReg o v u k).bnd j = s.bnd j := rfl
@[simp] theorem setReg_port (s : State) (o : Obj) (v : Word) (u k : Nat) (j : Nat) : (s.setReg o v u k).port j = s.port j := rfl
@[simp] theorem setReg_ctx (s : State) (o : Obj) (v : Word) (u k : Nat) (j : Nat) : (s.setReg o v u k).ctx j = s.ctx j := rfl
@[simp] theorem setReg_quad (s : State) (o : Obj) (v : Word) (u k : Nat) (j : Nat) : (s.setReg o v u k).quad j = s.quad j := rfl
@[simp] theorem setReg_chan (s : State) (o : Obj) (v : Word) (u k : Nat) (j : Nat) : (s.setReg o v u k).chan j = s.chan j := rfl
@[simp] theorem setReg_slot (s : State) (o : Obj) (v : Word) (u k : Nat) (j : Nat) : (s.setReg o v u k).slot j = s.slot j := rfl
@[simp] theorem setReg_queue (s : State) (o : Obj) (v : Word) (u k : Nat) (j : Nat) : (s.setReg o v u k).queue j = s.queue j := rfl
@[simp] theorem setReg_alive (s : State) (o : Obj) (v : Word) (u k : Nat) : (s.setReg o v u k).alive = s.alive := rfl

/-! ## wr -/

@[simp] theorem wr_pending (s : State) (o : Obj) (v u k : Nat) : (s.wr o v u k).pending = s.pending := rfl
@[simp] theorem wr_out (s : State) (o : Obj) (v u k : Nat) : (s.wr o v u k).out = s.out := rfl
@[simp] theorem wr_time (s : State) (o : Obj) (v u k : Nat) : (s.wr o v u k).time = s.time := rfl
@[simp] theorem wr_elapsed (s : State) (o : Obj) (v u k : Nat) : (s.wr o v u k).elapsed = s.elapsed := rfl
@[simp] theorem wr_timeRuns (s : State) (o : Obj) (v u k : Nat) : (s.wr o v u k).timeRuns = s.timeRuns := rfl
@[simp] theorem wr_freeCount (s : State) (o : Obj) (v u k : Nat) : (s.wr o v u k).freeCount = s.freeCount := rfl
@[simp] theorem wr_ctl (s : State) (o : Obj) (v u k : Nat) : (s.wr o v u k).ctl = s.ctl := rfl
@[simp] theorem wr_evt (s : State) (o : Obj) (v u k : Nat) : (s.wr o v u k).evt = s.evt := rfl
@[simp] theorem wr_dev (s : State) (o : Obj) (v u k : Nat) : (s.wr o v u k).dev = s.dev := rfl
@[simp] theorem wr_fuses (s : State) (o : Obj) (v u k : Nat) : (s.wr o v u k).fuses = s.fuses := rfl
@[simp] theorem wr_sites (s : State) (o : Obj) (v u k : Nat) : (s.wr o v u k).sites = s.sites := rfl
@[simp] theorem wr_bnds (s : State) (o : Obj) (v u k : Nat) : (s.wr o v u k).bnds = s.bnds := rfl
@[simp] theorem wr_ports (s : State) (o : Obj) (v u k : Nat) : (s.wr o v u k).ports = s.ports := rfl
@[simp] theorem wr_ctxs (s : State) (o : Obj) (v u k : Nat) : (s.wr o v u k).ctxs = s.ctxs := rfl
@[simp] theorem wr_tb (s : State) (o : Obj) (v u k : Nat) : (s.wr o v u k).tb = s.tb := rfl
@[simp] theorem wr_rim (s : State) (o : Obj) (v u k : Nat) : (s.wr o v u k).rim = s.rim := rfl
@[simp] theorem wr_therm (s : State) (o : Obj) (v u k : Nat) : (s.wr o v u k).therm = s.therm := rfl
@[simp] theorem wr_ij (s : State) (o : Obj) (v u k : Nat) : (s.wr o v u k).ij = s.ij := rfl
@[simp] theorem wr_pcie (s : State) (o : Obj) (v u k : Nat) : (s.wr o v u k).pcie = s.pcie := rfl
@[simp] theorem wr_quads (s : State) (o : Obj) (v u k : Nat) : (s.wr o v u k).quads = s.quads := rfl
@[simp] theorem wr_cfg (s : State) (o : Obj) (v u k : Nat) : (s.wr o v u k).cfg = s.cfg := rfl
@[simp] theorem wr_noc (s : State) (o : Obj) (v u k : Nat) : (s.wr o v u k).noc = s.noc := rfl
@[simp] theorem wr_mem (s : State) (o : Obj) (v u k : Nat) : (s.wr o v u k).mem = s.mem := rfl
@[simp] theorem wr_memChk (s : State) (o : Obj) (v u k : Nat) : (s.wr o v u k).memChk = s.memChk := rfl
@[simp] theorem wr_chans (s : State) (o : Obj) (v u k : Nat) : (s.wr o v u k).chans = s.chans := rfl
@[simp] theorem wr_cal (s : State) (o : Obj) (v u k : Nat) : (s.wr o v u k).cal = s.cal := rfl
@[simp] theorem wr_ledger (s : State) (o : Obj) (v u k : Nat) : (s.wr o v u k).ledger = s.ledger := rfl
@[simp] theorem wr_site (s : State) (o : Obj) (v u k : Nat) (j : Nat) : (s.wr o v u k).site j = s.site j := rfl
@[simp] theorem wr_bnd (s : State) (o : Obj) (v u k : Nat) (j : Nat) : (s.wr o v u k).bnd j = s.bnd j := rfl
@[simp] theorem wr_port (s : State) (o : Obj) (v u k : Nat) (j : Nat) : (s.wr o v u k).port j = s.port j := rfl
@[simp] theorem wr_ctx (s : State) (o : Obj) (v u k : Nat) (j : Nat) : (s.wr o v u k).ctx j = s.ctx j := rfl
@[simp] theorem wr_quad (s : State) (o : Obj) (v u k : Nat) (j : Nat) : (s.wr o v u k).quad j = s.quad j := rfl
@[simp] theorem wr_chan (s : State) (o : Obj) (v u k : Nat) (j : Nat) : (s.wr o v u k).chan j = s.chan j := rfl
@[simp] theorem wr_slot (s : State) (o : Obj) (v u k : Nat) (j : Nat) : (s.wr o v u k).slot j = s.slot j := rfl
@[simp] theorem wr_queue (s : State) (o : Obj) (v u k : Nat) (j : Nat) : (s.wr o v u k).queue j = s.queue j := rfl
@[simp] theorem wr_alive (s : State) (o : Obj) (v u k : Nat) : (s.wr o v u k).alive = s.alive := rfl

/-! ## bump -/

@[simp] theorem bump_pending (s : State) (o : Obj) (u k n : Nat) : (s.bump o u k n).pending = s.pending := rfl
@[simp] theorem bump_out (s : State) (o : Obj) (u k n : Nat) : (s.bump o u k n).out = s.out := rfl
@[simp] theorem bump_time (s : State) (o : Obj) (u k n : Nat) : (s.bump o u k n).time = s.time := rfl
@[simp] theorem bump_elapsed (s : State) (o : Obj) (u k n : Nat) : (s.bump o u k n).elapsed = s.elapsed := rfl
@[simp] theorem bump_timeRuns (s : State) (o : Obj) (u k n : Nat) : (s.bump o u k n).timeRuns = s.timeRuns := rfl
@[simp] theorem bump_freeCount (s : State) (o : Obj) (u k n : Nat) : (s.bump o u k n).freeCount = s.freeCount := rfl
@[simp] theorem bump_ctl (s : State) (o : Obj) (u k n : Nat) : (s.bump o u k n).ctl = s.ctl := rfl
@[simp] theorem bump_evt (s : State) (o : Obj) (u k n : Nat) : (s.bump o u k n).evt = s.evt := rfl
@[simp] theorem bump_dev (s : State) (o : Obj) (u k n : Nat) : (s.bump o u k n).dev = s.dev := rfl
@[simp] theorem bump_fuses (s : State) (o : Obj) (u k n : Nat) : (s.bump o u k n).fuses = s.fuses := rfl
@[simp] theorem bump_sites (s : State) (o : Obj) (u k n : Nat) : (s.bump o u k n).sites = s.sites := rfl
@[simp] theorem bump_bnds (s : State) (o : Obj) (u k n : Nat) : (s.bump o u k n).bnds = s.bnds := rfl
@[simp] theorem bump_ports (s : State) (o : Obj) (u k n : Nat) : (s.bump o u k n).ports = s.ports := rfl
@[simp] theorem bump_ctxs (s : State) (o : Obj) (u k n : Nat) : (s.bump o u k n).ctxs = s.ctxs := rfl
@[simp] theorem bump_tb (s : State) (o : Obj) (u k n : Nat) : (s.bump o u k n).tb = s.tb := rfl
@[simp] theorem bump_rim (s : State) (o : Obj) (u k n : Nat) : (s.bump o u k n).rim = s.rim := rfl
@[simp] theorem bump_therm (s : State) (o : Obj) (u k n : Nat) : (s.bump o u k n).therm = s.therm := rfl
@[simp] theorem bump_ij (s : State) (o : Obj) (u k n : Nat) : (s.bump o u k n).ij = s.ij := rfl
@[simp] theorem bump_pcie (s : State) (o : Obj) (u k n : Nat) : (s.bump o u k n).pcie = s.pcie := rfl
@[simp] theorem bump_quads (s : State) (o : Obj) (u k n : Nat) : (s.bump o u k n).quads = s.quads := rfl
@[simp] theorem bump_cfg (s : State) (o : Obj) (u k n : Nat) : (s.bump o u k n).cfg = s.cfg := rfl
@[simp] theorem bump_noc (s : State) (o : Obj) (u k n : Nat) : (s.bump o u k n).noc = s.noc := rfl
@[simp] theorem bump_mem (s : State) (o : Obj) (u k n : Nat) : (s.bump o u k n).mem = s.mem := rfl
@[simp] theorem bump_memChk (s : State) (o : Obj) (u k n : Nat) : (s.bump o u k n).memChk = s.memChk := rfl
@[simp] theorem bump_chans (s : State) (o : Obj) (u k n : Nat) : (s.bump o u k n).chans = s.chans := rfl
@[simp] theorem bump_cal (s : State) (o : Obj) (u k n : Nat) : (s.bump o u k n).cal = s.cal := rfl
@[simp] theorem bump_ledger (s : State) (o : Obj) (u k n : Nat) : (s.bump o u k n).ledger = s.ledger := rfl
@[simp] theorem bump_site (s : State) (o : Obj) (u k n : Nat) (j : Nat) : (s.bump o u k n).site j = s.site j := rfl
@[simp] theorem bump_bnd (s : State) (o : Obj) (u k n : Nat) (j : Nat) : (s.bump o u k n).bnd j = s.bnd j := rfl
@[simp] theorem bump_port (s : State) (o : Obj) (u k n : Nat) (j : Nat) : (s.bump o u k n).port j = s.port j := rfl
@[simp] theorem bump_ctx (s : State) (o : Obj) (u k n : Nat) (j : Nat) : (s.bump o u k n).ctx j = s.ctx j := rfl
@[simp] theorem bump_quad (s : State) (o : Obj) (u k n : Nat) (j : Nat) : (s.bump o u k n).quad j = s.quad j := rfl
@[simp] theorem bump_chan (s : State) (o : Obj) (u k n : Nat) (j : Nat) : (s.bump o u k n).chan j = s.chan j := rfl
@[simp] theorem bump_slot (s : State) (o : Obj) (u k n : Nat) (j : Nat) : (s.bump o u k n).slot j = s.slot j := rfl
@[simp] theorem bump_queue (s : State) (o : Obj) (u k n : Nat) (j : Nat) : (s.bump o u k n).queue j = s.queue j := rfl
@[simp] theorem bump_alive (s : State) (o : Obj) (u k n : Nat) : (s.bump o u k n).alive = s.alive := rfl

/-! ## setDom -/

@[simp] theorem setDom_pending (s : State) (o : Obj) (u k off : Nat) (l : List Byte) : (s.setDom o u k off l).pending = s.pending := rfl
@[simp] theorem setDom_out (s : State) (o : Obj) (u k off : Nat) (l : List Byte) : (s.setDom o u k off l).out = s.out := rfl
@[simp] theorem setDom_time (s : State) (o : Obj) (u k off : Nat) (l : List Byte) : (s.setDom o u k off l).time = s.time := rfl
@[simp] theorem setDom_elapsed (s : State) (o : Obj) (u k off : Nat) (l : List Byte) : (s.setDom o u k off l).elapsed = s.elapsed := rfl
@[simp] theorem setDom_timeRuns (s : State) (o : Obj) (u k off : Nat) (l : List Byte) : (s.setDom o u k off l).timeRuns = s.timeRuns := rfl
@[simp] theorem setDom_freeCount (s : State) (o : Obj) (u k off : Nat) (l : List Byte) : (s.setDom o u k off l).freeCount = s.freeCount := rfl
@[simp] theorem setDom_ctl (s : State) (o : Obj) (u k off : Nat) (l : List Byte) : (s.setDom o u k off l).ctl = s.ctl := rfl
@[simp] theorem setDom_evt (s : State) (o : Obj) (u k off : Nat) (l : List Byte) : (s.setDom o u k off l).evt = s.evt := rfl
@[simp] theorem setDom_dev (s : State) (o : Obj) (u k off : Nat) (l : List Byte) : (s.setDom o u k off l).dev = s.dev := rfl
@[simp] theorem setDom_fuses (s : State) (o : Obj) (u k off : Nat) (l : List Byte) : (s.setDom o u k off l).fuses = s.fuses := rfl
@[simp] theorem setDom_sites (s : State) (o : Obj) (u k off : Nat) (l : List Byte) : (s.setDom o u k off l).sites = s.sites := rfl
@[simp] theorem setDom_bnds (s : State) (o : Obj) (u k off : Nat) (l : List Byte) : (s.setDom o u k off l).bnds = s.bnds := rfl
@[simp] theorem setDom_ports (s : State) (o : Obj) (u k off : Nat) (l : List Byte) : (s.setDom o u k off l).ports = s.ports := rfl
@[simp] theorem setDom_ctxs (s : State) (o : Obj) (u k off : Nat) (l : List Byte) : (s.setDom o u k off l).ctxs = s.ctxs := rfl
@[simp] theorem setDom_tb (s : State) (o : Obj) (u k off : Nat) (l : List Byte) : (s.setDom o u k off l).tb = s.tb := rfl
@[simp] theorem setDom_rim (s : State) (o : Obj) (u k off : Nat) (l : List Byte) : (s.setDom o u k off l).rim = s.rim := rfl
@[simp] theorem setDom_therm (s : State) (o : Obj) (u k off : Nat) (l : List Byte) : (s.setDom o u k off l).therm = s.therm := rfl
@[simp] theorem setDom_ij (s : State) (o : Obj) (u k off : Nat) (l : List Byte) : (s.setDom o u k off l).ij = s.ij := rfl
@[simp] theorem setDom_pcie (s : State) (o : Obj) (u k off : Nat) (l : List Byte) : (s.setDom o u k off l).pcie = s.pcie := rfl
@[simp] theorem setDom_quads (s : State) (o : Obj) (u k off : Nat) (l : List Byte) : (s.setDom o u k off l).quads = s.quads := rfl
@[simp] theorem setDom_cfg (s : State) (o : Obj) (u k off : Nat) (l : List Byte) : (s.setDom o u k off l).cfg = s.cfg := rfl
@[simp] theorem setDom_noc (s : State) (o : Obj) (u k off : Nat) (l : List Byte) : (s.setDom o u k off l).noc = s.noc := rfl
@[simp] theorem setDom_mem (s : State) (o : Obj) (u k off : Nat) (l : List Byte) : (s.setDom o u k off l).mem = s.mem := rfl
@[simp] theorem setDom_memChk (s : State) (o : Obj) (u k off : Nat) (l : List Byte) : (s.setDom o u k off l).memChk = s.memChk := rfl
@[simp] theorem setDom_chans (s : State) (o : Obj) (u k off : Nat) (l : List Byte) : (s.setDom o u k off l).chans = s.chans := rfl
@[simp] theorem setDom_cal (s : State) (o : Obj) (u k off : Nat) (l : List Byte) : (s.setDom o u k off l).cal = s.cal := rfl
@[simp] theorem setDom_ledger (s : State) (o : Obj) (u k off : Nat) (l : List Byte) : (s.setDom o u k off l).ledger = s.ledger := rfl
@[simp] theorem setDom_site (s : State) (o : Obj) (u k off : Nat) (l : List Byte) (j : Nat) : (s.setDom o u k off l).site j = s.site j := rfl
@[simp] theorem setDom_bnd (s : State) (o : Obj) (u k off : Nat) (l : List Byte) (j : Nat) : (s.setDom o u k off l).bnd j = s.bnd j := rfl
@[simp] theorem setDom_port (s : State) (o : Obj) (u k off : Nat) (l : List Byte) (j : Nat) : (s.setDom o u k off l).port j = s.port j := rfl
@[simp] theorem setDom_ctx (s : State) (o : Obj) (u k off : Nat) (l : List Byte) (j : Nat) : (s.setDom o u k off l).ctx j = s.ctx j := rfl
@[simp] theorem setDom_quad (s : State) (o : Obj) (u k off : Nat) (l : List Byte) (j : Nat) : (s.setDom o u k off l).quad j = s.quad j := rfl
@[simp] theorem setDom_chan (s : State) (o : Obj) (u k off : Nat) (l : List Byte) (j : Nat) : (s.setDom o u k off l).chan j = s.chan j := rfl
@[simp] theorem setDom_slot (s : State) (o : Obj) (u k off : Nat) (l : List Byte) (j : Nat) : (s.setDom o u k off l).slot j = s.slot j := rfl
@[simp] theorem setDom_queue (s : State) (o : Obj) (u k off : Nat) (l : List Byte) (j : Nat) : (s.setDom o u k off l).queue j = s.queue j := rfl
@[simp] theorem setDom_alive (s : State) (o : Obj) (u k off : Nat) (l : List Byte) : (s.setDom o u k off l).alive = s.alive := rfl

/-! ## setSite -/

@[simp] theorem setSite_pending (s : State) (i : Nat) (f : Site → Site) : (s.setSite i f).pending = s.pending := rfl
@[simp] theorem setSite_out (s : State) (i : Nat) (f : Site → Site) : (s.setSite i f).out = s.out := rfl
@[simp] theorem setSite_time (s : State) (i : Nat) (f : Site → Site) : (s.setSite i f).time = s.time := rfl
@[simp] theorem setSite_elapsed (s : State) (i : Nat) (f : Site → Site) : (s.setSite i f).elapsed = s.elapsed := rfl
@[simp] theorem setSite_timeRuns (s : State) (i : Nat) (f : Site → Site) : (s.setSite i f).timeRuns = s.timeRuns := rfl
@[simp] theorem setSite_freeCount (s : State) (i : Nat) (f : Site → Site) : (s.setSite i f).freeCount = s.freeCount := rfl
@[simp] theorem setSite_dict (s : State) (i : Nat) (f : Site → Site) : (s.setSite i f).dict = s.dict := rfl
@[simp] theorem setSite_ctl (s : State) (i : Nat) (f : Site → Site) : (s.setSite i f).ctl = s.ctl := rfl
@[simp] theorem setSite_evt (s : State) (i : Nat) (f : Site → Site) : (s.setSite i f).evt = s.evt := rfl
@[simp] theorem setSite_dev (s : State) (i : Nat) (f : Site → Site) : (s.setSite i f).dev = s.dev := rfl
@[simp] theorem setSite_fuses (s : State) (i : Nat) (f : Site → Site) : (s.setSite i f).fuses = s.fuses := rfl
@[simp] theorem setSite_bnds (s : State) (i : Nat) (f : Site → Site) : (s.setSite i f).bnds = s.bnds := rfl
@[simp] theorem setSite_ports (s : State) (i : Nat) (f : Site → Site) : (s.setSite i f).ports = s.ports := rfl
@[simp] theorem setSite_ctxs (s : State) (i : Nat) (f : Site → Site) : (s.setSite i f).ctxs = s.ctxs := rfl
@[simp] theorem setSite_tb (s : State) (i : Nat) (f : Site → Site) : (s.setSite i f).tb = s.tb := rfl
@[simp] theorem setSite_rim (s : State) (i : Nat) (f : Site → Site) : (s.setSite i f).rim = s.rim := rfl
@[simp] theorem setSite_therm (s : State) (i : Nat) (f : Site → Site) : (s.setSite i f).therm = s.therm := rfl
@[simp] theorem setSite_ij (s : State) (i : Nat) (f : Site → Site) : (s.setSite i f).ij = s.ij := rfl
@[simp] theorem setSite_pcie (s : State) (i : Nat) (f : Site → Site) : (s.setSite i f).pcie = s.pcie := rfl
@[simp] theorem setSite_quads (s : State) (i : Nat) (f : Site → Site) : (s.setSite i f).quads = s.quads := rfl
@[simp] theorem setSite_cfg (s : State) (i : Nat) (f : Site → Site) : (s.setSite i f).cfg = s.cfg := rfl
@[simp] theorem setSite_noc (s : State) (i : Nat) (f : Site → Site) : (s.setSite i f).noc = s.noc := rfl
@[simp] theorem setSite_mem (s : State) (i : Nat) (f : Site → Site) : (s.setSite i f).mem = s.mem := rfl
@[simp] theorem setSite_memChk (s : State) (i : Nat) (f : Site → Site) : (s.setSite i f).memChk = s.memChk := rfl
@[simp] theorem setSite_chans (s : State) (i : Nat) (f : Site → Site) : (s.setSite i f).chans = s.chans := rfl
@[simp] theorem setSite_cal (s : State) (i : Nat) (f : Site → Site) : (s.setSite i f).cal = s.cal := rfl
@[simp] theorem setSite_ledger (s : State) (i : Nat) (f : Site → Site) : (s.setSite i f).ledger = s.ledger := rfl
@[simp] theorem setSite_bnd (s : State) (i : Nat) (f : Site → Site) (j : Nat) : (s.setSite i f).bnd j = s.bnd j := rfl
@[simp] theorem setSite_port (s : State) (i : Nat) (f : Site → Site) (j : Nat) : (s.setSite i f).port j = s.port j := rfl
@[simp] theorem setSite_ctx (s : State) (i : Nat) (f : Site → Site) (j : Nat) : (s.setSite i f).ctx j = s.ctx j := rfl
@[simp] theorem setSite_quad (s : State) (i : Nat) (f : Site → Site) (j : Nat) : (s.setSite i f).quad j = s.quad j := rfl
@[simp] theorem setSite_chan (s : State) (i : Nat) (f : Site → Site) (j : Nat) : (s.setSite i f).chan j = s.chan j := rfl
@[simp] theorem setSite_slot (s : State) (i : Nat) (f : Site → Site) (j : Nat) : (s.setSite i f).slot j = s.slot j := rfl
@[simp] theorem setSite_queue (s : State) (i : Nat) (f : Site → Site) (j : Nat) : (s.setSite i f).queue j = s.queue j := rfl
@[simp] theorem setSite_reg (s : State) (i : Nat) (f : Site → Site) (ob : Obj) (x1 y1 : Nat) : (s.setSite i f).reg ob x1 y1 = s.reg ob x1 y1 := rfl
@[simp] theorem setSite_rd (s : State) (i : Nat) (f : Site → Site) (ob : Obj) (x1 y1 : Nat) : (s.setSite i f).rd ob x1 y1 = s.rd ob x1 y1 := rfl
@[simp] theorem setSite_dom (s : State) (i : Nat) (f : Site → Site) (ob : Obj) (x1 y1 z1 n1 : Nat) : (s.setSite i f).dom ob x1 y1 z1 n1 = s.dom ob x1 y1 z1 n1 := rfl
@[simp] theorem setSite_alive (s : State) (i : Nat) (f : Site → Site) : (s.setSite i f).alive = s.alive := rfl

/-! ## setBnd -/

@[simp] theorem setBnd_pending (s : State) (b : Nat) (f : Bundle → Bundle) : (s.setBnd b f).pending = s.pending := rfl
@[simp] theorem setBnd_out (s : State) (b : Nat) (f : Bundle → Bundle) : (s.setBnd b f).out = s.out := rfl
@[simp] theorem setBnd_time (s : State) (b : Nat) (f : Bundle → Bundle) : (s.setBnd b f).time = s.time := rfl
@[simp] theorem setBnd_elapsed (s : State) (b : Nat) (f : Bundle → Bundle) : (s.setBnd b f).elapsed = s.elapsed := rfl
@[simp] theorem setBnd_timeRuns (s : State) (b : Nat) (f : Bundle → Bundle) : (s.setBnd b f).timeRuns = s.timeRuns := rfl
@[simp] theorem setBnd_freeCount (s : State) (b : Nat) (f : Bundle → Bundle) : (s.setBnd b f).freeCount = s.freeCount := rfl
@[simp] theorem setBnd_dict (s : State) (b : Nat) (f : Bundle → Bundle) : (s.setBnd b f).dict = s.dict := rfl
@[simp] theorem setBnd_ctl (s : State) (b : Nat) (f : Bundle → Bundle) : (s.setBnd b f).ctl = s.ctl := rfl
@[simp] theorem setBnd_evt (s : State) (b : Nat) (f : Bundle → Bundle) : (s.setBnd b f).evt = s.evt := rfl
@[simp] theorem setBnd_dev (s : State) (b : Nat) (f : Bundle → Bundle) : (s.setBnd b f).dev = s.dev := rfl
@[simp] theorem setBnd_fuses (s : State) (b : Nat) (f : Bundle → Bundle) : (s.setBnd b f).fuses = s.fuses := rfl
@[simp] theorem setBnd_sites (s : State) (b : Nat) (f : Bundle → Bundle) : (s.setBnd b f).sites = s.sites := rfl
@[simp] theorem setBnd_ports (s : State) (b : Nat) (f : Bundle → Bundle) : (s.setBnd b f).ports = s.ports := rfl
@[simp] theorem setBnd_ctxs (s : State) (b : Nat) (f : Bundle → Bundle) : (s.setBnd b f).ctxs = s.ctxs := rfl
@[simp] theorem setBnd_tb (s : State) (b : Nat) (f : Bundle → Bundle) : (s.setBnd b f).tb = s.tb := rfl
@[simp] theorem setBnd_rim (s : State) (b : Nat) (f : Bundle → Bundle) : (s.setBnd b f).rim = s.rim := rfl
@[simp] theorem setBnd_therm (s : State) (b : Nat) (f : Bundle → Bundle) : (s.setBnd b f).therm = s.therm := rfl
@[simp] theorem setBnd_ij (s : State) (b : Nat) (f : Bundle → Bundle) : (s.setBnd b f).ij = s.ij := rfl
@[simp] theorem setBnd_pcie (s : State) (b : Nat) (f : Bundle → Bundle) : (s.setBnd b f).pcie = s.pcie := rfl
@[simp] theorem setBnd_quads (s : State) (b : Nat) (f : Bundle → Bundle) : (s.setBnd b f).quads = s.quads := rfl
@[simp] theorem setBnd_cfg (s : State) (b : Nat) (f : Bundle → Bundle) : (s.setBnd b f).cfg = s.cfg := rfl
@[simp] theorem setBnd_noc (s : State) (b : Nat) (f : Bundle → Bundle) : (s.setBnd b f).noc = s.noc := rfl
@[simp] theorem setBnd_mem (s : State) (b : Nat) (f : Bundle → Bundle) : (s.setBnd b f).mem = s.mem := rfl
@[simp] theorem setBnd_memChk (s : State) (b : Nat) (f : Bundle → Bundle) : (s.setBnd b f).memChk = s.memChk := rfl
@[simp] theorem setBnd_chans (s : State) (b : Nat) (f : Bundle → Bundle) : (s.setBnd b f).chans = s.chans := rfl
@[simp] theorem setBnd_cal (s : State) (b : Nat) (f : Bundle → Bundle) : (s.setBnd b f).cal = s.cal := rfl
@[simp] theorem setBnd_ledger (s : State) (b : Nat) (f : Bundle → Bundle) : (s.setBnd b f).ledger = s.ledger := rfl
@[simp] theorem setBnd_site (s : State) (b : Nat) (f : Bundle → Bundle) (j : Nat) : (s.setBnd b f).site j = s.site j := rfl
@[simp] theorem setBnd_port (s : State) (b : Nat) (f : Bundle → Bundle) (j : Nat) : (s.setBnd b f).port j = s.port j := rfl
@[simp] theorem setBnd_ctx (s : State) (b : Nat) (f : Bundle → Bundle) (j : Nat) : (s.setBnd b f).ctx j = s.ctx j := rfl
@[simp] theorem setBnd_quad (s : State) (b : Nat) (f : Bundle → Bundle) (j : Nat) : (s.setBnd b f).quad j = s.quad j := rfl
@[simp] theorem setBnd_chan (s : State) (b : Nat) (f : Bundle → Bundle) (j : Nat) : (s.setBnd b f).chan j = s.chan j := rfl
@[simp] theorem setBnd_slot (s : State) (b : Nat) (f : Bundle → Bundle) (j : Nat) : (s.setBnd b f).slot j = s.slot j := rfl
@[simp] theorem setBnd_queue (s : State) (b : Nat) (f : Bundle → Bundle) (j : Nat) : (s.setBnd b f).queue j = s.queue j := rfl
@[simp] theorem setBnd_reg (s : State) (b : Nat) (f : Bundle → Bundle) (ob : Obj) (x1 y1 : Nat) : (s.setBnd b f).reg ob x1 y1 = s.reg ob x1 y1 := rfl
@[simp] theorem setBnd_rd (s : State) (b : Nat) (f : Bundle → Bundle) (ob : Obj) (x1 y1 : Nat) : (s.setBnd b f).rd ob x1 y1 = s.rd ob x1 y1 := rfl
@[simp] theorem setBnd_dom (s : State) (b : Nat) (f : Bundle → Bundle) (ob : Obj) (x1 y1 z1 n1 : Nat) : (s.setBnd b f).dom ob x1 y1 z1 n1 = s.dom ob x1 y1 z1 n1 := rfl
@[simp] theorem setBnd_alive (s : State) (b : Nat) (f : Bundle → Bundle) : (s.setBnd b f).alive = s.alive := rfl
@[simp] theorem setBnd_devState (s : State) (b : Nat) (f : Bundle → Bundle) : (s.setBnd b f).devState = s.devState := rfl

/-! ## setPort -/

@[simp] theorem setPort_pending (s : State) (p : Nat) (f : Port → Port) : (s.setPort p f).pending = s.pending := rfl
@[simp] theorem setPort_out (s : State) (p : Nat) (f : Port → Port) : (s.setPort p f).out = s.out := rfl
@[simp] theorem setPort_time (s : State) (p : Nat) (f : Port → Port) : (s.setPort p f).time = s.time := rfl
@[simp] theorem setPort_elapsed (s : State) (p : Nat) (f : Port → Port) : (s.setPort p f).elapsed = s.elapsed := rfl
@[simp] theorem setPort_timeRuns (s : State) (p : Nat) (f : Port → Port) : (s.setPort p f).timeRuns = s.timeRuns := rfl
@[simp] theorem setPort_freeCount (s : State) (p : Nat) (f : Port → Port) : (s.setPort p f).freeCount = s.freeCount := rfl
@[simp] theorem setPort_dict (s : State) (p : Nat) (f : Port → Port) : (s.setPort p f).dict = s.dict := rfl
@[simp] theorem setPort_ctl (s : State) (p : Nat) (f : Port → Port) : (s.setPort p f).ctl = s.ctl := rfl
@[simp] theorem setPort_evt (s : State) (p : Nat) (f : Port → Port) : (s.setPort p f).evt = s.evt := rfl
@[simp] theorem setPort_dev (s : State) (p : Nat) (f : Port → Port) : (s.setPort p f).dev = s.dev := rfl
@[simp] theorem setPort_fuses (s : State) (p : Nat) (f : Port → Port) : (s.setPort p f).fuses = s.fuses := rfl
@[simp] theorem setPort_sites (s : State) (p : Nat) (f : Port → Port) : (s.setPort p f).sites = s.sites := rfl
@[simp] theorem setPort_bnds (s : State) (p : Nat) (f : Port → Port) : (s.setPort p f).bnds = s.bnds := rfl
@[simp] theorem setPort_ctxs (s : State) (p : Nat) (f : Port → Port) : (s.setPort p f).ctxs = s.ctxs := rfl
@[simp] theorem setPort_tb (s : State) (p : Nat) (f : Port → Port) : (s.setPort p f).tb = s.tb := rfl
@[simp] theorem setPort_rim (s : State) (p : Nat) (f : Port → Port) : (s.setPort p f).rim = s.rim := rfl
@[simp] theorem setPort_therm (s : State) (p : Nat) (f : Port → Port) : (s.setPort p f).therm = s.therm := rfl
@[simp] theorem setPort_ij (s : State) (p : Nat) (f : Port → Port) : (s.setPort p f).ij = s.ij := rfl
@[simp] theorem setPort_pcie (s : State) (p : Nat) (f : Port → Port) : (s.setPort p f).pcie = s.pcie := rfl
@[simp] theorem setPort_quads (s : State) (p : Nat) (f : Port → Port) : (s.setPort p f).quads = s.quads := rfl
@[simp] theorem setPort_cfg (s : State) (p : Nat) (f : Port → Port) : (s.setPort p f).cfg = s.cfg := rfl
@[simp] theorem setPort_noc (s : State) (p : Nat) (f : Port → Port) : (s.setPort p f).noc = s.noc := rfl
@[simp] theorem setPort_mem (s : State) (p : Nat) (f : Port → Port) : (s.setPort p f).mem = s.mem := rfl
@[simp] theorem setPort_memChk (s : State) (p : Nat) (f : Port → Port) : (s.setPort p f).memChk = s.memChk := rfl
@[simp] theorem setPort_chans (s : State) (p : Nat) (f : Port → Port) : (s.setPort p f).chans = s.chans := rfl
@[simp] theorem setPort_cal (s : State) (p : Nat) (f : Port → Port) : (s.setPort p f).cal = s.cal := rfl
@[simp] theorem setPort_ledger (s : State) (p : Nat) (f : Port → Port) : (s.setPort p f).ledger = s.ledger := rfl
@[simp] theorem setPort_site (s : State) (p : Nat) (f : Port → Port) (j : Nat) : (s.setPort p f).site j = s.site j := rfl
@[simp] theorem setPort_bnd (s : State) (p : Nat) (f : Port → Port) (j : Nat) : (s.setPort p f).bnd j = s.bnd j := rfl
@[simp] theorem setPort_ctx (s : State) (p : Nat) (f : Port → Port) (j : Nat) : (s.setPort p f).ctx j = s.ctx j := rfl
@[simp] theorem setPort_quad (s : State) (p : Nat) (f : Port → Port) (j : Nat) : (s.setPort p f).quad j = s.quad j := rfl
@[simp] theorem setPort_chan (s : State) (p : Nat) (f : Port → Port) (j : Nat) : (s.setPort p f).chan j = s.chan j := rfl
@[simp] theorem setPort_slot (s : State) (p : Nat) (f : Port → Port) (j : Nat) : (s.setPort p f).slot j = s.slot j := rfl
@[simp] theorem setPort_queue (s : State) (p : Nat) (f : Port → Port) (j : Nat) : (s.setPort p f).queue j = s.queue j := rfl
@[simp] theorem setPort_reg (s : State) (p : Nat) (f : Port → Port) (ob : Obj) (x1 y1 : Nat) : (s.setPort p f).reg ob x1 y1 = s.reg ob x1 y1 := rfl
@[simp] theorem setPort_rd (s : State) (p : Nat) (f : Port → Port) (ob : Obj) (x1 y1 : Nat) : (s.setPort p f).rd ob x1 y1 = s.rd ob x1 y1 := rfl
@[simp] theorem setPort_dom (s : State) (p : Nat) (f : Port → Port) (ob : Obj) (x1 y1 z1 n1 : Nat) : (s.setPort p f).dom ob x1 y1 z1 n1 = s.dom ob x1 y1 z1 n1 := rfl
@[simp] theorem setPort_alive (s : State) (p : Nat) (f : Port → Port) : (s.setPort p f).alive = s.alive := rfl
@[simp] theorem setPort_devState (s : State) (p : Nat) (f : Port → Port) : (s.setPort p f).devState = s.devState := rfl

/-! ## setCtx -/

@[simp] theorem setCtx_pending (s : State) (c : Nat) (f : Context → Context) : (s.setCtx c f).pending = s.pending := rfl
@[simp] theorem setCtx_out (s : State) (c : Nat) (f : Context → Context) : (s.setCtx c f).out = s.out := rfl
@[simp] theorem setCtx_time (s : State) (c : Nat) (f : Context → Context) : (s.setCtx c f).time = s.time := rfl
@[simp] theorem setCtx_elapsed (s : State) (c : Nat) (f : Context → Context) : (s.setCtx c f).elapsed = s.elapsed := rfl
@[simp] theorem setCtx_timeRuns (s : State) (c : Nat) (f : Context → Context) : (s.setCtx c f).timeRuns = s.timeRuns := rfl
@[simp] theorem setCtx_freeCount (s : State) (c : Nat) (f : Context → Context) : (s.setCtx c f).freeCount = s.freeCount := rfl
@[simp] theorem setCtx_dict (s : State) (c : Nat) (f : Context → Context) : (s.setCtx c f).dict = s.dict := rfl
@[simp] theorem setCtx_ctl (s : State) (c : Nat) (f : Context → Context) : (s.setCtx c f).ctl = s.ctl := rfl
@[simp] theorem setCtx_evt (s : State) (c : Nat) (f : Context → Context) : (s.setCtx c f).evt = s.evt := rfl
@[simp] theorem setCtx_dev (s : State) (c : Nat) (f : Context → Context) : (s.setCtx c f).dev = s.dev := rfl
@[simp] theorem setCtx_fuses (s : State) (c : Nat) (f : Context → Context) : (s.setCtx c f).fuses = s.fuses := rfl
@[simp] theorem setCtx_sites (s : State) (c : Nat) (f : Context → Context) : (s.setCtx c f).sites = s.sites := rfl
@[simp] theorem setCtx_bnds (s : State) (c : Nat) (f : Context → Context) : (s.setCtx c f).bnds = s.bnds := rfl
@[simp] theorem setCtx_ports (s : State) (c : Nat) (f : Context → Context) : (s.setCtx c f).ports = s.ports := rfl
@[simp] theorem setCtx_tb (s : State) (c : Nat) (f : Context → Context) : (s.setCtx c f).tb = s.tb := rfl
@[simp] theorem setCtx_rim (s : State) (c : Nat) (f : Context → Context) : (s.setCtx c f).rim = s.rim := rfl
@[simp] theorem setCtx_therm (s : State) (c : Nat) (f : Context → Context) : (s.setCtx c f).therm = s.therm := rfl
@[simp] theorem setCtx_ij (s : State) (c : Nat) (f : Context → Context) : (s.setCtx c f).ij = s.ij := rfl
@[simp] theorem setCtx_pcie (s : State) (c : Nat) (f : Context → Context) : (s.setCtx c f).pcie = s.pcie := rfl
@[simp] theorem setCtx_quads (s : State) (c : Nat) (f : Context → Context) : (s.setCtx c f).quads = s.quads := rfl
@[simp] theorem setCtx_cfg (s : State) (c : Nat) (f : Context → Context) : (s.setCtx c f).cfg = s.cfg := rfl
@[simp] theorem setCtx_noc (s : State) (c : Nat) (f : Context → Context) : (s.setCtx c f).noc = s.noc := rfl
@[simp] theorem setCtx_mem (s : State) (c : Nat) (f : Context → Context) : (s.setCtx c f).mem = s.mem := rfl
@[simp] theorem setCtx_memChk (s : State) (c : Nat) (f : Context → Context) : (s.setCtx c f).memChk = s.memChk := rfl
@[simp] theorem setCtx_chans (s : State) (c : Nat) (f : Context → Context) : (s.setCtx c f).chans = s.chans := rfl
@[simp] theorem setCtx_cal (s : State) (c : Nat) (f : Context → Context) : (s.setCtx c f).cal = s.cal := rfl
@[simp] theorem setCtx_ledger (s : State) (c : Nat) (f : Context → Context) : (s.setCtx c f).ledger = s.ledger := rfl
@[simp] theorem setCtx_site (s : State) (c : Nat) (f : Context → Context) (j : Nat) : (s.setCtx c f).site j = s.site j := rfl
@[simp] theorem setCtx_bnd (s : State) (c : Nat) (f : Context → Context) (j : Nat) : (s.setCtx c f).bnd j = s.bnd j := rfl
@[simp] theorem setCtx_port (s : State) (c : Nat) (f : Context → Context) (j : Nat) : (s.setCtx c f).port j = s.port j := rfl
@[simp] theorem setCtx_quad (s : State) (c : Nat) (f : Context → Context) (j : Nat) : (s.setCtx c f).quad j = s.quad j := rfl
@[simp] theorem setCtx_chan (s : State) (c : Nat) (f : Context → Context) (j : Nat) : (s.setCtx c f).chan j = s.chan j := rfl
@[simp] theorem setCtx_slot (s : State) (c : Nat) (f : Context → Context) (j : Nat) : (s.setCtx c f).slot j = s.slot j := rfl
@[simp] theorem setCtx_queue (s : State) (c : Nat) (f : Context → Context) (j : Nat) : (s.setCtx c f).queue j = s.queue j := rfl
@[simp] theorem setCtx_reg (s : State) (c : Nat) (f : Context → Context) (ob : Obj) (x1 y1 : Nat) : (s.setCtx c f).reg ob x1 y1 = s.reg ob x1 y1 := rfl
@[simp] theorem setCtx_rd (s : State) (c : Nat) (f : Context → Context) (ob : Obj) (x1 y1 : Nat) : (s.setCtx c f).rd ob x1 y1 = s.rd ob x1 y1 := rfl
@[simp] theorem setCtx_dom (s : State) (c : Nat) (f : Context → Context) (ob : Obj) (x1 y1 z1 n1 : Nat) : (s.setCtx c f).dom ob x1 y1 z1 n1 = s.dom ob x1 y1 z1 n1 := rfl
@[simp] theorem setCtx_alive (s : State) (c : Nat) (f : Context → Context) : (s.setCtx c f).alive = s.alive := rfl
@[simp] theorem setCtx_devState (s : State) (c : Nat) (f : Context → Context) : (s.setCtx c f).devState = s.devState := rfl

/-! ## setQuad -/

@[simp] theorem setQuad_pending (s : State) (q : Nat) (f : Quad → Quad) : (s.setQuad q f).pending = s.pending := rfl
@[simp] theorem setQuad_out (s : State) (q : Nat) (f : Quad → Quad) : (s.setQuad q f).out = s.out := rfl
@[simp] theorem setQuad_time (s : State) (q : Nat) (f : Quad → Quad) : (s.setQuad q f).time = s.time := rfl
@[simp] theorem setQuad_elapsed (s : State) (q : Nat) (f : Quad → Quad) : (s.setQuad q f).elapsed = s.elapsed := rfl
@[simp] theorem setQuad_timeRuns (s : State) (q : Nat) (f : Quad → Quad) : (s.setQuad q f).timeRuns = s.timeRuns := rfl
@[simp] theorem setQuad_freeCount (s : State) (q : Nat) (f : Quad → Quad) : (s.setQuad q f).freeCount = s.freeCount := rfl
@[simp] theorem setQuad_dict (s : State) (q : Nat) (f : Quad → Quad) : (s.setQuad q f).dict = s.dict := rfl
@[simp] theorem setQuad_ctl (s : State) (q : Nat) (f : Quad → Quad) : (s.setQuad q f).ctl = s.ctl := rfl
@[simp] theorem setQuad_evt (s : State) (q : Nat) (f : Quad → Quad) : (s.setQuad q f).evt = s.evt := rfl
@[simp] theorem setQuad_dev (s : State) (q : Nat) (f : Quad → Quad) : (s.setQuad q f).dev = s.dev := rfl
@[simp] theorem setQuad_fuses (s : State) (q : Nat) (f : Quad → Quad) : (s.setQuad q f).fuses = s.fuses := rfl
@[simp] theorem setQuad_sites (s : State) (q : Nat) (f : Quad → Quad) : (s.setQuad q f).sites = s.sites := rfl
@[simp] theorem setQuad_bnds (s : State) (q : Nat) (f : Quad → Quad) : (s.setQuad q f).bnds = s.bnds := rfl
@[simp] theorem setQuad_ports (s : State) (q : Nat) (f : Quad → Quad) : (s.setQuad q f).ports = s.ports := rfl
@[simp] theorem setQuad_ctxs (s : State) (q : Nat) (f : Quad → Quad) : (s.setQuad q f).ctxs = s.ctxs := rfl
@[simp] theorem setQuad_tb (s : State) (q : Nat) (f : Quad → Quad) : (s.setQuad q f).tb = s.tb := rfl
@[simp] theorem setQuad_rim (s : State) (q : Nat) (f : Quad → Quad) : (s.setQuad q f).rim = s.rim := rfl
@[simp] theorem setQuad_therm (s : State) (q : Nat) (f : Quad → Quad) : (s.setQuad q f).therm = s.therm := rfl
@[simp] theorem setQuad_ij (s : State) (q : Nat) (f : Quad → Quad) : (s.setQuad q f).ij = s.ij := rfl
@[simp] theorem setQuad_pcie (s : State) (q : Nat) (f : Quad → Quad) : (s.setQuad q f).pcie = s.pcie := rfl
@[simp] theorem setQuad_cfg (s : State) (q : Nat) (f : Quad → Quad) : (s.setQuad q f).cfg = s.cfg := rfl
@[simp] theorem setQuad_noc (s : State) (q : Nat) (f : Quad → Quad) : (s.setQuad q f).noc = s.noc := rfl
@[simp] theorem setQuad_mem (s : State) (q : Nat) (f : Quad → Quad) : (s.setQuad q f).mem = s.mem := rfl
@[simp] theorem setQuad_memChk (s : State) (q : Nat) (f : Quad → Quad) : (s.setQuad q f).memChk = s.memChk := rfl
@[simp] theorem setQuad_chans (s : State) (q : Nat) (f : Quad → Quad) : (s.setQuad q f).chans = s.chans := rfl
@[simp] theorem setQuad_cal (s : State) (q : Nat) (f : Quad → Quad) : (s.setQuad q f).cal = s.cal := rfl
@[simp] theorem setQuad_ledger (s : State) (q : Nat) (f : Quad → Quad) : (s.setQuad q f).ledger = s.ledger := rfl
@[simp] theorem setQuad_site (s : State) (q : Nat) (f : Quad → Quad) (j : Nat) : (s.setQuad q f).site j = s.site j := rfl
@[simp] theorem setQuad_bnd (s : State) (q : Nat) (f : Quad → Quad) (j : Nat) : (s.setQuad q f).bnd j = s.bnd j := rfl
@[simp] theorem setQuad_port (s : State) (q : Nat) (f : Quad → Quad) (j : Nat) : (s.setQuad q f).port j = s.port j := rfl
@[simp] theorem setQuad_ctx (s : State) (q : Nat) (f : Quad → Quad) (j : Nat) : (s.setQuad q f).ctx j = s.ctx j := rfl
@[simp] theorem setQuad_chan (s : State) (q : Nat) (f : Quad → Quad) (j : Nat) : (s.setQuad q f).chan j = s.chan j := rfl
@[simp] theorem setQuad_slot (s : State) (q : Nat) (f : Quad → Quad) (j : Nat) : (s.setQuad q f).slot j = s.slot j := rfl
@[simp] theorem setQuad_queue (s : State) (q : Nat) (f : Quad → Quad) (j : Nat) : (s.setQuad q f).queue j = s.queue j := rfl
@[simp] theorem setQuad_reg (s : State) (q : Nat) (f : Quad → Quad) (ob : Obj) (x1 y1 : Nat) : (s.setQuad q f).reg ob x1 y1 = s.reg ob x1 y1 := rfl
@[simp] theorem setQuad_rd (s : State) (q : Nat) (f : Quad → Quad) (ob : Obj) (x1 y1 : Nat) : (s.setQuad q f).rd ob x1 y1 = s.rd ob x1 y1 := rfl
@[simp] theorem setQuad_dom (s : State) (q : Nat) (f : Quad → Quad) (ob : Obj) (x1 y1 z1 n1 : Nat) : (s.setQuad q f).dom ob x1 y1 z1 n1 = s.dom ob x1 y1 z1 n1 := rfl
@[simp] theorem setQuad_alive (s : State) (q : Nat) (f : Quad → Quad) : (s.setQuad q f).alive = s.alive := rfl
@[simp] theorem setQuad_devState (s : State) (q : Nat) (f : Quad → Quad) : (s.setQuad q f).devState = s.devState := rfl

/-! ## setChan -/

@[simp] theorem setChan_pending (s : State) (m : Nat) (f : Chan → Chan) : (s.setChan m f).pending = s.pending := rfl
@[simp] theorem setChan_out (s : State) (m : Nat) (f : Chan → Chan) : (s.setChan m f).out = s.out := rfl
@[simp] theorem setChan_time (s : State) (m : Nat) (f : Chan → Chan) : (s.setChan m f).time = s.time := rfl
@[simp] theorem setChan_elapsed (s : State) (m : Nat) (f : Chan → Chan) : (s.setChan m f).elapsed = s.elapsed := rfl
@[simp] theorem setChan_timeRuns (s : State) (m : Nat) (f : Chan → Chan) : (s.setChan m f).timeRuns = s.timeRuns := rfl
@[simp] theorem setChan_freeCount (s : State) (m : Nat) (f : Chan → Chan) : (s.setChan m f).freeCount = s.freeCount := rfl
@[simp] theorem setChan_dict (s : State) (m : Nat) (f : Chan → Chan) : (s.setChan m f).dict = s.dict := rfl
@[simp] theorem setChan_ctl (s : State) (m : Nat) (f : Chan → Chan) : (s.setChan m f).ctl = s.ctl := rfl
@[simp] theorem setChan_evt (s : State) (m : Nat) (f : Chan → Chan) : (s.setChan m f).evt = s.evt := rfl
@[simp] theorem setChan_dev (s : State) (m : Nat) (f : Chan → Chan) : (s.setChan m f).dev = s.dev := rfl
@[simp] theorem setChan_fuses (s : State) (m : Nat) (f : Chan → Chan) : (s.setChan m f).fuses = s.fuses := rfl
@[simp] theorem setChan_sites (s : State) (m : Nat) (f : Chan → Chan) : (s.setChan m f).sites = s.sites := rfl
@[simp] theorem setChan_bnds (s : State) (m : Nat) (f : Chan → Chan) : (s.setChan m f).bnds = s.bnds := rfl
@[simp] theorem setChan_ports (s : State) (m : Nat) (f : Chan → Chan) : (s.setChan m f).ports = s.ports := rfl
@[simp] theorem setChan_ctxs (s : State) (m : Nat) (f : Chan → Chan) : (s.setChan m f).ctxs = s.ctxs := rfl
@[simp] theorem setChan_tb (s : State) (m : Nat) (f : Chan → Chan) : (s.setChan m f).tb = s.tb := rfl
@[simp] theorem setChan_rim (s : State) (m : Nat) (f : Chan → Chan) : (s.setChan m f).rim = s.rim := rfl
@[simp] theorem setChan_therm (s : State) (m : Nat) (f : Chan → Chan) : (s.setChan m f).therm = s.therm := rfl
@[simp] theorem setChan_ij (s : State) (m : Nat) (f : Chan → Chan) : (s.setChan m f).ij = s.ij := rfl
@[simp] theorem setChan_pcie (s : State) (m : Nat) (f : Chan → Chan) : (s.setChan m f).pcie = s.pcie := rfl
@[simp] theorem setChan_quads (s : State) (m : Nat) (f : Chan → Chan) : (s.setChan m f).quads = s.quads := rfl
@[simp] theorem setChan_cfg (s : State) (m : Nat) (f : Chan → Chan) : (s.setChan m f).cfg = s.cfg := rfl
@[simp] theorem setChan_noc (s : State) (m : Nat) (f : Chan → Chan) : (s.setChan m f).noc = s.noc := rfl
@[simp] theorem setChan_mem (s : State) (m : Nat) (f : Chan → Chan) : (s.setChan m f).mem = s.mem := rfl
@[simp] theorem setChan_memChk (s : State) (m : Nat) (f : Chan → Chan) : (s.setChan m f).memChk = s.memChk := rfl
@[simp] theorem setChan_cal (s : State) (m : Nat) (f : Chan → Chan) : (s.setChan m f).cal = s.cal := rfl
@[simp] theorem setChan_ledger (s : State) (m : Nat) (f : Chan → Chan) : (s.setChan m f).ledger = s.ledger := rfl
@[simp] theorem setChan_site (s : State) (m : Nat) (f : Chan → Chan) (j : Nat) : (s.setChan m f).site j = s.site j := rfl
@[simp] theorem setChan_bnd (s : State) (m : Nat) (f : Chan → Chan) (j : Nat) : (s.setChan m f).bnd j = s.bnd j := rfl
@[simp] theorem setChan_port (s : State) (m : Nat) (f : Chan → Chan) (j : Nat) : (s.setChan m f).port j = s.port j := rfl
@[simp] theorem setChan_ctx (s : State) (m : Nat) (f : Chan → Chan) (j : Nat) : (s.setChan m f).ctx j = s.ctx j := rfl
@[simp] theorem setChan_quad (s : State) (m : Nat) (f : Chan → Chan) (j : Nat) : (s.setChan m f).quad j = s.quad j := rfl
@[simp] theorem setChan_slot (s : State) (m : Nat) (f : Chan → Chan) (j : Nat) : (s.setChan m f).slot j = s.slot j := rfl
@[simp] theorem setChan_queue (s : State) (m : Nat) (f : Chan → Chan) (j : Nat) : (s.setChan m f).queue j = s.queue j := rfl
@[simp] theorem setChan_reg (s : State) (m : Nat) (f : Chan → Chan) (ob : Obj) (x1 y1 : Nat) : (s.setChan m f).reg ob x1 y1 = s.reg ob x1 y1 := rfl
@[simp] theorem setChan_rd (s : State) (m : Nat) (f : Chan → Chan) (ob : Obj) (x1 y1 : Nat) : (s.setChan m f).rd ob x1 y1 = s.rd ob x1 y1 := rfl
@[simp] theorem setChan_dom (s : State) (m : Nat) (f : Chan → Chan) (ob : Obj) (x1 y1 z1 n1 : Nat) : (s.setChan m f).dom ob x1 y1 z1 n1 = s.dom ob x1 y1 z1 n1 := rfl
@[simp] theorem setChan_alive (s : State) (m : Nat) (f : Chan → Chan) : (s.setChan m f).alive = s.alive := rfl
@[simp] theorem setChan_devState (s : State) (m : Nat) (f : Chan → Chan) : (s.setChan m f).devState = s.devState := rfl

/-! ## setSlot -/

@[simp] theorem setSlot_pending (s : State) (i : Nat) (f : Slot → Slot) : (s.setSlot i f).pending = s.pending := rfl
@[simp] theorem setSlot_out (s : State) (i : Nat) (f : Slot → Slot) : (s.setSlot i f).out = s.out := rfl
@[simp] theorem setSlot_time (s : State) (i : Nat) (f : Slot → Slot) : (s.setSlot i f).time = s.time := rfl
@[simp] theorem setSlot_elapsed (s : State) (i : Nat) (f : Slot → Slot) : (s.setSlot i f).elapsed = s.elapsed := rfl
@[simp] theorem setSlot_timeRuns (s : State) (i : Nat) (f : Slot → Slot) : (s.setSlot i f).timeRuns = s.timeRuns := rfl
@[simp] theorem setSlot_freeCount (s : State) (i : Nat) (f : Slot → Slot) : (s.setSlot i f).freeCount = s.freeCount := rfl
@[simp] theorem setSlot_dict (s : State) (i : Nat) (f : Slot → Slot) : (s.setSlot i f).dict = s.dict := rfl
@[simp] theorem setSlot_ctl (s : State) (i : Nat) (f : Slot → Slot) : (s.setSlot i f).ctl = s.ctl := rfl
@[simp] theorem setSlot_evt (s : State) (i : Nat) (f : Slot → Slot) : (s.setSlot i f).evt = s.evt := rfl
@[simp] theorem setSlot_dev (s : State) (i : Nat) (f : Slot → Slot) : (s.setSlot i f).dev = s.dev := rfl
@[simp] theorem setSlot_fuses (s : State) (i : Nat) (f : Slot → Slot) : (s.setSlot i f).fuses = s.fuses := rfl
@[simp] theorem setSlot_sites (s : State) (i : Nat) (f : Slot → Slot) : (s.setSlot i f).sites = s.sites := rfl
@[simp] theorem setSlot_bnds (s : State) (i : Nat) (f : Slot → Slot) : (s.setSlot i f).bnds = s.bnds := rfl
@[simp] theorem setSlot_ports (s : State) (i : Nat) (f : Slot → Slot) : (s.setSlot i f).ports = s.ports := rfl
@[simp] theorem setSlot_ctxs (s : State) (i : Nat) (f : Slot → Slot) : (s.setSlot i f).ctxs = s.ctxs := rfl
@[simp] theorem setSlot_tb (s : State) (i : Nat) (f : Slot → Slot) : (s.setSlot i f).tb = s.tb := rfl
@[simp] theorem setSlot_rim (s : State) (i : Nat) (f : Slot → Slot) : (s.setSlot i f).rim = s.rim := rfl
@[simp] theorem setSlot_therm (s : State) (i : Nat) (f : Slot → Slot) : (s.setSlot i f).therm = s.therm := rfl
@[simp] theorem setSlot_ij (s : State) (i : Nat) (f : Slot → Slot) : (s.setSlot i f).ij = s.ij := rfl
@[simp] theorem setSlot_quads (s : State) (i : Nat) (f : Slot → Slot) : (s.setSlot i f).quads = s.quads := rfl
@[simp] theorem setSlot_cfg (s : State) (i : Nat) (f : Slot → Slot) : (s.setSlot i f).cfg = s.cfg := rfl
@[simp] theorem setSlot_noc (s : State) (i : Nat) (f : Slot → Slot) : (s.setSlot i f).noc = s.noc := rfl
@[simp] theorem setSlot_mem (s : State) (i : Nat) (f : Slot → Slot) : (s.setSlot i f).mem = s.mem := rfl
@[simp] theorem setSlot_memChk (s : State) (i : Nat) (f : Slot → Slot) : (s.setSlot i f).memChk = s.memChk := rfl
@[simp] theorem setSlot_chans (s : State) (i : Nat) (f : Slot → Slot) : (s.setSlot i f).chans = s.chans := rfl
@[simp] theorem setSlot_cal (s : State) (i : Nat) (f : Slot → Slot) : (s.setSlot i f).cal = s.cal := rfl
@[simp] theorem setSlot_ledger (s : State) (i : Nat) (f : Slot → Slot) : (s.setSlot i f).ledger = s.ledger := rfl
@[simp] theorem setSlot_site (s : State) (i : Nat) (f : Slot → Slot) (j : Nat) : (s.setSlot i f).site j = s.site j := rfl
@[simp] theorem setSlot_bnd (s : State) (i : Nat) (f : Slot → Slot) (j : Nat) : (s.setSlot i f).bnd j = s.bnd j := rfl
@[simp] theorem setSlot_port (s : State) (i : Nat) (f : Slot → Slot) (j : Nat) : (s.setSlot i f).port j = s.port j := rfl
@[simp] theorem setSlot_ctx (s : State) (i : Nat) (f : Slot → Slot) (j : Nat) : (s.setSlot i f).ctx j = s.ctx j := rfl
@[simp] theorem setSlot_quad (s : State) (i : Nat) (f : Slot → Slot) (j : Nat) : (s.setSlot i f).quad j = s.quad j := rfl
@[simp] theorem setSlot_chan (s : State) (i : Nat) (f : Slot → Slot) (j : Nat) : (s.setSlot i f).chan j = s.chan j := rfl
@[simp] theorem setSlot_reg (s : State) (i : Nat) (f : Slot → Slot) (ob : Obj) (x1 y1 : Nat) : (s.setSlot i f).reg ob x1 y1 = s.reg ob x1 y1 := rfl
@[simp] theorem setSlot_rd (s : State) (i : Nat) (f : Slot → Slot) (ob : Obj) (x1 y1 : Nat) : (s.setSlot i f).rd ob x1 y1 = s.rd ob x1 y1 := rfl
@[simp] theorem setSlot_dom (s : State) (i : Nat) (f : Slot → Slot) (ob : Obj) (x1 y1 z1 n1 : Nat) : (s.setSlot i f).dom ob x1 y1 z1 n1 = s.dom ob x1 y1 z1 n1 := rfl
@[simp] theorem setSlot_alive (s : State) (i : Nat) (f : Slot → Slot) : (s.setSlot i f).alive = s.alive := rfl
@[simp] theorem setSlot_devState (s : State) (i : Nat) (f : Slot → Slot) : (s.setSlot i f).devState = s.devState := rfl

/-! ## setQueue -/

@[simp] theorem setQueue_pending (s : State) (i : Nat) (f : Queue → Queue) : (s.setQueue i f).pending = s.pending := rfl
@[simp] theorem setQueue_out (s : State) (i : Nat) (f : Queue → Queue) : (s.setQueue i f).out = s.out := rfl
@[simp] theorem setQueue_time (s : State) (i : Nat) (f : Queue → Queue) : (s.setQueue i f).time = s.time := rfl
@[simp] theorem setQueue_elapsed (s : State) (i : Nat) (f : Queue → Queue) : (s.setQueue i f).elapsed = s.elapsed := rfl
@[simp] theorem setQueue_timeRuns (s : State) (i : Nat) (f : Queue → Queue) : (s.setQueue i f).timeRuns = s.timeRuns := rfl
@[simp] theorem setQueue_freeCount (s : State) (i : Nat) (f : Queue → Queue) : (s.setQueue i f).freeCount = s.freeCount := rfl
@[simp] theorem setQueue_dict (s : State) (i : Nat) (f : Queue → Queue) : (s.setQueue i f).dict = s.dict := rfl
@[simp] theorem setQueue_ctl (s : State) (i : Nat) (f : Queue → Queue) : (s.setQueue i f).ctl = s.ctl := rfl
@[simp] theorem setQueue_evt (s : State) (i : Nat) (f : Queue → Queue) : (s.setQueue i f).evt = s.evt := rfl
@[simp] theorem setQueue_dev (s : State) (i : Nat) (f : Queue → Queue) : (s.setQueue i f).dev = s.dev := rfl
@[simp] theorem setQueue_fuses (s : State) (i : Nat) (f : Queue → Queue) : (s.setQueue i f).fuses = s.fuses := rfl
@[simp] theorem setQueue_sites (s : State) (i : Nat) (f : Queue → Queue) : (s.setQueue i f).sites = s.sites := rfl
@[simp] theorem setQueue_bnds (s : State) (i : Nat) (f : Queue → Queue) : (s.setQueue i f).bnds = s.bnds := rfl
@[simp] theorem setQueue_ports (s : State) (i : Nat) (f : Queue → Queue) : (s.setQueue i f).ports = s.ports := rfl
@[simp] theorem setQueue_ctxs (s : State) (i : Nat) (f : Queue → Queue) : (s.setQueue i f).ctxs = s.ctxs := rfl
@[simp] theorem setQueue_tb (s : State) (i : Nat) (f : Queue → Queue) : (s.setQueue i f).tb = s.tb := rfl
@[simp] theorem setQueue_rim (s : State) (i : Nat) (f : Queue → Queue) : (s.setQueue i f).rim = s.rim := rfl
@[simp] theorem setQueue_therm (s : State) (i : Nat) (f : Queue → Queue) : (s.setQueue i f).therm = s.therm := rfl
@[simp] theorem setQueue_ij (s : State) (i : Nat) (f : Queue → Queue) : (s.setQueue i f).ij = s.ij := rfl
@[simp] theorem setQueue_quads (s : State) (i : Nat) (f : Queue → Queue) : (s.setQueue i f).quads = s.quads := rfl
@[simp] theorem setQueue_cfg (s : State) (i : Nat) (f : Queue → Queue) : (s.setQueue i f).cfg = s.cfg := rfl
@[simp] theorem setQueue_noc (s : State) (i : Nat) (f : Queue → Queue) : (s.setQueue i f).noc = s.noc := rfl
@[simp] theorem setQueue_mem (s : State) (i : Nat) (f : Queue → Queue) : (s.setQueue i f).mem = s.mem := rfl
@[simp] theorem setQueue_memChk (s : State) (i : Nat) (f : Queue → Queue) : (s.setQueue i f).memChk = s.memChk := rfl
@[simp] theorem setQueue_chans (s : State) (i : Nat) (f : Queue → Queue) : (s.setQueue i f).chans = s.chans := rfl
@[simp] theorem setQueue_cal (s : State) (i : Nat) (f : Queue → Queue) : (s.setQueue i f).cal = s.cal := rfl
@[simp] theorem setQueue_ledger (s : State) (i : Nat) (f : Queue → Queue) : (s.setQueue i f).ledger = s.ledger := rfl
@[simp] theorem setQueue_site (s : State) (i : Nat) (f : Queue → Queue) (j : Nat) : (s.setQueue i f).site j = s.site j := rfl
@[simp] theorem setQueue_bnd (s : State) (i : Nat) (f : Queue → Queue) (j : Nat) : (s.setQueue i f).bnd j = s.bnd j := rfl
@[simp] theorem setQueue_port (s : State) (i : Nat) (f : Queue → Queue) (j : Nat) : (s.setQueue i f).port j = s.port j := rfl
@[simp] theorem setQueue_ctx (s : State) (i : Nat) (f : Queue → Queue) (j : Nat) : (s.setQueue i f).ctx j = s.ctx j := rfl
@[simp] theorem setQueue_quad (s : State) (i : Nat) (f : Queue → Queue) (j : Nat) : (s.setQueue i f).quad j = s.quad j := rfl
@[simp] theorem setQueue_chan (s : State) (i : Nat) (f : Queue → Queue) (j : Nat) : (s.setQueue i f).chan j = s.chan j := rfl
@[simp] theorem setQueue_reg (s : State) (i : Nat) (f : Queue → Queue) (ob : Obj) (x1 y1 : Nat) : (s.setQueue i f).reg ob x1 y1 = s.reg ob x1 y1 := rfl
@[simp] theorem setQueue_rd (s : State) (i : Nat) (f : Queue → Queue) (ob : Obj) (x1 y1 : Nat) : (s.setQueue i f).rd ob x1 y1 = s.rd ob x1 y1 := rfl
@[simp] theorem setQueue_dom (s : State) (i : Nat) (f : Queue → Queue) (ob : Obj) (x1 y1 z1 n1 : Nat) : (s.setQueue i f).dom ob x1 y1 z1 n1 = s.dom ob x1 y1 z1 n1 := rfl
@[simp] theorem setQueue_alive (s : State) (i : Nat) (f : Queue → Queue) : (s.setQueue i f).alive = s.alive := rfl
@[simp] theorem setQueue_devState (s : State) (i : Nat) (f : Queue → Queue) : (s.setQueue i f).devState = s.devState := rfl

/-! ## send -/

@[simp] theorem send_pending (s : State) (m : Msg) : (s.send m).pending = s.pending := rfl
@[simp] theorem send_time (s : State) (m : Msg) : (s.send m).time = s.time := rfl
@[simp] theorem send_elapsed (s : State) (m : Msg) : (s.send m).elapsed = s.elapsed := rfl
@[simp] theorem send_timeRuns (s : State) (m : Msg) : (s.send m).timeRuns = s.timeRuns := rfl
@[simp] theorem send_freeCount (s : State) (m : Msg) : (s.send m).freeCount = s.freeCount := rfl
@[simp] theorem send_dict (s : State) (m : Msg) : (s.send m).dict = s.dict := rfl
@[simp] theorem send_ctl (s : State) (m : Msg) : (s.send m).ctl = s.ctl := rfl
@[simp] theorem send_evt (s : State) (m : Msg) : (s.send m).evt = s.evt := rfl
@[simp] theorem send_dev (s : State) (m : Msg) : (s.send m).dev = s.dev := rfl
@[simp] theorem send_fuses (s : State) (m : Msg) : (s.send m).fuses = s.fuses := rfl
@[simp] theorem send_sites (s : State) (m : Msg) : (s.send m).sites = s.sites := rfl
@[simp] theorem send_bnds (s : State) (m : Msg) : (s.send m).bnds = s.bnds := rfl
@[simp] theorem send_ports (s : State) (m : Msg) : (s.send m).ports = s.ports := rfl
@[simp] theorem send_ctxs (s : State) (m : Msg) : (s.send m).ctxs = s.ctxs := rfl
@[simp] theorem send_tb (s : State) (m : Msg) : (s.send m).tb = s.tb := rfl
@[simp] theorem send_rim (s : State) (m : Msg) : (s.send m).rim = s.rim := rfl
@[simp] theorem send_therm (s : State) (m : Msg) : (s.send m).therm = s.therm := rfl
@[simp] theorem send_ij (s : State) (m : Msg) : (s.send m).ij = s.ij := rfl
@[simp] theorem send_pcie (s : State) (m : Msg) : (s.send m).pcie = s.pcie := rfl
@[simp] theorem send_quads (s : State) (m : Msg) : (s.send m).quads = s.quads := rfl
@[simp] theorem send_cfg (s : State) (m : Msg) : (s.send m).cfg = s.cfg := rfl
@[simp] theorem send_noc (s : State) (m : Msg) : (s.send m).noc = s.noc := rfl
@[simp] theorem send_mem (s : State) (m : Msg) : (s.send m).mem = s.mem := rfl
@[simp] theorem send_memChk (s : State) (m : Msg) : (s.send m).memChk = s.memChk := rfl
@[simp] theorem send_chans (s : State) (m : Msg) : (s.send m).chans = s.chans := rfl
@[simp] theorem send_cal (s : State) (m : Msg) : (s.send m).cal = s.cal := rfl
@[simp] theorem send_ledger (s : State) (m : Msg) : (s.send m).ledger = s.ledger := rfl
@[simp] theorem send_site (s : State) (m : Msg) (j : Nat) : (s.send m).site j = s.site j := rfl
@[simp] theorem send_bnd (s : State) (m : Msg) (j : Nat) : (s.send m).bnd j = s.bnd j := rfl
@[simp] theorem send_port (s : State) (m : Msg) (j : Nat) : (s.send m).port j = s.port j := rfl
@[simp] theorem send_ctx (s : State) (m : Msg) (j : Nat) : (s.send m).ctx j = s.ctx j := rfl
@[simp] theorem send_quad (s : State) (m : Msg) (j : Nat) : (s.send m).quad j = s.quad j := rfl
@[simp] theorem send_chan (s : State) (m : Msg) (j : Nat) : (s.send m).chan j = s.chan j := rfl
@[simp] theorem send_slot (s : State) (m : Msg) (j : Nat) : (s.send m).slot j = s.slot j := rfl
@[simp] theorem send_queue (s : State) (m : Msg) (j : Nat) : (s.send m).queue j = s.queue j := rfl
@[simp] theorem send_reg (s : State) (m : Msg) (ob : Obj) (x1 y1 : Nat) : (s.send m).reg ob x1 y1 = s.reg ob x1 y1 := rfl
@[simp] theorem send_rd (s : State) (m : Msg) (ob : Obj) (x1 y1 : Nat) : (s.send m).rd ob x1 y1 = s.rd ob x1 y1 := rfl
@[simp] theorem send_dom (s : State) (m : Msg) (ob : Obj) (x1 y1 z1 n1 : Nat) : (s.send m).dom ob x1 y1 z1 n1 = s.dom ob x1 y1 z1 n1 := rfl
@[simp] theorem send_alive (s : State) (m : Msg) : (s.send m).alive = s.alive := rfl
@[simp] theorem send_devState (s : State) (m : Msg) : (s.send m).devState = s.devState := rfl

/-! ## raise -/

@[simp] theorem raise_pending (s : State) (code kind unit a0 a1 : Nat) (x : List Byte) (r : Bool) : (s.raise code kind unit a0 a1 x r).pending = s.pending := rfl
@[simp] theorem raise_out (s : State) (code kind unit a0 a1 : Nat) (x : List Byte) (r : Bool) : (s.raise code kind unit a0 a1 x r).out = s.out := rfl
@[simp] theorem raise_time (s : State) (code kind unit a0 a1 : Nat) (x : List Byte) (r : Bool) : (s.raise code kind unit a0 a1 x r).time = s.time := rfl
@[simp] theorem raise_elapsed (s : State) (code kind unit a0 a1 : Nat) (x : List Byte) (r : Bool) : (s.raise code kind unit a0 a1 x r).elapsed = s.elapsed := rfl
@[simp] theorem raise_timeRuns (s : State) (code kind unit a0 a1 : Nat) (x : List Byte) (r : Bool) : (s.raise code kind unit a0 a1 x r).timeRuns = s.timeRuns := rfl
@[simp] theorem raise_freeCount (s : State) (code kind unit a0 a1 : Nat) (x : List Byte) (r : Bool) : (s.raise code kind unit a0 a1 x r).freeCount = s.freeCount := rfl
@[simp] theorem raise_dict (s : State) (code kind unit a0 a1 : Nat) (x : List Byte) (r : Bool) : (s.raise code kind unit a0 a1 x r).dict = s.dict := rfl
@[simp] theorem raise_ctl (s : State) (code kind unit a0 a1 : Nat) (x : List Byte) (r : Bool) : (s.raise code kind unit a0 a1 x r).ctl = s.ctl := rfl
@[simp] theorem raise_dev (s : State) (code kind unit a0 a1 : Nat) (x : List Byte) (r : Bool) : (s.raise code kind unit a0 a1 x r).dev = s.dev := rfl
@[simp] theorem raise_fuses (s : State) (code kind unit a0 a1 : Nat) (x : List Byte) (r : Bool) : (s.raise code kind unit a0 a1 x r).fuses = s.fuses := rfl
@[simp] theorem raise_sites (s : State) (code kind unit a0 a1 : Nat) (x : List Byte) (r : Bool) : (s.raise code kind unit a0 a1 x r).sites = s.sites := rfl
@[simp] theorem raise_bnds (s : State) (code kind unit a0 a1 : Nat) (x : List Byte) (r : Bool) : (s.raise code kind unit a0 a1 x r).bnds = s.bnds := rfl
@[simp] theorem raise_ports (s : State) (code kind unit a0 a1 : Nat) (x : List Byte) (r : Bool) : (s.raise code kind unit a0 a1 x r).ports = s.ports := rfl
@[simp] theorem raise_ctxs (s : State) (code kind unit a0 a1 : Nat) (x : List Byte) (r : Bool) : (s.raise code kind unit a0 a1 x r).ctxs = s.ctxs := rfl
@[simp] theorem raise_tb (s : State) (code kind unit a0 a1 : Nat) (x : List Byte) (r : Bool) : (s.raise code kind unit a0 a1 x r).tb = s.tb := rfl
@[simp] theorem raise_rim (s : State) (code kind unit a0 a1 : Nat) (x : List Byte) (r : Bool) : (s.raise code kind unit a0 a1 x r).rim = s.rim := rfl
@[simp] theorem raise_therm (s : State) (code kind unit a0 a1 : Nat) (x : List Byte) (r : Bool) : (s.raise code kind unit a0 a1 x r).therm = s.therm := rfl
@[simp] theorem raise_ij (s : State) (code kind unit a0 a1 : Nat) (x : List Byte) (r : Bool) : (s.raise code kind unit a0 a1 x r).ij = s.ij := rfl
@[simp] theorem raise_pcie (s : State) (code kind unit a0 a1 : Nat) (x : List Byte) (r : Bool) : (s.raise code kind unit a0 a1 x r).pcie = s.pcie := rfl
@[simp] theorem raise_quads (s : State) (code kind unit a0 a1 : Nat) (x : List Byte) (r : Bool) : (s.raise code kind unit a0 a1 x r).quads = s.quads := rfl
@[simp] theorem raise_cfg (s : State) (code kind unit a0 a1 : Nat) (x : List Byte) (r : Bool) : (s.raise code kind unit a0 a1 x r).cfg = s.cfg := rfl
@[simp] theorem raise_noc (s : State) (code kind unit a0 a1 : Nat) (x : List Byte) (r : Bool) : (s.raise code kind unit a0 a1 x r).noc = s.noc := rfl
@[simp] theorem raise_mem (s : State) (code kind unit a0 a1 : Nat) (x : List Byte) (r : Bool) : (s.raise code kind unit a0 a1 x r).mem = s.mem := rfl
@[simp] theorem raise_memChk (s : State) (code kind unit a0 a1 : Nat) (x : List Byte) (r : Bool) : (s.raise code kind unit a0 a1 x r).memChk = s.memChk := rfl
@[simp] theorem raise_chans (s : State) (code kind unit a0 a1 : Nat) (x : List Byte) (r : Bool) : (s.raise code kind unit a0 a1 x r).chans = s.chans := rfl
@[simp] theorem raise_cal (s : State) (code kind unit a0 a1 : Nat) (x : List Byte) (r : Bool) : (s.raise code kind unit a0 a1 x r).cal = s.cal := rfl
@[simp] theorem raise_ledger (s : State) (code kind unit a0 a1 : Nat) (x : List Byte) (r : Bool) : (s.raise code kind unit a0 a1 x r).ledger = s.ledger := rfl
@[simp] theorem raise_site (s : State) (code kind unit a0 a1 : Nat) (x : List Byte) (r : Bool) (j : Nat) : (s.raise code kind unit a0 a1 x r).site j = s.site j := rfl
@[simp] theorem raise_bnd (s : State) (code kind unit a0 a1 : Nat) (x : List Byte) (r : Bool) (j : Nat) : (s.raise code kind unit a0 a1 x r).bnd j = s.bnd j := rfl
@[simp] theorem raise_port (s : State) (code kind unit a0 a1 : Nat) (x : List Byte) (r : Bool) (j : Nat) : (s.raise code kind unit a0 a1 x r).port j = s.port j := rfl
@[simp] theorem raise_ctx (s : State) (code kind unit a0 a1 : Nat) (x : List Byte) (r : Bool) (j : Nat) : (s.raise code kind unit a0 a1 x r).ctx j = s.ctx j := rfl
@[simp] theorem raise_quad (s : State) (code kind unit a0 a1 : Nat) (x : List Byte) (r : Bool) (j : Nat) : (s.raise code kind unit a0 a1 x r).quad j = s.quad j := rfl
@[simp] theorem raise_chan (s : State) (code kind unit a0 a1 : Nat) (x : List Byte) (r : Bool) (j : Nat) : (s.raise code kind unit a0 a1 x r).chan j = s.chan j := rfl
@[simp] theorem raise_slot (s : State) (code kind unit a0 a1 : Nat) (x : List Byte) (r : Bool) (j : Nat) : (s.raise code kind unit a0 a1 x r).slot j = s.slot j := rfl
@[simp] theorem raise_queue (s : State) (code kind unit a0 a1 : Nat) (x : List Byte) (r : Bool) (j : Nat) : (s.raise code kind unit a0 a1 x r).queue j = s.queue j := rfl
@[simp] theorem raise_reg (s : State) (code kind unit a0 a1 : Nat) (x : List Byte) (r : Bool) (ob : Obj) (x1 y1 : Nat) : (s.raise code kind unit a0 a1 x r).reg ob x1 y1 = s.reg ob x1 y1 := rfl
@[simp] theorem raise_rd (s : State) (code kind unit a0 a1 : Nat) (x : List Byte) (r : Bool) (ob : Obj) (x1 y1 : Nat) : (s.raise code kind unit a0 a1 x r).rd ob x1 y1 = s.rd ob x1 y1 := rfl
@[simp] theorem raise_dom (s : State) (code kind unit a0 a1 : Nat) (x : List Byte) (r : Bool) (ob : Obj) (x1 y1 z1 n1 : Nat) : (s.raise code kind unit a0 a1 x r).dom ob x1 y1 z1 n1 = s.dom ob x1 y1 z1 n1 := rfl
@[simp] theorem raise_alive (s : State) (code kind unit a0 a1 : Nat) (x : List Byte) (r : Bool) : (s.raise code kind unit a0 a1 x r).alive = s.alive := rfl
@[simp] theorem raise_devState (s : State) (code kind unit a0 a1 : Nat) (x : List Byte) (r : Bool) : (s.raise code kind unit a0 a1 x r).devState = s.devState := rfl

/-! ## openService -/

@[simp] theorem openService_pending (s : State) (rq : Rq) (sv : Nat) (a : Addr) (w : Waits) : (s.openService rq sv a w).pending = s.pending := rfl
@[simp] theorem openService_out (s : State) (rq : Rq) (sv : Nat) (a : Addr) (w : Waits) : (s.openService rq sv a w).out = s.out := rfl
@[simp] theorem openService_time (s : State) (rq : Rq) (sv : Nat) (a : Addr) (w : Waits) : (s.openService rq sv a w).time = s.time := rfl
@[simp] theorem openService_elapsed (s : State) (rq : Rq) (sv : Nat) (a : Addr) (w : Waits) : (s.openService rq sv a w).elapsed = s.elapsed := rfl
@[simp] theorem openService_timeRuns (s : State) (rq : Rq) (sv : Nat) (a : Addr) (w : Waits) : (s.openService rq sv a w).timeRuns = s.timeRuns := rfl
@[simp] theorem openService_freeCount (s : State) (rq : Rq) (sv : Nat) (a : Addr) (w : Waits) : (s.openService rq sv a w).freeCount = s.freeCount := rfl
@[simp] theorem openService_dict (s : State) (rq : Rq) (sv : Nat) (a : Addr) (w : Waits) : (s.openService rq sv a w).dict = s.dict := rfl
@[simp] theorem openService_evt (s : State) (rq : Rq) (sv : Nat) (a : Addr) (w : Waits) : (s.openService rq sv a w).evt = s.evt := rfl
@[simp] theorem openService_dev (s : State) (rq : Rq) (sv : Nat) (a : Addr) (w : Waits) : (s.openService rq sv a w).dev = s.dev := rfl
@[simp] theorem openService_fuses (s : State) (rq : Rq) (sv : Nat) (a : Addr) (w : Waits) : (s.openService rq sv a w).fuses = s.fuses := rfl
@[simp] theorem openService_sites (s : State) (rq : Rq) (sv : Nat) (a : Addr) (w : Waits) : (s.openService rq sv a w).sites = s.sites := rfl
@[simp] theorem openService_bnds (s : State) (rq : Rq) (sv : Nat) (a : Addr) (w : Waits) : (s.openService rq sv a w).bnds = s.bnds := rfl
@[simp] theorem openService_ports (s : State) (rq : Rq) (sv : Nat) (a : Addr) (w : Waits) : (s.openService rq sv a w).ports = s.ports := rfl
@[simp] theorem openService_ctxs (s : State) (rq : Rq) (sv : Nat) (a : Addr) (w : Waits) : (s.openService rq sv a w).ctxs = s.ctxs := rfl
@[simp] theorem openService_tb (s : State) (rq : Rq) (sv : Nat) (a : Addr) (w : Waits) : (s.openService rq sv a w).tb = s.tb := rfl
@[simp] theorem openService_rim (s : State) (rq : Rq) (sv : Nat) (a : Addr) (w : Waits) : (s.openService rq sv a w).rim = s.rim := rfl
@[simp] theorem openService_therm (s : State) (rq : Rq) (sv : Nat) (a : Addr) (w : Waits) : (s.openService rq sv a w).therm = s.therm := rfl
@[simp] theorem openService_ij (s : State) (rq : Rq) (sv : Nat) (a : Addr) (w : Waits) : (s.openService rq sv a w).ij = s.ij := rfl
@[simp] theorem openService_pcie (s : State) (rq : Rq) (sv : Nat) (a : Addr) (w : Waits) : (s.openService rq sv a w).pcie = s.pcie := rfl
@[simp] theorem openService_quads (s : State) (rq : Rq) (sv : Nat) (a : Addr) (w : Waits) : (s.openService rq sv a w).quads = s.quads := rfl
@[simp] theorem openService_cfg (s : State) (rq : Rq) (sv : Nat) (a : Addr) (w : Waits) : (s.openService rq sv a w).cfg = s.cfg := rfl
@[simp] theorem openService_noc (s : State) (rq : Rq) (sv : Nat) (a : Addr) (w : Waits) : (s.openService rq sv a w).noc = s.noc := rfl
@[simp] theorem openService_mem (s : State) (rq : Rq) (sv : Nat) (a : Addr) (w : Waits) : (s.openService rq sv a w).mem = s.mem := rfl
@[simp] theorem openService_memChk (s : State) (rq : Rq) (sv : Nat) (a : Addr) (w : Waits) : (s.openService rq sv a w).memChk = s.memChk := rfl
@[simp] theorem openService_chans (s : State) (rq : Rq) (sv : Nat) (a : Addr) (w : Waits) : (s.openService rq sv a w).chans = s.chans := rfl
@[simp] theorem openService_cal (s : State) (rq : Rq) (sv : Nat) (a : Addr) (w : Waits) : (s.openService rq sv a w).cal = s.cal := rfl
@[simp] theorem openService_ledger (s : State) (rq : Rq) (sv : Nat) (a : Addr) (w : Waits) : (s.openService rq sv a w).ledger = s.ledger := rfl
@[simp] theorem openService_site (s : State) (rq : Rq) (sv : Nat) (a : Addr) (w : Waits) (j : Nat) : (s.openService rq sv a w).site j = s.site j := rfl
@[simp] theorem openService_bnd (s : State) (rq : Rq) (sv : Nat) (a : Addr) (w : Waits) (j : Nat) : (s.openService rq sv a w).bnd j = s.bnd j := rfl
@[simp] theorem openService_port (s : State) (rq : Rq) (sv : Nat) (a : Addr) (w : Waits) (j : Nat) : (s.openService rq sv a w).port j = s.port j := rfl
@[simp] theorem openService_ctx (s : State) (rq : Rq) (sv : Nat) (a : Addr) (w : Waits) (j : Nat) : (s.openService rq sv a w).ctx j = s.ctx j := rfl
@[simp] theorem openService_quad (s : State) (rq : Rq) (sv : Nat) (a : Addr) (w : Waits) (j : Nat) : (s.openService rq sv a w).quad j = s.quad j := rfl
@[simp] theorem openService_chan (s : State) (rq : Rq) (sv : Nat) (a : Addr) (w : Waits) (j : Nat) : (s.openService rq sv a w).chan j = s.chan j := rfl
@[simp] theorem openService_slot (s : State) (rq : Rq) (sv : Nat) (a : Addr) (w : Waits) (j : Nat) : (s.openService rq sv a w).slot j = s.slot j := rfl
@[simp] theorem openService_queue (s : State) (rq : Rq) (sv : Nat) (a : Addr) (w : Waits) (j : Nat) : (s.openService rq sv a w).queue j = s.queue j := rfl
@[simp] theorem openService_reg (s : State) (rq : Rq) (sv : Nat) (a : Addr) (w : Waits) (ob : Obj) (x1 y1 : Nat) : (s.openService rq sv a w).reg ob x1 y1 = s.reg ob x1 y1 := rfl
@[simp] theorem openService_rd (s : State) (rq : Rq) (sv : Nat) (a : Addr) (w : Waits) (ob : Obj) (x1 y1 : Nat) : (s.openService rq sv a w).rd ob x1 y1 = s.rd ob x1 y1 := rfl
@[simp] theorem openService_dom (s : State) (rq : Rq) (sv : Nat) (a : Addr) (w : Waits) (ob : Obj) (x1 y1 z1 n1 : Nat) : (s.openService rq sv a w).dom ob x1 y1 z1 n1 = s.dom ob x1 y1 z1 n1 := rfl
@[simp] theorem openService_alive (s : State) (rq : Rq) (sv : Nat) (a : Addr) (w : Waits) : (s.openService rq sv a w).alive = s.alive := rfl
@[simp] theorem openService_devState (s : State) (rq : Rq) (sv : Nat) (a : Addr) (w : Waits) : (s.openService rq sv a w).devState = s.devState := rfl

/-! ## Reads after writes -/

@[simp] theorem site_setSite (s : State) (i j : Nat) (f : Site → Site) :
    (s.setSite i f).site j = if j = i then f (s.site i) else s.site j := Store_get_put _ _ _ _ _
@[simp] theorem bnd_setBnd (s : State) (i j : Nat) (f : Bundle → Bundle) :
    (s.setBnd i f).bnd j = if j = i then f (s.bnd i) else s.bnd j := Store_get_put _ _ _ _ _
@[simp] theorem port_setPort (s : State) (i j : Nat) (f : Port → Port) :
    (s.setPort i f).port j = if j = i then f (s.port i) else s.port j := Store_get_put _ _ _ _ _
@[simp] theorem ctx_setCtx (s : State) (i j : Nat) (f : Context → Context) :
    (s.setCtx i f).ctx j = if j = i then f (s.ctx i) else s.ctx j := Store_get_put _ _ _ _ _
@[simp] theorem quad_setQuad (s : State) (i j : Nat) (f : Quad → Quad) :
    (s.setQuad i f).quad j = if j = i then f (s.quad i) else s.quad j := Store_get_put _ _ _ _ _
@[simp] theorem chan_setChan (s : State) (i j : Nat) (f : Chan → Chan) :
    (s.setChan i f).chan j = if j = i then f (s.chan i) else s.chan j := Store_get_put _ _ _ _ _
@[simp] theorem slot_setSlot (s : State) (i j : Nat) (f : Slot → Slot) :
    (s.setSlot i f).slot j = if j = i then f (s.slot i) else s.slot j := Store_get_put _ _ _ _ _
@[simp] theorem queue_setQueue (s : State) (i j : Nat) (f : Queue → Queue) :
    (s.setQueue i f).queue j = if j = i then f (s.queue i) else s.queue j := Store_get_put _ _ _ _ _
@[simp] theorem slot_setQueue (s : State) (i j : Nat) (f : Queue → Queue) : (s.setQueue i f).slot j = s.slot j := rfl
@[simp] theorem queue_setSlot (s : State) (i j : Nat) (f : Slot → Slot) : (s.setSlot i f).queue j = s.queue j := rfl

/-- A scalar object reads as it was set; another key reads as before. -/
theorem get_setReg (s : State) (o : Obj) (v : Word) (u k key : Nat) (d : Word) (h : key ≠ o.key u k) :
    Store.get d key (s.setReg o v u k).dict.regs = Store.get d key s.dict.regs := Store_get_put_ne _ _ _ _ _ _ h

@[simp] theorem reg_setReg_same (s : State) (o : Obj) (v : Word) (u k : Nat) : (s.setReg o v u k).reg o u k = v := by
  simp [State.reg, State.setReg]

theorem reg_setReg_ne (s : State) (o p : Obj) (v : Word) (u k x y : Nat) (h : p.key x y ≠ o.key u k) :
    (s.setReg o v u k).reg p x y = s.reg p x y := Store_get_put_ne _ _ _ _ _ _ h

@[simp] theorem reg_wr_same (s : State) (o : Obj) (v u k : Nat) : (s.wr o v u k).reg o u k = Word.of v :=
  reg_setReg_same _ _ _ _ _

theorem reg_wr_ne (s : State) (o p : Obj) (v u k x y : Nat) (h : p.key x y ≠ o.key u k) :
    (s.wr o v u k).reg p x y = s.reg p x y := reg_setReg_ne _ _ _ _ _ _ _ _ h

@[simp] theorem rd_wr_same (s : State) (o : Obj) (v u k : Nat) : (s.wr o v u k).rd o u k = v % 2 ^ 64 := by
  simp [State.rd, Word.of]

theorem rd_wr_ne (s : State) (o p : Obj) (v u k x y : Nat) (h : p.key x y ≠ o.key u k) :
    (s.wr o v u k).rd p x y = s.rd p x y := by simp [State.rd, reg_wr_ne _ _ _ _ _ _ _ _ h]

@[simp] theorem setReg_doms (s : State) (o : Obj) (v : Word) (u k : Nat) : (s.setReg o v u k).dict.doms = s.dict.doms := rfl
@[simp] theorem wr_doms (s : State) (o : Obj) (v u k : Nat) : (s.wr o v u k).dict.doms = s.dict.doms := rfl
@[simp] theorem bump_doms (s : State) (o : Obj) (u k n : Nat) : (s.bump o u k n).dict.doms = s.dict.doms := rfl
@[simp] theorem setDom_regs (s : State) (o : Obj) (u k off : Nat) (l : List Byte) :
    (s.setDom o u k off l).dict.regs = s.dict.regs := rfl
@[simp] theorem setDom_reg (s : State) (o p : Obj) (u k off x y : Nat) (l : List Byte) :
    (s.setDom o u k off l).reg p x y = s.reg p x y := rfl
@[simp] theorem setDom_rd (s : State) (o p : Obj) (u k off x y : Nat) (l : List Byte) :
    (s.setDom o u k off l).rd p x y = s.rd p x y := rfl

/-- The bytes of a DOM object read as they were written. -/
@[simp] theorem dom_setDom_same (s : State) (o : Obj) (u k off : Nat) (l : List Byte) :
    (s.setDom o u k off l).dom o u k off l.length = l := Store_gets_puts _ _ _ _

@[simp] theorem raise_now (s : State) (code kind unit a0 a1 : Nat) (x : List Byte) (r : Bool) :
    (s.raise code kind unit a0 a1 x r).evt.now = s.evt.now ++
      [{ code := code, kind := kind, unit := unit, arg0 := a0 % 2 ^ 32, arg1 := a1 % 2 ^ 64, ext := x, rim := r,
         time := s.time }] := rfl
@[simp] theorem raise_subs (s : State) (code kind unit a0 a1 : Nat) (x : List Byte) (r : Bool) :
    (s.raise code kind unit a0 a1 x r).evt.subs = s.evt.subs := rfl

/-- An operation that a condition guards. -/
theorem onlyIf_pos (s : State) (c : Bool) (f : State → State) (h : c = true) : s.onlyIf c f = f s := by simp [State.onlyIf, h]
theorem onlyIf_neg (s : State) (c : Bool) (f : State → State) (h : c = false) : s.onlyIf c f = s := by simp [State.onlyIf, h]

/-- A property that every operation of a list keeps is kept by the list. -/
theorem each_keeps (P : State → Prop) (l : List Nat) (f : Nat → State → State) (h : ∀ i s, i ∈ l → P s → P (f i s)) (s : State)
    (hs : P s) : P (s.each l f) := by
  unfold State.each
  induction l generalizing s with
  | nil => exact hs
  | cons i l ih => exact ih (fun j t hj ht => h j t (List.mem_cons_of_mem _ hj) ht) _ (h i s List.mem_cons_self hs)

/-- A field that no operation of a list changes. -/
theorem each_same {α : Type} (g : State → α) (l : List Nat) (f : Nat → State → State) (h : ∀ i s, g (f i s) = g s)
    (s : State) : g (s.each l f) = g s := each_keeps (fun t => g t = g s) l f (fun i t _ ht => (h i t).trans ht) s rfl

end Sys2Proof.Laws
end

