-- ==== Sys2Proof/Laws/Deliver.lean ====
section
/-! SUPPORT. Frames: how they compose, and that delivering the events of a command changes nothing but what reporting
changes (R531). -/
namespace Sys2Proof.Laws
open Sys2Proof.Machine Sys2Proof.Safety

theorem Part_same_refl (p : Part) (s : State) : p.same s s := by
  cases p <;> simp [Part.same]

theorem Part_same_trans (p : Part) (s t u : State) (h : p.same s t) (h' : p.same t u) : p.same s u := by
  cases p
  case regs => exact fun key d hk => (h' key d hk).trans (h key d hk)
  case time => exact ⟨h'.1.trans h.1, h'.2.1.trans h.2.1, h'.2.2.trans h.2.2⟩
  case mem => exact ⟨h'.1.trans h.1, h'.2.trans h.2⟩
  case ctl =>
    simp only [Part.same] at *
    rw [← h, ← h']
  case rim =>
    simp only [Part.same] at *
    rw [← h, ← h']
  case ij =>
    simp only [Part.same] at *
    rw [← h, ← h']
  case pcie =>
    simp only [Part.same] at *
    rw [← h, ← h']
  all_goals exact Eq.trans h' h

theorem Keeps_refl (l : List Part) (s : State) : Keeps l s s := ⟨rfl, rfl, fun p _ => Part_same_refl p s⟩

theorem Keeps_trans (l : List Part) (s t u : State) (h : Keeps l s t) (h' : Keeps l t u) : Keeps l s u :=
  ⟨h'.1.trans h.1, h'.2.1.trans h.2.1, fun p hp => Part_same_trans p s t u (h.2.2 p hp) (h'.2.2 p hp)⟩

theorem Keeps_mono (l m : List Part) (s t : State) (h : Keeps l s t) (hm : ∀ p ∈ l, p ∈ m) : Keeps m s t :=
  ⟨h.1, h.2.1, fun p hp => h.2.2 p (fun hl => hp (hm p hl))⟩

/-- Writing a register that reporting changes is no change of a part. -/
theorem setReg_event_keeps (s : State) (o : Obj) (v : Word) (u : Nat) (h : eventKey (o.key u)) : Keeps [] s (s.setReg o v u) := by
  refine ⟨rfl, rfl, fun p _ => ?_⟩
  cases p
  case regs => exact fun key d hk => get_setReg _ _ _ _ _ _ _ (fun e => hk (e ▸ h))
  all_goals simp [Part.same]

theorem bump_event_keeps (s : State) (o : Obj) (u n : Nat) (h : eventKey (o.key u)) : Keeps [] s (s.bump o u 0 n) :=
  setReg_event_keeps _ _ _ _ h

theorem event_key_lost : eventKey (Obj.devEvtHostLost.key 0 0) := Or.inl (by decide)
theorem event_key_written : eventKey (Obj.devEvtHostWritten.key 0 0) := Or.inl (by decide)
theorem event_key_masked : eventKey (Obj.devEvtMasked.key 0 0) := Or.inl (by decide)
theorem event_key_code : eventKey (Obj.devLogLastCode.key 0 0) := Or.inl (by decide)
theorem event_key_log : eventKey (Obj.devLogLost.key 0 0) := Or.inl (by decide)
theorem event_key_ij : eventKey (Obj.devIjLastEvent.key 0 0) := Or.inl (by decide)
theorem event_key_port (u : Nat) : eventKey (Obj.portEventCount.key u 0) := Or.inr ⟨u, rfl⟩

theorem send_keeps (s : State) (m : Msg) : Keeps [] s (s.send m) :=
  ⟨rfl, rfl, fun p _ => by cases p <;> simp [Part.same]⟩

theorem msix_keeps (s : State) (v : Nat) : Keeps [] s (s.msix v) := by
  unfold State.msix
  split
  · exact send_keeps _ _
  · exact ⟨rfl, rfl, fun p _ => by cases p <;> simp [Part.same]⟩

theorem transmit_keeps (s : State) (l : List Msg) : Keeps [] s (s.transmit l) :=
  ⟨rfl, rfl, fun p _ => by cases p <;> simp [Part.same, State.transmit]⟩

theorem ringAdvance_keeps (s : State) (n : Nat) : Keeps [] s (s.ringAdvance n) :=
  Keeps_trans [] s { s with pcie := { s.pcie with evtHead := n, evtSeq := (s.pcie.evtSeq + 1) % 65536 } } _
    ⟨rfl, rfl, fun p _ => by cases p <;> simp [Part.same]⟩ (bump_event_keeps _ _ _ _ event_key_written)

theorem ringPad_keeps (s : State) (b : Bool) : Keeps [] s (s.ringPad b) := by
  cases b
  · exact Keeps_refl _ _
  · exact send_keeps _ _

theorem signal_keeps (s : State) (e : Event) : Keeps [] s (s.signal e) := by
  unfold State.signal
  split
  · exact msix_keeps _ _
  · exact Keeps_refl _ _

theorem onlyIf_keeps (l : List Part) (s t : State) (c : Bool) (f : State → State) (h : Keeps l s t)
    (hf : Keeps l t (f t)) : Keeps l s (t.onlyIf c f) := by
  cases c
  · exact h
  · exact Keeps_trans _ _ _ _ h hf

theorem hostRing_keeps (s : State) (e : Event) : Keeps [] s (s.hostRing e) := by
  unfold State.hostRing
  extract_lets frame need size head free pad at1
  split
  · exact Keeps_refl _ _
  · split
    · exact bump_event_keeps _ _ _ _ event_key_lost
    · exact Keeps_trans _ _ _ _ (ringPad_keeps s _) (Keeps_trans _ _ _ _ (send_keeps _ _)
        (Keeps_trans _ _ _ _ (ringAdvance_keeps _ _) (signal_keeps _ _)))

theorem subs_set_same (l : List (Option Subscription)) (i : Nat) (p q : Subscription) (h : l[i]?.join = some p)
    (hq : (q.addr, q.port, q.mask, q.lease, q.since) = (p.addr, p.port, p.mask, p.lease, p.since)) :
    (l.set i (some q)).map (fun o => o.map (fun p => (p.addr, p.port, p.mask, p.lease, p.since)))
      = l.map (fun o => o.map (fun p => (p.addr, p.port, p.mask, p.lease, p.since))) := by
  induction l generalizing i with
  | nil => rfl
  | cons o l ih =>
    cases i with
    | zero =>
      simp at h
      subst h
      simpa using hq
    | succ i => simpa using ih i (by simpa using h)

theorem toSlot_keeps (s : State) (e : Event) (i : Nat) : Keeps [] s (s.toSlot e i) := by
  unfold State.toSlot
  split
  · exact Keeps_refl _ _
  · rename_i p hp
    have h1 : Keeps [] s (s.setSub i (some (p.served s.elapsed))) := by
      refine ⟨rfl, rfl, fun r _ => ?_⟩
      cases r
      case evt => exact subs_set_same _ _ p _ hp rfl
      all_goals simp [Part.same, State.setSub]
    split
    · exact Keeps_refl _ _
    · split
      · exact onlyIf_keeps _ _ _ _ _ h1 (transmit_keeps _ _)
      · refine Keeps_trans _ _ _ _ h1 ⟨rfl, rfl, fun q _ => ?_⟩
        cases q <;> simp [Part.same, State.dropEvent]

theorem toLog_keeps (s : State) (e : Event) : Keeps [] s (s.toLog e) := by
  unfold State.toLog
  split
  · exact Keeps_refl _ _
  · split
    · exact ⟨rfl, rfl, fun p _ => by cases p <;> simp [Part.same]⟩
    · exact bump_event_keeps _ _ _ _ event_key_log

theorem each_toSlot_keeps (s : State) (e : Event) (l : List Nat) : Keeps [] s (s.each l (fun i t => t.toSlot e i)) :=
  each_keeps (fun t => Keeps [] s t) l _ (fun i t _ ht => Keeps_trans _ _ _ _ ht (toSlot_keeps t e i)) s (Keeps_refl _ _)

theorem countEvent_keeps (s : State) (e : Event) : Keeps [] s (s.countEvent e) :=
  Keeps_trans [] s { s with evt := { s.evt with
      count := s.evt.count + 1,
      classCount := Store.put 0 (eventClass e.code) (min (Store.get 0 (eventClass e.code) s.evt.classCount + 1) 0xFFFFFFFF)
        s.evt.classCount,
      last := e.frame (s.evt.count + 1) } } _
    ⟨rfl, rfl, fun p _ => by cases p <;> simp [Part.same]⟩ (setReg_event_keeps _ _ _ _ event_key_code)

theorem noteEvent_keeps (s : State) (e : Event) : Keeps [] s (s.noteEvent e) := by
  refine onlyIf_keeps _ _ _ _ _ (onlyIf_keeps _ _ _ _ _ (Keeps_refl _ _) (bump_event_keeps _ _ _ _ (event_key_port _))) ?_
  refine Keeps_trans _ _ _ _ (setReg_event_keeps _ _ (Word.of e.code) _ event_key_ij) ⟨rfl, rfl, fun p _ => ?_⟩
  cases p <;> simp [Part.same, State.wr]

theorem deliverOne_keeps (s : State) (e : Event) : Keeps [] s (s.deliverOne e) := by
  refine onlyIf_keeps _ _ _ _ _ (onlyIf_keeps _ _ _ _ _ (Keeps_refl _ _) ?_) ?_
  · exact Keeps_trans _ _ _ _ (onlyIf_keeps _ _ _ _ _ (Keeps_trans _ _ _ _ (countEvent_keeps s e) (noteEvent_keeps _ e))
      (bump_event_keeps _ _ _ _ event_key_masked)) (hostRing_keeps _ _)
  · exact Keeps_trans _ _ _ _ (each_toSlot_keeps _ _ _) (toLog_keeps _ _)

theorem deliver_fold_keeps (l : List Event) (s t : State) (h : Keeps [] s t) :
    Keeps [] s (l.foldl (fun t e => t.deliverOne e) t) := by
  induction l generalizing t with
  | nil => exact h
  | cons e l ih => exact ih _ (Keeps_trans _ _ _ _ h (deliverOne_keeps t e))

/-- Delivering the events of a command changes nothing but what reporting changes. -/
theorem deliver_keeps (s : State) : Keeps [] s s.deliver := by
  unfold State.deliver
  refine deliver_fold_keeps _ _ _ ⟨rfl, rfl, fun p _ => ?_⟩
  cases p <;> simp [Part.same]

/-! ## Reporting leaves the control of the device as it is -/

theorem onlyIf_same {α : Type} (g : State → α) (s : State) (c : Bool) (f : State → State) (h : g (f s) = g s) :
    g (s.onlyIf c f) = g s := by cases c <;> simp [State.onlyIf, h]
@[simp] theorem msix_ctl (s : State) (v : Nat) : (s.msix v).ctl = s.ctl := by unfold State.msix; split <;> rfl
@[simp] theorem ringPad_ctl (s : State) (b : Bool) : (s.ringPad b).ctl = s.ctl := by cases b <;> rfl
@[simp] theorem signal_ctl (s : State) (e : Event) : (s.signal e).ctl = s.ctl := by unfold State.signal; split <;> simp
@[simp] theorem hostRing_ctl (s : State) (e : Event) : (s.hostRing e).ctl = s.ctl := by
  unfold State.hostRing
  extract_lets
  split
  · rfl
  · split
    · rfl
    · simp [State.ringAdvance]
@[simp] theorem toSlot_ctl (s : State) (e : Event) (i : Nat) : (s.toSlot e i).ctl = s.ctl := by
  unfold State.toSlot
  split
  · rfl
  · split
    · rfl
    · split
      · exact onlyIf_same (·.ctl) _ _ _ rfl
      · rfl
@[simp] theorem toLog_ctl (s : State) (e : Event) : (s.toLog e).ctl = s.ctl := by
  unfold State.toLog
  split
  · rfl
  · split <;> rfl
@[simp] theorem noteEvent_ctl (s : State) (e : Event) : (s.noteEvent e).ctl = s.ctl :=
  (onlyIf_same (·.ctl) _ _ _ rfl).trans (onlyIf_same (·.ctl) s _ _ rfl)
@[simp] theorem deliverOne_ctl (s : State) (e : Event) : (s.deliverOne e).ctl = s.ctl := by
  unfold State.deliverOne
  refine (onlyIf_same (·.ctl) _ _ _ ?_).trans (onlyIf_same (·.ctl) s _ _ ?_)
  · simpa using each_same (·.ctl) (upto 4) _ (fun i u => toSlot_ctl u e i) _
  · rw [hostRing_ctl, onlyIf_same (·.ctl) _ _ _ rfl]
    simp [State.countEvent]
@[simp] theorem deliver_ctl (s : State) : s.deliver.ctl = s.ctl := by
  have h : ∀ (l : List Event) (t : State), (l.foldl (fun t e => t.deliverOne e) t).ctl = t.ctl := by
    intro l
    induction l with
    | nil => exact fun _ => rfl
    | cons e l ih => exact fun t => (ih _).trans (deliverOne_ctl t e)
  exact h _ _


/-! ## What deliver leaves, field by field -/

@[simp] theorem deliver_pending (s : State) : s.deliver.pending = s.pending := (deliver_keeps s).1
@[simp] theorem deliver_fuses (s : State) : s.deliver.fuses = s.fuses := (deliver_keeps s).2.1
@[simp] theorem deliver_sites (s : State) : s.deliver.sites = s.sites := (deliver_keeps s).2.2 .sites (by simp)
@[simp] theorem deliver_bnds (s : State) : s.deliver.bnds = s.bnds := (deliver_keeps s).2.2 .bnds (by simp)
@[simp] theorem deliver_ports (s : State) : s.deliver.ports = s.ports := (deliver_keeps s).2.2 .ports (by simp)
@[simp] theorem deliver_ctxs (s : State) : s.deliver.ctxs = s.ctxs := (deliver_keeps s).2.2 .ctxs (by simp)
@[simp] theorem deliver_tb (s : State) : s.deliver.tb = s.tb := (deliver_keeps s).2.2 .tb (by simp)
@[simp] theorem deliver_therm (s : State) : s.deliver.therm = s.therm := (deliver_keeps s).2.2 .therm (by simp)
@[simp] theorem deliver_dev (s : State) : s.deliver.dev = s.dev := (deliver_keeps s).2.2 .dev (by simp)
@[simp] theorem deliver_quads (s : State) : s.deliver.quads = s.quads := (deliver_keeps s).2.2 .quads (by simp)
@[simp] theorem deliver_cfg (s : State) : s.deliver.cfg = s.cfg := (deliver_keeps s).2.2 .cfg (by simp)
@[simp] theorem deliver_noc (s : State) : s.deliver.noc = s.noc := (deliver_keeps s).2.2 .noc (by simp)
@[simp] theorem deliver_chans (s : State) : s.deliver.chans = s.chans := (deliver_keeps s).2.2 .chans (by simp)
@[simp] theorem deliver_cal (s : State) : s.deliver.cal = s.cal := (deliver_keeps s).2.2 .cal (by simp)
@[simp] theorem deliver_ledger (s : State) : s.deliver.ledger = s.ledger := (deliver_keeps s).2.2 .ledger (by simp)
@[simp] theorem deliver_freeCount (s : State) : s.deliver.freeCount = s.freeCount := (deliver_keeps s).2.2 .free (by simp)
@[simp] theorem deliver_time (s : State) : s.deliver.time = s.time := ((deliver_keeps s).2.2 .time (by simp)).1
@[simp] theorem deliver_timeRuns (s : State) : s.deliver.timeRuns = s.timeRuns := ((deliver_keeps s).2.2 .time (by simp)).2.1
@[simp] theorem deliver_elapsed (s : State) : s.deliver.elapsed = s.elapsed := ((deliver_keeps s).2.2 .time (by simp)).2.2
@[simp] theorem deliver_mem (s : State) : s.deliver.mem = s.mem := ((deliver_keeps s).2.2 .mem (by simp)).1
@[simp] theorem deliver_memChk (s : State) : s.deliver.memChk = s.memChk := ((deliver_keeps s).2.2 .mem (by simp)).2
@[simp] theorem deliver_doms (s : State) : s.deliver.dict.doms = s.dict.doms := (deliver_keeps s).2.2 .doms (by simp)
@[simp] theorem deliver_slots (s : State) : s.deliver.pcie.slots = s.pcie.slots := (deliver_keeps s).2.2 .slots (by simp)
theorem deliver_get (s : State) (key : Nat) (d : Word) (h : ¬ eventKey key) :
    Store.get d key s.deliver.dict.regs = Store.get d key s.dict.regs := (deliver_keeps s).2.2 .regs (by simp) key d h

@[simp] theorem deliver_site (s : State) (i : Nat) : s.deliver.site i = s.site i := by simp [State.site]
@[simp] theorem deliver_bnd (s : State) (i : Nat) : s.deliver.bnd i = s.bnd i := by simp [State.bnd]
@[simp] theorem deliver_port (s : State) (i : Nat) : s.deliver.port i = s.port i := by simp [State.port]
@[simp] theorem deliver_ctx (s : State) (i : Nat) : s.deliver.ctx i = s.ctx i := by simp [State.ctx]
@[simp] theorem deliver_quad (s : State) (i : Nat) : s.deliver.quad i = s.quad i := by simp [State.quad]
@[simp] theorem deliver_chan (s : State) (i : Nat) : s.deliver.chan i = s.chan i := by simp [State.chan]
@[simp] theorem deliver_slot (s : State) (i : Nat) : s.deliver.slot i = s.slot i := by simp [State.slot]
@[simp] theorem deliver_dom (s : State) (o : Obj) (u k off n : Nat) : s.deliver.dom o u k off n = s.dom o u k off n := by
  simp [State.dom]
theorem deliver_reg (s : State) (o : Obj) (u k : Nat) (h : ¬ eventKey (o.key u k)) : s.deliver.reg o u k = s.reg o u k :=
  deliver_get s _ _ h
theorem deliver_rd (s : State) (o : Obj) (u k : Nat) (h : ¬ eventKey (o.key u k)) : s.deliver.rd o u k = s.rd o u k := by
  simp [State.rd, deliver_reg s o u k h]

/-- With no event raised, delivering does nothing. -/
theorem deliver_quiet (s : State) (h : s.evt.now = []) : s.deliver = s := by
  unfold State.deliver
  simp only [h]
  rw [show s = { s with evt := { s.evt with now := [] } } from by rw [← h]]
  rfl

/-! ## No event stays undelivered -/

@[simp] theorem bump_evt' (s : State) (o : Obj) (u k n : Nat) : (s.bump o u k n).evt = s.evt := rfl
@[simp] theorem msix_evt (s : State) (v : Nat) : (s.msix v).evt = s.evt := by unfold State.msix; split <;> rfl
@[simp] theorem ringPad_evt (s : State) (b : Bool) : (s.ringPad b).evt = s.evt := by cases b <;> rfl
@[simp] theorem signal_evt (s : State) (e : Event) : (s.signal e).evt = s.evt := by unfold State.signal; split <;> simp
@[simp] theorem hostRing_now (s : State) (e : Event) : (s.hostRing e).evt.now = s.evt.now := by
  unfold State.hostRing
  extract_lets
  split
  · rfl
  · split
    · rfl
    · simp [State.ringAdvance]
@[simp] theorem toSlot_now (s : State) (e : Event) (i : Nat) : (s.toSlot e i).evt.now = s.evt.now := by
  unfold State.toSlot
  split
  · rfl
  · split
    · rfl
    · split
      · unfold State.onlyIf; split <;> rfl
      · rfl
@[simp] theorem toLog_now (s : State) (e : Event) : (s.toLog e).evt.now = s.evt.now := by
  unfold State.toLog
  split
  · rfl
  · split <;> rfl
@[simp] theorem noteEvent_now (s : State) (e : Event) : (s.noteEvent e).evt.now = s.evt.now := by
  unfold State.noteEvent
  extract_lets t
  have : t.evt = s.evt := onlyIf_same (·.evt) s _ _ rfl
  rw [onlyIf_same (·.evt.now) t _ _ rfl, this]
@[simp] theorem deliverOne_now (s : State) (e : Event) : (s.deliverOne e).evt.now = s.evt.now := by
  unfold State.deliverOne
  extract_lets t
  have h : t.evt.now = s.evt.now := by
    refine onlyIf_same (·.evt.now) s _ _ ?_
    rw [hostRing_now, onlyIf_same (·.evt.now) _ _ _ rfl]
    simp [State.countEvent]
  rw [onlyIf_same (·.evt.now) t _ _ ?_, h]
  simpa using each_same (·.evt.now) (upto 4) _ (fun i u => toSlot_now u e i) t
theorem deliver_fold_now (l : List Event) (t : State) : (l.foldl (fun t e => t.deliverOne e) t).evt.now = t.evt.now := by
  induction l generalizing t with
  | nil => rfl
  | cons e l ih => simp [ih]
/-- Every event of a command is delivered when it ends. -/
@[simp] theorem deliver_now (s : State) : s.deliver.evt.now = [] := by
  unfold State.deliver
  simp [deliver_fold_now]

/-! ## What was sent stays sent -/

/-- The messages of a state stand in the later one. -/
def Sent (s t : State) : Prop := ∀ m ∈ s.out, m ∈ t.out

theorem Sent_trans (s t u : State) (h : Sent s t) (h' : Sent t u) : Sent s u := fun m hm => h' m (h m hm)
theorem Sent_same (s t : State) (h : t.out = s.out) : Sent s t := fun _ hm => h ▸ hm
theorem Sent_append (s t : State) (l : List Msg) (h : t.out = s.out ++ l) : Sent s t :=
  fun m hm => by rw [h]; exact List.mem_append_left _ hm
theorem send_sent (s : State) (m : Msg) : Sent s (s.send m) := Sent_append _ _ _ rfl
theorem ringAdvance_sent (s : State) (n : Nat) : Sent s (s.ringAdvance n) := Sent_same _ _ rfl
theorem onlyIf_sent (s t : State) (c : Bool) (f : State → State) (h : Sent s t) (hf : Sent t (f t)) : Sent s (t.onlyIf c f) := by
  cases c
  · exact h
  · exact Sent_trans _ _ _ h hf
theorem msix_sent (s : State) (v : Nat) : Sent s (s.msix v) := by
  unfold State.msix
  split
  · exact Sent_append _ _ _ rfl
  · exact Sent_same _ _ rfl
theorem transmit_sent (s : State) (l : List Msg) : Sent s (s.transmit l) := Sent_append _ _ _ rfl
theorem signal_sent (s : State) (e : Event) : Sent s (s.signal e) := by
  unfold State.signal
  split
  · exact msix_sent _ _
  · exact Sent_same _ _ rfl
theorem hostRing_sent (s : State) (e : Event) : Sent s (s.hostRing e) := by
  unfold State.hostRing
  extract_lets frame need size head free pad at1
  split
  · exact Sent_same _ _ rfl
  · split
    · exact Sent_same _ _ rfl
    · have h1 : Sent s (s.ringPad (decide (pad > 0))) := by
        cases decide (pad > 0)
        · exact Sent_same _ _ rfl
        · exact Sent_append _ _ _ rfl
      exact Sent_trans _ _ _ h1 (Sent_trans _ _ _ (send_sent _ _) (Sent_trans _ _ _ (ringAdvance_sent _ _) (signal_sent _ _)))
theorem toSlot_sent (s : State) (e : Event) (i : Nat) : Sent s (s.toSlot e i) := by
  unfold State.toSlot
  split
  · exact Sent_same _ _ rfl
  · split
    · exact Sent_same _ _ rfl
    · split
      · exact onlyIf_sent _ _ _ _ (Sent_same _ _ rfl) (transmit_sent _ _)
      · exact Sent_same _ _ rfl
theorem toLog_sent (s : State) (e : Event) : Sent s (s.toLog e) := by
  unfold State.toLog
  split
  · exact Sent_same _ _ rfl
  · split <;> exact Sent_same _ _ rfl
theorem each_toSlot_sent (s : State) (e : Event) (l : List Nat) : Sent s (s.each l (fun i t => t.toSlot e i)) :=
  each_keeps (fun t => Sent s t) l _ (fun i t _ ht => Sent_trans s t _ ht (toSlot_sent t e i)) s (Sent_same _ _ rfl)
theorem deliverOne_sent (s : State) (e : Event) : Sent s (s.deliverOne e) := by
  refine onlyIf_sent _ _ _ _ (onlyIf_sent _ _ _ _ (Sent_same _ _ rfl) ?_) ?_
  · refine Sent_trans _ _ _ (onlyIf_sent _ _ _ _ (Sent_trans _ (s.countEvent e) _ (Sent_same _ _ rfl) ?_) (Sent_same _ _ rfl))
      (hostRing_sent _ _)
    exact onlyIf_sent _ _ _ _ (onlyIf_sent _ _ _ _ (Sent_same _ _ rfl) (Sent_same _ _ rfl)) (Sent_same _ _ rfl)
  · exact Sent_trans _ _ _ (each_toSlot_sent _ e _) (toLog_sent _ _)
theorem deliver_fold_sent (l : List Event) (t : State) : Sent t (l.foldl (fun t e => t.deliverOne e) t) := by
  induction l generalizing t with
  | nil => exact Sent_same _ _ rfl
  | cons e l ih => exact Sent_trans _ _ _ (deliverOne_sent t e) (ih _)
/-- What a command has sent is sent before its events are. -/
theorem deliver_sent (s : State) : Sent s s.deliver :=
  Sent_trans _ { s with evt := { s.evt with now := [] } } _ (Sent_same _ _ rfl) (deliver_fold_sent _ _)

/-! ## Commands -/

theorem Part_same_fixed (p : Part) (s t : State) : p.same t (s.keepFixed t) := by
  cases p <;> simp [Part.same, State.keepFixed]

/-- A command completes, and keeps the parts that its effect keeps. -/
theorem run_keeps (l : List Part) (f : State → State) (s : State) (h : ∀ s' : State, Keeps l s' (f s')) :
    ∃ t, run f s = .next t ∧ Keeps l s t := by
  refine ⟨_, rfl, rfl, rfl, fun p hp => ?_⟩
  have h1 : p.same s { s with out := [] } := by cases p <;> simp [Part.same]
  have h2 := (h { s with out := [] }).2.2 p hp
  have h3 := (deliver_keeps (f { s with out := [] })).2.2 p (by simp)
  refine Part_same_trans p _ _ _ (Part_same_trans p _ _ _ h1 (Part_same_trans p _ _ _ h2 h3)) (Part_same_fixed _ _ _)

end Sys2Proof.Laws
end

