-- ==== Sys2Proof/Laws/Memory.lean ====
section
/-! SUPPORT. GDDR7 as the operations leave it: each keeps the canonical form, what is written reads back, and every other
byte stays. -/
namespace Sys2Proof.Laws
open Sys2Proof.Machine

theorem memory_wf_iff (s : State) : Memory.wf s = true ↔
    Store.wf (fun _ => (0 : Byte)) s.mem = true ∧ Store.wf (fun _ => (0 : BitVec 32)) s.memChk = true := by
  simp [Memory.wf]

/-- The canonical form is a matter of the stored bytes alone. -/
theorem memory_wf_of (s t : State) (hm : t.mem = s.mem) (hc : t.memChk = s.memChk) (h : Memory.wf s = true) :
    Memory.wf t = true := by
  rw [memory_wf_iff] at *; rw [hm, hc]; exact h

/-! ## The canonical form -/

theorem reset_memory_wf : Memory.wf State.reset = true := rfl

theorem putGranule_memory_wf (s : State) (g : Nat) (data : List Byte) (h : Memory.wf s = true) :
    Memory.wf (s.putGranule g data) = true := by
  rw [memory_wf_iff] at *
  exact ⟨Store_puts_wf _ _ _ _ h.1, Store_del_wf _ _ _ h.2⟩

theorem putCodeword_memory_wf (s : State) (g : Nat) (data : List Byte) (check : BitVec 32) (h : Memory.wf s = true) :
    Memory.wf (s.putCodeword g data check) = true := by
  rw [memory_wf_iff] at *
  exact ⟨Store_puts_wf _ _ _ _ h.1, Store_put_wf (fun _ => 0) _ _ _ h.2⟩

theorem zeroFill_memory_wf (s : State) (c : Nat) (h : Memory.wf s = true) : Memory.wf (s.zeroFill c) = true := by
  rw [memory_wf_iff] at *
  exact ⟨Store_filter_wf _ _ _ h.1, Store_filter_wf _ _ _ h.2⟩

theorem setRing_memory (s : State) (i : Nat) (f : Ring → Ring) : (s.setRing i f).mem = s.mem ∧ (s.setRing i f).memChk = s.memChk :=
  ⟨rfl, rfl⟩

theorem rawByte_memory_wf (s : State) (i p v : Nat) (h : Memory.wf s = true) : Memory.wf (s.rawByte i p v) = true := by
  have hput : ∀ a : Nat, Memory.wf { s with mem := Store.put 0 a (BitVec.ofNat 8 v) s.mem, memChk := Store.del (a / 32) s.memChk }
      = true := by
    intro a
    rw [memory_wf_iff] at *
    exact ⟨Store_put_wf (fun _ => 0) _ _ _ h.1, Store_del_wf _ _ _ h.2⟩
  unfold State.rawByte
  dsimp only
  cases (s.step1 i).rawIndex p with
  | none => exact h
  | some k =>
    dsimp only
    split
    · exact h
    · split <;> refine memory_wf_of (if _ then _ else s) _ rfl rfl ?_ <;> split <;> first | exact hput _ | exact h

theorem resetMain_memory_wf (s : State) : Memory.wf s.resetMain = true := rfl

/-! ## What is written reads back -/

theorem granData_putGranule (s : State) (g : Nat) (data : List Byte) (h : data.length = 32) :
    (s.putGranule g data).granData g = data := by
  have := Store_gets_puts (0 : Byte) (32 * g) (data.take 32) s.mem
  rw [List.take_of_length_le (by omega), h] at this
  simp only [State.granData, State.putGranule]
  rw [List.take_of_length_le (by omega)]
  exact this

theorem putGranule_same (s : State) (g a : Nat) (data : List Byte) (h : a < 32 * g ∨ 32 * g + 32 ≤ a) :
    Store.get 0 a (s.putGranule g data).mem = Store.get 0 a s.mem := by
  simp only [State.putGranule]
  rw [Store_get_puts, if_neg]
  have := List.length_take_le 32 data
  omega

theorem granCheck_putGranule (s : State) (g : Nat) (data : List Byte) :
    Store.get 0 g (s.putGranule g data).memChk = 0 := by
  simp [State.putGranule, Store_get_del]

theorem granData_putCodeword (s : State) (g : Nat) (data : List Byte) (check : BitVec 32) (h : data.length = 32) :
    (s.putCodeword g data check).granData g = data := granData_putGranule s g data h

theorem putCodeword_same (s : State) (g a : Nat) (data : List Byte) (check : BitVec 32) (h : a < 32 * g ∨ 32 * g + 32 ≤ a) :
    Store.get 0 a (s.putCodeword g data check).mem = Store.get 0 a s.mem := putGranule_same s g a data h

end Sys2Proof.Laws
end

