-- ==== Sys2Proof/Laws/Reply.lean ====
section
/-! SUPPORT. Answering: what a reply leaves as it is, that its frame is sent, and that it stays sent until the command
ends (R485 to R492). -/
namespace Sys2Proof.Laws
open Sys2Proof.Machine Sys2Proof.Safety

/-- The stored replies of the management line are a part of their own. -/
theorem setReplies_keeps (s : State) (l : List Stored) : Keeps [.replies] s { s with ctl := { s.ctl with replies := l } } :=
  ⟨rfl, rfl, fun p hp => by cases p <;> simp_all [Part.same]⟩

theorem setSlot_keeps (s : State) (i : Nat) (f : Slot → Slot) : Keeps [.slots] s (s.setSlot i f) :=
  ⟨rfl, rfl, fun p hp => by cases p <;> simp_all [Part.same, State.setSlot]⟩

theorem setOut_keeps (s : State) (l : List Msg) : Keeps [] s { s with out := l } :=
  ⟨rfl, rfl, fun p _ => by cases p <;> simp [Part.same]⟩

/-- A reply changes the stored replies and its slot, and nothing else. -/
theorem replyAll_keeps (s : State) (rq : Rq) (service : Nat) (a : Addr) (l : List (Status × Option (Nat × Nat) × List Byte)) :
    Keeps answerParts s (s.replyAll rq service a l) := by
  unfold State.replyAll
  split
  · exact Keeps_trans _ _ _ _ (Keeps_mono _ _ _ _ (transmit_keeps _ _) (by simp))
      (Keeps_mono _ _ _ _ (setReplies_keeps _ _) (by simp [answerParts]))
  · dsimp only
    split
    · split
      · exact Keeps_trans _ _ _ _ (Keeps_trans _ _ _ _ (Keeps_mono _ _ _ _ (setOut_keeps s _) (by simp))
          (Keeps_mono _ _ _ _ (setSlot_keeps _ _ _) (by simp [answerParts])))
          (Keeps_mono _ _ _ _ (msix_keeps _ _) (by simp))
      · exact Keeps_trans _ _ _ _ (Keeps_mono _ _ _ _ (setOut_keeps s _) (by simp))
          (Keeps_mono _ _ _ _ (setSlot_keeps _ _ _) (by simp [answerParts]))
    · exact Keeps_mono _ _ _ _ (setOut_keeps s _) (by simp)

theorem reply_keeps (s : State) (rq : Rq) (service : Nat) (a : Addr) (st : Status) (data : List Byte)
    (blk : Option (Nat × Nat)) : Keeps answerParts s (s.reply rq service a st data blk) := replyAll_keeps _ _ _ _ _

/-- The one frame of a reply is sent, unless injection discards a management frame (R541). -/
theorem reply_sends (s : State) (rq : Rq) (service : Nat) (a : Addr) (st : Status) (data : List Byte)
    (blk : Option (Nat × Nat)) (h : isHost rq.src = true ∨ s.ij.txDrop = 0) :
    Msg.reply rq.src rq.seq service a true true st.code blk (if st = .ok then data else [])
      ∈ (s.reply rq service a st data blk).out := by
  unfold State.reply
  generalize (if st = .ok then data else []) = d
  obtain ⟨src, seq, cfg⟩ := rq
  cases src with
  | mgt addr port =>
    have ht : s.ij.txDrop = 0 := by simpa [isHost] using h
    simp [State.replyAll, State.transmit, ht, upto]
  | host slot =>
    simp only [State.replyAll]
    split
    · split
      · exact msix_sent _ _ _ (by simp [State.setSlot, upto])
      · simp [State.setSlot, upto]
    · simp [upto]

/-- What was sent before a reply stays sent. -/
theorem reply_sent (s : State) (rq : Rq) (service : Nat) (a : Addr) (st : Status) (data : List Byte)
    (blk : Option (Nat × Nat)) : Sent s (s.reply rq service a st data blk) := by
  unfold State.reply
  generalize (if st = .ok then data else []) = d
  unfold State.replyAll
  split
  · exact Sent_append _ _ _ rfl
  · dsimp only
    split
    · split
      · exact Sent_trans _ _ _ (Sent_append _ _ _ rfl) (msix_sent _ _)
      · exact Sent_append _ _ _ rfl
    · exact Sent_append _ _ _ rfl

theorem answer_keeps (s : State) (o : OpenService) (st : Status) : Keeps answerParts s (s.answer o st) := by
  unfold State.answer
  split
  · exact Keeps_refl _ _
  · exact reply_keeps _ _ _ _ _ _ _

theorem answers_keep (l : List OpenService) (st : Status) (s : State) :
    Keeps answerParts s (l.foldl (fun t o => t.answer o st) s) := by
  induction l generalizing s with
  | nil => exact Keeps_refl _ _
  | cons o l ih => exact Keeps_trans _ _ _ _ (answer_keeps s o st) (ih _)

/-- Completing what waits changes the open services, and what answering changes. -/
theorem complete_keeps (s : State) (w : Waits) (st : Status) : Keeps (.ctl :: answerParts) s (s.complete w st) := by
  unfold State.complete
  refine Keeps_trans _ _ _ _ ?_ (Keeps_mono _ _ _ _ (answers_keep _ _ _) (fun p hp => List.mem_cons_of_mem _ hp))
  exact ⟨rfl, rfl, fun p hp => by cases p <;> simp_all [Part.same]⟩

/-- Opening a service changes the open services alone. -/
theorem openService_keeps (s : State) (rq : Rq) (service : Nat) (a : Addr) (w : Waits) :
    Keeps [.ctl] s (s.openService rq service a w) :=
  ⟨rfl, rfl, fun p hp => by cases p <;> simp_all [Part.same, State.openService]⟩

end Sys2Proof.Laws
end

