-- ==== Sys2Proof/Tests/Slice0.lean ====
section
/-! SUPPORT. Tests of the model on small states: what WellFormed refuses, worked examples of spec/, and for every
obligation states and operands that meet the hypotheses of its clauses together. -/
namespace Sys2Proof.Tests
set_option Elab.async false
open Sys2Proof.Machine Sys2Proof.Safety

/-! ## Building small states -/

/-- Registers with the listed values: object, unit, sub-index counted from 0, value. -/
def regsOf (l : List (Obj × Nat × Nat × Nat)) : Store Word :=
  l.foldl (fun st e => Store.put e.1.dflt (e.1.key e.2.1 e.2.2.1) (Word.of e.2.2.2) st) []

/-- The reset state with registers set. -/
def withRegs (l : List (Obj × Nat × Nat × Nat)) : State := { State.reset with dict := { regs := regsOf l } }

/-- n bytes with the listed fields: offset, size, value. -/
def fields (n : Nat) (l : List (Nat × Nat × Nat)) : List Byte :=
  (upto n).map (fun k => match l.find? (fun e => decide (e.1 ≤ k) && decide (k < e.1 + e.2.1)) with
    | some e => (leBytes e.2.1 e.2.2).getD (k - e.1) 0
    | none => 0)

/-- All twelve memory channels READY. -/
def readyChans : Store Chan := (upto 12).map (fun c => (c, { st := .ready }))

/-- Site 0 with bundle 0. -/
def siteState (site : Site) (regs : List (Obj × Nat × Nat × Nat) := []) : State :=
  { withRegs ((.siteBundles, 0, 0, 1) :: regs) with sites := [(0, site)] }

def hostRq : Rq := { src := .host 0, seq := 1 }
def mgtRq : Rq := { src := .mgt 1 5, seq := 1 }

/-- What a step answers, where it is a next state. -/
def after (i : Instr) (s : State) : State :=
  match exec i s with
  | .next t => t
  | _ => s

theorem quiet_of_checks {s : State}
    (h : ∀ c, c < 12 → (s.chan c).recentBad.length < 64 ∧ ∀ l, l < 32 → (s.chan c).laneRate l = 0) : ChansQuiet s :=
  fun c hc => ⟨(h c hc).1, fun l hl => .inl ((h c hc).2 l hl)⟩

/-! ## Well-formedness -/

theorem test_wf_write : (Instr.write hostRq ⟨0x2000, 4⟩ [2]).wf = true := by decide
theorem test_wf_bus_address : (Instr.bar2Write (2 ^ 64) [1]).wf = false := by decide
theorem test_wf_mem_address : (Instr.memAccess false (2 ^ 64) [] 0 {}).wf = false := by decide
theorem test_wf_read_length : (Instr.read hostRq ⟨0x2000, 4⟩ 65536).wf = false := by decide
theorem test_wf_identify_length : (Instr.identify hostRq 65536).wf = false := by decide
theorem test_wf_block_read_segment : (Instr.blockRead hostRq ⟨0x2000, 4⟩ 65536 0 1).wf = false := by decide
theorem test_wf_block_read_offset : (Instr.blockRead hostRq ⟨0x2000, 4⟩ 1 (2 ^ 32) 1).wf = false := by decide
theorem test_wf_block_read_total : (Instr.blockRead hostRq ⟨0x2000, 4⟩ 1 0 (2 ^ 32)).wf = false := by decide
theorem long_data (b : Byte) : shortData (List.replicate 65536 b) = false := by
  rw [shortData, List.length_replicate]; decide
theorem test_wf_write_data : (Instr.write hostRq ⟨0, 0⟩ (List.replicate 65536 0)).wf = false := long_data 0
theorem test_wf_staged_write_data : (Instr.stagedWrite hostRq ⟨0, 0⟩ (List.replicate 65536 0)).wf = false := long_data 0
theorem test_wf_user_write_data : (Instr.userObjectWrite hostRq ⟨0x6000, 0⟩ (List.replicate 65536 0)).wf = false := long_data 0
theorem test_wf_block_write_data : (Instr.blockWrite hostRq ⟨0, 0⟩ ⟨true, true, 0, 1, List.replicate 65536 0⟩).wf = false := by
  show (shortData (List.replicate 65536 0) && longLen 0 && longLen 1) = false
  rw [long_data]; rfl
theorem test_wf_block_write_offset : (Instr.blockWrite hostRq ⟨0, 0⟩ ⟨true, true, 2 ^ 32, 1, [1]⟩).wf = false := by decide
theorem test_wf_block_write_total : (Instr.blockWrite hostRq ⟨0, 0⟩ ⟨true, true, 0, 2 ^ 32, [1]⟩).wf = false := by decide
theorem test_wf_frame : (Instr.mgtFrameReceive (.echo 1 (List.replicate 65536 0))).wf = false := long_data 0
theorem test_wf_pool_cells : (Instr.poolCellsWrite hostRq 0 (2 ^ 32) [1]).wf = false := by decide
theorem test_wf_pool_wave : (Instr.poolWaveWrite hostRq 0 (2 ^ 32) [1]).wf = false := by decide
theorem test_wf_meas_coef : (Instr.measCoefWrite hostRq 0 (2 ^ 32) [1]).wf = false := by decide
theorem test_wf_rxeq : (Instr.rxeqWrite hostRq 0 (2 ^ 32) [1]).wf = false := by decide
theorem test_wf_probe_sel : (Instr.probeSelWrite hostRq 0 (2 ^ 32) [1]).wf = false := by decide
theorem test_wf_key_ram : (Instr.keyRamWrite hostRq (2 ^ 32) [1]).wf = false := by decide
theorem test_wf_noc_shadow : (Instr.nocShadowWrite hostRq (2 ^ 32) [1]).wf = false := by decide
theorem test_wf_mem_regions : (Instr.memRegionsWrite hostRq (2 ^ 32) [1]).wf = false := by decide
theorem test_wf_bar2_read : (Instr.bar2Read (2 ^ 64) 4).wf = false := by decide
theorem test_wf_ports_once : (Instr.cycleStart 0 [{ port := 3 }, { port := 3 }]).wf = false := by decide
theorem test_wf_lanes_once : (Instr.instructionIssue 0
    [⟨3, List.replicate 64 none, [], [], 0, none⟩, ⟨3, List.replicate 64 none, [], [], 0, none⟩] false).wf = false := by decide
theorem test_wf_lane_symbols :
    (Instr.instructionIssue 0 [⟨3, List.replicate 63 none, [], [], 0, none⟩] false).wf = false := by decide
theorem test_wf_prbs_symbols : (Instr.prbsLocked 3 (List.replicate 65 none) [] {}).wf = false := by decide
theorem test_wf_doorbell : (Instr.doorbellSubmit 0 (List.replicate 2049 0)).wf = false := by
  show decide ((List.replicate 2049 (0 : Byte)).length ≤ 2048) = false
  rw [List.length_replicate]; decide
theorem test_wf_descriptor : (Instr.dmaDescriptorStart 0 (List.replicate 31 0)).wf = false := by decide
theorem test_wf_sensors : (Instr.thermalSample (List.replicate 15 0) 0).wf = false := by decide
theorem test_wf_rails : (Instr.railMeterSample (List.replicate 11 (0, 0)) 0 0 (List.replicate 16 0) 0).wf = false := by decide
theorem test_wf_domains : (Instr.railMeterSample (List.replicate 12 (0, 0)) 0 0 (List.replicate 15 0) 0).wf = false := by decide

/-! ## Contexts and flow -/

/-- A step without pin maps, DDR4 (R301), with a program of 16 instructions and 4 checkpoint slots. -/
def stepDdr4 : StepRec := { entry := fields 256 [(8, 4, 16), (120, 4, 4), (160, 1, 2), (163, 1, 1), (164, 1, 2), (165, 1, 2),
  (166, 1, 4), (167, 1, 4), (168, 1, 8)] }

/-- A run in step 1 of such a step, the granule of PC 7 in its cache: NEXT with every other field 0. -/
def runDdr4 : Run := { step := 1, begun := true, steps := [stepDdr4], cache := [(7, some (List.replicate 32 0, false))] }

/-- Site 0 runs; context 5 is in a state, context 6 is LOADED. -/
def ctxState (c : Context) : State :=
  { siteState { st := .running, run := runDdr4 } with
    ctxs := [(5, c), (6, { st := .loaded })], chans := readyChans }

def wReady : State := ctxState { st := .ready, pc := 7, lc0 := 2, fail := true }
def wTimer : State := ctxState { st := .waiting, cause := .timer, timer := 0 }
def wDrain : State := ctxState { st := .waiting, cause := .drain }
def wHalting : State := ctxState { st := .waiting, cause := .halting, rows := some { bank := 0, x := 1, run0 := some (2, 3) } }
def wFabric : State := ctxState { st := .waiting, cause := .fabric }
def wCkpt : State := ctxState { st := .ready, ckpts := [⟨0, List.replicate 128 7⟩, ⟨128, []⟩] }
def wNoSlot : State := ctxState { st := .ready, pc := 7, ckptPtr := 4 }

/-- Witness of FlowTransfers and FlowDecisions. -/
theorem witness_flow : wReady.issuing (5 : Cid) = true := by decide

/-- Witness of WaitsEnd, its clauses in turn. -/
theorem witness_waits_end :
    (wTimer.siteOfCtx (5 : Cid) = some (0 : SiteNo).val ∧ wTimer.stepping (0 : SiteNo) = true ∧
      (wTimer.ctx 5).st = .waiting ∧ (wTimer.ctx 5).cause = .timer ∧ (wTimer.ctx 5).timer = 0) ∧
    (wDrain.siteOfCtx (5 : Cid) = some (0 : SiteNo).val ∧ wDrain.stepping (0 : SiteNo) = true ∧
      (wDrain.ctx 5).st = .waiting ∧ (wDrain.ctx 5).cause = .drain ∧ wDrain.owes 0 5 = false) ∧
    (wHalting.siteOfCtx (5 : Cid) = some (0 : SiteNo).val ∧ wHalting.stepping (0 : SiteNo) = true ∧
      (wHalting.ctx 5).st = .waiting ∧ (wHalting.ctx 5).cause = .halting ∧ wHalting.owes 0 5 = false) ∧
    (wFabric.siteOfCtx (5 : Cid) = some (0 : SiteNo).val ∧ wFabric.stepping (0 : SiteNo) = true ∧
      5 ∈ wFabric.siteCtxs 0 ∧ (wFabric.ctx 5).cause = .fabric) := by decide

/-- Witness of SpawnAndCheckpoint, its clauses in turn. -/
theorem witness_spawn_and_checkpoint :
    (wReady.siteOfCtx (5 : Cid) = some 0 ∧ wReady.issuing (5 : Cid) = true ∧ wReady.spawnable 0 6 = true) ∧
    (wReady.ctx 5).ckptPtr.toNat < (wReady.stepRec 0).ckptSlots ∧
    (wCkpt.siteOfCtx (5 : Cid) = some 0 ∧ (wCkpt.ctx 5).ckpts = ⟨0, List.replicate 128 7⟩ :: [⟨128, []⟩] ∧
      ∀ k, k < 4 → wCkpt.spot (0 + 32 * k) = .ok) := by decide

theorem witness_checkpoint_healthy : Healthy wCkpt := ⟨quiet_of_checks (by decide), fun _ => rfl⟩

def wCtxCmd : State := { withRegs [] with
  bnds := [(2, { pe := { staged := [(3, { st := .loaded, pc := 1 }), (4, { st := .loaded })] } })] }

/-- Witness of SpawnAndCheckpoint: a context command completes. -/
theorem witness_ctx_cmd : (wCtxCmd.bnd (2 : BundleNo)).pe.staged ≠ [] ∧
    ((wCtxCmd.bnd (2 : BundleNo)).pe.staged.map (·.1)).Nodup := by decide

/-- Witness of ContextFault: context 7 is FREE, so it cannot be spawned; CKPT_PTR is beyond the slots. -/
theorem witness_context_fault :
    (wReady.siteOfCtx (5 : Cid) = some 0 ∧ wReady.issuing (5 : Cid) = true ∧ (wReady.bnd (5 / 4096)).failed = false ∧
      wReady.spawnable 0 (7 : BitVec 32).toNat = false) ∧
    (wNoSlot.siteOfCtx (5 : Cid) = some 0 ∧ wNoSlot.issuing (5 : Cid) = true ∧ (wNoSlot.bnd (5 / 4096)).failed = false ∧
      (wNoSlot.stepRec 0).ckptSlots ≤ (wNoSlot.ctx 5).ckptPtr.toNat) := by decide

/-! ## Issue, cycles, runs -/

/-- Witness of InstructionIssues. -/
theorem witness_issue :
    let w := (({ wReady with out := [] } : State).compareWord 0 []).driveWord 0
    wReady.stepping 0 = true ∧ w.stepping 0 = true ∧ (w.site 0).pausing = false ∧ (w.site 0).resumeAt = none ∧
    (w.wake 0).candidates 0 = 5 :: [] ∧ (w.wake 0).fetch 0 ((w.wake 0).ctx 5) = .inr (instOf (List.replicate 32 0)) ∧
    ((w.wake 0).site 0).sched.accepts (instOf (List.replicate 32 0)).slots.length = true ∧
    (w.wake 0).cyclesFit 0 (instOf (List.replicate 32 0)) = true ∧ (instOf (List.replicate 32 0)).opcode ≠ 8 := by decide

/-- Column 0 of pin map 0 is port 0, every timing set is defined (R276, R305). -/
def stepCycles : StepRec :=
  { entry := fields 256 [(12, 2, 1), (32, 8, 2 ^ 64 - 1), (64, 4, 0x20005)], pinMaps := 0 :: List.replicate 127 0xFF }

def oneCycle : Cycle := { gov := { cid := 5 }, tset := 0, pmap := 0, hold := false, w := 0, e := 0, de := true, ce := false }

/-- Site 0 runs a step with a cycle stream whose next cycle is due. -/
def cycleState (cycles : List Cycle) : State :=
  { siteState { st := .running, run := { step := 1, begun := true, steps := [stepCycles, stepCycles], cycles := cycles } } with
    ctxs := [(5, { st := .ready })], chans := readyChans }

def wCycle : State := cycleState [oneCycle, oneCycle]
def wStarved : State := cycleState []

/-- Witness of CycleStarts. -/
theorem witness_cycle_starts :
    let v := ({ wCycle with out := [] } : State).completeCycle 0 (wCycle.run' 0).nextCycle
    wCycle.stepping 0 = true ∧ (wCycle.run' 0).begun = true ∧ (wCycle.stepRec 0).hasCycles = true ∧
    (wCycle.run' 0).nextCycle / stepsPerTick ≤ wCycle.time ∧ (wCycle.run' 0).cycles = oneCycle :: [oneCycle] ∧
    v.cycleStops 0 oneCycle (v.cycleCodes 0 oneCycle (leNat [])) = none := by decide

theorem witness_cycle_healthy : Healthy wCycle := ⟨quiet_of_checks (by decide), fun _ => rfl⟩

/-- Port 0 is SERIAL; its transmit source is 0 GENERATOR or 2 FABRIC (R260). -/
def serialState (config : Nat) : State :=
  { siteState { st := .running, run := runDdr4 } [(.portMode, 0, 0, 2), (.portSerConfig, 0, 0, config)] with
    ctxs := [(5, { st := .ready })] }

/-- Witness of QueueStarved, its clauses in turn. -/
theorem witness_queue_starved :
    (wStarved.stepping 0 = true ∧ (wStarved.run' 0).begun = true ∧ (wStarved.stepRec 0).hasCycles = true ∧
      (wStarved.run' 0).nextCycle / stepsPerTick ≤ wStarved.time ∧ (wStarved.run' 0).cycles = [] ∧
      wStarved.suppliesNoMore 0 = false) ∧
    ((serialState 0).stepping 0 = true ∧ ((serialState 0).run' 0).begun = true ∧ (serialState 0).laneLive 0 = true ∧
      ((serialState 0).ser 0).txSource = 0 ∧ (serialState 0).siteOfPort 0 = some 0 ∧
      ((serialState 0).lanesOf 0).contains 0 = true ∧ ((serialState 0).run' 0).words = [] ∧
      (serialState 0).suppliesNoMore 0 = false) ∧
    ((serialState (2 * 2 ^ 20)).laneLive 0 = true ∧ ((serialState (2 * 2 ^ 20)).ser 0).txSource = 2 ∧
      (serialState (2 * 2 ^ 20)).siteOfPort 0 = some 0 ∧ ((serialState (2 * 2 ^ 20)).lanesOf 0).contains 0 = true ∧
      ((serialState (2 * 2 ^ 20)).lane 0).txFifo = [] ∧
      ((serialState (2 * 2 ^ 20)).lane 0).tx.bits.length < ((serialState (2 * 2 ^ 20)).ser 0).wordBits) := by decide

theorem witness_first_missing :
    (match (serialState 0).firstMissing 0 with
      | some (_, t0) => decide (t0 ≤ (serialState 0).now)
      | none => false) = true := by decide +kernel

def wTraining : State :=
  siteState { st := .running, run := runDdr4, sched := { training := some { number := 1 } } }

/-- Witness of EngineMarks. -/
theorem witness_engine_marks :
    wReady.stepping 0 = true ∧ (wReady.site 0).sched.training = none ∧ wTraining.stepping 0 = true ∧
    (wTraining.site 0).sched.training ≠ none ∧ (wReady.siteSt 0).active = true ∧ 1 ≤ (wReady.run' 0).step ∧
    8 * 1 < (wReady.stepRec 0).progLen ∧ (∀ k, k < min 8 ((wReady.stepRec 0).progLen - 8 * 1) →
      wReady.spot (32 * ((wReady.stepRec 0).granule (8 * 1) + k)) ≠ .waits) := by decide

theorem witness_engine_marks_healthy : Healthy wReady := ⟨quiet_of_checks (by decide), fun _ => rfl⟩

def wArmed : State := siteState { st := .armed, startAt := some 0, run := { steps := [stepCycles] } }
def wTransition : State :=
  siteState { st := .running, transition := true, run := { step := 1, steps := [stepCycles, stepCycles] } }

/-- Witness of RunStartsAndSteps. -/
theorem witness_run_starts :
    ((wArmed.site 0).startAt = some 0 ∧ wArmed.siteSt 0 = .armed ∧ 0 ≤ wArmed.time ∧
      5 ∈ wArmed.entries 0 ((wArmed.run' 0).stepRec 1) ∧ ((wArmed.run' 0).stepRec 1).init ≠ 0x80) ∧
    (wTransition.siteSt 0 = .running ∧ (wTransition.site 0).transition = true ∧ wTransition.isMember 0 = false ∧
      (wTransition.run' 0).step < 65535 ∧ ((wTransition.run' 0).stepRec 2).init ≠ 0x80 ∧
      5 ∈ wTransition.entries 0 ((wTransition.run' 0).stepRec 2)) := by decide

/-- Site 0 in step k of two, every context of it DONE; in a lockstep group g. -/
def stepState (k g : Nat) : State :=
  { siteState { st := .running, run := { step := k, steps := [stepCycles, stepCycles] } } [(.siteLockstep, 0, 0, g)] with
    ctxs := [(5, { st := .done })] }

/-- A lockstep member before T of its step (R294). -/
def wEarly : State :=
  let s := stepState 1 3
  { s with sites := [(0, { st := .running, run := { step := 1, stepStart := 1, steps := [stepCycles, stepCycles] } })] }

def wPausing : State := siteState { st := .running, pausing := true, run := runDdr4 }
def wPaused : State := { siteState { st := .paused, resuming := true, run := runDdr4 } with time := 3500 }
def wPausedTraining : State :=
  siteState { st := .paused, run := runDdr4, sched := { training := some { number := 1 } } }

/-- No context of site 0 is READY or WAITING. -/
def allDone (s : State) : Bool := (s.siteCtxs 0).all (fun c => (s.ctx c).st != .ready && (s.ctx c).st != .waiting)

/-- Witness of StepsEnd, its clauses in turn. -/
theorem witness_steps_end :
    ((stepState 2 0).stepping 0 = true ∧ (stepState 2 0).lastStep 0 = true ∧ allDone (stepState 2 0) = true) ∧
    ((stepState 1 0).stepping 0 = true ∧ (stepState 1 0).lastStep 0 = false ∧ (stepState 1 0).isMember 0 = false ∧
      allDone (stepState 1 0) = true) ∧
    (wEarly.stepping 0 = true ∧ wEarly.lastStep 0 = false ∧ wEarly.isMember 0 = true ∧ allDone wEarly = true ∧
      wEarly.time < wEarly.realignAt 0) ∧
    ((stepState 1 3).stepping 0 = true ∧ (stepState 1 3).isMember 0 = true ∧ (stepState 1 3).lastStep 0 = false ∧
      allDone (stepState 1 3) = true ∧ (stepState 1 3).realignAt 0 ≤ (stepState 1 3).time) := by decide

/-- Witness of PauseAndResume, its clauses in turn. -/
theorem witness_pauses :
    (wPausing.siteSt 0 = .running ∧ (wPausing.site 0).pausing = true) ∧
    (wPaused.siteSt 0 = .paused ∧ (wPaused.site 0).pauseBoundary = false ∧ (wPaused.site 0).sched.training = none ∧
      (wPaused.site 0).pausedAt + 3500 ≤ wPaused.time ∧ (wPaused.site 0).resuming = true) ∧
    (wPausedTraining.site 0).sched.training ≠ none := by decide

/-! ## The scheduler and training -/

/-- Site 0 runs a DDR4 step with 4 timing entries of 0 and a scheduler; its microcode is `ucode`. -/
def schedState (q : Scheduler) (ucode : List Byte := []) : State :=
  siteState { st := .running, run := { step := 1, begun := true, steps := [{ stepDdr4 with
    entry := fields 256 [(8, 4, 16), (160, 1, 2), (161, 1, 25), (163, 1, 1), (164, 1, 2), (165, 1, 2), (166, 1, 4), (167, 1, 4),
      (168, 1, 8), (200, 4, 2)], ucode := ucode, sigMap := [8, 0, 9, 0] }] }, sched := q }
    [(.portEnCompare, 0, 0, 1), (.portEnCompare, 1, 0, 1)]

/-- The oldest transaction is command n on rank 0, bank 0; the bank is open where the command needs a row. -/
def txnState (n : Nat) (arg : Nat := 0) : State :=
  schedState { queue := [{ gov := { cid := 5 }, cmd := n, arg := arg }],
               banks := if [2, 3, 4, 5].contains n then { rows := [(0, 1)] } else {} }

def picksIt (s : State) (n : Nat) : Bool :=
  let u := atEdge s 0 ((0 : Nat) : Int)
  s.scheduling 0 && s.edgeCame 0 ((0 : Nat) : Int) && (u.pickInsert 0 ((0 : Nat) : Int)).isNone &&
    (match u.pickProgram 0 ((0 : Nat) : Int) with
     | some (k, x) => k == 0 && x.cmd == n && x.inject == 0 && !(u.sched 0).banks.violates x.cmd x.rank x.bank
     | none => false)

/-- Witness of DutCommandsSent: each of the 17 commands is picked somewhere. -/
theorem witness_dut_commands : ∀ n ∈ [1, 2, 3, 4, 5, 6, 7, 8, 9, 10, 11, 12, 13, 14, 15, 16, 17],
    picksIt (txnState n) n = true := by decide +kernel

/-- A refresh waits to be sent. -/
def wInsert : State := schedState { inserts := [{ rank := 0 }] }

/-- Witness of DutCommandsSent: an inserted refresh has the edge. -/
theorem witness_dut_insert :
    wInsert.scheduling 0 = true ∧ wInsert.edgeCame 0 ((0 : Nat) : Int) = true ∧
    (atEdge wInsert 0 ((0 : Nat) : Int)).pickInsert 0 ((0 : Nat) : Int) = some (0, 8, 0, 0, 0) := by decide +kernel

/-- A row of bank 0 is open: a REF violates the bank model. -/
def wViolates : State :=
  schedState { queue := [{ gov := { cid := 5 }, cmd := 8, bad := true }], banks := { rows := [(0, 1)] } }

/-- Witness of BankModelGuards. -/
theorem witness_bank_model :
    let u := atEdge wViolates 0 ((0 : Nat) : Int)
    wViolates.scheduling 0 = true ∧ wViolates.edgeCame 0 ((0 : Nat) : Int) = true ∧
    u.pickInsert 0 ((0 : Nat) : Int) = none ∧
    u.pickProgram 0 ((0 : Nat) : Int) = some (0, { gov := { cid := 5 }, cmd := 8, bad := true }) ∧
    (u.sched 0).banks.violates 8 0 0 = true := by decide +kernel

/-- Rank 0 owes a refresh, and the program has nothing for it. -/
def wDebt : State := schedState { debt := [(0, 1)] }

/-- Witness of RefreshAndInjection: a rise of the debt, an inserted refresh, the REORDER window. -/
theorem witness_refresh :
    wDebt.scheduling 0 = true ∧ (wDebt.stepRec 0).refAuto = true ∧ 0 < (wDebt.stepRec 0).ranks ∧
    (wDebt.sched 0).banks.refresh.contains 0 = false ∧ (wDebt.stepRec 0).banks ≤ 32 ∧
    (Store.get ((wDebt.sched 0).edge0 : Rat) 0 (wDebt.sched 0).rises + wDebt.ckTime 0 ((wDebt.stepRec 0).timingEntry 17)
      ≤ (wDebt.now : Rat)) ∧
    wDebt.edgeCame 0 ((0 : Nat) : Int) = true ∧ 0 < (wDebt.stepRec 0).banks ∧
    (wDebt.sched 0).inserts.any (·.rank == 0) = false ∧ (wDebt.sched 0).queue.filter (·.rank == 0) = [] ∧
    -((wDebt.stepRec 0).timingEntry 28 : Int) < (wDebt.sched 0).debtOf 0 0 ∧
    ((wDebt.stepRec 0).timingEntry 27 : Int) < (wDebt.sched 0).debtOf 0 0 ∧
    (({ wDebt with time := 2 ^ 20 } : State).sched 0).windowAt + ({ wDebt with time := 2 ^ 20 } : State).ckTime 0 1024
      ≤ (({ wDebt with time := 2 ^ 20 } : State).now : Rat) := by decide +kernel

/-- A burst is expected of rank 0, a read under FORCE_EDC has been sent. -/
def wBurst : State :=
  { schedState { bursts := [⟨{ gov := { cid := 5 }, cmd := 2 }, 3⟩],
                 sent := [{ ck := 3, cmd := 2, rank := 0, bank := 0, gov := some { cid := 5 }, forced := true }] } with
    time := 2 ^ 20 }

/-- Witness of DutResults. -/
theorem witness_dut_results :
    wBurst.scheduling 0 = true ∧ (wBurst.sched 0).bursts = ⟨{ gov := { cid := 5 }, cmd := 2 }, 3⟩ :: [] ∧
    wBurst.burstCame 0 ⟨{ gov := { cid := 5 }, cmd := 2 }, 3⟩ = true ∧
    (wBurst.dutPortsOf 0).contains 0 = true ∧ wBurst.sampled 0 = true ∧ (wBurst.stepRec 0).wcrc = true ∧
    (wBurst.stepRec 0).rcrc = true ∧ (wBurst.roleOf 0 0).1 = 8 ∧ (wBurst.dutPortsOf 0).contains 1 = true ∧
    wBurst.sampled 1 = true ∧ (wBurst.roleOf 0 1).1 = 9 ∧ wBurst.edcCommand 0 false 6 = none ∧
    (wBurst.edcCommand 0 false 5).any (fun e => e.forced) = true := by decide +kernel

/-- ZQCAL training (0x01) waits at the head of the queue (R319). -/
def wTrain : State := txnState 18 1

def sequence (pc : Nat) : Training := { number := 0x80, pc := pc, txn := some { gov := { cid := 5 }, cmd := 18, arg := 0x80 } }

/-- Microcode of two words, the sequence at word 0. -/
def microState (w0 : Nat) (q : Training := sequence 0) (w1 : Nat := 0) : State :=
  schedState { training := some q } (leBytes 4 w0 ++ leBytes 4 w1)

def microAt (s : State) (q : Training) (op : Nat) : Bool :=
  s.scheduling 0 && (s.sched 0).training == some q && q.number == 0x80 && decide (q.pc < (s.stepRec 0).ucodeLen) &&
    q.waiting == 0 && wordOk (s.stepRec 0) q ((s.stepRec 0).ucodeWord q.pc) &&
    bits ((s.stepRec 0).ucodeWord q.pc) 28 4 == op

/-- Witness of TrainingBegins: the sequence begins. -/
theorem witness_train : picksIt wTrain 18 = true ∧ ((1 : Nat) % 256 = 0x80 → False) := by decide +kernel

/-- Witness of TrainingBegins: a slot of it is sent. -/
theorem witness_train_command :
    (microState 0 { sequence 0 with todo := [7 * 2 ^ 19] }).scheduling 0 = true ∧
    ((({ microState 0 { sequence 0 with todo := [7 * 2 ^ 19] } with out := [] } : State).beginInserts 0).sendMicro 0
      ((0 : Nat) : Int) { sequence 0 with todo := [7 * 2 ^ 19] } (7 * 2 ^ 19)).1 = true := by decide

def goesOn (s : State) (q : Training) (n : Nat) : Bool :=
  decide (n < (s.stepRec 0).ucodeLen) && wordOk (s.stepRec 0) q ((s.stepRec 0).ucodeWord n)

/-- A CMD word that sends PREA, then END. -/
def wCmd : State := microState (2 ^ 28 + 7 * 2 ^ 19)

/-- Witness of TrainingBegins: a CMD word sends its command and the sequence goes on. -/
theorem witness_train_cmd :
    microAt wCmd (sequence 0) 1 = true ∧ wCmd.edgeCame 0 ((0 : Nat) : Int) = true ∧ (sequence 0).todo = [] ∧
    goesOn wCmd (sequence 0) 1 = true ∧
    ((({ wCmd with out := [] } : State).beginInserts 0).sendMicro 0 ((0 : Nat) : Int) (sequence 0) (7 * 2 ^ 19)).1 = true := by
  decide +kernel

/-- SWEEP, then SWEEP_END. -/
def wSweep : State := microState (3 * 2 ^ 28 + 2 * 2 ^ 16 + 5) (sequence 0) (4 * 2 ^ 28)

def sweep2 : Sweep := { target := 0, points := 2, step := 5, body := 0 }
def sweep2last : Sweep := { sweep2 with point := 1 }

/-- Witness of MicrocodeWords, its clauses in turn: END, WAIT, SWEEP, SWEEP_END twice, PATTERN, LOOP, the end of a wait. -/
theorem witness_microcode :
    microAt (microState 0) (sequence 0) 0 = true ∧ microAt (microState (2 * 2 ^ 28 + 9)) (sequence 0) 2 = true ∧
    (microAt wSweep (sequence 0) 3 = true ∧ 0 + 1 < (wSweep.stepRec 0).ucodeLen ∧
      wordOk (wSweep.stepRec 0) { sequence 0 with sweeps := [{ target := 0, points := 2, step := 5, body := 1 }] }
        ((wSweep.stepRec 0).ucodeWord 1) = true) ∧
    (microAt (microState (4 * 2 ^ 28) { sequence 0 with sweeps := [sweep2] }) { sequence 0 with sweeps := [sweep2] } 4 = true ∧
      sweep2.point + 1 < sweep2.points) ∧
    (microAt (microState (4 * 2 ^ 28) { sequence 0 with sweeps := [sweep2last] }) { sequence 0 with sweeps := [sweep2last] } 4
      = true ∧ sweep2last.points ≤ sweep2last.point + 1) ∧
    microAt (microState (5 * 2 ^ 28 + 1)) (sequence 0) 5 = true ∧
    (microAt (microState (6 * 2 ^ 28 + 3 * 2 ^ 16)) (sequence 0) 6 = true ∧ Store.get 0 0 (sequence 0).loops = 0) := by decide

/-- A wait of 9 CK periods that have passed. -/
def wWaited : State := { microState (2 * 2 ^ 28 + 9) { sequence 0 with waiting := 9 } with time := 2 ^ 20 }

/-- Witness of MicrocodeWords (the end of a wait) and BuiltInTrainingEnds (both sequences). -/
theorem witness_microcode_wait :
    ((wWaited.sched 0).training = some { sequence 0 with waiting := 9 } ∧ 9 ≠ 0 ∧
      ((0 : Nat) : Rat) + wWaited.ckTime 0 9 ≤ (wWaited.now : Rat)) ∧
    ((schedState { training := some { number := 1 } }).scheduling 0 = true ∧
      ((schedState { training := some { number := 1 } }).sched 0).training = some { number := 1 } ∧ 1 ≠ 0x80) ∧
    (microAt (microState 0) (sequence 0) 0 = true ∧ (sequence 0).sweeps = []) := by decide +kernel

/-- The words that the clauses of MicrocodeWords go on to are admitted: after SWEEP, in SWEEP_END twice, PATTERN, LOOP, WAIT. -/
theorem witness_microcode_goes_on :
    goesOn (microState (4 * 2 ^ 28) { sequence 0 with sweeps := [sweep2] }) { sequence 0 with sweeps := [{ sweep2 with point := 1 }] } 0
      = true ∧
    goesOn (microState (4 * 2 ^ 28) { sequence 0 with sweeps := [sweep2last] }) { sequence 0 with sweeps := [] } 1 = true ∧
    goesOn (microState (5 * 2 ^ 28 + 1)) (sequence 0) 1 = true ∧
    goesOn (microState (6 * 2 ^ 28 + 3 * 2 ^ 16)) (sequence 0) 0 = true ∧
    goesOn (microState (2 * 2 ^ 28 + 9) { sequence 0 with waiting := 9 }) { sequence 0 with waiting := 9 } 1 = true := by decide

/-! ## Calibration -/

def someListen : ListenStats :=
  { transitions := 65536, driven := 65536, positions := 65536, period := 71680, eyeWidth := 5, eyeHeight := 6, levelRes := 0,
    timingRes := 0, levelGap := 400000, hist := [] }
def sparseListen : ListenStats := { someListen with transitions := 7 }

def found : CalFinds := { trims := {}, stats := someListen, meetsLimits := true }
def notFound : CalFinds := { found with meetsLimits := false }

/-- Bundle 0 is FREE and a cycle of its port in a slot is in a phase, since 200 µs; CFG runs on ROOT. -/
def calState (phase : Nat) (slot : Nat := 3) (hold : Nat := 0) : State :=
  { withRegs [(.devCalHold, 0, 0, hold)] with
    time := ticks200us, tb := { cfgOnRoot := true, state := 2 }
    bnds := [(0, { cal := { cycle := some { slot := slot, phase := phase, live := true } } })] }

/-- Witness of CalCycleAdvances, phase by phase. -/
theorem witness_cal_cycle :
    (∀ k, k < 8 → ((calState k).bnd 0).cal.cycle = some { slot := 3, phase := k, live := true }) ∧
    calPasses found = true ∧ calPasses notFound = false ∧ (calState 1).rd .devCalHold ≠ 1 ∧
    (calState 1 3 1).rd .devCalHold = 1 ∧ 0 + ticks200us ≤ (calState 2).time ∧ listenSparse someListen = false ∧
    listenComplete someListen = true ∧ (calState 2).byeConverged 0 3 = true ∧ listenSparse sparseListen = true ∧
    0 + ({ calState 2 with time := 2 ^ 60 } : State).rd .devCalListenLimit * ticks1ms ≤ 2 ^ 60 ∧
    (calState 3).rd .devCalHold = 0 ∧ (calState 3).boundaryNow 0 false = true ∧ 0 + ticks20us ≤ (calState 5).time ∧
    (calState 5).rejoined 0 3 = true ∧ (calState 6).boundaryNow 0 false = true := by decide

/-- Witness of CalCycleFails: a DUT port's slot, and the bye-stake's. -/
theorem witness_cal_cycle_fails :
    ((calState 4).bnd 0).cal.cycle = some { slot := 3, phase := 4, live := true } ∧
    ((calState 7).bnd 0).cal.cycle = some { slot := 3, phase := 7, live := true } ∧
    ((calState 7 8).bnd 0).cal.cycle = some { slot := 8, phase := 7, live := true } ∧ calPasses notFound = false := by decide

/-- Port 3 has TEMPERATURE pending and drive enabled; DEV_STATE is READY. -/
def calPending : State :=
  { withRegs [(.portEnDrive, 3, 0, 1), (.portEnPinsw, 3, 0, 1), (.devCalSurveyEnable, 0, 0, 1), (.calAutoEnable, 0, 0, 1)] with
    tb := { cfgOnRoot := true, state := 2 }, cfg := { loaded := true }, ports := [(3, { cal := { pending := [1] } })] }

/-- A survey listen of port 3 has gone on for 200 µs. -/
def calSurveying : State :=
  { calPending with time := ticks200us, bnds := [(0, { cal := { surveying := some 3 } })] }

/-- Witness of CalObservations, its clauses in turn. -/
theorem witness_cal_observations :
    calPending.alive = true ∧ calPending.calReady 0 = true ∧ (calPending.bnd 0).cal.cycle = none ∧
    (calPending.bnd 0).cal.surveying = none ∧ calPending.nextCycleOf 0 = some (3, true) ∧
    calSurveying.alive = true ∧ (calSurveying.bnd 0).cal.surveying = some 3 ∧
    (calSurveying.bnd 0).cal.surveySince + ticks200us ≤ calSurveying.time ∧ listenComplete someListen = true ∧
    listenSparse someListen = false ∧ calSurveying.byeConverged 0 3 = true ∧ listenSparse sparseListen = true ∧
    calPending.tb.cfgOnRoot = true ∧ calPending.cal.loaded = false := by decide

def someEvent : Event := { code := 0x0801, kind := 1, unit := 2, time := 77 }
def wQueued : State := { State.reset with ledger := { queue := [(4 * 3 + 1, { points := [{ temp := 400 }] }), (9, {})] },
                                          evt := { logQueue := [someEvent] } }
def wCommitting : State := { State.reset with ledger := { committing := some (13, { points := [{ temp := 400 }] }, true) } }

/-- Witness of LedgerAndLog, its clauses in turn. -/
theorem witness_ledger :
    (wQueued.rim.powered = true ∧ wQueued.ledger.committing = none ∧
      wQueued.ledger.queue = (4 * 3 + 1, { points := [{ temp := 400 }] }) :: [(9, {})]) ∧
    (wQueued.evt.logQueue = someEvent :: [] ∧ wQueued.evt.now = [] ∧ wQueued.ledger.committing = none) ∧
    (wCommitting.rim.powered = true ∧ wCommitting.ledger.committing = some (13, { points := [{ temp := 400 }] }, true)) := by
  decide

/-! ## NoC and memory -/

def wSwap (n : Fin 3) : State := { State.reset with noc := { swap := n } }
/-- Link E (2) of router 0 is down, as injection holds it. -/
def wLinkDown : State := { State.reset with noc := { down := [2], held := [2] } }
/-- Bundle 3 has failed, channel 5 is isolated, quadrant 3 is off. -/
def wTargets : State :=
  { State.reset with bnds := [(3, { failed := true })], chans := [(5, { st := .isolated, cause := 4 })],
                     quads := [(3, { power := .off })] }

/-- A malformed head, and an RD_REQ, WR_REQ and CTL_REQ head to endpoint 3 (R443, R444). -/
def headOf (type vc : Nat) : BitVec 96 := NocHead.word
  { dest := 3, src := 1, vc := vc, epoch := false, type := type, status := 0, poison := false, tag := 5, count := 1, addr := 0 }

/-- Witness of NocSwapPhases and NocRouterEvents, their clauses in turn. -/
theorem witness_noc :
    (wSwap 1).noc.swap = 1 ∧ (wSwap 2).noc.swap = 2 ∧
    (State.reset.alive = true ∧ State.reset.noc.linkDown 0 2 = false) ∧ (nocHead (-1)).malformed = true ∧
    (wLinkDown.alive = true ∧ wLinkDown.noc.held.contains (Fin.ofNat 96 (4 * (0 : Fin 24).val + (2 : Fin 4).val)) = true ∧
      Store.get 0 (4 * 0 + 2) wLinkDown.noc.heldTill ≤ wLinkDown.elapsed ∧ wLinkDown.noc.down.any (·.val == 4 * 0 + 2) = true ∧
      ({ wLinkDown with elapsed := 2 ^ 30 } : State).passed (Store.get 0 (4 * 0 + 2) wLinkDown.noc.since) (10 * ticksPerMs) = true ∧
      wLinkDown.noc.needs 0 2 = true ∧ wLinkDown.dev.fault = none ∧ wLinkDown.dev.aborting = none) ∧
    (wTargets.alive = true ∧ (wTargets.endpointClosed 3 || wTargets.endpointIsolated 3) = true ∧
      (nocHead (headOf 0 0)).malformed = false ∧ (nocHead (headOf 1 2)).malformed = false ∧
      (nocHead (headOf 4 2)).malformed = false ∧ (nocHead (headOf 0 0)).dest = 3 ∧ (nocHead (headOf 1 2)).type = 1) := by decide +kernel

def chanState (c : Chan) : State := { State.reset with chans := [(2, c)], mem := [(7, 9)] }

/-- Witness of ChannelTraining, MemoryAccesses and Scrubbing. -/
theorem witness_channels :
    (((chanState { st := .init }).chan 2).st = .init ∧ ((chanState { st := .init }).chan 2).retraining = false) ∧
    ((chanState { st := .init, retraining := true }).chan 2).retraining = true ∧
    (chanState { st := .init }).chanOf 7 ≠ 2 ∧
    ((chanState { st := .ready }).spot (256 * 2) = .ok ∧ (chanState { st := .init }).spot (256 * 2) = .waits) ∧
    ((chanState { st := .ready }).scrubs 2 = true ∧ (chanState { st := .ready }).rd .devMemScrubPeriod ≠ 0 ∧
      ((chanState { st := .ready }).chan 2).scrub + 1 < (chanState { st := .ready }).chanGroups ∧
      ¬ (((chanState { st := .ready, scrub := (chanState {}).chanGroups - 1 }).chan 2).scrub + 1
        < (chanState { st := .ready }).chanGroups)) := by decide +kernel

theorem witness_channels_clean : ∀ g, Store.get 0 g (chanState { st := .ready }).memChk = 0 := fun _ => rfl

/-! ## Lanes, pool and front end -/

/-- Port 0 is a SERIAL lane of site 0, which runs, with a PORT_SER_CONFIG word and a lane state. -/
def laneState (config : Nat) (l : Lane) : State := { serialState config with ports := [(0, { lane := l })] }

def lockedLane : Lane := { signal := true, locked := true, everLocked := true, markerAligned := true }
/-- RX_CLK CDR, LOSS_ABORT, PCS 1, RX_SINK GENERATOR, LANE_GROUP 3 (R261). -/
def groupConfig : Nat := 1 * 2 ^ 26 + 1 * 2 ^ 31 + 1 * 2 ^ 13 + 1 * 2 ^ 28 + 3 * 2 ^ 36

/-- Witness of LaneLocks, its clauses in turn. -/
theorem witness_lane_locks :
    (laneState 0 {}).laneLive 0 = true ∧
    (((laneState 0 lockedLane).lane 0).locked = true ∧ ((laneState 0 lockedLane).lane 0).everLocked = true ∧
      ((laneState 0 lockedLane).ser 0).lossAbort = false) ∧
    ((laneState groupConfig lockedLane).laneLive 0 = true ∧ ((laneState groupConfig lockedLane).ser 0).lossAbort = true ∧
      ((laneState groupConfig lockedLane).lane 0).locked = true ∧ (laneState groupConfig lockedLane).siteOfPort 0 = some 0 ∧
      (laneState groupConfig lockedLane).siteSt 0 = .running ∧ ((laneState groupConfig lockedLane).ser 0).pcs ≠ 0 ∧
      ((laneState groupConfig lockedLane).ser 0).rxClk ≠ 0 ∧ ((laneState groupConfig lockedLane).ser 0).rxSink = 1 ∧
      ((laneState groupConfig lockedLane).ser 0).group ≠ 0 ∧ (laneState groupConfig lockedLane).groupPorts 3 = [0] ∧
      ((laneState groupConfig lockedLane).groupPorts 3).all
        (fun q => ((laneState groupConfig lockedLane).lane q).markerAligned) = true) := by decide

/-- Ports 0 and 8 are lanes of site 0 in lane group 3, with or without LOSS_ABORT. -/
def wGroup (config : Nat) : State :=
  { siteState { st := .running, run := runDdr4 }
      [(.siteBundles, 0, 0, 3), (.portMode, 0, 0, 2), (.portSerConfig, 0, 0, config), (.portMode, 8, 0, 2),
       (.portSerConfig, 8, 0, config)] with ports := [(0, { lane := lockedLane }), (8, { lane := lockedLane })] }

/-- Witness of LaneLocks: a group whose skew is beyond 512 symbols, without and with LOSS_ABORT. -/
theorem witness_lane_group :
    (wGroup groupConfig).groupPorts 3 = [0, 8] ∧
    ((wGroup groupConfig).groupPorts 3).any (fun q => ((wGroup groupConfig).ser q).lossAbort) = true ∧
    (wGroup (groupConfig - 2 ^ 31)).laneLive 0 = true ∧ ((wGroup (groupConfig - 2 ^ 31)).ser 0).group = 3 ∧
    ((wGroup (groupConfig - 2 ^ 31)).ser 0).rxSink = 1 ∧ ((wGroup (groupConfig - 2 ^ 31)).ser 0).pcs ≠ 0 ∧
    ((wGroup (groupConfig - 2 ^ 31)).groupPorts 3).any (fun q => ((wGroup (groupConfig - 2 ^ 31)).ser q).lossAbort) = false ∧
    [((0 : PortNo), 0), ((8 : PortNo), 600)].foldl (fun m e => max m e.2) 0 = 600 ∧ 0 + 512 < 600 := by decide

/-- RX_SINK PRBS_CHECK is 2, FABRIC 3 (R261); STEP adaptation is byte 1 of PORT_SER_RXEQ (R263). -/
def wPrbs : State :=
  { laneState (2 * 2 ^ 28) lockedLane with
    time := 2 ^ 20
    dict := { regs := regsOf [(.siteBundles, 0, 0, 1), (.portMode, 0, 0, 2), (.portSerConfig, 0, 0, 2 * 2 ^ 28),
      (.portEnCompare, 0, 0, 1)] } }
def wFabricLane : State := laneState (3 * 2 ^ 28) {}
def wFullFifo : State := laneState (3 * 2 ^ 28) { rx := { lost := 1 } }
def wAdapt : State :=
  { wPrbs with dict := { wPrbs.dict with doms := [(2 ^ 24 * Obj.portSerRxeq.key 0 0 + 1, 1)] } }

/-- Witness of LaneMeasures, its clauses in turn. -/
theorem witness_lane_measures :
    (wPrbs.laneLive 0 = true ∧ (wPrbs.ser 0).rxSink = 2 ∧ wPrbs.listens 0 = true ∧
      (wPrbs.reg .portSerPrbs 0).fld 12 4 ≠ 7 ∧
      (wPrbs.lane 0).rx.upTo < wPrbs.now - (wPrbs.symbolSteps (bundleOfPort 0) (63 : Nat)).toNat ∧ (wPrbs.lane 0).locked = true) ∧
    (wAdapt.laneLive 0 = true ∧ wAdapt.adaptMode 0 = 1 ∧ (wAdapt.lane 0).locked = true ∧
      (wAdapt.lane 0).adaptDone = false ∧ wAdapt.adaptSymbols 0 ≤ (wAdapt.lane 0).rx.symbols) ∧
    (wFullFifo.laneLive 0 = true ∧ (wFullFifo.ser 0).rxSink = 3 ∧ (wFullFifo.lane 0).rx.lost ≠ 0) ∧
    (wFabricLane.alive = true ∧ wFabricLane.isSerial 0 = true ∧
      tapsOk ([40, 0, 0, 0].map (fun x : Byte => signed 8 x.toNat)) = false ∧
      tapsOk ([0xFE, 3, 0xFD, 1].map (fun x : Byte => signed 8 x.toNat)) = true ∧
      (wFabricLane.lane 0).eqDict ≠ some (wFabricLane.wordIndex (bundleOfPort 0)) ∧
      ((laneState 0 { eqDict := some 0 }).lane 0).eqDict = some ((laneState 0 {}).wordIndex (bundleOfPort 0)) ∧
      wFabricLane.timeRuns = false ∧ ({ wFabricLane with timeRuns := true } : State).isSerial 0 = true) := by decide +kernel

/-- WD0 of bundle 0 in STREAM mode (R143). -/
def wStream : State :=
  { State.reset with dict := { doms := [(2 ^ 24 * Obj.bndPoolCells.key 0 0 + 160, 2)] } }
/-- 64 sinc outputs wait in bundle 0, and 5 µs have passed. -/
def wSinc : State :=
  { State.reset with elapsed := 5 * ticksPerUs, bnds := [(0, { meas := { waiting := List.replicate 64 default } })] }

/-- Witness of PoolAndChain, its clauses in turn. -/
theorem witness_pool :
    wSinc.passed (Store.get 0 3 (wSinc.bnd 0).pool.blankAt) (5 * ticksPerUs) = true ∧
    wStream.cellMode 0 (10 + (0 : Fin 2).val) = 2 ∧ (wStream.osc 0 0).fifo = [] ∧
    wSinc.sincNeeded 0 ≤ (wSinc.bnd 0).meas.waiting.length ∧
    (wStream.bnd 0).meas.waiting.length < wStream.sincNeeded 0 := by decide

/-- A DUT that holds its pin at 3 V. -/
def strongPin : Option PinDrive := some ⟨3, 1⟩
def wPmu : State := withRegs [(.portEnPmu, 5, 0, 1), (.portEnPinsw, 5, 0, 1)]
def wTerm : State := withRegs [(.portEnTerm, 5, 0, 1), (.portEnPinsw, 5, 0, 1)]

/-- Witness of FrontEndEvents, its clauses in turn. -/
theorem witness_front_end :
    wSinc.passed (Store.get 0 3 (wSinc.port 5).fe.blankAt) (5 * ticksPerUs) = true ∧
    ((wPmu.enables 5).pmu = true ∧ (wPmu.portSettled 5 strongPin).limited = true) ∧
    ((wTerm.acting 5).term = true ∧ (wTerm.portSettled 5 strongPin).limited = true) := by decide +kernel

/-! ## Aborts, arming and capture -/

/-- Site 0 aborts with a cause; bundle 0 has a record in its FIFO. -/
def wAborting (failed : Bool) : State :=
  { siteState { st := .aborting, abort := some { cause := 0x0402, time := 0 }, run := { step := 1, steps := [stepCycles] } } with
    bnds := [(0, { failed := failed, cap := { fifo := [{ x := 3 }] } })] }

theorem witness_abort_line :
    (State.reset.dev.abortNLow = false ∧ State.reset.alive = true ∧ State.reset.dev.fault = none ∧
      State.reset.dev.aborting = none) ∧
    (wReady.dev.abortNLow = false ∧ wReady.alive = true ∧ wReady.siteSt 0 = .running) := by decide

/-- Site 0 of a ring at 0, its records held. -/
def stepRing : StepRec := { stepCycles with entry := fields 256 [(8, 4, 16), (208, 8, 2 ^ 12), (216, 4, 32)] }
def wFlushed : State :=
  { siteState { st := .aborting, abort := some { cause := 0x0402, time := 0 }, run := { step := 1, steps := [stepRing] } } with
    chans := readyChans }

/-- The Flush phase of such a site has lasted 7.5 µs. -/
def wLate (failed : Bool) : State := { wAborting failed with elapsed := flushTicks }

/-- Witness of FlushEnds: the deadline, and the end of the flush. -/
theorem witness_flush :
    ((wLate true).rim.seq ≠ .abort ∧ (wLate true).siteSt 0 = .aborting ∧
      ((wLate true).site 0).abort = some { cause := 0x0402, time := 0 } ∧ (wLate true).passed 0 flushTicks = true) ∧
    (wFlushed.rim.seq ≠ .abort ∧ wFlushed.siteSt 0 = .aborting ∧
      (wFlushed.site 0).abort = some { cause := 0x0402, time := 0 } ∧ wFlushed.elapsed ≤ 0 + flushTicks ∧
      (({ wFlushed with out := [] } : State).flushSite 0).1 = true) := by decide

def wDiscard : State := siteState { st := .ready, discarding := some [5], run := { step := 1, steps := [stepRing] } }

theorem witness_discard :
    (upto 12).find? (fun j => (wDiscard.site j).discarding.isSome) = some (0 : SiteNo).val ∧
    (∀ j, j < 12 → wDiscard.siteSt j ≠ .armed) := by decide

theorem witness_faults :
    (wReady.alive = true ∧ wReady.dev.fault = none ∧ wReady.dev.aborting = none) ∧
    ((wReady.bnd 0).failed = false ∧ (wReady.quad (quadOfBundle 0)).power = .on ∧ wReady.siteOf 0 = some 0 ∧
      wReady.siteSt 0 = .running ∧ (wReady.ctx 5).st ≠ .free ∧ wReady.siteOf 3 = none) := by decide

/-- Port 0 is a FABRIC lane of site 0 (R406). -/
def wRecord : State := { wFabricLane with bnds := [(0, { cap := { fifo := [{ x := 3 }] } })] }
def wFlying : State :=
  { siteState { st := .running, run := { step := 1, steps := [stepRing] }, ring := { write := 1, flying := [(0, List.replicate 32 7)] } } with
    chans := readyChans }

theorem witness_capture :
    (wRecord.siteOfPort 0 = some 0 ∧ wRecord.laneLive 0 = true ∧ (wRecord.ser 0).rxSink = 3 ∧ wRecord.siteSt 0 = .running ∧
      (wRecord.cap (bundleOfPort 0)).fifo.length < 256) ∧
    (wRecord.siteOf 0 = some 0 ∧ (wRecord.cap 0).fifo = { x := 3 } :: []) ∧
    1 ≤ wFlying.ringRoom 0 ∧ (wFlying.ring 0).lost = 0 ∧ (wFlying.ring 0).flying.find? (fun x => x.1 == 1) = none := by decide

theorem witness_capture_commit :
    (wFlying.ring 0).flying.find? (fun x => x.1 == 0) = some (0, List.replicate 32 7) ∧
    (({ wFlying with out := [] } : State).store
      ((wFlying.step1 0).ringBase + 32 * (0 % max (wFlying.step1 0).ringLen 1)) (List.replicate 32 7)).1 = true := by
  decide +kernel

theorem witness_capture_quiet : ChansQuiet wFlying := quiet_of_checks (by decide)

/-! ## Arming -/

def armEntry : List Byte := fields 256
  [(0, 8, 0x1000), (8, 4, 16), (12, 2, 1), (16, 8, 0x2000), (24, 8, 0x3000), (208, 8, 0x10000), (216, 4, 4096),
   (236, 8, 2 ^ 64 - 1)]

/-- The ARM of site 0 is in validation for the host: a step list of n VECTOR steps in a region bound to the site. -/
def wArm (n : Nat) : State :=
  { siteState { st := .ready, validating := some hostRq } [(.siteStepCount, 0, 0, n), (.controlOwner, 0, 0, 2)] with
    dict := { regs := regsOf [(.siteBundles, 0, 0, 1), (.siteStepCount, 0, 0, n), (.controlOwner, 0, 0, 2)],
              doms := [(2 ^ 24 * Obj.devMemRegions.key 0 0 + 10, 0x10)] }
    mem := Store.puts 0 0x2000 (List.replicate 128 0xFF) (Store.puts 0 0 armEntry [])
    chans := readyChans, tb := { state := 2 } }

/-- Validation answers OK and leaves the channels quiet. -/
def passesQuietly (v : Except ArmFail (List StepRec) × State) : Bool :=
  (match v.1 with
   | .ok _ => true
   | .error _ => false) &&
  (List.range 12).all (fun c => decide ((v.2.chan c).recentBad.length < 64) &&
    (List.range 32).all (fun l => (v.2.chan c).laneRate l == 0))

theorem arm_passes : passesQuietly (validate 0 (isHost hostRq.src) { wArm 1 with out := [] }) = true := by decide +kernel

/-- Witness of ArmEnds: validation passes, or stops at check 3. -/
theorem witness_arm_ok : ∃ steps u, validate 0 (isHost hostRq.src) { wArm 1 with out := [] } = (.ok steps, u) ∧ ChansQuiet u := by
  have h := arm_passes
  generalize validate 0 (isHost hostRq.src) { wArm 1 with out := [] } = x at h
  obtain ⟨e, u⟩ := x
  cases e with
  | error f => simp [passesQuietly] at h
  | ok steps =>
    simp only [passesQuietly, Bool.true_and, List.all_eq_true, Bool.and_eq_true, decide_eq_true_eq, List.mem_range,
      beq_iff_eq] at h
    exact ⟨steps, u, rfl, quiet_of_checks h⟩

theorem witness_arm_fails :
    ((wArm 0).site 0).validating = some hostRq ∧
    (validate 0 (isHost hostRq.src) { wArm 0 with out := [] }).1 = .error ⟨.range, 3, 0, armObject 0x2A03 2⟩ := by
  decide +kernel

/-! ## Timebase and Warp -/

/-- A device of a role whose timebase is in a state, with Warp-in locked; Warp-out 2 is enabled; site 0, in group 3, is in a
state. -/
def tbState (role state : Nat) (st : SiteSt) (l : WarpLink := { locked := true, peerAligned := true, peerDepth := 2 }) : State :=
  { siteState { st := st, run := { steps := [stepCycles, stepCycles], step := if st == .armed then 0 else 1 } }
      [(.warpRole, 0, 0, role), (.devWarpOutEn, 0, 0, 4), (.siteLockstep, 0, 0, 3), (.devHoldoverAbort, 0, 0, 1)] with
    tb := { state := state, started := true, links := [(0, l)] }, timeRuns := true, time := 100 }

/-- Witness of RootStates, its clauses in turn. -/
theorem witness_root_states :
    ((tbState 1 2 .running).alive = true ∧ (tbState 1 2 .running).role ≠ 2 ∧ (tbState 1 2 .running).tb.state = 2) ∧
    ((tbState 1 1 .running).alive = true ∧ (tbState 1 1 .running).tb.state = 1 ∧
      (tbState 1 1 .running).rd .devHoldoverAbort = 1 ∧ (tbState 1 1 .running).dev.fault = none ∧
      (tbState 1 1 .running).dev.aborting = none ∧ (tbState 1 1 .running).siteSt 0 = .running) ∧
    ((tbState 2 6 .running).role = 2 ∧ (tbState 2 6 .running).tb.state = 6 ∧ (tbState 2 6 .running).tb.relock = false ∧
      ({ (tbState 2 6 .running).tb with relock := true } : Timebase).relock = true) ∧
    ((tbState 2 4 .running).role = 2 ∧ (tbState 2 4 .running).tb.state = 4 ∧
      ((tbState 2 4 .running).link 0).peerAligned = true ∧ ((tbState 2 4 .running).link 0).peerDepth ≤ 2 ∧
      -100 ≤ (tbState 2 4 .running).residual ∧ (tbState 2 4 .running).residual ≤ 100 ∧
      ((tbState 2 4 .running).link 0).locked = true ∧ ((tbState 2 4 .running).link 0).lost = false) ∧
    2 ≤ ((tbState 2 5 .running { locked := true, bad := 2 }).link 0).bad ∧
    (tbState 2 5 .running { locked := true, bad := 2 }).dev.fault = none ∧
    (tbState 2 5 .running { locked := true, bad := 2 }).siteSt 0 = .running := by decide

/-- LINE of bundle 2 is being brought to 3/4; a fixture measurement runs; time code set 5 was sent at TIME 60. -/
def wLine : State :=
  { tbState 1 1 .ready with
    bnds := [(2, { lineNext := some (3 + 4 * 2 ^ 16) })], elapsed := 10 * ticksPerMs
    tb := { state := 1, charOut := some 1, codes := [(5, 60)] } }

/-- A time code set numbered 9 with LOOP 7,000 for set 4, and an echo set for set 5. -/
def someCode : TimeCode := { flags := 0x41, seq := 9, time := 100, loop := 7000, loopSeq := 4 }
def someEcho : List Byte := [5, 0x41]

/-- Witness of LineAndLoop, its clauses in turn. -/
theorem witness_line :
    (wLine.bnd 2).lineNext = some (3 + 4 * 2 ^ 16) ∧ wLine.tb.charOut.isSome = true ∧
    wLine.tb.charSince + 10 * ticksPerMs ≤ wLine.elapsed ∧ wLine.outRuns 2 = true ∧
    ((tbState 2 5 .running).alive = true ∧ (tbState 2 5 .running).role = 2 ∧ ((tbState 2 5 .running).link 0).locked = true ∧
      (tbState 2 5 .running).tb.state = 5 ∧ (tbState 2 5 .running).tb.turns.find? (fun e => e.1 == 4) = none) ∧
    checkedOf 16 (checked (TimeCode.body someCode)) = some (TimeCode.body someCode) ∧
    timeCodeOf (TimeCode.body someCode) = someCode ∧
    checkedOf 16 [] = none ∧ checkedOf 3 [] = none ∧ checkedOf 3 (checked someEcho) = some someEcho ∧
    wLine.tb.codes.find? (fun e => e.1 == leNat (someEcho.take 1)) = some (5, 60) ∧
    ({ (tbState 2 4 .running).tb with turns := [(4, 5000)] } : Timebase).turns.find? (fun e => e.1 == 4) = some (4, 5000) := by
  decide +kernel

/-- The last event set that Warp-in, or Warp-out 2, gave: an ABORT of group 3 numbered 7. -/
def wRepeated : State := tbState 2 5 .running { locked := true, last := some ⟨4, 3, 7, 99⟩ }

/-- Witness of WarpEvents, its clauses in turn. -/
theorem witness_warp_events :
    ((tbState 2 5 .running).alive = true ∧ (tbState 2 5 .running).role = 2 ∧ ((tbState 2 5 .running).link 0).locked = true ∧
      ((tbState 2 5 .running).link 0).last = none ∧ (tbState 2 5 .running).outsRunning = [2] ∧
      (tbState 2 5 .running).outRuns 2 = true ∧ ((tbState 2 5 .running).link 3).last = none ∧
      (tbState 2 5 .running).member (3 : Byte).toNat = some 0 ∧ (tbState 2 5 .running).siteSt 0 = .running ∧
      (tbState 2 5 .ready).member (3 : Byte).toNat = some 0 ∧ (tbState 2 5 .ready).siteSt 0 = .ready ∧
      99 < (tbState 2 5 .running).time ∧ (tbState 2 5 .running).time ≤ 100 ∧ (tbState 2 5 .running).dev.fault = none ∧
      (tbState 2 5 .running).dev.aborting = none) ∧
    (wRepeated.alive = true ∧ wRepeated.role = 2 ∧ (wRepeated.link 0).locked = true ∧
      (wRepeated.link 0).last = some ⟨4, 3, 7, 99⟩ ∧ (0 : Byte) ≠ crc8 (WarpSet.body ⟨4, 3, 7, 99⟩)) := by decide +kernel

def schedAt (type time : Nat) (st : SiteSt) : State :=
  { tbState 2 5 st with tb := { (tbState 2 5 st).tb with sched := [{ type := type, group := 3, time := time }] } }

/-- Witness of ScheduledEventActs, its clauses in turn. -/
theorem witness_scheduled :
    ((schedAt 1 99 .running).alive = true ∧ (schedAt 1 99 .running).tb.sched = [{ type := 1, group := 3, time := 99 }] ∧
      99 ≤ (schedAt 1 99 .running).time) ∧
    ((schedAt 2 96 .armed).member 3 = some 0 ∧
      (schedAt 2 96 .armed).coincidenceAt ((schedAt 2 96 .armed).lead 0) 96 ≤ (schedAt 2 96 .armed).time ∧
      (schedAt 2 96 .armed).siteSt 0 = .armed ∧ (((schedAt 2 96 .armed).run' 0).stepRec 1).init ≠ 0x80) ∧
    ((schedAt 2 96 .paused).member 3 = some 0 ∧ (schedAt 2 96 .paused).siteSt 0 = .paused ∧
      (schedAt 2 96 .paused).coincidenceAt ((schedAt 2 96 .paused).lead 0) 96 ≤ (schedAt 2 96 .paused).time) ∧
    ((schedAt 3 96 .running).siteSt 0 = .running ∧ (schedAt 3 96 .running).member 3 = some 0) ∧
    ((schedAt 1 200 .running).time < 200 ∧ (schedAt 3 200 .running).time < (schedAt 3 200 .running).coincidenceAt ((schedAt 3 200 .running).lead 0) 200) := by
  decide

/-! ## Fabric -/

/-- A request of 2 granules to the fabric port. -/
def fabricReq (write : Bool) (addr : Nat) : FabricReq :=
  { write := write, addr := addr, count := 2, tag := 9, data := List.replicate 64 0xA5, check := [0, 0], encode := true }

def traceCtl : Nat := 0x1234 * 2 ^ 48 + 0xFFFF * 2 ^ 32 + 2 * 2 ^ 19 + 1 * 2 ^ 14

/-- Quadrant 1: ratios settle, tree 2 switches from divider 2 to 0, a trace armed on MATCH has sampled 0x1234. -/
def wQuad : State :=
  { withRegs [(.qdClkSel, 1, 0, 0x3610)] with
    quads := [(1, { divNext := some 7, trees := [(2, { src := 2, switch := some 0 })],
                    trace := { ctl := traceCtl, armed := true, samples := [0x1234], taken := 1 } })]
    tb := { state := 1, cfgOnRoot := true } }

/-- Witness of FabricClocks, of the first clause of TraceAndUser and of the first of FabricPort. -/
theorem witness_fabric_clocks :
    (wQuad.quad 1).divNext = some 7 ∧ (wQuad.tree 1 2).switch = some 0 ∧ wQuad.treeRuns 1 2 = true ∧
    wQuad.alive = true ∧ wQuad.quadClosed 1 = false ∧ wQuad.treeBySrc 1 2 = false ∧ (wQuad.tree 1 3).switch = none ∧
    (wQuad.quad 1).trace.armed = true ∧ (wQuad.quad 1).trace.triggered = false ∧
    (wQuad.quad 1).trace.last = wQuad.time ∧ (wQuad.quad 1).trace.samples.head? = some 0x1234 ∧
    wQuad.traceHits 1 (wQuad.quad 1).trace 0x1234 = true ∧
    fabricForm (fabricReq true 0x40) = true ∧ (wQuad.quad 1).requests = [] := by decide

def userService : OpenService := { rq := hostRq, service := svcWrite, addr := ⟨0x6001, 2⟩, waits := .user ⟨0x6001, 2⟩ [5, 6] }
def wUser : State := { State.reset with ctl := { services := [userService] },
                                        quads := [(1, { trace := { ctl := traceCtl, armed := true, triggered := true, taken := 3 } })] }

/-- Witness of the other clauses of TraceAndUser. -/
theorem witness_trace_user :
    ((wUser.quad 1).trace.armed = true ∧ (wUser.quad 1).trace.triggered = true ∧
      (wUser.quad 1).trace.trigAt + 1 + tracePost (wUser.quad 1).trace.ctl ≤ (wUser.quad 1).trace.taken) ∧
    (userService.waits = .user ⟨0x6001, 2⟩ [5, 6] ∧
      wUser.ctl.services.find? (fun o => o.rq == hostRq && (match o.waits with | .user _ _ => true | _ => false))
        = some userService) := by decide

/-- A request of quadrant 1 is outstanding; a region of site 0, which runs, holds bytes 0x1000 to 0x10FF. -/
def portState (r : FabricReq) (c : ChanSt) : State :=
  { siteState { st := .running, run := { step := 1, steps := [stepCycles] } } with
    quads := [(1, { requests := [r] })], chans := (upto 12).map (fun k => (k, { st := c }))
    dict := { regs := regsOf [(.siteBundles, 0, 0, 1)],
              doms := [(2 ^ 24 * Obj.devMemRegions.key 0 0 + 1, 0x10), (2 ^ 24 * Obj.devMemRegions.key 0 0 + 9, 1)] } }

def outstandingIn (s : State) (r : FabricReq) : Bool := (s.quad 1).requests.find? (fun x => x.tag == r.tag) == some r

/-- Witness of the response clauses of FabricPort: beyond, protected, served, waiting. -/
theorem witness_fabric_port :
    (outstandingIn (portState (fabricReq true (2 ^ 40)) .ready) (fabricReq true (2 ^ 40)) = true ∧
      ((portState (fabricReq true (2 ^ 40)) .ready).spots (fabricReq true (2 ^ 40))).contains .beyond = true) ∧
    (outstandingIn (portState (fabricReq true 0x1000) .ready) (fabricReq true 0x1000) = true ∧
      (portState (fabricReq true 0x1000) .ready).touchesProtected 0x1000 (32 * 2) = some 0x1000) ∧
    (outstandingIn (portState (fabricReq true 0x40) .ready) (fabricReq true 0x40) = true ∧
      ((portState (fabricReq true 0x40) .ready).spots (fabricReq true 0x40)).all (· == .ok) = true ∧
      (portState (fabricReq true 0x40) .ready).touchesProtected 0x40 (32 * 2) = none ∧
      fabricForm (fabricReq false 0x40) = true) ∧
    (outstandingIn (portState (fabricReq true 0x40) .init) (fabricReq true 0x40) = true ∧
      ((portState (fabricReq true 0x40) .init).spots (fabricReq true 0x40)).contains .waits = true) := by decide

theorem witness_fabric_port_healthy :
    Healthy (portState (fabricReq true 0x40) .ready) ∧ Healthy (portState (fabricReq true (2 ^ 40)) .ready) ∧
    Healthy (portState (fabricReq true 0x1000) .ready) ∧ ChansQuiet (portState (fabricReq true 0x40) .init) :=
  ⟨⟨quiet_of_checks (by decide), fun _ => rfl⟩, ⟨quiet_of_checks (by decide), fun _ => rfl⟩,
   ⟨quiet_of_checks (by decide), fun _ => rfl⟩, quiet_of_checks (by decide)⟩

/-! ## The host's service slots, DMA and BAR2 -/

/-- A frame of 12 + n bytes: version 1, SEQ 0x0102, a service, a LEN. -/
def frame (version service len n : Nat) : List Byte :=
  fields (12 + n) [(0, 1, version), (2, 2, 0x0102), (4, 1, service), (8, 2, len), (12, 4, 0xDDCCBBAA)]

def wSlots : State := { State.reset with
  pcie := { slots := [(3, { state := 2, segments := [[1], [2]] }), (4, { state := 2, reply := [9], segments := [[1]] })] } }

/-- Witness of HostSlots: a bad frame, HEARTBEAT with its token, an unknown service; DONE slots; the Rim; a link. -/
theorem witness_host_slots :
    (wSlots.alive = true ∧ (wSlots.slot (5 : SlotNo)).state = 0 ∧
      frameOk (frame 2 9 4 4) = false ∧
      (frameOk (frame 1 9 4 4) = true ∧ badRequest (headerOfFrame (frame 1 9 4 4)) = false ∧
        (headerOfFrame (frame 1 9 4 4)).service = 9 ∧ (frame 1 9 4 4).length = 16) ∧
      (frameOk (frame 1 11 0 0) = true ∧ 10 < (headerOfFrame (frame 1 11 0 0)).service ∧ (frame 1 11 0 0).length = 12)) ∧
    ((wSlots.slot (3 : SlotNo)).state = 2 ∧ ¬ (wSlots.slot (3 : SlotNo)).segments.length ≤ 1 ∧
      (wSlots.slot (4 : SlotNo)).state = 2 ∧ (wSlots.slot (4 : SlotNo)).segments.length ≤ 1) ∧
    wSlots.rim.powered = true ∧ (1 ≤ 5 ∧ 5 ≤ wSlots.rd .devPcieMaxGen) := by decide

/-- Witness of HostSlots: datagrams from a link-local address with a WRITE, a HEARTBEAT and an unknown service. -/
theorem witness_datagrams :
    linkLocal (0xFE80 * 2 ^ 112 + 1) = true ∧ linkLocal 1 = false ∧ (5600 : BitVec 16).toNat ≠ wSlots.rd .devMgtUdpPort ∧
    (BitVec.ofNat 16 (wSlots.rd .devMgtUdpPort)).toNat = wSlots.rd .devMgtUdpPort ∧
    (frameOk (frame 1 2 4 4) = true ∧ badRequest (headerOfFrame (frame 1 2 4 4)) = false ∧
      (headerOfFrame (frame 1 2 4 4)).service = 2) ∧
    (Arrives { src := .mgt (0xFE80 * 2 ^ 112 + 1) 5, seq := 2 } wSlots ∧ wSlots.ij.txDrop = 0) := by
  simp only [Arrives]
  decide +kernel

theorem witness_host_quiet : ChansQuiet wSlots := quiet_of_checks (by decide)

/-- Queue 1 enabled with a ring of 16 entries at 0x1000, its HEAD at 3; queue 2 off. -/
def queueState (inFlight : List Desc) : State :=
  { State.reset with
    pcie := { queues := [(1, { base := 0x1000, size := 16, ctrl := 1, head := 3, tail := 5, inFlight := inFlight })] }
    chans := readyChans }

/-- A descriptor of 64 bytes to device address 0x100; and one whose LEN is 31. -/
def descBytes (len : Nat) : List Byte := fields 32 [(0, 8, 0x5000), (8, 8, 0x100), (16, 4, len), (20, 1, 1), (24, 4, 77)]
def toDevice : Desc := { hostAddr := 0x5000, devAddr := 0x100, len := 64, op := 1, index := 0x1060 }
def badDesc : Desc := { toDevice with len := 31, result := some 5 }

/-- Witness of DmaQueues, its clauses in turn. -/
theorem witness_dma_queues :
    (State.reset.alive = true ∧ (State.reset.queue (2 : QueueNo)).enabled = false ∧
      (State.reset.queue (2 : QueueNo)).closing = false ∧ (0x1000 : BitVec 64) ≠ 0 ∧ (0x1000 : BitVec 64).toNat % 64 = 0 ∧
      16 ≤ (16 : BitVec 32).toNat ∧ (65536 : BitVec 32).toNat ≤ 65536 ∧ ctrlBind 1 = 0 ∧ 65536 < (65537 : BitVec 32).toNat) ∧
    ((queueState []).alive = true ∧ ((queueState []).queue (1 : QueueNo)).enabled = true ∧
      ((queueState []).queue (1 : QueueNo)).inFlight = [] ∧ (15 : BitVec 32).toNat < ((queueState []).queue (1 : QueueNo)).size ∧
      ((queueState []).queue (1 : QueueNo)).halted = false ∧
      ((queueState []).queue (1 : QueueNo)).head ≠ ((queueState []).queue (1 : QueueNo)).tail ∧
      (descBytes 64).length = 32 ∧ descOk false (descBytes 64) (descOf (descBytes 64) 0x1060) = true ∧
      descOk false (descBytes 31) (descOf (descBytes 31) 0x1060) = false) ∧
    (((queueState [badDesc]).queue (1 : QueueNo)).inFlight = badDesc :: [] ∧ badDesc.result = some 5) ∧
    (((queueState [toDevice, badDesc]).queue (1 : QueueNo)).inFlight = toDevice :: [badDesc] ∧ toDevice.result = none ∧
      ctrlBind ((queueState [toDevice, badDesc]).queue (1 : QueueNo)).ctrl = 0 ∧ toDevice.op = 1 ∧
      toDevice.devAddr % 32 = 0 ∧ toDevice.len % 32 = 0 ∧ (List.replicate 64 (0xA5 : Byte)).length = toDevice.len ∧
      ∀ k, k < 64 / 32 → (queueState [toDevice, badDesc]).spot (0x100 + 32 * k) = .ok ∧
        (queueState [toDevice, badDesc]).isProtected (0x100 + 32 * k) = false) := by decide

theorem witness_dma_healthy : Healthy (queueState [badDesc]) ∧ Healthy (queueState [toDevice, badDesc]) :=
  ⟨⟨quiet_of_checks (by decide), fun _ => rfl⟩, ⟨quiet_of_checks (by decide), fun _ => rfl⟩⟩

/-- Witness of HostMemory: bytes 0x11E to 0x122 are served; a window of the memory protected for a running site, and
addresses beyond the memory, store nothing. -/
theorem witness_host_memory :
    ((queueState []).alive = true ∧ 0x11E + 5 ≤ (queueState []).memCap ∧
      ∀ g ∈ touched 0x11E 5, (queueState []).spot (32 * g) = .ok ∧ (queueState []).isProtected (32 * g) = false) ∧
    (queueState []).memCap < 2 ^ 63 + 4 ∧
    ((portState (fabricReq true 0x40) .ready).alive = true ∧
      ∀ g ∈ touched 0x11E 5, (portState (fabricReq true 0x40) .init).spot (32 * g) ≠ .ok) ∧
    ((portState (fabricReq true 0x40) .ready).alive = true ∧
      ∀ g ∈ touched 0x1002 5, (portState (fabricReq true 0x40) .ready).isProtected (32 * g) = true) := by decide

theorem witness_host_memory_healthy : Healthy (queueState []) ∧ Healthy (portState (fabricReq true 0x40) .init) :=
  ⟨⟨quiet_of_checks (by decide), fun _ => rfl⟩, ⟨quiet_of_checks (by decide), fun _ => rfl⟩⟩

/-! ## Configuration, power, tests -/

/-- A load is in progress and 10 s have passed. -/
def loadState (l : Load) (tb : Nat) : State :=
  { State.reset with cfg := { load := some l }, tb := { state := tb }, elapsed := 10 * ticksPerSecond }
def prLoad : Load := { kind := .part 1 2, phase := .wipe }
def fullLoad (steps : Nat) : Load := { kind := .full, phase := .upsett, steps := steps }

/-- Witness of LoaderAdvances: the wipe, the stall, the four steps in the order 0xE4 names, the last step. -/
theorem witness_loader_advances :
    ((loadState prLoad 1).cfg.load = some prLoad ∧ prLoad.kind = .part 1 2 ∧ prLoad.phase = .wipe) ∧
    ((loadState { kind := .full, phase := .receive } 1).cfg.load = some { kind := .full, phase := .receive } ∧
      (loadState { kind := .full, phase := .receive } 1).passed 0 (10 * ticksPerSecond) = true) ∧
    ((fullLoad 0).stepBegins ≤ (loadState (fullLoad 0) 1).elapsed ∧ (fullLoad 3).stepBegins ≤ (loadState (fullLoad 3) 1).elapsed ∧
      (loadState (fullLoad 0) 0).passed (fullLoad 0).stepBegins (100 * ticksPerMs) = true) ∧
    (kindOf none = .full ∧ kindOf (some 6) = .part 1 2 ∧ bits (fullLoad 0).parse.upsett (2 * 0) 2 = 0 ∧
      (loadState (fullLoad 0) 1).rootLocked = true ∧ (loadState (fullLoad 0) 0).rootLocked = false ∧
      bits (fullLoad 1).parse.upsett (2 * 1) 2 = 1 ∧ bits (fullLoad 2).parse.upsett (2 * 2) 2 = 2 ∧
      bits ({ upsett := 0x93 } : Parse).upsett (2 * 0) 2 = 3) ∧
    ((fullLoad 3).kind = .full ∧ (fullLoad 3).phase = .upsett ∧ (fullLoad 3).steps = 3 ∧
      bits (fullLoad 3).parse.upsett 6 2 = 3) := by decide

def wWiping : State := { State.reset with
  dev := { wiping := true }, cfg := { frames := [(5, [1])] }
  ctl := { services := [{ rq := hostRq, waits := .unload, service := 6, addr := zeroAddr }] } }
def wRewipe : State := { State.reset with cfg := { rewipe := [(1, 2)], loaded := true } }
/-- The sentinel scans; site 0 runs and has bundle 0, so it is concerned by the clock frames of quadrant 0. -/
def wSentinel : State := { siteState { st := .running } [(.devSentAction, 0, 0, 1)] with cfg := { loaded := true } }

/-- Witness of WipesAndSentinel, its clauses in turn; 999 mV is the highest VBAT that clears the key RAM. -/
theorem witness_wipes :
    wWiping.dev.wiping = true ∧ wRewipe.cfg.rewipe.contains ((1 : QuadNo), (2 : Fin 4)) = true ∧
    (wSentinel.sentinelReads (0x18000 : BitVec 20).toNat = true ∧ wSentinel.rd .devSentAction = 1 ∧
      wSentinel.frameHits (0x18000 : BitVec 20).toNat 0 = true ∧ wSentinel.siteSt 0 = .running) ∧
    (wRewipe.sentinelReads (0x18000 : BitVec 20).toNat = true ∧ wRewipe.rd .devSentAction ≠ 1) ∧
    wSentinel.scans = true ∧ (999 : BitVec 16).toNat < 1000 ∧ ¬ (1000 : BitVec 16).toNat < 1000 := by decide

/-- A phase of the sequencer that has lasted so many ms. -/
def seqState (seq : SeqPhase) (en : BitVec 8) (ms : Nat := 20) : State :=
  { State.reset with rim := { seq := seq, en := en, pg := en }, elapsed := ms * ticksPerMs }
def wNoLine : State := { State.reset with rim := { powered := false, seq := .off, lineLost := true } }

/-- Witness of PowerSequence: every phase, the power-up and the power-down at their first and last steps. -/
theorem witness_power :
    ((seqState (.step 0) 1).rim.seq = .step 0 ∧ (seqState (.step 7) 0xFF).rim.seq = .step 7 ∧
      0 + ticksPerMs ≤ (seqState (.step 0) 1).elapsed ∧ (seqState (.step 0) 1).elapsed ≤ 0 + 21 * ticksPerMs ∧
      0 + 20 * ticksPerMs ≤ (seqState (.step 0) 1).elapsed) ∧
    ((seqState .release 0xFF).rim.seq = .release ∧ (seqState .release 0xFF).rim.powered = true ∧
      (seqState .release 0xFF).dev.resetNLow = false) ∧
    ((seqState .hold 0xFF).rim.seq = .hold ∧ (seqState (.down 0) 1).rim.seq = .down 0 ∧
      (seqState (.down 7) 0xFF).rim.seq = .down 7) ∧
    ((seqState .on 0xFF).rim.seq = .on ∧ (seqState .on 0xFF).rim.en.getLsbD (7 : Fin 8).val = true) ∧
    wNoLine.rim.powered = false ∧ wNoLine.rim.lineLost = true := by decide

def wHeld : State := { State.reset with dev := { resetNLow := true } }

/-- Witness of ResetLine, its clauses in turn. -/
theorem witness_reset_line :
    (State.reset.dev.resetNLow = false ∧ State.reset.alive = true) ∧
    (wNoLine.dev.resetNLow = false ∧ wNoLine.alive = false) ∧
    (wHeld.dev.resetNLow = true ∧ wHeld.railsOn = true ∧ wHeld.rim.mainReset = false) := by decide

/-- Sensor 15 has read 115 °C twice in a row; site 0 runs. -/
def wHot : State := { siteState { st := .running } [(.devPwrThermalOff, 0, 0, 0)] with therm := { hot := List.replicate 15 0 ++ [2] } }

/-- Witness of Sampling: 16 sensors that read 25 °C, then one at 115 °C for the third time; twelve rails of 1 V and 1 A. -/
theorem witness_sampling :
    (State.reset.alive = true ∧ (List.replicate 16 (400 : BitVec 16)).length = 16 ∧ ∀ n ∈ State.reset.therm.hot, n = 0) ∧
    (wHot.alive = true ∧ (wHot.therm.hot.getD 15 0) = 2 ∧
      115 * 16 ≤ tempOf ((List.replicate 15 (400 : BitVec 16) ++ [1840]).getD 15 0) ∧ wHot.dev.fault = none ∧
      wHot.dev.aborting = none ∧ wHot.therm.shutdown = false ∧ wHot.rd .devPwrThermalOff = 0 ∧ wHot.rim.seq = .on ∧ wHot.siteSt 0 = .running) ∧
    ((List.replicate 12 ((1000 : BitVec 16), (1000 : BitVec 32))).length = 12 ∧ (List.replicate 16 (5 : BitVec 32)).length = 16 ∧
      ((List.replicate 12 ((1000 : BitVec 16), (1000 : BitVec 32))).map railPower).foldl (· + ·) 0 = 12000) := by decide

/-- Quadrant 1 has been in a phase for so many ms. -/
def powerState (p : QuadPower) (ms : Nat := 1) : State := { State.reset with
  elapsed := ms * ticksPerMs, quads := [(1, { power := p })], chans := readyChans, ctxs := [(12288, { st := .loaded }), (5, { st := .done })] }

/-- Witness of QuadrantPower, its clauses in turn, in quadrant 1 with contexts of quadrants 0 and 1. -/
theorem witness_quadrant_power :
    ((powerState .closing).quad (1 : QuadNo)).power = .closing ∧ ((powerState .switching).quad (1 : QuadNo)).power = .switching ∧
    (((powerState .restoring).quad (1 : QuadNo)).power = .restoring ∧
      ∀ c ∈ quadBundles (1 : QuadNo), ((powerState .restoring).chan c).st ≠ .init) ∧
    (powerState .switching).elapsed = 0 + ticksPerMs ∧ (powerState .restoring 90).elapsed = 0 + 90 * ticksPerMs := by decide

def ijState (state left target : Nat) : State :=
  { withRegs [(.devIjTarget, 0, 0, target)] with ij := { state := state, left := left } }
/-- A window of 300 s has passed, and the time of a quieted output. -/
def wTests : State := { State.reset with tb := { state := 1, quiet := [2] }, dev := { selfTest := true }, elapsed := 300 * ticksPerSecond }

/-- Witness of InjectionAndTest, its clauses in turn: the last injection of one, and one of two. -/
theorem witness_injection :
    ((ijState 2 1 8).alive = true ∧ (ijState 2 1 8).ij.state = 2 ∧ 0 < (ijState 2 1 8).ij.left ∧ (ijState 2 1 8).ij.left = 1 ∧
      (ijState 2 1 8).rd .devIjTarget = 8) ∧
    ((ijState 2 2 10).ij.state = 2 ∧ (ijState 2 2 10).ij.left = 2 ∧ (ijState 2 2 10).rd .devIjTarget = 10) ∧
    (ijState 1 0 0).ij.state = 1 ∧ (ijState 2 1 8).ij.due ≤ (ijState 2 1 8).elapsed ∧
    (ijState 1 0 0).ij.openedAt + (ijState 1 0 0).rd .devIjWindow * ticksPerSecond ≤ 300 * ticksPerSecond ∧
    Store.get 0 2 wTests.tb.quietTill ≤ wTests.elapsed ∧ wTests.tb.quiet.contains (2 : Fin 4) = true ∧
    (wTests.alive = true ∧ wTests.dev.selfTest = true ∧ (wTests.quad (quadOfBundle 7)).power = .on) := by decide

/-! ## Requests -/

/-- The host owns control. -/
def own (l : List (Obj × Nat × Nat × Nat) := []) : State := withRegs ((.controlOwner, 0, 0, 2) :: l)

/-- Admitted, as a value. -/
def admits (rq : Rq) (w : Put) (f : Form) (x : Extra) (s : State) : Bool :=
  decide (s.frontCheck rq.src (w.o.addr w.u w.k) (.base w.o w.u w.k) f = .ok)
    && !s.preempted rq (fun code => s.scopeHas code w.o w.u w.k)
    && decide (closedCheck s w = .ok) && decide (laterChecks s w x = .ok)

theorem admitted {rq : Rq} {w : Put} {f : Form} {x : Extra} {s : State} (h : admits rq w f x s = true) :
    Admitted rq w f x s := by
  simp only [admits, Bool.and_eq_true, decide_eq_true_eq, Bool.not_eq_true'] at h
  exact ⟨h.1.1.1, h.1.1.2, h.1.2, h.2⟩

def takes (rq : Rq) (o : Obj) (u k v : Nat) (x : Extra) (s : State) : Bool :=
  admits rq { o := o, u := u, k := k, data := leBytes o.row.size v }
    { write := true, block := false, len := o.row.size, v := leNat (leBytes o.row.size v) } x (received rq s)

def takesBlock (rq : Rq) (o : Obj) (u off : Nat) (data : List Byte) (s : State) : Bool :=
  admits rq { o := o, u := u, off := off, data := data }
    { write := true, block := true, len := data.length, off := off, total := data.length, v := leNat data } {}
    (dropTransfer rq.src (received rq s))

/-- What takes and takesBlock show: with a host's request, which always arrives, and with one of the management line. -/
theorem accepted {o : Obj} {u k v : Nat} {x : Extra} {s : State} (h : takes hostRq o u k v x s = true) :
    Accepted hostRq o u k v x s := ⟨trivial, admitted h⟩

theorem accepted_block {o : Obj} {u off : Nat} {data : List Byte} {s : State}
    (h : takesBlock hostRq o u off data s = true) : AcceptedBlock hostRq o u off data s := ⟨trivial, admitted h⟩

theorem accepted_mgt {o : Obj} {u k v : Nat} {x : Extra} {s : State} (ha : Arrives mgtRq s)
    (h : takes mgtRq o u k v x s = true) : Accepted mgtRq o u k v x s := ⟨ha, admitted h⟩

/-- Steps 1 to 6 of R71, as a value. -/
def fronts (rq : Rq) (a : Addr) (data : List Byte) (s : State) : Bool :=
  decide ((received rq s).frontCheck rq.src a ((received rq s).named a)
    { write := true, block := false, len := data.length, v := leNat data } = .ok)

theorem front_ok {a : Addr} {data : List Byte} {s : State} (h : fronts hostRq a data s = true) : FrontOk hostRq a data s :=
  ⟨trivial, of_decide_eq_true h⟩

/-! ### Objects, staging, transfers -/

/-- The staging set holds SITE_STEP_BASE of site 0: a multiple of 32, and 1, which R56 lets fail only at the commit. -/
def staging (v : Nat) : State :=
  { own [(.siteBundles, 0, 0, 1)] with ctl := { staged := [(Obj.siteStepBase.key 0, some (Word.of v))] } }

/-- Witness of WritesAreHeld, its clauses in turn. -/
theorem witness_writes :
    (Obj.devTjWarn ∈ plainObjs ∧ target (Obj.devTjWarn.addr 0 0) = .entry .devTjWarn 0 0 ∧
      takes hostRq .devTjWarn 0 0 100 {} (own []) = true) ∧
    (Obj.portMode ∈ plainObjs ∧ takes hostRq .portMode 3 0 2 {} (own [(.siteBundles, 0, 0, 1)]) = true) ∧
    (Obj.siteLockstep.row.acc = .rwg ∧ target (Obj.siteLockstep.addr 0 0) = .entry .siteLockstep 0 0 ∧
      takes hostRq .siteLockstep 0 0 3 {} (own [(.siteBundles, 0, 0, 1)]) = true) ∧
    (fronts hostRq commitAddr [1] (staging 64) = true ∧
      (received hostRq (staging 64)).preempted hostRq (fun code => (staging 64).ctl.staged.any (fun e =>
        (staging 64).scopeHas code (stagedPut e).o (stagedPut e).u (stagedPut e).k)) = false ∧
      (∀ e ∈ (staging 64).ctl.staged, laterChecks (received hostRq (staging 64)) (stagedPut e) {} = .ok ∧
        (stagedPut e).o.key (stagedPut e).u (stagedPut e).k = e.1 ∧ (stagedPut e).o.row.type ≠ .dom) ∧
      ((staging 64).ctl.staged.map (·.1)).Nodup) ∧
    (fronts hostRq commitAddr [1] (staging 1) = true ∧
      ∃ e ∈ (staging 1).ctl.staged, laterChecks (received hostRq (staging 1)) (stagedPut e) {} ≠ .ok) ∧
    fronts hostRq commitAddr [2] (staging 1) = true := by decide +kernel

/-- Beside an ABORT of the same CFG cycle, and under a validation. -/
def shared : Rq := { hostRq with cfg := some 7 }
def abortBeside : State := { staging 64 with pending := [.abort shared 0] }
def validatingSite : State := { staging 64 with sites := [(0, { st := .ready, validating := some hostRq })] }

/-- Witness of CommitForms and CommitRefusals. -/
theorem witness_commits :
    ((received shared abortBeside).preempted shared (fun code => abortBeside.ctl.staged.any (fun e =>
        abortBeside.scopeHas code (stagedPut e).o (stagedPut e).u (stagedPut e).k)) = true ∧
      fronts shared commitAddr [1] abortBeside = true) ∧
    (fronts hostRq commitAddr [1] validatingSite = true ∧
      ∀ e ∈ validatingSite.ctl.staged, (stagedPut e).o.row.acc = .rwg ∧
        (validatingSite.ownerSite (stagedPut e).o (stagedPut e).u (stagedPut e).k).any validatingSite.validates = true) := by
  decide +kernel

theorem witness_commit_quiet : ∀ c, ((staging 64).chan c).recent = [] ∧ ((staging 64).chan c).recentBad = [] :=
  fun _ => ⟨rfl, rfl⟩

/-- A loaded design, whose declaration of 0x6001:02 is a free value (log 7): wherever it declares an entry that is not
RWI or BOOL, its quadrant being open, a write that passes the front checks is presented to it. -/
def designed : State := { own [] with cfg := { loaded := true } }
theorem witness_user_write (e : UserEntry) (h : designed.userEntry ⟨0x6001, 2⟩ = some e) :
    designed.named ⟨0x6001, 2⟩ = .user e := by
  unfold State.named State.namedUser
  rw [if_pos (by decide), h]

/-- Witness of ReadsAnswer. -/
theorem witness_reads :
    (Obj.portMode ∈ plainObjs ∧ target (Obj.portMode.addr 3) = .entry .portMode 3 0 ∧
      State.reset.heldValue .portMode 3 0 = none ∧ (received hostRq State.reset).frontCheck hostRq.src (Obj.portMode.addr 3) (.base .portMode 3 0)
        { write := false, block := false, len := 1 } = .ok) ∧
    (State.reset.named ⟨0x2000, 0⟩ = .count 8 ∧
      (received hostRq State.reset).frontCheck hostRq.src ⟨0x2000, 0⟩ (.count 8) { write := false, block := false, len := 1 }
        = .ok) ∧
    (target (Obj.portTset.addr 3) = .entry .portTset 3 0 ∧
      (received hostRq State.reset).frontCheck hostRq.src (Obj.portTset.addr 3) (.base .portTset 3 0)
        { write := false, block := true, len := 32, off := 480, total := 32 } = .ok) := by decide +kernel

/-- The host's SWAP of the NoC tables has waited 100 ms for its end. -/
def wService : State := { State.reset with
  elapsed := 100 * ticksPerMs
  ctl := { services := [{ rq := hostRq, service := svcWrite, addr := Obj.devNocSwap.addr, waits := .swap }] } }

/-- The host's block transfer to PORT_TSET of port 3 has been idle for 1 s, the management has not been heard for its time
limit, and the lease of slot 2 has run out. -/
def wIdle : State := { withRegs [(.controlOwner, 0, 0, 1)] with
  elapsed := 3600 * ticksPerSecond
  ctl := { transfers := [{ src := .host 0, addr := Obj.portTset.addr 3, start := 0, total := 64, data := [1] }] }
  evt := { subs := [none, none, some { addr := 1, port := 5, mask := 1, lease := 10 }, none] } }

/-- Witness of TransfersAndOwners, its clauses in turn. -/
theorem witness_transfers :
    (target (Obj.devEvtVector.addr 0) = .entry .devEvtVector 0 0 ∧
      (received hostRq (own [])).frontCheck hostRq.src (Obj.devEvtVector.addr 0) (.base .devEvtVector 0 0)
        { write := true, block := true, len := 4, off := 0, total := 8 } = .ok) ∧
    takesBlock hostRq .devEvtVector 0 4 (List.replicate 8 0xFF) (own []) = true ∧
    (∃ x, wIdle.transfer (.host 0) = some x ∧ wIdle.passed x.since ticksPerSecond = true) ∧
    (∃ o, wService.ctl.services.find? (fun x => x.rq == hostRq && wService.passed x.since (100 * ticksPerMs)) = some o ∧
      o.discard = false ∧ o.waits = .swap) ∧
    (State.reset.rd .controlOwner = 0 ∧ State.reset.alive = true ∧ State.reset.hostClaims hostRq = false ∧
      (received hostRq State.reset).preempted hostRq (fun code => State.reset.scopeHas code .controlOwner 0 0) = false) ∧
    (wIdle.rd .controlOwner = 1 ∧ wIdle.passed wIdle.ctl.heard (wIdle.rd .devMgtHbTimeout * ticksPerMs) = true) ∧
    (10 ≤ (10 : BitVec 16).toNat ∧ State.reset.slotHeld 1 5 = none ∧ State.reset.slotFree = some 0 ∧
      State.reset.evt.subs.length = 4 ∧ State.reset.evt.now = [] ∧ wIdle.slotHeld 1 5 = some 2) ∧
    (∃ x, wIdle.evt.now = [] ∧ (wIdle.evt.subs[2]?).join = some x ∧ wIdle.passed x.since (x.lease * ticksPerSecond) = true) := by
  refine ⟨by decide +kernel, by decide +kernel, ⟨_, rfl, by decide +kernel⟩, ⟨_, rfl, rfl, rfl⟩, by decide +kernel,
    by decide +kernel, by decide +kernel, ⟨_, rfl, rfl, by decide +kernel⟩⟩

/-- What an open service may wait for beside a SWAP: an ARM, a LINE ratio, divider ratios, a context command (R73). -/
def wBegun : State := { wService with
  ctl := { services := [{ rq := hostRq, service := svcWrite, addr := Obj.siteCommand.addr 0, waits := .arm 0 },
    { rq := mgtRq, service := svcWrite, addr := Obj.devLineRatio.addr 0 2, waits := .line 2 }] } }
theorem witness_begun :
    (∃ o, wBegun.ctl.services.find? (fun x => x.rq == hostRq && wBegun.passed x.since (100 * ticksPerMs)) = some o ∧
      o.discard = false ∧ o.waits = .arm 0) ∧
    ∃ o, wBegun.ctl.services.find? (fun x => x.rq == mgtRq && wBegun.passed x.since (100 * ticksPerMs)) = some o ∧
      o.discard = false ∧ o.waits = .line 2 := ⟨⟨_, rfl, rfl, rfl⟩, ⟨_, rfl, rfl, rfl⟩⟩

theorem witness_mgt_arrives : Arrives mgtRq State.reset := ⟨rfl, rfl, rfl, rfl, by decide⟩

/-- Witness of BlockWriteEndsWhole: a last segment that names no object completes nothing. -/
theorem witness_not_completes : ¬ Completes hostRq ⟨0x7FFF, 0⟩ ⟨true, true, 0, 1, [1]⟩ State.reset := by
  rintro ⟨o, u, k, h, -⟩
  exact absurd h (by rw [show (received hostRq State.reset).named ⟨0x7FFF, 0⟩ = .absent .noObject by decide +kernel]; simp)

/-- The management owns control of site 0. -/
def wLockedArm : State := { siteState { st := .ready } [(.controlOwner, 0, 0, 1)] with ctl := { ownerAddr := some 1 } }

/-- Witness of RefusedWrites: an ARM that finds control LOCKED. -/
theorem witness_locked_arm :
    target (Obj.siteCommand.addr 0) = .entry .siteCommand 0 0 ∧
    (received hostRq wLockedArm).frontCheck hostRq.src (Obj.siteCommand.addr 0) (.base .siteCommand 0 0)
      { write := true, block := false, len := 1, v := 1 } = .locked := by decide +kernel

/-- Witness of RefusedWrites: nobody owns control; a port of a closed quadrant; a period below 60 s. -/
theorem witness_refusals :
    (received hostRq State.reset).frontCheck hostRq.src ownerAddr' ((received hostRq State.reset).named ⟨0x2106, 1⟩)
        { write := true, block := false, len := 2, v := 100 } ≠ .ok ∧
    (fronts hostRq (Obj.portMode.addr 40) [2] { own [] with quads := [(1, { power := .off })] } = true ∧
      closedCheck (received hostRq { own [] with quads := [(1, { power := .off })] }) { o := .portMode, u := 40, data := [2] } ≠ .ok) ∧
    (fronts hostRq Obj.devMemScrubPeriod.addr (leBytes 4 59) (own []) = true ∧
      closedCheck (received hostRq (own [])) { o := .devMemScrubPeriod, u := 0, data := leBytes 4 59 } = .ok ∧
      laterChecks (received hostRq (own [])) { o := .devMemScrubPeriod, u := 0, data := leBytes 4 59 } {} ≠ .ok) := by
  decide +kernel

/-! ### Aborts, sites, the device -/

/-- Site 0, of bundle 0, in a state; the configuration is loaded and the host owns control. -/
def ownSite (st : SiteSt) (l : List (Obj × Nat × Nat × Nat) := []) : State :=
  { own ((.siteBundles, 0, 0, 1) :: l) with
    sites := [(0, { st := st })], cfg := { loaded := true }, tb := { state := 1, cfgOnRoot := true }, chans := readyChans }

/-- Witness of AbortRequests, its clauses in turn. -/
theorem witness_aborts :
    (fronts hostRq abortAddr (leBytes 2 0) (ownSite .running) = true ∧ abortRange 0 = .ok ∧
      (ownSite .running).alive = true ∧ (ownSite .running).dev.fault = none ∧ (ownSite .running).dev.aborting = none) ∧
    (fronts hostRq abortAddr (leBytes 2 0x1000) (ownSite .running) = true ∧ abortRange 0x1000 = .ok) ∧
    (fronts hostRq abortAddr (leBytes 2 0x2000) (ownSite .running) = true ∧ abortRange 0x2000 = .ok ∧
      (ownSite .running).siteOf 0 = some 0 ∧ (ownSite .running).siteSt 0 = .running) ∧
    (fronts hostRq abortAddr (leBytes 2 0x100C) (ownSite .running) = true ∧ abortRange 0x100C ≠ .ok) ∧
    fronts hostRq (Obj.siteCommand.addr (0 : SiteNo)) [6] (ownSite .running) = true := by decide +kernel

/-- Witness of SiteCommands, its clauses in turn. -/
theorem witness_site_commands :
    takes hostRq .siteBundles 2 0 6 {} (ownSite .ready) = true ∧
    takes hostRq .siteCommand 0 0 1 {} (ownSite .ready) = true ∧
    (takes hostRq .siteCommand 0 0 2 {} (ownSite .armed) = true ∧ ((ownSite .armed).site 0).startAt = none) ∧
    (takes hostRq .siteCommand 0 0 3 {} (ownSite .running) = true ∧ (ownSite .running).siteSt 0 = .running) ∧
    (takes hostRq .siteCommand 0 0 3 {} (ownSite .paused) = true ∧ takes hostRq .siteCommand 0 0 4 {} (ownSite .running) = true ∧
      takes hostRq .siteCommand 0 0 5 {} (ownSite .ready) = true ∧ (ownSite .ready).siteSt 0 = .ready) ∧
    (takes hostRq .siteCommand 0 0 4 {} (ownSite .paused) = true ∧ (ownSite .paused).siteSt 0 = .paused) ∧
    (takes hostRq .siteCommand 0 0 5 {} (ownSite .armed) = true ∧ (ownSite .armed).siteSt 0 = .armed) ∧
    takes hostRq .devCommand 0 0 1 {} (ownSite .running) = true ∧ takes hostRq .devCommand 0 0 2 {} (ownSite .paused) = true ∧
    takes hostRq .devCommand 0 0 3 { cleared := some true } { ownSite .ready with dev := { fault := some 0x2406 } } = true ∧
    takes hostRq .devCommand 0 0 4 {} (ownSite .ready) = true ∧
    takes hostRq .devCommand 0 0 5 {} (own []) = true := by decide +kernel

/-! ### Front end, pool, measurement, timebase -/

/-- A fade of bundle 0 is in progress. -/
def wFading : State := { own [(.bndMeasConfig, 0, 0, 2)] with bnds := [(0, { meas := { fade := some ⟨1, 8, true⟩ } })] }

/-- Witness of AnalogueWrites, its clauses in turn. -/
theorem witness_analogue :
    takes hostRq .portStatusClear 0 0 1 {} (own []) = true ∧
    takesBlock hostRq .bndPoolCells 0 0 (List.replicate 16 0) (own []) = true ∧
    takes hostRq .bndPoolLink 0 0 (linkWord true (0 : BitVec 6).toNat (2 : Fin 16) (1 : Fin 8)) {} (own []) = true ∧
    takes hostRq .bndPoolLink 0 0 (linkWord false 0 (2 : Fin 16) (1 : Fin 8)) {} (own []) = true ∧
    takesBlock hostRq .bndPoolWave 0 0 (List.replicate 12 0) (own []) = true ∧
    takesBlock hostRq .bndPoolWave 0 16 (List.replicate 12 1) (own []) = true ∧
    takes hostRq .bndMeasConfig 0 0 2 {} (own []) = true ∧
    (takes hostRq .bndMeasControl 0 0 (3 * 2 ^ 16 + bits ((own []).rd .bndMeasControl 0) 0 10) {} (own []) = true ∧
      ((own []).reg .bndMeasControl 0).fld 16 6 ≠ 3) ∧
    takes hostRq .bndMeasControl 0 0 (measControlKept ((own []).rd .bndMeasControl 0) + 2 ^ 12) {} (own []) = true ∧
    (takes hostRq .bndMeasControl 0 0
        (bits ((own []).rd .bndMeasControl 0) 16 6 * 2 ^ 16 + 2 ^ 13 + 2 ^ 9 + (8 : BitVec 9).toNat) {} (own [(.bndMeasConfig, 0, 0, 2)])
        = true ∧
      ((own [(.bndMeasConfig, 0, 0, 2)]).measPreset 0).sinc5 = true ∧ (own [(.bndMeasConfig, 0, 0, 2)]).measScs 0 = false ∧
      ((own []).bnd 0).meas.fade = none ∧ true ≠ ((own []).bnd 0).meas.active ∧
      takes hostRq .bndMeasControl 0 0
        (bits ((own []).rd .bndMeasControl 0) 16 6 * 2 ^ 16 + 2 ^ 13 + 2 ^ 9 + (8 : BitVec 9).toNat) {} wFading = true ∧
      (wFading.bnd 0).meas.fade.isSome = true ∧
      takes hostRq .bndMeasControl 0 0
        (bits ((own []).rd .bndMeasControl 0) 16 6 * 2 ^ 16 + 2 ^ 13 + 2 ^ 9 + (8 : BitVec 9).toNat) {} (own []) = true ∧
      ((own []).measPreset 0).sinc5 = false) ∧
    takesBlock hostRq .bndMeasCoef 0 256 (List.replicate 8 0) (own []) = true := by decide +kernel

/-- A master with DEV_EVENT_TIME 4000 at TIME 0 and Warp-out 2 enabled. -/
def master : State :=
  { own [(.warpRole, 0, 0, 1), (.devEventTime, 0, 0, 4000), (.devWarpOutEn, 0, 0, 4)] with tb := { state := 1 } }

/-- Witness of TimebaseWrites, its clauses in turn. -/
theorem witness_timebase :
    (takes hostRq .warpRole 0 0 1 {} (own []) = true ∧ 1 ≠ (own []).role ∧ takes hostRq .warpRole 0 0 0 {} (own []) = true ∧
      0 = (own []).role) ∧
    takes hostRq .devLineRatio 0 2 (3 + 4 * 2 ^ 16) {} (own []) = true ∧
    takes hostRq .devEventSend 0 0 (1 * 2 ^ 12 + (0 : Byte).toNat) {} master = true ∧
    takes hostRq .devEventSend 0 0 (2 * 2 ^ 12 + (3 : Byte).toNat) {} master = true ∧
    takes hostRq .devEventSend 0 0 (3 * 2 ^ 12 + (255 : Byte).toNat) {} master = true ∧
    takes hostRq .devEventSend 0 0 (5 * 2 ^ 12 + (0 : Byte).toNat) {} master = true ∧
    takes hostRq .devWarpChar 0 0 0x12 {} master = true ∧ master.outsRunning = [2] := by decide +kernel

/-! ### Contexts, lanes, capture, calibration -/

/-- A cycle of port 3 is in Prepare. -/
def wMerging : State := { own [] with bnds := [(0, { cal := { cycle := some { slot := 3, phase := 1, live := true } } })] }

/-- Witness of EngineWrites, its clauses in turn. -/
theorem witness_engines :
    takes hostRq .bndPeCtxCmd 0 0 (ctxCmdWord 2 (3 : BitVec 13).toNat (4093 : CtxNo) 0) {} (ownSite .ready) = true ∧
    (takes hostRq .bndPeCtxCmd 0 0 (ctxCmdWord 1 (2 : BitVec 13).toNat (5 : CtxNo) (8 : BitVec 30).toNat) {} (ownSite .ready) = true ∧
      (ctxCmdRead 1 2 5 8 (received hostRq (ownSite .ready))).1 = .ok) ∧
    takes hostRq .bndInjControl 0 0 1 {} (own []) = true ∧ takes hostRq .bndInjControl 0 0 0 {} (own []) = true ∧
    takes hostRq .bndInjControl 0 0 2 {} (own []) = true ∧
    (takes hostRq .bndCapRead 0 0 0 {} (ownSite .ready) = true ∧ (ownSite .ready).siteOf 0 = some 0 ∧
      ((ownSite .ready).step1 0).wrapMode = false ∧ ((ownSite .ready).ring 0).endDue = none) ∧
    takes hostRq .portSerTxeq 3 0 0 {} (own []) = true ∧
    (takesBlock hostRq .portSerRxeq 3 0 (List.replicate 16 0) (own []) = true ∧ (own []).timeRuns = false ∧
      takesBlock hostRq .portSerRxeq 3 0 (List.replicate 16 0) { own [] with timeRuns := true } = true) ∧
    takes hostRq .portCalRequest 3 0 0 {} (own []) = true ∧
    (takes hostRq .portCalRequest 3 0 1 {} (own []) = true ∧ takes hostRq .portCalRequest 3 0 2 {} (own []) = true ∧
      (own []).merges 3 = none ∧ (own []).retired 3 = false ∧ takes hostRq .portCalRequest 3 0 1 {} wMerging = true ∧
      takes hostRq .portCalRequest 3 0 2 {} wMerging = true ∧
      wMerging.merges 3 = some { slot := 3, phase := 1, live := true } ∧ wMerging.retired 3 = false) ∧
    takes hostRq .bndCalCommand 0 0 (2 ^ 12 + (3 : Fin 16).val) {} { own [] with ports := [(3, { cal := { substituted := true } })] }
      = true := by decide +kernel

/-! ### Fabric, loader, keys -/

def traced : State := { own [] with quads := [(1, { trace := { ctl := 0x1234 * 2 ^ 48, armed := true, taken := 3 } })] }

/-- Witness of FabricWrites, its clauses in turn. -/
theorem witness_fabric :
    takes hostRq .qdClkDiv 1 0 0x0100000200010003 {} (own []) = true ∧ takes hostRq .qdClkSel 1 0 0x3610 {} (own []) = true ∧
    (takes hostRq .qdReset 1 0 4 {} (own []) = true ∧ (4 : Byte).getLsbD 2 = true) ∧
    takesBlock hostRq .qdProbeSel 1 0 (List.replicate 4 0) (own []) = true ∧
    takes hostRq .qdTraceCtl 1 0 (traceCtl - traceCommand traceCtl + 1) {} (own []) = true ∧
    (takes hostRq .qdTraceCtl 1 0 (traceCtl - traceCommand traceCtl + 2) {} traced = true ∧
      (traced.quad 1).trace.armed = true ∧ (traced.quad 1).trace.triggered = false ∧ traceSrc (traced.quad 1).trace.ctl = 0) ∧
    takes hostRq .qdTraceCtl 1 0 (traceCtl - traceCommand traceCtl + 3) {} traced = true ∧
    takes hostRq .devCfgCommand 0 0 1 {} (ownSite .ready) = true ∧
    takes hostRq .qdPrCommand 1 0 (2 ^ 4 + 2) {} (ownSite .ready) = true ∧
    takesBlock hostRq .devKeyRam 0 0 (List.replicate 32 1) (own []) = true ∧
    takes hostRq .devKeyRamClear 0 0 1 {} (own []) = true := by decide +kernel

def fullReceive : Load := { kind := .full, phase := .receive }
def receiving (l : Load) : State := { own [] with cfg := { load := some l } }

def syncWord : List Byte := [0x5B, 0x0E, 0xC3, 0x96]

/-- A packet of one word (R420). -/
def packet (reg w : Nat) : List Byte :=
  let head := [BitVec.ofNat 8 1, 0, BitVec.ofNat 8 (16 * reg)]
  [crc8 head] ++ head ++ leBytes 4 w

/-- What the parser makes of a chunk. -/
def feed (l : Load) (chunk : List Byte) : Fed :=
  streamRun l.kind (receiving l).keys (l.parse.buf.length + chunk.length + l.parse.body.length + 2)
    { parse := { l.parse with buf := l.parse.buf ++ chunk } }

/-- A plain stream, in its body: of a full load, and of region 2 of quadrant 1. -/
def inBody (k : LoadKind) : Load := { kind := k, phase := .receive, parse := { synced := true, inBody := true, keySel := some 0 } }

/-- Witness of FabricWrites: the sync word is taken in; another word is an error; START_UPSETT begins the upsett of a partial
load, and of a full load whose frames are not all there it is an error. -/
theorem witness_chunk :
    (takesBlock hostRq .devCfgStream 0 0 syncWord (receiving fullReceive) = true ∧
      (receiving fullReceive).cfg.load = some fullReceive ∧ (feed fullReceive syncWord).err = none ∧
      (feed fullReceive syncWord).start = false) ∧
    (takesBlock hostRq .devCfgStream 0 0 [1, 2, 3, 4] (receiving fullReceive) = true ∧
      (feed fullReceive [1, 2, 3, 4]).err = some (1, 0)) ∧
    (takesBlock hostRq .qdPrStream 1 0 (packet 0xD 0xA5E1) (receiving (inBody (.part 1 2))) = true ∧
      (feed (inBody (.part 1 2)) (packet 0xD 0xA5E1)).err = none ∧ (feed (inBody (.part 1 2)) (packet 0xD 0xA5E1)).start = true) ∧
    (takesBlock hostRq .devCfgStream 0 0 (packet 0xD 0xA5E1) (receiving (inBody .full)) = true ∧
      (feed (inBody .full) (packet 0xD 0xA5E1)).err = none ∧ (feed (inBody .full) (packet 0xD 0xA5E1)).start = true ∧
      (feed (inBody .full) (packet 0xD 0xA5E1)).wrote = []) := by decide +kernel

/-! ### NoC, memory, log, power, injection -/

def chanIs (c : Chan) : State := { own [] with chans := [(2, c)] }
def railsDown : State := { withRegs [(.controlOwner, 0, 0, 1)] with rim := { seq := .off }, ctl := { ownerAddr := some 1 } }
def quadIs (p : QuadPower) : State := { own [] with quads := [(1, { power := p })] }

/-- Witness of SystemWrites, its clauses in turn. -/
theorem witness_system :
    takesBlock hostRq .devNocShadow 0 64 (List.replicate 4 0) (own []) = true ∧
    takes hostRq .devNocSwap 0 0 1 {} (own []) = true ∧ takes hostRq .devNocSwap 0 0 2 {} (own []) = true ∧
    takesBlock hostRq .devMemRegions 0 16 (List.replicate 16 0) (own []) = true ∧
    takes hostRq .devMemCmd 0 0 (1 * 2 ^ 12 + (2 : Fin 16).val * 2 ^ 8 + (31 : Fin 32).val) {} (chanIs { st := .ready }) = true ∧
    takes hostRq .devMemCmd 0 0 (2 * 2 ^ 12 + (2 : Fin 16).val * 2 ^ 8 + 0) {} (chanIs { st := .erasure }) = true ∧
    takes hostRq .devMemCmd 0 0 (3 * 2 ^ 12 + (2 : Fin 16).val * 2 ^ 8 + 0) {} (chanIs { st := .isolated }) = true ∧
    takes hostRq .devMemCmd 0 0 (4 * 2 ^ 12 + (2 : Fin 16).val * 2 ^ 8 + 0) {} (chanIs { st := .ready }) = true ∧
    (takes hostRq .devLogClear 0 0 1 {} (own []) = true ∧ (own []).evt.now = []) ∧
    (takes mgtRq .devPwrCommand 0 0 1 {} railsDown = true ∧ railsDown.rim.seq = .off ∧
      takes hostRq .devPwrCommand 0 0 1 {} (own []) = true) ∧
    (takes hostRq .devPwrCommand 0 0 2 {} (own []) = true ∧ (own []).rim.seq = .on ∧ (own []).anySite SiteSt.active = false ∧
      takes hostRq .devPwrCommand 0 0 2 {} (ownSite .running) = true ∧ (ownSite .running).rim.seq = .on ∧
      (ownSite .running).siteSt 0 = .running ∧ (ownSite .running).dev.fault = none ∧ (ownSite .running).dev.aborting = none ∧
      takes mgtRq .devPwrCommand 0 0 2 {} { railsDown with rim := { seq := .step 3 } } = true) ∧
    takes hostRq .qdPwrCommand 1 0 1 {} (quadIs .on) = true ∧ takes hostRq .qdPwrCommand 1 0 2 {} (quadIs .off) = true ∧
    takes hostRq .devIjUnlock 0 0 0xA5 {} { own [] with ij := { first := true } } = true ∧
    takes hostRq .devIjControl 0 0 1 {} { own [(.devIjTarget, 0, 0, 8), (.devIjCount, 0, 0, 1)] with ij := { state := 1 } } = true ∧
    takes hostRq .devIjControl 0 0 2 {} { own [] with ij := { state := 2, left := 1 } } = true := by decide +kernel

theorem witness_power_arrives : Arrives mgtRq railsDown := ⟨rfl, rfl, rfl, rfl, by decide⟩

/-- The default table passes its check; one whose router 0 sends what is for endpoint 1 to a code that is none does not. -/
def badTable : State := { own [] with noc := { tableB := [(1, 0xFF)] } }
theorem witness_noc_checks :
    (own []).noc.check (!(own []).noc.epoch) = none ∧
    takes hostRq .devNocSwap 0 0 1 {} badTable = true ∧
    (badTable.noc.check (!badTable.noc.epoch)).any (fun e => decide (e.1 < 256) && decide (e.2.1 < 256) && decide (e.2.2 < 256))
      = true := by decide +kernel

/-- A LOAD image whose first granule is all ones is refused. -/
def badImage : State := { ownSite .ready with mem := (upto 64).map (fun k => (512 + k, 0xFF)) }
theorem witness_bad_image :
    takes hostRq .bndPeCtxCmd 0 0 (ctxCmdWord 1 (2 : BitVec 13).toNat (5 : CtxNo) (8 : BitVec 30).toNat) {} badImage = true ∧
    (ctxCmdRead 1 2 5 8 (received hostRq badImage)).1 ≠ .ok := by decide +kernel

theorem witness_requests_quiet : ChansQuiet (own []) ∧ ChansQuiet (staging 64) ∧ Healthy (ownSite .ready) ∧ Healthy badImage :=
  ⟨quiet_of_checks (by decide), quiet_of_checks (by decide), ⟨quiet_of_checks (by decide), fun _ => rfl⟩,
   ⟨quiet_of_checks (by decide), fun _ => rfl⟩⟩

/-- Witness of ReadsAreServed: a BOOL and a DOM entry, and what the Rim serves while the rails are off. -/
theorem witness_reads_served :
    (target (Obj.devHoldoverAbort.addr 0) = .entry .devHoldoverAbort 0 0 ∧ Obj.devHoldoverAbort.row.acc ≠ .wo ∧
      Obj.devHoldoverAbort.row.type ≠ .dom ∧ Obj.devHoldoverAbort.row.size ≤ 3 ∧ State.reset.alive = true) ∧
    (target (Obj.portTset.addr 107) = .entry .portTset 107 0 ∧ Obj.portTset.row.acc ≠ .wo ∧ Obj.portTset.row.type = .dom ∧
      0 + 512 ≤ Obj.portTset.row.size) ∧
    (target (Obj.devPwrSeqState.addr 0) = .entry .devPwrSeqState 0 0 ∧ railsDown.alive = false ∧
      rimServes (Obj.devPwrSeqState.addr 0) false = true ∧ railsDown.ij.txDrop = 0) := by decide +kernel

/-! ## The worked examples of spec/ -/

/-- 00_scope.md: PB of P61 and P103, BB of BN7, QB of Q2, SB of S3; the pin-switch enable of P61 is at 0x4F40:05 (R16). -/
theorem test_block_bases :
    (Obj.portEnPinsw.addr 61) = ⟨0x4F40, 5⟩ ∧ (Obj.portEnPinsw.addr 103) = ⟨0x59C0, 5⟩ ∧
    (Obj.bndPoolCells.addr 7).index = 0x35C8 ∧ (Obj.qdClkDiv.addr 2).index = 0x3200 ∧ (Obj.siteCommand.addr 3).index = 0x2A32 ∧
    target ⟨0x4F40, 5⟩ = .entry .portEnPinsw 61 0 := by decide +kernel

/-- 02_object_dictionary.md: S5 is READY and the host writes its step base and count. -/
def siteS5 : State := { own [(.siteBundles, 5, 0, 1)] with sites := [(5, { st := .ready })] }
def replyCode (s : State) : List Nat := s.out.filterMap (fun m => match m with | .reply _ _ _ _ _ _ c _ _ => some c | _ => none)

theorem test_step_base_staged :
    let t := after (.stagedWrite hostRq ⟨0x2A53, 1⟩ (leBytes 8 0x1000000000)) siteS5
    replyCode t = [0] ∧ t.ctl.staged = [(Obj.siteStepBase.key 5, some (Word.of 0x1000000000))] ∧ t.rd .siteStepBase 5 = 0 := by
  decide +kernel
theorem test_step_count_range : replyCode (after (.stagedWrite hostRq ⟨0x2A53, 2⟩ (leBytes 2 300)) siteS5) = [6] := by decide +kernel
theorem test_step_count_length_zero : replyCode (after (.write hostRq ⟨0x2A53, 2⟩ []) siteS5) = [0x0A] := by decide +kernel
theorem test_step_count_length_over : replyCode (after (.write hostRq ⟨0x2A53, 2⟩ (leBytes 4 40)) siteS5) = [0x0B] := by
  decide +kernel
theorem test_owner_locked :
    replyCode (after (.controlOwnerWrite mgtRq 1) siteS5) = [8] ∧
    (after (.controlOwnerWrite mgtRq 1) siteS5).rd .controlOwner = 2 := by decide +kernel

/-- 05_analogue_pool_and_measurement.md: the words of the links of WD0 (cell 0xA) and FD0 (cell 6) to the bus (node 9), and
the sine registers of WD0. -/
theorem test_link_words :
    linkWord true 9 0xA 0 = 0x01000A09 ∧ linkWord true 9 6 0 = 0x01000609 ∧
    (waveRegs [0x2A, 0x0D, 0x39, 0xF7, 0xD9, 0x05, 0, 0, 0x66, 0x66, 0, 0, 1, 0, 0, 0]).ftw = 0x05D9F7390D2A ∧
    (waveRegs [0x2A, 0x0D, 0x39, 0xF7, 0xD9, 0x05, 0, 0, 0x66, 0x66, 0, 0, 1, 0, 0, 0]).ampl = 0x6666 := by decide +kernel

/-- FD0 (cell 6) and WD0 (cell 0xA) of BN3 are configured with words 0x0000000100000001 and 0x101, and WD0 is the bus
source: the link of FD0 to the bus is refused with INTERLOCK and counted. -/
def busLinked : State :=
  after (.poolLinkClose hostRq 3 9 0xA 0) { own [] with dict := { (own []).dict with
    doms := [(2 ^ 24 * Obj.bndPoolCells.key 3 0 + 96, 1), (2 ^ 24 * Obj.bndPoolCells.key 3 0 + 100, 1)]
      ++ [(2 ^ 24 * Obj.bndPoolCells.key 3 0 + 160, 1), (2 ^ 24 * Obj.bndPoolCells.key 3 0 + 161, 1)] } }
theorem test_bus_interlock :
    replyCode busLinked = [0] ∧ replyCode (after (.poolLinkClose hostRq 3 9 6 0) busLinked) = [0x0D] := by decide +kernel

/-- 07_edge_timing.md: entry 0 of P40 and entry 1 of P41. -/
theorem test_timing_entries :
    tsetOf (leBytes 4 0xA000 ++ leBytes 4 0x80000000 ++ leBytes 4 0x80005000 ++ leBytes 16 0 ++ leBytes 4 2)
      = ⟨40960, some 0, some 20480, none, none, none, none, 0, 2⟩ ∧
    tsetOf (leBytes 4 0x14000 ++ leBytes 4 0x80002CCD ++ leBytes 12 0 ++ leBytes 4 0x8000F666 ++ leBytes 4 0 ++ leBytes 4 0x11)
      = ⟨81920, some 11469, none, none, none, some 63078, none, 1, 1⟩ := by decide +kernel

/-- 09_pattern_engine.md: the LOAD word, and the image of context 9.5. -/
theorem test_load_word : ctxCmdWord 1 16 0 (0xA00010000 / 64) = 0x4020000028000400 := by decide
theorem test_image :
    let c := contextOf (leBytes 8 0x0000000500FFFF0F ++ leBytes 24 0 ++ leBytes 8 0x003F000000000000 ++ leBytes 4 5 ++ leBytes 20 0)
    c.bank = 5 ∧ c.xMax = 65535 ∧ c.bankMax = 15 ∧ c.yMax = 63 ∧ c.ckptPtr = 5 := by decide +kernel

/-- 19_faults_and_diagnostics.md: the RESTORE word. -/
theorem test_restore_word : ctxCmdWord 3 8 100 (0x800000000 / 64) = 0xC0100C8020000000 := by decide

/-- 11_capture.md: record 41, a read-fail record of DQ2. -/
theorem test_record :
    ({ time := 6250000, sub := 3200, cid := 5, x := 0x1234, y := 7, bank := 13, ports := 0x420, act0 := 0x400, pos := 3,
       step := 1, type := 3 } : Record).bytes 41
      = [0x10, 0x5E, 0x5F, 0, 0, 0, 0, 0, 0x80, 0x0C, 5, 0, 0x34, 0x12, 0, 7, 0, 0x0D, 0x20, 4, 0, 0, 0, 4, 0, 0, 3, 0, 0x13, 0,
         41, 0] := by decide +kernel

/-- 13_fabric.md: the trace word, and QD_CLK_DIV of Q1, which bundle 4 of an ARMED site S3 refuses with STATE (R29). -/
theorem test_trace_word :
    traceSrc 0x20009001 = 2 ∧ traceBundle 0x20009001 = 1 ∧ tracePost 0x20009001 = 1024 ∧ traceCommand 0x20009001 = 1 := by decide
def siteS3 (st : SiteSt) : State := { own [(.siteBundles, 3, 0, 16)] with sites := [(3, { st := st })] }
theorem test_clk_div_armed : replyCode (after (.clkDivWrite hostRq 1 0x0100000400070002) (siteS3 .armed)) = [7] := by decide +kernel
theorem test_clk_div_ready :
    ((after (.clkDivWrite hostRq 1 0x0100000400070002) (siteS3 .ready)).quad 1).divNext = some 0x0100000400070002 := by decide +kernel

/-- 16_memory.md: with 32 Gbit devices, byte address 23,906,490,912 is of M7 and of group 3,906,250 of Q2. -/
def board32 : State := { State.reset with fuses := { State.reset.fuses with density := (upto 12).map (fun c => (c, 2)) } }
theorem test_channel :
    3 * board32.memU = 11453245440 ∧ board32.chanOf 23906490912 = 7 ∧ board32.quadGroup 23906490912 = 3906250 := by decide +kernel

/-- 16_memory.md: 0x2800 isolates M8. -/
theorem test_isolate_word : 2 * 2 ^ 12 + 8 * 2 ^ 8 + 0 = 0x2800 ∧
    ((after (.isolate hostRq 8) { own [] with chans := readyChans }).chan 8).st = .isolated := by decide +kernel

/-- 18_power_package.md: the end of step 0 raises PWR_EN1; Release ends in DORMANT with 0x2100:08 at 20,500. -/
theorem test_power_step : (after .powerUpStep (seqState (.step 0) 1)).rim.en = 3 := by decide +kernel
def released : State := { seqState .release 0xFF with elapsed := 20500 * ticksPerUs }
theorem test_power_release :
    (after (.powerRelease ()) released).devState = 1 ∧
    (after (.powerRelease ()) released).rd .devPwrSeqTime = 20500 := by decide +kernel

/-- The published check value of CRC-32C, of polynomial 0x1EDC6F41 (R417). -/
theorem test_crc32c : crc32c [0x31, 0x32, 0x33, 0x34, 0x35, 0x36, 0x37, 0x38, 0x39] = 0xE3069283 := by decide +kernel


/-- 04_port_front_end.md: the levels of P13, and the PMU word that forces −100 µA with clamps at 0.8 V and −1.3 V. -/
theorem test_levels :
    levelVolts 0x3CE40 = 33 / 10 ∧ levelVolts 0x1900 = 2 / 5 ∧ levelVolts 0x39600 = 12 / 5 ∧ levelVolts 0x6720 = 33 / 20 := by
  decide +kernel
theorem test_pmu_word :
    let s := withRegs [(.portFeConfig, 13, 0, 0x0001288C002B0000)]
    s.pmuAmps 13 13 = -1 / 10000 ∧ s.pmuClamps 13 = (-13 / 10, 4 / 5) := by decide +kernel

/-- 05_analogue_pool_and_measurement.md: FD0 at 1.25 V, its expected CODE, and the sine's peak. -/
def forceDac : Store Byte := Store.puts 0 (2 ^ 24 * Obj.bndPoolCells.key 3 0 + 96) (leBytes 8 0x0000000100000001) []
theorem test_force_dac :
    ({ State.reset with dict := { doms := forceDac } } : State).cellVolts 3 6 (fun _ => none) (fun _ => 0) = 5 / 4 ∧ measCode (5 / 4) = 0x200000 := by decide +kernel
theorem test_sine_peak :
    ddsSample (0x3FFF * 2 ^ 32) (waveRegs [0x2A, 0x0D, 0x39, 0xF7, 0xD9, 0x05, 0, 0, 0x66, 0x66, 0, 0, 0, 0, 0, 0]) = 26214 := by
  decide +kernel

/-- 08_serial_lanes.md: T_sym at P/Q = 32/35, and MAIN of the taps −6 and −14. -/
theorem test_symbol_time :
    (withRegs [(.devLineRatio, 0, 6, 0x230020)]).symbolTime 6 = 1120 ∧ txWord [0, -6, -14, 0] = 0xF2FA006C := by
  decide +kernel

/-- FIPS 197, appendix C.3: AES-256 of one block. -/
theorem test_aes :
    aesBlock (roundKeys (leBytes 32 0x1f1e1d1c1b1a191817161514131211100f0e0d0c0b0a09080706050403020100))
      (leBytes 16 0xffeeddccbbaa99887766554433221100)
    = leBytes 16 0x8960494b9049fceabf456751cab7a28e := by decide +kernel

end Sys2Proof.Tests
end

section
/-! GDDR7 under every operation that stores nothing in it. What GDDR7 stores is read off as one value, `State.memory`; each
operation of the model that does not write GDDR7 has one `simp` lemma saying so, in the order of the model's parts, so
that a proof about any composition of them never unfolds one (R466, R467). -/
namespace Sys2Proof.Machine

/-- What GDDR7 stores: the bytes, and the differences of the check bytes. -/
def State.memory (s : State) : Store Byte × Store (BitVec 32) := (s.mem, s.memChk)

end Sys2Proof.Machine

namespace Sys2Proof.Laws
open Sys2Proof.Machine

/-! ### The combinators -/

@[simp] theorem memory_eta (s : State) : (s.mem, s.memChk) = s.memory := (rfl)
@[simp] theorem memory_mk (a1 a2 a3 a4 a5 a6 a7 a8 a9 a10 a11 a12 a13 a14 a15 a16 a17 a18 a19 a20 a21 a22 a23 m c a24 a25 a26) :
    (State.mk a1 a2 a3 a4 a5 a6 a7 a8 a9 a10 a11 a12 a13 a14 a15 a16 a17 a18 a19 a20 a21 a22 a23 m c a24 a25 a26).memory = (m, c) := (rfl)
@[simp] theorem ite_memory (c : Prop) [Decidable c] (s t : State) :
    (if c then s else t).memory = if c then s.memory else t.memory := by split <;> rfl
@[simp] theorem ite_snd_memory {α : Type} (c : Prop) [Decidable c] (x y : α × State) :
    (if c then x else y).2.memory = if c then x.2.memory else y.2.memory := by split <;> rfl
@[simp] theorem onlyIf_memory (s : State) (c : Bool) (f : State → State) (h : (f s).memory = s.memory) :
    (s.onlyIf c f).memory = s.memory := by cases c <;> simp [State.onlyIf, h]
@[simp] theorem each_memory (s : State) (l : List Nat) (f : Nat → State → State)
    (h : ∀ i t, (f i t).memory = t.memory) : (s.each l f).memory = s.memory := each_same State.memory l f h s
@[simp] theorem foldl_memory {α : Type} (l : List α) (f : State → α → State) (s : State)
    (h : ∀ t x, (f t x).memory = t.memory) : (l.foldl f s).memory = s.memory := by
  induction l generalizing s with
  | nil => rfl
  | cons x l ih => exact (ih _).trans (h s x)
@[simp] theorem foldl_snd_memory {α β : Type} (l : List α) (f : β × State → α → β × State) (e : β × State)
    (h : ∀ e x, (f e x).2.memory = e.2.memory) : (l.foldl f e).2.memory = e.2.memory := by
  induction l generalizing e with
  | nil => rfl
  | cons x l ih => exact (ih _).trans (h e x)
@[simp] theorem keepFixed_memory (s t : State) : (s.keepFixed t).memory = t.memory := (rfl)
@[simp] theorem deliver_memory (s : State) : s.deliver.memory = s.memory :=
  Prod.ext (deliver_mem s) (deliver_memChk s)

/-! ### Ops -/

@[simp] theorem setReg_memory (s : State) (o : Obj) (v : Word) (u k : Nat) :
    (s.setReg o v u k).memory = s.memory := (rfl)
@[simp] theorem wr_memory (s : State) (o : Obj) (v u k : Nat) : (s.wr o v u k).memory = s.memory := (rfl)
@[simp] theorem bump_memory (s : State) (o : Obj) (u k by' : Nat) : (s.bump o u k by').memory = s.memory := (rfl)
@[simp] theorem setDom_memory (s : State) (o : Obj) (u k off : Nat) (bytes : List Byte) :
    (s.setDom o u k off bytes).memory = s.memory := (rfl)
@[simp] theorem setSite_memory (s : State) (i : Nat) (f : Site → Site) : (s.setSite i f).memory = s.memory := (rfl)
@[simp] theorem setBnd_memory (s : State) (b : Nat) (f : Bundle → Bundle) : (s.setBnd b f).memory = s.memory := (rfl)
@[simp] theorem setPort_memory (s : State) (p : Nat) (f : Port → Port) : (s.setPort p f).memory = s.memory := (rfl)
@[simp] theorem setCtx_memory (s : State) (c : Nat) (f : Context → Context) : (s.setCtx c f).memory = s.memory := (rfl)
@[simp] theorem setQuad_memory (s : State) (q : Nat) (f : Quad → Quad) : (s.setQuad q f).memory = s.memory := (rfl)
@[simp] theorem setChan_memory (s : State) (m : Nat) (f : Chan → Chan) : (s.setChan m f).memory = s.memory := (rfl)
@[simp] theorem setSlot_memory (s : State) (i : Nat) (f : Slot → Slot) : (s.setSlot i f).memory = s.memory := (rfl)
@[simp] theorem setQueue_memory (s : State) (i : Nat) (f : Queue → Queue) : (s.setQueue i f).memory = s.memory := (rfl)
@[simp] theorem free_memory (s : State) (n : Nat) : (s.free n).2.memory = s.memory := (rfl)
@[simp] theorem send_memory (s : State) (m : Msg) : (s.send m).memory = s.memory := (rfl)
@[simp] theorem msix_memory (s : State) (v : Nat) : (s.msix v).memory = s.memory := by simp [State.msix]
@[simp] theorem transmit_memory (s : State) (msgs : List Msg) : (s.transmit msgs).memory = s.memory := (rfl)
@[simp] theorem replyAll_memory (s : State) (rq : Rq) (service : Nat) (a : Addr) (frames : List (Status × Option (Nat
    × Nat) × List Byte)) :
    (s.replyAll rq service a frames).memory = s.memory := by
  unfold State.replyAll
  split <;> simp
@[simp] theorem reply_memory (s : State) (rq : Rq) (service : Nat) (a : Addr) (st : Status) (data : List Byte) (blk :
    Option (Nat × Nat)) :
    (s.reply rq service a st data blk).memory = s.memory := by simp [State.reply]
@[simp] theorem openService_memory (s : State) (rq : Rq) (service : Nat) (a : Addr) (w : Waits) :
    (s.openService rq service a w).memory = s.memory := (rfl)
@[simp] theorem answer_memory (s : State) (o : OpenService) (st : Status) : (s.answer o st).memory = s.memory := by
  simp [State.answer]
@[simp] theorem complete_memory (s : State) (w : Waits) (st : Status) : (s.complete w st).memory = s.memory := by
  simp [State.complete]
@[simp] theorem raise_memory (s : State) (code kind unit arg0 arg1 : Nat) (ext : List Byte) (rim : Bool) :
    (s.raise code kind unit arg0 arg1 ext rim).memory = s.memory := (rfl)
@[simp] theorem setSub_memory (s : State) (i : Nat) (p : Option Subscription) :
    (s.setSub i p).memory = s.memory := (rfl)

/-! ### FrontEnd -/

@[simp] theorem feEffect_memory (o : Obj) (p v : Nat) (s : State) : (feEffect o p v s).memory = s.memory := by
  simp [feEffect]
@[simp] theorem clearEnables_memory (s : State) (p : Nat) : (s.clearEnables p).memory = s.memory := by
  simp [State.clearEnables]
@[simp] theorem clearSticky_memory (p : Nat) (s : State) : (clearSticky p s).memory = s.memory := (rfl)

/-! ### Cells -/

@[simp] theorem setTree_memory (s : State) (q r : Nat) (f : Tree → Tree) : (s.setTree q r f).memory = s.memory := (rfl)
@[simp] theorem setRegion_memory (s : State) (q r : Nat) (f : Region → Region) :
    (s.setRegion q r f).memory = s.memory := (rfl)
@[simp] theorem countQueue_memory (s : State) (q m k : Nat) (hit : Bool) :
    (s.countQueue q m k hit).memory = s.memory := by simp [State.countQueue]
@[simp] theorem setCtl_memory (s : State) (q m : Nat) (f : QueueCtl → QueueCtl) :
    (s.setCtl q m f).memory = s.memory := (rfl)
@[simp] theorem queueRead_memory (s : State) (q m : Nat) (upper : Bool) (d : BitVec 288) :
    (s.queueRead q m upper d).memory = s.memory := by simp [State.queueRead]
@[simp] theorem pairTick_memory (old : State) (q m : Nat) (upper : Bool) (s : State) :
    (State.pairTick old q m upper s).memory = s.memory := by simp [State.pairTick]
@[simp] theorem flagLag_memory (s : State) : s.flagLag.2.memory = s.memory := (rfl)
@[simp] theorem fifoWrite_memory (old : State) (q m : Nat) (s : State) :
    (State.fifoWrite old q m s).memory = s.memory := by simp [State.fifoWrite]
@[simp] theorem fifoRead_memory (old : State) (q m : Nat) (s : State) :
    (State.fifoRead old q m s).memory = s.memory := by simp [State.fifoRead]
@[simp] theorem queueTick_memory (old : State) (q m : Nat) (s : State) :
    (State.queueTick old q m s).memory = s.memory := by simp [State.queueTick]
@[simp] theorem setOsc_memory (s : State) (b wd : Nat) (f : WaveOsc → WaveOsc) :
    (s.setOsc b wd f).memory = s.memory := (rfl)
@[simp] theorem waveWrite_memory (old : State) (b wd : Nat) (s : State) :
    (State.waveWrite old b wd s).memory = s.memory := by simp [State.waveWrite]
@[simp] theorem designTick_memory (old : State) (q : Nat) (s : State) :
    (State.designTick old q s).memory = s.memory := by simp [State.designTick]
@[simp] theorem treeEdge_memory (s : State) (q r : Nat) : (s.treeEdge q r).memory = s.memory := by simp [State.treeEdge]
@[simp] theorem fabricTick_memory (old s : State) : (State.fabricTick old s).memory = s.memory := by
  simp [State.fabricTick]
@[simp] theorem freshRegion_memory (s : State) (q r : Nat) : (s.freshRegion q r).memory = s.memory := (rfl)

/-! ### Pool -/

@[simp] theorem waveEdge_memory (s : State) (b wd t : Nat) : (s.waveEdge b wd t).memory = s.memory := by
  simp [State.waveEdge]
@[simp] theorem clearAcc_memory (s : State) (b wd t : Nat) : (s.clearAcc b wd t).memory = s.memory := (rfl)
@[simp] theorem poolWaveEffect_memory (b off : Nat) (data : List Byte) (s : State) :
    (poolWaveEffect b off data s).memory = s.memory := by simp [poolWaveEffect]
@[simp] theorem poolCellsEffect_memory (b off : Nat) (data : List Byte) (s : State) :
    (poolCellsEffect b off data s).memory = s.memory := (rfl)
@[simp] theorem poolLinkEffect_memory (b v : Nat) (s : State) : (poolLinkEffect b v s).memory = s.memory := (rfl)
@[simp] theorem countInterlock_memory (b : Nat) (s : State) : (countInterlock b s).memory = s.memory := (rfl)
@[simp] theorem openPortLinks_memory (s : State) (p : Nat) : (s.openPortLinks p).memory = s.memory := (rfl)
@[simp] theorem syncReset_memory (s : State) (b edge : Nat) : (s.syncReset b edge).memory = s.memory := (rfl)
@[simp] theorem measSwap_memory (s : State) (b : Nat) (target : Bool) (len : Nat) (afterReset : Bool) :
    (s.measSwap b target len afterReset).memory = s.memory := (rfl)
@[simp] theorem measConfigEffect_memory (b v : Nat) (s : State) : (measConfigEffect b v s).memory = s.memory := (rfl)
@[simp] theorem measControlEffect_memory (b v : Nat) (s : State) : (measControlEffect b v s).memory = s.memory := by
  simp [measControlEffect]
@[simp] theorem measCoefEffect_memory (b off : Nat) (data : List Byte) (s : State) :
    (measCoefEffect b off data s).memory = s.memory := (rfl)
@[simp] theorem measRecord_memory (s : State) (b : Nat) (valid outside bank fading : Bool) (code : Int) :
    (s.measRecord b valid outside bank fading code).memory = s.memory := by simp [State.measRecord]
@[simp] theorem measAdvance_memory (s : State) (b : Nat) : (s.measAdvance b).memory = s.memory := by
  unfold State.measAdvance
  dsimp only
  (repeat' split) <;> simp
@[simp] theorem measOutputEffect_memory (b : Nat) (s : State) : (measOutputEffect b s).memory = s.memory := by
  unfold measOutputEffect
  split <;> simp
@[simp] theorem syncUnits_memory (s : State) (t : Nat) : (s.syncUnits t).memory = s.memory := by simp [State.syncUnits]

/-! ### Analogue -/

@[simp] theorem modEdge_memory (s : State) (b : Nat) : (s.modEdge b).memory = s.memory := by simp [State.modEdge]
@[simp] theorem bundleTick_memory (s : State) (b : Nat) : (s.bundleTick b).memory = s.memory := by
  simp [State.bundleTick]
@[simp] theorem analogueTick_memory (s : State) : s.analogueTick.memory = s.memory := by simp [State.analogueTick]

/-! ### EdgeTiming -/

@[simp] theorem addDrives_memory (s : State) (p : Nat) (l : List DriveEvent) :
    (s.addDrives p l).memory = s.memory := (rfl)
@[simp] theorem formatMapped_memory (s : State) (p tsetNo : Nat) (c : CycleCode) (start : Nat) :
    (s.formatMapped p tsetNo c start).memory = s.memory := (rfl)
@[simp] theorem formatParked_memory (s : State) (p start : Nat) : (s.formatParked p start).memory = s.memory := (rfl)
@[simp] theorem cycleCompletes_memory (s : State) (p tsetNo : Nat) (parked : Bool) (stop : Nat) :
    (s.cycleCompletes p tsetNo parked stop).memory = s.memory := (rfl)
@[simp] theorem stateAt_memory (s : State) (p format t : Nat) (dut : Option PinDrive) :
    (s.stateAt p format t dut).2.memory = s.memory := by
  unfold State.stateAt
  split <;> simp

/-! ### Gddr -/

@[simp] theorem countDecoded_memory (s : State) (g : Nat) (d : Decoded) : (s.countDecoded g d).memory = s.memory := by
  simp [State.countDecoded]
@[simp] theorem readGranule_memory (s : State) (g : Nat) (ups : List Upset) :
    (s.readGranule g ups).2.memory = s.memory := by
  unfold State.readGranule
  split <;> simp
@[simp] theorem readGranules_memory (s : State) (g : Nat) (ups : List Upset) (n : Nat) :
    (s.readGranules g ups n).2.memory = s.memory := by
  induction n generalizing s g with
  | zero => rfl
  | succ n ih => simp [State.readGranules, ih]
@[simp] theorem protectedWrite_memory (s : State) (src a : Nat) : (s.protectedWrite src a).memory = s.memory := (rfl)

/-! ### Ring -/

@[simp] theorem setRun_memory (s : State) (i : Nat) (f : Run → Run) : (s.setRun i f).memory = s.memory := (rfl)
@[simp] theorem setRing_memory_same (s : State) (i : Nat) (f : Ring → Ring) : (s.setRing i f).memory = s.memory := (rfl)
@[simp] theorem setCap_memory (s : State) (b : Nat) (f : Capture → Capture) : (s.setCap b f).memory = s.memory := (rfl)
@[simp] theorem capture_memory (s : State) (i b : Nat) (r : Record) : (s.capture i b r).memory = s.memory := by
  simp [State.capture]
@[simp] theorem ringPut_memory (s : State) (i : Nat) (r : Record) : (s.ringPut i r).memory = s.memory := (rfl)
@[simp] theorem ringTake_memory (s : State) (i : Nat) (r : Record) : (s.ringTake i r).memory = s.memory := by
  simp [State.ringTake]
@[simp] theorem ringEnd_memory (s : State) (i : Nat) : (s.ringEnd i).memory = s.memory := by
  unfold State.ringEnd
  split <;> simp
@[simp] theorem drainFifos_memory (s : State) (i : Nat) : (s.drainFifos i).memory = s.memory := by
  simp [State.drainFifos]
@[simp] theorem setTally_memory (s : State) (cid : Nat) (f : Tally → Tally) :
    (s.setTally cid f).memory = s.memory := (rfl)
@[simp] theorem tallyFail_memory (s : State) (g : Governs) : (s.tallyFail g).memory = s.memory := by
  simp [State.tallyFail]
@[simp] theorem emitRow_memory (s : State) (i cid : Nat) (a : RowAcc) (cont : Bool) :
    (s.emitRow i cid a cont).memory = s.memory := by simp [State.emitRow]
@[simp] theorem closeRow_memory (s : State) (i cid : Nat) : (s.closeRow i cid).memory = s.memory := by
  unfold State.closeRow
  split <;> simp
@[simp] theorem rowBeat_memory (s : State) (i : Nat) (g : Governs) (time sub : Nat) :
    (s.rowBeat i g time sub).memory = s.memory := by
  unfold State.rowBeat
  dsimp only
  (repeat' split) <;> simp
@[simp] theorem closeRows_memory (s : State) (i : Nat) : (s.closeRows i).memory = s.memory := by simp [State.closeRows]
@[simp] theorem portFails_memory (s : State) (b : Beat) (g : Governs) : (s.portFails b g).memory = s.memory := by
  simp [State.portFails]
@[simp] theorem failBeats_memory (s : State) (i : Nat) (g : Governs) (beats : List Beat) :
    (s.failBeats i g beats).memory = s.memory := by
  unfold State.failBeats
  dsimp only
  (repeat' split) <;> simp
@[simp] theorem ringWrite_memory (b : Nat) (s : State) : (ringWrite b s).memory = s.memory := by
  unfold ringWrite
  split <;> simp
@[simp] theorem capReadEffect_memory (b v : Nat) (s : State) : (capReadEffect b v s).memory = s.memory := by
  unfold capReadEffect
  split <;> simp

/-! ### WarpOut -/

@[simp] theorem sendTwice_memory (s : State) (out : Option (Fin 4)) (set : WarpSet) :
    (s.sendTwice out set).memory = s.memory := (rfl)
@[simp] theorem sendDown_memory (s : State) (set : WarpSet) : (s.sendDown set).memory = s.memory := by
  simp [State.sendDown]
@[simp] theorem sendUp_memory (s : State) (set : WarpSet) : (s.sendUp set).memory = s.memory := (rfl)
@[simp] theorem newSet_memory (s : State) (type group time : Nat) :
    (s.newSet type group time).2.memory = s.memory := (rfl)
@[simp] theorem announce_memory (s : State) (type group time : Nat) :
    (s.announce type group time).memory = s.memory := by simp [State.announce]
@[simp] theorem setLink_memory (s : State) (i : Nat) (f : WarpLink → WarpLink) :
    (s.setLink i f).memory = s.memory := (rfl)
@[simp] theorem linkError_memory (s : State) (i : Nat) : (s.linkError i).memory = s.memory := (rfl)
@[simp] theorem sendEcho_memory (s : State) (seq t2 : Nat) : (s.sendEcho seq t2).memory = s.memory := by
  simp [State.sendEcho]
@[simp] theorem sendTimeCode_memory (s : State) (n : Fin 4) : (s.sendTimeCode n).memory = s.memory := by
  unfold State.sendTimeCode
  dsimp only
  split <;> simp
@[simp] theorem loseChild_memory (s : State) (i : Nat) : (s.loseChild i).memory = s.memory := by simp [State.loseChild]
@[simp] theorem warpTick_memory (s : State) : s.warpTick.memory = s.memory := by simp [State.warpTick]

/-! ### Abort -/

@[simp] theorem cutLane_memory (p : Nat) (s : State) : (cutLane p s).memory = s.memory := (rfl)
@[simp] theorem cutPort_memory (s : State) (p : Nat) : (s.cutPort p).memory = s.memory := by simp [State.cutPort]
@[simp] theorem endSurvey_memory (s : State) (b : Nat) : (s.endSurvey b).memory = s.memory := by
  unfold State.endSurvey
  split <;> simp
@[simp] theorem endCycle_memory (s : State) (b result : Nat) : (s.endCycle b result).memory = s.memory := by
  unfold State.endCycle
  split <;> simp
@[simp] theorem stopCal_memory (s : State) (b : Nat) : (s.stopCal b).2.memory = s.memory := by simp [State.stopCal]
@[simp] theorem cutBundles_memory (s : State) (bs : List Nat) : (s.cutBundles bs).2.memory = s.memory := by
  simp [State.cutBundles]
@[simp] theorem stopSite_memory (s : State) (i : Nat) : (s.stopSite i).memory = s.memory := by simp [State.stopSite]
@[simp] theorem bundleAborted_memory (s : State) (b cause time flags : Nat) :
    (s.bundleAborted b cause time flags).memory = s.memory := (rfl)
@[simp] theorem abortDone_memory (s : State) (kind unit cause : Nat) (bs : List Nat) :
    (s.abortDone kind unit cause bs).memory = s.memory := (rfl)
@[simp] theorem deviceDone_memory (s : State) : s.deviceDone.memory = s.memory := by
  unfold State.deviceDone
  split <;> simp
@[simp] theorem closeOne_memory (s : State) (i : Nat) (incomplete : Bool) :
    (s.closeOne i incomplete).memory = s.memory := by
  unfold State.closeOne
  (repeat' split) <;> simp
@[simp] theorem closeSite_memory (s : State) (i : Nat) (incomplete : Bool) :
    (s.closeSite i incomplete).memory = s.memory := by simp [State.closeSite]
@[simp] theorem cancelGroup_memory (s : State) (g : Nat) : (s.cancelGroup g).memory = s.memory := (rfl)
@[simp] theorem groupAbort_memory (s : State) (g : Nat) : (s.groupAbort g).memory = s.memory := by
  simp [State.groupAbort]
@[simp] theorem armAborted_memory (s : State) (i : Nat) : (s.armAborted i).memory = s.memory := by
  unfold State.armAborted
  split <;> simp
@[simp] theorem abortIdle_memory (s : State) (bs : List Nat) (a : AbortBy) : (s.abortIdle bs a).memory = s.memory := by
  unfold State.abortIdle
  dsimp only
  split <;> simp
@[simp] theorem abortFormed_memory (s : State) (i : Nat) (a : AbortBy) : (s.abortFormed i a).memory = s.memory := by
  unfold State.abortFormed
  split <;> simp
@[simp] theorem abortSite_memory (s : State) (i cause : Nat) (warp : Bool) (at' : Option Nat) :
    (s.abortSite i cause warp at').memory = s.memory := by simp [State.abortSite]
@[simp] theorem abortBundle_memory (s : State) (b cause : Nat) (lost : List Nat) :
    (s.abortBundle b cause lost).memory = s.memory := by
  unfold State.abortBundle
  split <;> simp
@[simp] theorem failLoad_memory (s : State) (code place : Nat) (answer : Status) :
    (s.failLoad code place answer).memory = s.memory := by
  unfold State.failLoad
  (repeat' split) <;> simp
@[simp] theorem stopLoads_memory (s : State) : s.stopLoads.memory = s.memory := by simp [State.stopLoads]
@[simp] theorem abortDevice_memory (s : State) (cause : Nat) (pin warp quiet : Bool) :
    (s.abortDevice cause pin warp quiet).memory = s.memory := by simp [State.abortDevice]
@[simp] theorem flushLate_memory (s : State) (i : Nat) : (s.flushLate i).memory = s.memory := by simp [State.flushLate]

/-! ### Health -/

@[simp] theorem declare_memory (s : State) (c lane why : Nat) : (s.declare c lane why).memory = s.memory := (rfl)
@[simp] theorem isolateChan_memory (s : State) (c cause : Nat) : (s.isolateChan c cause).memory = s.memory := by
  simp [State.isolateChan]
@[simp] theorem chanHealth_memory (s : State) (c : Nat) : (s.chanHealth c).memory = s.memory := by
  unfold State.chanHealth
  dsimp only
  (repeat' split) <;> simp
@[simp] theorem memHealth_memory (s : State) : s.memHealth.memory = s.memory := by simp [State.memHealth]

/-! ### Ledger -/

@[simp] theorem setPair_memory (s : State) (key : Nat) (p : SetPair) : (s.setPair key p).memory = s.memory := (rfl)
@[simp] theorem handOver_memory (s : State) (key : Nat) (v : CalSet) : (s.handOver key v).memory = s.memory := by
  simp [State.handOver]
@[simp] theorem handWaiting_memory (s : State) : s.handWaiting.memory = s.memory := by
  unfold State.handWaiting
  split <;> simp
@[simp] theorem commitStart_memory (s : State) : s.commitStart.memory = s.memory := by
  unfold State.commitStart
  split <;> simp
@[simp] theorem commitEnd_memory (s : State) : s.commitEnd.memory = s.memory := by
  unfold State.commitEnd
  split <;> simp
@[simp] theorem validateLedger_memory (s : State) : s.validateLedger.memory = s.memory := by simp [State.validateLedger]
@[simp] theorem logWrite_memory (s : State) : s.logWrite.memory = s.memory := by
  unfold State.logWrite
  split <;> simp

/-! ### Timebase -/

@[simp] theorem rootArrives_memory (s : State) : s.rootArrives.memory = s.memory := by simp [State.rootArrives]
@[simp] theorem countLoss_memory (s : State) : s.countLoss.memory = s.memory := (rfl)
@[simp] theorem clearWarpIn_memory (s : State) : s.clearWarpIn.memory = s.memory := (rfl)
@[simp] theorem warpRoleEffect_memory (v : Nat) (s : State) : (warpRoleEffect v s).memory = s.memory := by
  simp [warpRoleEffect]
@[simp] theorem timebaseLocked_memory (s : State) : (timebaseLocked s).memory = s.memory := by simp [timebaseLocked]
@[simp] theorem tbrefLost_memory (s : State) : (tbrefLost s).memory = s.memory := by
  refine onlyIf_memory _ _ _ ((onlyIf_memory _ _ _ ?_).trans (wr_memory _ _ _ _ _))
  simp
@[simp] theorem lineEffect_memory (b v : Nat) (s : State) : (lineEffect b v s).memory = s.memory := (rfl)
@[simp] theorem lineSettled_memory (b : BundleNo) (s : State) : (lineSettled b s).memory = s.memory := by
  unfold lineSettled
  split <;> simp
@[simp] theorem stepTime_memory (s : State) (d : Int) : (s.stepTime d).memory = s.memory := (rfl)
@[simp] theorem timeCodeFlags_memory (c : TimeCode) (s : State) : (timeCodeFlags c s).memory = s.memory := (rfl)
@[simp] theorem timeCodeGood_memory (c : TimeCode) (t2 : Nat) (s : State) :
    (timeCodeGood c t2 s).memory = s.memory := by
  unfold timeCodeGood
  split <;> simp
@[simp] theorem warpTimeCode_memory (data : List Byte) (sub : BitVec 15) (s : State) :
    (warpTimeCode data sub s).memory = s.memory := by
  unfold warpTimeCode
  split <;> simp
@[simp] theorem warpEchoIn_memory (out : Fin 4) (data : List Byte) (sub : BitVec 15) (s : State) :
    (warpEchoIn out data sub s).memory = s.memory := by
  refine onlyIf_memory _ _ _ ?_
  dsimp only
  split
  · simp
  · split <;> simp
@[simp] theorem relockBegins_memory (s : State) : (relockBegins s).memory = s.memory := (rfl)
@[simp] theorem relockEnds_memory (s : State) : (relockEnds s).memory = s.memory := by simp [relockEnds]
@[simp] theorem warpLinkLocked_memory (s : State) : (warpLinkLocked s).memory = s.memory := by
  unfold warpLinkLocked
  split <;> simp
@[simp] theorem warpAligned_memory (s : State) : (warpAligned s).memory = s.memory := by simp [warpAligned]
@[simp] theorem enterFree_memory (s : State) (cause : Nat) : (s.enterFree cause).memory = s.memory := by
  simp [State.enterFree]
@[simp] theorem warpLoss_memory (why : Fin 3) (s : State) : (warpLoss why s).memory = s.memory := by simp [warpLoss]
@[simp] theorem eventIn_memory (above : Option (Fin 4)) (set : WarpSet) (crc : Byte) (act : State → State) (s : State)
    (h : ∀ t, (act t).memory = t.memory) : (eventIn above set crc act s).memory = s.memory := by
  unfold eventIn
  split
  · rfl
  · split <;> simp [h]
@[simp] theorem schedule_memory (s : State) (type group time : Nat) :
    (s.schedule type group time).memory = s.memory := (rfl)
@[simp] theorem memberMissed_memory (s : State) (i group time at' : Nat) :
    (s.memberMissed i group time at').memory = s.memory := by simp [State.memberMissed]
@[simp] theorem lockstepMissed_memory (s : State) (group time : Nat) :
    (s.lockstepMissed group time).memory = s.memory := by
  unfold State.lockstepMissed
  split <;> simp
@[simp] theorem lockstepIn_memory (type group time : Nat) (s : State) :
    (lockstepIn type group time s).memory = s.memory := by simp [lockstepIn]
@[simp] theorem actOnWarpAbort_memory (s : State) (group : Nat) : (s.actOnWarpAbort group).memory = s.memory := by
  unfold State.actOnWarpAbort
  dsimp only
  (repeat' split) <;> simp
@[simp] theorem warpAbortIn_memory (above : Option (Fin 4)) (set : WarpSet) (crc : Byte) (s : State) :
    (warpAbortIn above set crc s).memory = s.memory := by simp [warpAbortIn]
@[simp] theorem eventSendEffect_memory (v : Nat) (s : State) : (eventSendEffect v s).memory = s.memory := by
  simp [eventSendEffect]
@[simp] theorem warpCharEffect_memory (v : Nat) (s : State) : (warpCharEffect v s).memory = s.memory := (rfl)

/-! ### Power -/

@[simp] theorem revertOwner_memory (s : State) : s.revertOwner.memory = s.memory := by simp [State.revertOwner]
@[simp] theorem downTo_memory (s : State) (k : Fin 8) : (s.downTo k).memory = s.memory := (rfl)
@[simp] theorem powerUpEffect_memory (s : State) : (powerUpEffect s).memory = s.memory := by
  unfold powerUpEffect
  split <;> simp
@[simp] theorem powerUpStep_memory (s : State) : (powerUpStep s).memory = s.memory := by
  unfold powerUpStep
  split <;> simp
@[simp] theorem pgTimeout_memory (s : State) : (pgTimeout s).memory = s.memory := by
  unfold pgTimeout
  split <;> simp
@[simp] theorem powerDownStep_memory (pgLow : Bool) (s : State) : (powerDownStep pgLow s).memory = s.memory := by
  unfold powerDownStep
  split <;> simp
@[simp] theorem rimStart_memory (s : State) : (rimStart s).memory = s.memory := by simp [rimStart]
@[simp] theorem quadThermal_memory (s : State) (temps : List Int) (q : Nat) :
    (s.quadThermal temps q).memory = s.memory := by simp [State.quadThermal]
@[simp] theorem deviceFault_memory (s : State) (code : Nat) : (s.deviceFault code).memory = s.memory := by
  simp [State.deviceFault]
@[simp] theorem railSample_memory (rails : List (BitVec 16 × BitVec 32)) (vbat rimVin : BitVec 16) (domains : List
    (BitVec 32)) (milliJoules : Nat) (s : State) :
    (railSample rails vbat rimVin domains milliJoules s).memory = s.memory := by simp [railSample]

/-! ### SerialLane -/

@[simp] theorem setLane_memory (s : State) (p : Nat) (f : Lane → Lane) : (s.setLane p f).memory = s.memory := (rfl)
@[simp] theorem acceptTaps_memory (s : State) (p : Nat) (taps : List Int) :
    (s.acceptTaps p taps).memory = s.memory := by simp [State.acceptTaps]
@[simp] theorem txeqEffect_memory (p v : Nat) (s : State) : (txeqEffect p v s).memory = s.memory := by simp [txeqEffect]
@[simp] theorem rxeqEffect_memory (p : Nat) (data : List Byte) (s : State) :
    (rxeqEffect p data s).memory = s.memory := by simp [rxeqEffect]
@[simp] theorem rxeqInForce_memory (p : Nat) (s : State) : (rxeqInForce p s).memory = s.memory := by
  unfold rxeqInForce
  split <;> simp
@[simp] theorem siteCause_memory (s : State) (i code port : Nat) (at' : Option Nat) :
    (s.siteCause i code port at').memory = s.memory := by simp [State.siteCause]
@[simp] theorem laneLock_memory (p : Nat) (s : State) : (laneLock p s).memory = s.memory := by simp [laneLock]
@[simp] theorem laneLoss_memory (p : Nat) (s : State) : (laneLoss p s).memory = s.memory := by
  refine onlyIf_memory _ _ _ ?_
  dsimp only
  split <;> simp
@[simp] theorem laneElastic_memory (p : Nat) (full : Bool) (s : State) : (laneElastic p full s).memory = s.memory := by
  refine onlyIf_memory _ _ _ ?_
  dsimp only
  split <;> simp
@[simp] theorem laneDeskew_memory (p : Nat) (arrivals : List (PortNo × Nat)) (s : State) :
    (laneDeskew p arrivals s).memory = s.memory := by
  refine onlyIf_memory _ _ _ ?_
  dsimp only
  split
  · split <;> simp
  · simp
@[simp] theorem adaptDone_memory (p : Nat) (s : State) : (adaptDone p s).memory = s.memory := by simp [adaptDone]
@[simp] theorem armLane_memory (p : Nat) (s : State) : (armLane p s).memory = s.memory := (rfl)
@[simp] theorem stepLane_memory (p : Nat) (s : State) : (stepLane p s).memory = s.memory := (rfl)

/-! ### Trims -/

@[simp] theorem setCalSet_memory (s : State) (key : Nat) (v : CalSet) : (s.setCalSet key v).memory = s.memory := (rfl)
@[simp] theorem putTrims_memory (s : State) (p : Nat) (n : InForce) : (s.putTrims p n).memory = s.memory := by
  simp [State.putTrims]
@[simp] theorem recompute_memory (s : State) (p : Nat) : (s.recompute p).memory = s.memory := by
  unfold State.recompute
  split <;> simp

/-! ### LaneStream -/

@[simp] theorem atBoundary_memory (s : State) (i : Nat) : (s.atBoundary i).memory = s.memory := by
  unfold State.atBoundary
  split
  · rfl
  · simp only [setRun_memory]
    exact each_memory _ _ _ (fun p t => by split <;> simp)
@[simp] theorem freeSymbols_memory (s : State) (c : SerConfig) : (s.freeSymbols c).2.memory = s.memory := (rfl)
@[simp] theorem wordSymbols_memory (s : State) (p reg : Nat) (w w2 : BitVec 64) :
    (s.wordSymbols p reg w w2).2.2.memory = s.memory := by
  unfold State.wordSymbols
  dsimp only
  split <;> simp
@[simp] theorem fabricWord_memory (s : State) (p : Nat) : (s.fabricWord p).2.memory = s.memory := by
  unfold State.fabricWord
  dsimp only
  (repeat' split) <;> simp
@[simp] theorem sourceWord_memory (s : State) (p : Nat) (w : SerWord) : (s.sourceWord p w).2.memory = s.memory := by
  unfold State.sourceWord
  dsimp only
  split <;> simp
@[simp] theorem launchOne_memory (s : State) (p : Nat) (past : List (Option Nat)) (x : TxSymbol) (next : List
    TxSymbol) :
    (s.launchOne p past x next).memory = s.memory := by simp [State.launchOne]
@[simp] theorem launches_memory (s : State) (p keep : Nat) (past : List (Option Nat)) (l : List TxSymbol) :
    (s.launches p keep past l).memory = s.memory := by
  induction l generalizing s past with
  | nil => simp [State.launches]
  | cons x l ih => simp [State.launches, ih]
@[simp] theorem give_memory (s : State) (p : Nat) (l : List TxSymbol) : (s.give p l).memory = s.memory := by
  simp [State.give]
@[simp] theorem flushLane_memory (s : State) (p : Nat) : (s.flushLane p).memory = s.memory := by simp [State.flushLane]
@[simp] theorem idleFrom_memory (s : State) (p t : Nat) : (s.idleFrom p t).memory = s.memory := by
  unfold State.idleFrom
  dsimp only
  split <;> simp
@[simp] theorem idleLanes_memory (s : State) (i : Nat) : (s.idleLanes i).memory = s.memory := by simp [State.idleLanes]
@[simp] theorem idleAll_memory (s : State) (i : Nat) : (s.idleAll i).memory = s.memory := by simp [State.idleAll]
@[simp] theorem restLanes_memory (s : State) (i : Nat) : (s.restLanes i).memory = s.memory := by simp [State.restLanes]
@[simp] theorem codeIdle_memory (s : State) (p : Nat) (limit : Option Nat) :
    (s.codeIdle p limit).memory = s.memory := by simp [State.codeIdle]
@[simp] theorem driveLane_memory (s : State) (p : Nat) (w : SerWord) (origin first : Nat) :
    (s.driveLane p w origin first).memory = s.memory := by
  unfold State.driveLane
  dsimp only
  split <;> simp
@[simp] theorem expected_memory (s : State) (i : Nat) (w : SerWord) : (s.expected i w).2.memory = s.memory := by
  simp [State.expected]
@[simp] theorem driveLanes_memory (s : State) (i : Nat) (word : Option SerWord) :
    (s.driveLanes i word).memory = s.memory := by
  unfold State.driveLanes
  dsimp only
  (repeat' split) <;> simp
@[simp] theorem symbolUnderrun_memory (s : State) (i : Nat) : (s.symbolUnderrun i).memory = s.memory := by
  unfold State.symbolUnderrun
  split <;> simp
@[simp] theorem driveWord_memory (s : State) (i : Nat) : (s.driveWord i).memory = s.memory := by
  unfold State.driveWord
  dsimp only
  (repeat' split) <;> simp
@[simp] theorem decideOne_memory (s : State) (p t : Nat) (q : Equalizer) (d odd : Option PinDrive) :
    (s.decideOne p t q d odd).2.memory = s.memory := by
  unfold State.decideOne
  split <;> simp
@[simp] theorem decideWord_memory (s : State) (p : Nat) (o : LaneObs) (at' : Nat → Nat) :
    (s.decideWord p o at').2.memory = s.memory := by simp [State.decideWord]
@[simp] theorem adapt_memory (s : State) (p : Nat) (o : LaneObs) (syms : List Nat) :
    (s.adapt p o syms).memory = s.memory := by
  unfold State.adapt
  dsimp only
  split <;> simp
@[simp] theorem incoming_memory (s : State) (p : Nat) (syms : List Nat) : (s.incoming p syms).2.memory = s.memory := by
  unfold State.incoming
  dsimp only
  split <;> simp
@[simp] theorem checkWord_memory (s : State) (p : Nat) (syms : List Nat) : (s.checkWord p syms).memory = s.memory := by
  simp [State.checkWord]
@[simp] theorem slip_memory (s : State) (p : Nat) (n : Int) : (s.slip p n).memory = s.memory := by simp [State.slip]
@[simp] theorem decodeWord_memory (s : State) (p : Nat) (syms : List Nat) :
    (s.decodeWord p syms).memory = s.memory := by simp [State.decodeWord]
@[simp] theorem receiveWord_memory (s : State) (p : Nat) (o : LaneObs) (at' : Nat → Nat) :
    (s.receiveWord p o at').2.2.memory = s.memory := by
  unfold State.receiveWord
  dsimp only
  split <;> simp
@[simp] theorem fabricLane_memory (old : State) (p : Nat) (s : State) :
    (State.fabricLane old p s).memory = s.memory := by simp [State.fabricLane]
@[simp] theorem laneTick_memory (old s : State) : (State.laneTick old s).memory = s.memory := by simp [State.laneTick]

/-! ### Pattern -/

@[simp] theorem startsAt_memory (s : State) (i t : Nat) : (s.startsAt i t).memory = s.memory := (rfl)
@[simp] theorem cacheFill_memory (i line : Nat) (s : State) : (cacheFill i line s).memory = s.memory := by
  simp [cacheFill]
@[simp] theorem ctxFault_memory (s : State) (i cid : Nat) (f : CtxFault) : (s.ctxFault i cid f).memory = s.memory := by
  simp [State.ctxFault]
@[simp] theorem wake_memory (s : State) (i : Nat) : (s.wake i).memory = s.memory := by simp [State.wake]
@[simp] theorem spawnCtx_memory (s : State) (cid : Nat) : (s.spawnCtx cid).memory = s.memory := (rfl)
@[simp] theorem checkpointOf_memory (s : State) (i cid : Nat) : (s.checkpointOf i cid).memory = s.memory := (rfl)
@[simp] theorem supply_memory (s : State) (i : Nat) (gov : Governs) (inst : Inst) (c : Context) :
    (s.supply i gov inst c).2.memory = s.memory := (rfl)
@[simp] theorem enqueue_memory (s : State) (i : Nat) (gov : Governs) (inst : Inst) (c : Context) :
    (s.enqueue i gov inst c).memory = s.memory := (rfl)
@[simp] theorem issueInst_memory (s : State) (i cid : Nat) (inst : Inst) (fab : Bool) :
    (s.issueInst i cid inst fab).memory = s.memory := by simp [State.issueInst]
@[simp] theorem tryIssue_memory (s : State) (i : Nat) (fab : Bool) (l : List Nat) : (s.tryIssue i fab l).memory = s.memory := by
  induction l generalizing s with
  | nil => rfl
  | cons cid rest ih =>
    unfold State.tryIssue
    split
    · simp
    · simp [ih]
@[simp] theorem txUnderrun_memory (p : Nat) (s : State) : (txUnderrun p s).memory = s.memory := by
  refine onlyIf_memory _ _ _ ?_
  dsimp only
  split <;> simp
@[simp] theorem flowRow_memory (cid : Nat) (f : Context → Context) (s : State) :
    (flowRow cid f s).memory = s.memory := by simp [flowRow]
@[simp] theorem spawnRow_memory (cid imm : Nat) (s : State) : (spawnRow cid imm s).memory = s.memory := by
  unfold spawnRow
  split <;> simp
@[simp] theorem endWait_memory (cid : Nat) (cause : WaitCause) (f : Nat → State → State) (s : State)
    (h : ∀ i t, (f i t).memory = t.memory) : (endWait cid cause f s).memory = s.memory := by
  unfold endWait
  split <;> simp [h]
@[simp] theorem timerTick_memory (s : State) : s.timerTick.memory = s.memory := by simp [State.timerTick]
@[simp] theorem checkpointRow_memory (cid : Nat) (s : State) : (checkpointRow cid s).memory = s.memory := by
  unfold checkpointRow
  split <;> simp
@[simp] theorem readImages_memory (op size n ctx g : Nat) (s : State) : (readImages op size n ctx g s).2.2.memory = s.memory := by
  induction n generalizing s ctx g with
  | zero => rfl
  | succ n ih =>
    simp only [readImages]
    split <;> simp [ih]
@[simp] theorem ctxCmdRead_memory (op count first src : Nat) (s : State) :
    (ctxCmdRead op count first src s).2.2.memory = s.memory := by
  unfold ctxCmdRead
  split <;> simp
@[simp] theorem ctxCmdDone_memory (b : BundleNo) (s : State) : (ctxCmdDone b s).memory = s.memory := by
  unfold ctxCmdDone
  split <;> simp

/-! ### Cycle -/

@[simp] theorem vectorOf_memory (s : State) (r : StepRec) (v : Nat) : (s.vectorOf r v).2.memory = s.memory := by
  unfold State.vectorOf
  dsimp only
  rw [foldl_snd_memory _ _ _ (fun e g => by split <;> simp)]
  simp
@[simp] theorem windowStates_memory (s : State) (it : StrobeItem) (l : List (Nat × Option PinDrive)) :
    (s.windowStates it l).2.memory = s.memory := by
  induction l generalizing s with
  | nil => rfl
  | cons e rest ih => 
    simp only [State.windowStates]
    rw [ih]
    split <;> simp
@[simp] theorem seen_memory (s : State) (it : StrobeItem) : (s.seen it).2.memory = s.memory := by
  unfold State.seen
  dsimp only
  (repeat' split) <;> simp
@[simp] theorem rawState_memory (s : State) (p format v : Nat) : (s.rawState p format v).2.memory = s.memory := by
  unfold State.rawState
  (repeat' split) <;> simp
@[simp] theorem rawField_memory (s : State) (p format : Nat) (v : Option Nat) :
    (s.rawField p format v).2.memory = s.memory := by
  unfold State.rawField
  (repeat' split) <;> simp
@[simp] theorem completeCycle_memory (s : State) (i t : Nat) : (s.completeCycle i t).memory = s.memory := by
  unfold State.completeCycle
  split <;> simp
@[simp] theorem formatAll_memory (s : State) (i : Nat) (c : Cycle) (codes : List (Nat × Nat × Nat)) (start : Nat) :
    (s.formatAll i c codes start).memory = s.memory :=
  each_memory _ _ _ (fun p t => by split <;> simp)
@[simp] theorem strobeAll_memory (s : State) (i : Nat) (c : Cycle) (codes : List (Nat × Nat × Nat)) (start : Nat) (obs
    : List PortObs) :
    (s.strobeAll i c codes start obs).memory = s.memory := (rfl)
@[simp] theorem driveCycle_memory (s : State) (i : Nat) (c : Cycle) (rest : List Cycle) (obs : List PortObs) :
    (s.driveCycle i c rest obs).memory = s.memory := by
  unfold State.driveCycle
  dsimp only
  (repeat' split) <;> simp

/-! ### DutPins -/

@[simp] theorem addTimed_memory (s : State) (p : Nat) (l : List DriveEvent) :
    (s.addTimed p l).memory = s.memory := (rfl)
@[simp] theorem pinSymbol_memory (s : State) (p t sym : Nat) : (s.pinSymbol p t sym).memory = s.memory := by
  simp [State.pinSymbol]
@[simp] theorem pinOff_memory (s : State) (p t : Nat) : (s.pinOff p t).memory = s.memory := by simp [State.pinOff]
@[simp] theorem clocksTick_memory (s : State) (i t : Nat) : (s.clocksTick i t).memory = s.memory := by
  unfold State.clocksTick
  simp only [setSite_memory]
  exact each_memory _ _ _ (fun role u => by simp)
@[simp] theorem clockTick_memory (s : State) : s.clockTick.memory = s.memory := by simp [State.clockTick]
@[simp] theorem pinsIdle_memory (s : State) (i t : Nat) : (s.pinsIdle i t).memory = s.memory := by simp [State.pinsIdle]
@[simp] theorem releaseReset_memory (s : State) (i : Nat) : (s.releaseReset i).memory = s.memory := by
  simp [State.releaseReset]
@[simp] theorem commandPins_memory (s : State) (i : Nat) (ck : Int) (periods cmd rank : Nat) (fields : List Nat)
    (parity : Option Bool) :
    (s.commandPins i ck periods cmd rank fields parity).memory = s.memory := by
  unfold State.commandPins
  (repeat' split) <;> simp
@[simp] theorem burstPins_memory (s : State) (i : Nat) (ck : Int) (syms : Nat → List Nat) (crc : Option (Nat × Bool)) :
    (s.burstPins i ck syms crc).memory = s.memory := by
  unfold State.burstPins
  dsimp only
  rw [foldl_memory _ _ _ (fun t x => ?_)]
  · simp
  · simp only [pinOff_memory]
    rw [foldl_memory _ _ _ (fun u j => by split <;> simp), foldl_memory _ _ _ (fun u j => by simp),
      foldl_memory _ _ _ (fun u j => by split <;> simp)]

/-! ### Scheduler -/

@[simp] theorem setSched_memory (s : State) (i : Nat) (f : Scheduler → Scheduler) :
    (s.setSched i f).memory = s.memory := (rfl)
@[simp] theorem setInj_memory (s : State) (i : Nat) (f : DutInject → DutInject) :
    (s.setInj i f).memory = s.memory := (rfl)
@[simp] theorem arrive_memory (s : State) (i : Nat) (t : Txn) : (s.arrive i t).memory = s.memory := by
  simp [State.arrive]
@[simp] theorem arrivals_memory (s : State) (i : Nat) : (s.arrivals i).memory = s.memory := by simp [State.arrivals]
@[simp] theorem markReady_memory (s : State) (i : Nat) (ck : Int) : (s.markReady i ck).memory = s.memory := (rfl)
@[simp] theorem beginInserts_memory (s : State) (i : Nat) : (s.beginInserts i).memory = s.memory := (rfl)
@[simp] theorem refreshDebtAccrue_memory (i rank : Nat) (s : State) :
    (refreshDebtAccrue i rank s).memory = s.memory := by simp [refreshDebtAccrue]
@[simp] theorem refreshInsert_memory (i rank bank : Nat) (ck : Int) (s : State) :
    (refreshInsert i rank bank ck s).memory = s.memory := by simp [refreshInsert]
@[simp] theorem sendCommand_memory (s : State) (i : Nat) (ck : Int) (cmd rank bank row col arg : Nat) (inserted :
    Bool) (gov : Option Governs) (force forceEdc : Bool) :
    (s.sendCommand i ck cmd rank bank row col arg inserted gov force forceEdc).memory = s.memory := by simp [State.sendCommand]
@[simp] theorem sendBurst_memory (s : State) (i : Nat) (ck : Int) (t : Txn) (force : Bool) :
    (s.sendBurst i ck t force).memory = s.memory := by simp [State.sendBurst]
@[simp] theorem dutCount_memory (s : State) (i k : Nat) : (s.dutCount i k).memory = s.memory := (rfl)
@[simp] theorem txnState_memory (s : State) (i : Nat) (ck : Int) (t : Txn) (row : Nat) :
    (s.txnState i ck t row).memory = s.memory := by simp [State.txnState]
@[simp] theorem forcedError_memory (s : State) (i : Nat) (ck : Int) (g : Governs) (write : Bool) :
    (s.forcedError i ck g write).memory = s.memory := by
  unfold State.forcedError
  dsimp only
  split <;> simp
@[simp] theorem unqueue_memory (s : State) (i k rank : Nat) : (s.unqueue i k rank).memory = s.memory := (rfl)
@[simp] theorem sendProgram_memory (s : State) (i : Nat) (ck : Int) (k : Nat) (t : Txn) :
    (s.sendProgram i ck k t).memory = s.memory := by simp [State.sendProgram]
@[simp] theorem sendInserted_memory (s : State) (i : Nat) (ck : Int) (k cmd rank bank row : Nat) :
    (s.sendInserted i ck k cmd rank bank row).memory = s.memory := by simp [State.sendInserted]
@[simp] theorem commandRow_memory (cmd i : Nat) (ck : Int) (s : State) : (commandRow cmd i ck s).memory = s.memory := by
  refine onlyIf_memory _ _ _ ?_
  dsimp only
  split
  · simp
  · split <;> simp
@[simp] theorem beatLanes_memory (s : State) (i : Nat) (u : Burst) (beat : Nat)
    (rx : List (PortNo × Option PinDrive)) : (s.beatLanes i u beat rx).2.memory = s.memory := by
  unfold State.beatLanes
  exact foldl_snd_memory _ _ _ (fun e x => by dsimp only; split <;> simp)
@[simp] theorem sweepMisses_memory (s : State) (i : Nat) (bad : List DqCmp) :
    (s.sweepMisses i bad).memory = s.memory := (rfl)
@[simp] theorem readBurstCompare_memory (i : Nat) (beats : List (List (PortNo × Option PinDrive))) (s : State) :
    (readBurstCompare i beats s).memory = s.memory := by
  unfold readBurstCompare
  split <;> simp
@[simp] theorem dutError_memory (i kind : Nat) (burst : Option Cid) (p ck : Nat) (s : State) :
    (dutError i kind burst p ck s).memory = s.memory := by simp [dutError]
@[simp] theorem injControlEffect_memory (b v : Nat) (s : State) : (injControlEffect b v s).memory = s.memory := (rfl)

/-! ### Training -/

@[simp] theorem takeSequence_memory (s : State) (i number : Nat) (txn : Option Txn) :
    (s.takeSequence i number txn).memory = s.memory := by simp [State.takeSequence]
@[simp] theorem endTraining_memory (s : State) (i : Nat) : (s.endTraining i).memory = s.memory := by
  unfold State.endTraining
  (repeat' split) <;> simp
@[simp] theorem setTrained_memory (s : State) (p number : Nat) (rx : Bool) (v : Option (Int × Nat)) :
    (s.setTrained p number rx v).memory = s.memory := (rfl)
@[simp] theorem trainFails_memory (s : State) (i : Nat) : (s.trainFails i).memory = s.memory := by
  unfold State.trainFails
  (repeat' split) <;> simp
@[simp] theorem setOffset_memory (s : State) (target p : Nat) (d : Int) :
    (s.setOffset target p d).memory = s.memory := (rfl)
@[simp] theorem atPoint_memory (s : State) (i : Nat) (w : Sweep) : (s.atPoint i w).memory = s.memory := by
  simp [State.atPoint]
@[simp] theorem sweepPort_memory (s : State) (i number : Nat) (w : Sweep) (p : Nat) (passes : List Bool) :
    (s.sweepPort i number w p passes).memory = s.memory := by
  unfold State.sweepPort
  dsimp only
  split <;> simp
@[simp] theorem builtInPort_memory (s : State) (number target p : Nat) :
    (s.builtInPort number target p).memory = s.memory := (rfl)
@[simp] theorem trainDone_memory (i : Nat) (failed : Bool) (s : State) : (trainDone i failed s).memory = s.memory := by
  unfold trainDone
  split <;> simp
@[simp] theorem ucodeFault_memory (s : State) (i : Nat) : (s.ucodeFault i).memory = s.memory := by
  unfold State.ucodeFault
  (repeat' split) <;> simp
@[simp] theorem reach_memory (s : State) (i : Nat) (t : Training) (n : Nat) : (s.reach i t n).memory = s.memory := by
  simp [State.reach]
@[simp] theorem startTraining_memory (s : State) (i number : Nat) (txn : Option Txn) :
    (s.startTraining i number txn).memory = s.memory := by
  unfold State.startTraining
  dsimp only
  split <;> simp
@[simp] theorem trainRow_memory (i : Nat) (ck : Int) (s : State) : (trainRow i ck s).memory = s.memory := by
  refine onlyIf_memory _ _ _ ?_
  dsimp only
  split
  · simp
  · split <;> simp
@[simp] theorem atWord_memory (s : State) (i op : Nat) (f : Training → Nat → State → State)
    (h : ∀ t w u, (f t w u).memory = u.memory) : (s.atWord i op f).memory = s.memory := by
  unfold State.atWord
  split <;> simp [h]
@[simp] theorem sendMicro_memory (s : State) (i : Nat) (ck : Int) (t : Training) (v : Nat) :
    (s.sendMicro i ck t v).2.memory = s.memory := by
  unfold State.sendMicro
  dsimp only
  (repeat' split) <;> simp
@[simp] theorem ucodeCmd_memory (i : Nat) (ck : Int) (s : State) : (ucodeCmd i ck s).memory = s.memory := by
  unfold ucodeCmd
  split
  · rfl
  · dsimp only
    split <;> simp
@[simp] theorem ucodeWaitExpiry_memory (i : Nat) (s : State) : (ucodeWaitExpiry i s).memory = s.memory := by
  unfold ucodeWaitExpiry
  split <;> simp
@[simp] theorem sweepEnd_memory (i : Nat) (s : State) : (sweepEnd i s).memory = s.memory := by
  refine atWord_memory _ _ _ _ (fun t w u => ?_)
  dsimp only
  split <;> simp

/-! ### Memory -/

@[simp] theorem linkRetry_memory (s : State) (c n : Nat) : (s.linkRetry c n).memory = s.memory := (rfl)
@[simp] theorem failGranules_memory (s : State) (g n : Nat) : (s.failGranules g n).memory = s.memory := by
  simp [State.failGranules]
@[simp] theorem scrubNext_memory (s : State) (c : Nat) : (s.scrubNext c).memory = s.memory := by simp [State.scrubNext]
@[simp] theorem memCmdEffect_memory (op chan lane : Nat) (s : State) :
    (memCmdEffect op chan lane s).memory = s.memory := by
  unfold memCmdEffect
  split <;> simp

/-! ### Calibration -/

@[simp] theorem trigger_memory (s : State) (p : Nat) (k : Fin 6) : (s.trigger p k).memory = s.memory := by
  unfold State.trigger
  dsimp only
  (repeat' split) <;> simp
@[simp] theorem autoTriggers_memory (s : State) (p : Nat) : (s.autoTriggers p).memory = s.memory := by
  simp [State.autoTriggers]
@[simp] theorem qualityTrigger_memory (s : State) (p : Nat) : (s.qualityTrigger p).memory = s.memory := by
  simp [State.qualityTrigger]
@[simp] theorem reevaluate_memory (s : State) (p : Nat) : (s.reevaluate p).memory = s.memory := (rfl)
@[simp] theorem temperatureSample_memory (b : Nat) (temp : BitVec 16) (s : State) :
    (temperatureSample b temp s).memory = s.memory := by simp [temperatureSample]
@[simp] theorem vrefCheck_memory (microvolts : BitVec 32) (s : State) : (vrefCheck microvolts s).memory = s.memory := by
  simp [vrefCheck]
@[simp] theorem setCycle_memory (s : State) (b : Nat) (f : CalCycle → CalCycle) :
    (s.setCycle b f).memory = s.memory := (rfl)
@[simp] theorem hold_memory (s : State) (p : Nat) (v : Bool) : (s.hold p v).memory = s.memory := (rfl)
@[simp] theorem joinReceiver_memory (s : State) (b : Nat) : (s.joinReceiver b).memory = s.memory := (rfl)
@[simp] theorem beginListen_memory (s : State) (b : Nat) : (s.beginListen b).memory = s.memory := by
  unfold State.beginListen
  split <;> simp
@[simp] theorem calCycleStart_memory (b : Nat) (s : State) : (calCycleStart b s).memory = s.memory := by
  refine onlyIf_memory _ _ _ ?_
  split
  · rfl
  · dsimp only
    split <;> simp
@[simp] theorem grade_memory (s : State) (p : Nat) (t : ListenStats) : (s.grade p t).2.memory = s.memory := by
  unfold State.grade
  dsimp only
  split <;> simp
@[simp] theorem takeListen_memory (s : State) (p : Nat) (t : ListenStats) : (s.takeListen p t).memory = s.memory := by
  simp [State.takeListen]
@[simp] theorem pointTemp_memory (s : State) (b : Nat) : (s.pointTemp b).2.memory = s.memory := by
  unfold State.pointTemp
  split <;> simp
@[simp] theorem formPoint_memory (s : State) (p c : Nat) (f : CalFinds) (live internal : Bool) :
    (s.formPoint p c f live internal).memory = s.memory := by simp [State.formPoint]
@[simp] theorem handSet_memory (s : State) (p c : Nat) : (s.handSet p c).memory = s.memory := by simp [State.handSet]
@[simp] theorem handSets_memory (s : State) (p : Nat) : (s.handSets p).memory = s.memory := by simp [State.handSets]
@[simp] theorem finishCycle_memory (s : State) (b result : Nat) : (s.finishCycle b result).memory = s.memory := by
  unfold State.finishCycle
  split <;> simp
@[simp] theorem passEnables_memory (s : State) (p : Nat) : (s.passEnables p).memory = s.memory := by
  simp [State.passEnables]
@[simp] theorem substitute_memory (s : State) (p : Nat) : (s.substitute p).memory = s.memory := by
  simp [State.substitute]
@[simp] theorem failPort_memory (s : State) (p item : Nat) : (s.failPort p item).memory = s.memory := by
  simp [State.failPort]
@[simp] theorem failOffline_memory (s : State) (p item : Nat) : (s.failOffline p item).memory = s.memory := by
  simp [State.failOffline]
@[simp] theorem failBye_memory (s : State) (b : Nat) : (s.failBye b).memory = s.memory := by
  unfold State.failBye
  dsimp only
  split <;> simp
@[simp] theorem calPrepareDone_memory (b : Nat) (f : CalFinds) (s : State) :
    (calPrepareDone b f s).memory = s.memory := by
  unfold calPrepareDone
  split <;> simp
@[simp] theorem fallBack_memory (s : State) (b p transitions : Nat) :
    (s.fallBack b p transitions).memory = s.memory := by simp [State.fallBack]
@[simp] theorem calListenDone_memory (b : Nat) (t : ListenStats) (s : State) :
    (calListenDone b t s).memory = s.memory := by
  unfold calListenDone
  split <;> simp
@[simp] theorem calListenLimit_memory (b transitions : Nat) (s : State) :
    (calListenLimit b transitions s).memory = s.memory := by
  unfold calListenLimit
  split <;> simp
@[simp] theorem calTakeover_memory (b : Nat) (s : State) : (calTakeover b s).memory = s.memory := by
  unfold calTakeover
  split <;> simp
@[simp] theorem liveCalibrated_memory (s : State) (b p : Nat) (c : CalCycle) (f : CalFinds) :
    (s.liveCalibrated b p c f).memory = s.memory := by simp [State.liveCalibrated]
@[simp] theorem offlineCalibrated_memory (s : State) (b p : Nat) (c : CalCycle) (f : CalFinds) :
    (s.offlineCalibrated b p c f).memory = s.memory := by simp [State.offlineCalibrated]
@[simp] theorem calCalibrateDone_memory (b : Nat) (f : CalFinds) (s : State) :
    (calCalibrateDone b f s).memory = s.memory := by
  unfold calCalibrateDone
  split <;> simp
@[simp] theorem calRejoinDone_memory (b : Nat) (s : State) : (calRejoinDone b s).memory = s.memory := by
  unfold calRejoinDone
  split <;> simp
@[simp] theorem calReturn_memory (b : Nat) (s : State) : (calReturn b s).memory = s.memory := by
  unfold calReturn
  dsimp only
  (repeat' split) <;> simp
@[simp] theorem surveyTick_memory (s : State) : s.surveyTick.memory = s.memory := by
  unfold State.surveyTick
  split
  · rfl
  · refine each_memory _ _ _ (fun b t => ?_)
    split
    · split <;> simp
    · rfl
@[simp] theorem trimTick_memory (s : State) : s.trimTick.memory = s.memory :=
  foldl_memory _ _ _ (fun t e => by split <;> simp)
@[simp] theorem calSurveyListen_memory (b : Nat) (slot : Fin 8) (t : ListenStats) (s : State) :
    (calSurveyListen b slot t s).memory = s.memory := by simp [calSurveyListen]
@[simp] theorem calSetsLoaded_memory (s : State) : (calSetsLoaded s).memory = s.memory := by simp [calSetsLoaded]
@[simp] theorem clearSubEffect_memory (b slot : Nat) (s : State) : (clearSubEffect b slot s).memory = s.memory := by
  simp [clearSubEffect]
@[simp] theorem calRequestEffect_memory (p v : Nat) (s : State) : (calRequestEffect p v s).memory = s.memory := by
  simp [calRequestEffect]
@[simp] theorem autoOff_memory (s : State) : (autoOff s).memory = s.memory := by simp [autoOff]
@[simp] theorem holdOff_memory (s : State) : (holdOff s).memory = s.memory :=
  each_memory _ _ _ (fun b t => by split <;> simp)

/-! ### Fabric -/

@[simp] theorem settleTree_memory (s : State) (q r : Nat) : (s.settleTree q r).memory = s.memory := (rfl)
@[simp] theorem settleTrees_memory (s : State) (q : Nat) : (s.settleTrees q).memory = s.memory := by
  simp [State.settleTrees]
@[simp] theorem clkDivEffect_memory (q v : Nat) (s : State) : (clkDivEffect q v s).memory = s.memory := (rfl)
@[simp] theorem clkDivSettled_memory (q : QuadNo) (s : State) : (clkDivSettled q s).memory = s.memory := by
  unfold clkDivSettled
  split <;> simp
@[simp] theorem clkSelEffect_memory (q v : Nat) (s : State) : (clkSelEffect q v s).memory = s.memory := by
  simp [clkSelEffect]
@[simp] theorem clkSwitchDone_memory (q r : Nat) (s : State) : (clkSwitchDone q r s).memory = s.memory := by
  unfold clkSwitchDone
  split <;> simp
@[simp] theorem qdResetEffect_memory (q v : Nat) (s : State) : (qdResetEffect q v s).memory = s.memory := by
  simp [qdResetEffect]
@[simp] theorem setTrace_memory (s : State) (q : Nat) (f : TraceBuf → TraceBuf) :
    (s.setTrace q f).memory = s.memory := (rfl)
@[simp] theorem traceArmEffect_memory (q v : Nat) (s : State) : (traceArmEffect q v s).memory = s.memory := (rfl)
@[simp] theorem traceForceEffect_memory (q v : Nat) (s : State) : (traceForceEffect q v s).memory = s.memory := (rfl)
@[simp] theorem traceStopEffect_memory (q v : Nat) (s : State) : (traceStopEffect q v s).memory = s.memory := (rfl)
@[simp] theorem traceSetEffect_memory (q v : Nat) (s : State) : (traceSetEffect q v s).memory = s.memory := (rfl)
@[simp] theorem probeSelEffect_memory (q off : Nat) (data : List Byte) (s : State) :
    (probeSelEffect q off data s).memory = s.memory := (rfl)
@[simp] theorem traceEdge_memory (old : State) (q : Nat) (s : State) :
    (State.traceEdge old q s).memory = s.memory := (rfl)
@[simp] theorem traceTick_memory (old s : State) : (State.traceTick old s).memory = s.memory := by
  simp [State.traceTick]
@[simp] theorem traceTriggerNow_memory (q : Nat) (s : State) : (traceTriggerNow q s).memory = s.memory := by
  unfold traceTriggerNow
  dsimp only
  split <;> simp
@[simp] theorem traceStatus_memory (s : State) (q : Nat) : (s.traceStatus q).2.memory = s.memory := by
  unfold State.traceStatus
  dsimp only
  (repeat' split) <;> simp
@[simp] theorem laneEq_memory (p : Nat) (taps : List Int) (s : State) : (laneEq p taps s).memory = s.memory := by
  simp [laneEq]
@[simp] theorem recWrite_memory (p : Nat) (d : List Byte) (s : State) : (recWrite p d s).memory = s.memory := by
  unfold recWrite
  split <;> simp
@[simp] theorem fabricPortRequest_memory (q : Nat) (r : FabricReq) (s : State) :
    (fabricPortRequest q r s).memory = s.memory := by simp [fabricPortRequest]
@[simp] theorem userWriteEffect_memory (rq : Rq) (a : Addr) (data : List Byte) (s : State) :
    (userWriteEffect rq a data s).memory = s.memory := (rfl)
@[simp] theorem userObjectAnswer_memory (rq : Rq) (answer : Fin 3) (s : State) :
    (userObjectAnswer rq answer s).memory = s.memory := by
  unfold userObjectAnswer
  (repeat' split) <;> simp

/-! ### Loading -/

@[simp] theorem countLoad_memory (s : State) (k : LoadKind) (bytes blocks : Nat) :
    (s.countLoad k bytes blocks).memory = s.memory := by
  unfold State.countLoad
  split <;> simp
@[simp] theorem writeFrames_memory (s : State) (k : LoadKind) (l : List (Nat × List Byte)) :
    (s.writeFrames k l).memory = s.memory := by
  unfold State.writeFrames
  split <;> simp
@[simp] theorem beginUpsett_memory (s : State) : s.beginUpsett.memory = s.memory := by
  unfold State.beginUpsett
  (repeat' split) <;> simp
@[simp] theorem chunkEffect_memory (data : List Byte) (s : State) : (chunkEffect data s).2.memory = s.memory := by
  unfold chunkEffect
  dsimp only
  (repeat' split) <;> simp
@[simp] theorem cfgStalled_memory (s : State) : (cfgStalled s).memory = s.memory := by
  unfold cfgStalled
  split <;> simp
@[simp] theorem dissolve_memory (s : State) (i : Nat) : (s.dissolve i).memory = s.memory := by simp [State.dissolve]
@[simp] theorem dissolveAll_memory (s : State) : s.dissolveAll.memory = s.memory := by simp [State.dissolveAll]
@[simp] theorem eachRegion_memory (s : State) (f : Region → Region) : (s.eachRegion f).memory = s.memory := by
  simp [State.eachRegion]
@[simp] theorem beginFullEffect_memory (s : State) : (beginFullEffect s).memory = s.memory := by simp [beginFullEffect]
@[simp] theorem prEffect_memory (q r : Nat) (s : State) : (prEffect q r s).memory = s.memory := (rfl)
@[simp] theorem blankRegion_memory (s : State) (q r : Nat) : (s.blankRegion q r).memory = s.memory := (rfl)
@[simp] theorem prWipeDone_memory (q : QuadNo) (r : Fin 4) (s : State) : (prWipeDone q r s).memory = s.memory := by
  unfold prWipeDone
  split <;> simp
@[simp] theorem prFailWipeDone_memory (q : QuadNo) (r : Fin 4) (s : State) :
    (prFailWipeDone q r s).memory = s.memory := by simp [prFailWipeDone]
@[simp] theorem onRegions_memory (s : State) (k : LoadKind) (f : Region → Region) :
    (s.onRegions k f).memory = s.memory := by simp [State.onRegions]
@[simp] theorem upsettDone_memory (s : State) (l : Load) : (s.upsettDone l).memory = s.memory := by
  unfold State.upsettDone
  split <;> simp
@[simp] theorem upsettStep_memory (region : Option (Fin 16)) (code : Nat) (f : LoadKind → State → State) (s : State)
    (h : ∀ k t, (f k t).memory = t.memory) : (upsettStep region code f s).memory = s.memory := by
  unfold upsettStep
  split <;> simp [h]
@[simp] theorem lockTimeout_memory (region : Option (Fin 16)) (s : State) :
    (lockTimeout region s).memory = s.memory := by
  unfold lockTimeout
  split <;> simp
@[simp] theorem releaseOutputs_memory (k : LoadKind) (s : State) : (releaseOutputs k s).memory = s.memory := by
  unfold releaseOutputs
  split <;> simp
@[simp] theorem unloadConfig_memory (s : State) : s.unloadConfig.memory = s.memory := by simp [State.unloadConfig]
@[simp] theorem configWipeComplete_memory (s : State) : (configWipeComplete s).memory = s.memory := by
  simp [configWipeComplete]
@[simp] theorem frameMismatch_memory (a : Nat) (s : State) : (frameMismatch a s).memory = s.memory := by
  simp [frameMismatch]
@[simp] theorem keyRamEffect_memory (data : List Byte) (s : State) : (keyRamEffect data s).memory = s.memory := (rfl)
@[simp] theorem keyClearEffect_memory (s : State) : (keyClearEffect s).memory = s.memory := (rfl)

/-! ### Noc -/

@[simp] theorem nocShadowEffect_memory (off : Nat) (data : List Byte) (s : State) :
    (nocShadowEffect off data s).memory = s.memory := (rfl)
@[simp] theorem nocSwapEffect_memory (rq : Rq) (service : Nat) (a : Addr) (s : State) :
    (nocSwapEffect rq service a s).2.memory = s.memory := by
  unfold nocSwapEffect
  split <;> simp
@[simp] theorem nocDefaultEffect_memory (s : State) : (nocDefaultEffect s).memory = s.memory := (rfl)
@[simp] theorem nocBackpressureDone_memory (cycles : Fin 65) (s : State) :
    (nocBackpressureDone cycles s).memory = s.memory := by simp [nocBackpressureDone]
@[simp] theorem nocDrainDone_memory (s : State) : (nocDrainDone s).memory = s.memory := by simp [nocDrainDone]
@[simp] theorem linkFails_memory (s : State) (n l : Nat) : (s.linkFails n l).memory = s.memory := (rfl)
@[simp] theorem nocLinkRetry_memory (n l failures : Nat) (s : State) :
    (nocLinkRetry n l failures s).memory = s.memory := by simp [nocLinkRetry]
@[simp] theorem nocLinkDownTimeout_memory (n l : Nat) (s : State) : (nocLinkDownTimeout n l s).memory = s.memory := by
  simp [nocLinkDownTimeout]
@[simp] theorem nocLinkUp_memory (n l : Nat) (s : State) : (nocLinkUp n l s).memory = s.memory := by simp [nocLinkUp]
@[simp] theorem edgeAnswer_memory (s : State) (h : NocHead) (type count : Nat) (poison : Bool) (status : Nat) :
    (s.edgeAnswer h type count poison status).memory = s.memory := (rfl)
@[simp] theorem isolatedAnswer_memory (h : NocHead) (s : State) : (isolatedAnswer h s).memory = s.memory := by
  unfold isolatedAnswer
  dsimp only
  split <;> simp
@[simp] theorem routerStatus_memory (s : State) (n : Nat) : (s.routerStatus n).2.memory = s.memory := by
  unfold State.routerStatus
  dsimp only
  split <;> simp

/-! ### QuadPower -/

@[simp] theorem qdDownEffect_memory (q : Nat) (s : State) : (qdDownEffect q s).memory = s.memory := by
  unfold qdDownEffect
  (repeat' split) <;> simp
@[simp] theorem channelsOff_memory (s : State) (q : Nat) : (s.channelsOff q).memory = s.memory := by
  simp [State.channelsOff]
@[simp] theorem fenceDrainDone_memory (q : Nat) (s : State) : (fenceDrainDone q s).memory = s.memory := by
  simp [fenceDrainDone]
@[simp] theorem qdUpEffect_memory (q : Nat) (s : State) : (qdUpEffect q s).memory = s.memory := (rfl)
@[simp] theorem qdSwitchDone_memory (q : Nat) (s : State) : (qdSwitchDone q s).memory = s.memory := by
  simp [qdSwitchDone]
@[simp] theorem clearBundleCounters_memory (b : Nat) (s : State) : (clearBundleCounters b s).memory = s.memory := (rfl)
@[simp] theorem clearPortCounters_memory (p : Nat) (s : State) : (clearPortCounters p s).memory = s.memory := by
  simp [clearPortCounters]
@[simp] theorem restoreRegion_memory (q : Nat) (failed : List (Fin 4)) (r : Nat) (s : State) :
    (restoreRegion q failed r s).memory = s.memory := by simp [restoreRegion]
@[simp] theorem qdRestoreDone_memory (q : Nat) (failed : List (Fin 4)) (s : State) :
    (qdRestoreDone q failed s).memory = s.memory := by simp [qdRestoreDone]
@[simp] theorem qdPwrUpFailed_memory (q : Nat) (s : State) : (qdPwrUpFailed q s).memory = s.memory := by
  simp [qdPwrUpFailed]

/-! ### Inject -/

@[simp] theorem ijUnlockEffect_memory (v : Nat) (s : State) : (ijUnlockEffect v s).memory = s.memory := (rfl)
@[simp] theorem ijControlEffect_memory (v : Nat) (s : State) : (ijControlEffect v s).memory = s.memory := by
  simp [ijControlEffect]
@[simp] theorem ijAct_memory (target unit : Nat) (s : State) : (ijAct target unit s).memory = s.memory := by
  unfold ijAct
  split <;> simp
@[simp] theorem ijFired_memory (s : State) : (ijFired s).memory = s.memory := by simp [ijFired]

/-! ### Arm -/

@[simp] theorem armRead_memory (s : State) (a n : Nat) : (s.armRead a n).2.memory = s.memory := by
  unfold State.armRead
  dsimp only
  (repeat' split) <;> simp
theorem needs_memory (k : Nat) (x : Option (List Byte) × State)
    (f : List Byte → State → Except ArmFail StepRec × State) (m : Store Byte × Store (BitVec 32)) (hx : x.2.memory = m)
    (h : ∀ d t, t.memory = m → (f d t).2.memory = m) : (needs k x f).2.memory = m := by
  unfold needs
  split
  · exact h _ _ hx
  · exact hx
theorem unlessFails_memory (x : Option ArmFail) (s : State) (f : Except ArmFail StepRec × State)
    (m : Store Byte × Store (BitVec 32)) (hs : s.memory = m) (h : f.2.memory = m) : (unlessFails x s f).2.memory = m := by
  unfold unlessFails
  split
  · exact hs
  · exact h
@[simp] theorem armTiming_memory (s : State) (i : Nat) (x : Option (Nat × Nat)) :
    (s.armTiming i x).memory = s.memory := (rfl)
theorem stepEnd_memory (i k : Nat) (r first : StepRec) (s : State) : (stepEnd i k r first s).2.memory = s.memory := by
  refine unlessFails_memory _ _ _ _ rfl (unlessFails_memory _ _ _ _ rfl (needs_memory _ _ _ _ (by split <;> simp) ?_))
  intro d t ht
  exact unlessFails_memory _ _ _ _ ht (unlessFails_memory _ _ _ _ ht (unlessFails_memory _ _ _ _ ht ht))
theorem stepMiddle_memory (i k : Nat) (r first : StepRec) (s : State) : (stepMiddle i k r first s).2.memory = s.memory := by
  unfold stepMiddle
  dsimp only
  split
  · simp
  · refine needs_memory _ _ _ _ (by simp) (fun d t ht => unlessFails_memory _ _ _ _ ht (needs_memory _ _ _ _ ?_ ?_))
    · split <;> simp [ht]
    · intro d u hu
      exact unlessFails_memory _ _ _ _ (by simp [hu]) (by rw [stepEnd_memory, armTiming_memory, hu])
@[simp] theorem stepChecks_memory (i k : Nat) (first : Option StepRec) (s : State) :
    (stepChecks i k first s).2.memory = s.memory := by
  refine needs_memory _ _ _ _ (by simp) (fun e t ht => ?_)
  dsimp only
  split
  · exact ht
  · refine needs_memory _ _ _ _ (by split <;> simp [ht]) (fun d u hu => needs_memory _ _ _ _ (by simp [hu]) (fun d v hv => ?_))
    exact unlessFails_memory _ _ _ _ hv (unlessFails_memory _ _ _ _ hv (by rw [stepMiddle_memory, hv]))
@[simp] theorem allSteps_memory (i n k : Nat) (done : List StepRec) (s : State) :
    (allSteps i n k done s).2.memory = s.memory := by
  induction n generalizing k done s with
  | zero => rfl
  | succ n ih =>
    have h := stepChecks_memory i k done.head? s
    unfold allSteps
    split
    · simp_all
    · simp_all
@[simp] theorem validate_memory (i : Nat) (host : Bool) (s : State) : (validate i host s).2.memory = s.memory := by
  have h := allSteps_memory i (s.rd .siteStepCount i) 1 [] s
  unfold validate
  split
  · rfl
  · split
    · simp_all
    · split <;> simp_all
@[simp] theorem armResult_memory (s : State) (i : Nat) (f : ArmFail) : (s.armResult i f).memory = s.memory := (rfl)
@[simp] theorem armBegins_memory (s : State) (i : Nat) : (s.armBegins i).memory = s.memory := by simp [State.armBegins]
@[simp] theorem armPort_memory (keepTrain : Bool) (raw : List Nat) (p : Nat) (s : State) :
    (armPort keepTrain raw p s).memory = s.memory := by simp [armPort]
@[simp] theorem armBundle_memory (b : Nat) (s : State) : (armBundle b s).memory = s.memory := (rfl)
@[simp] theorem armed_memory (s : State) (i : Nat) (steps : List StepRec) : (s.armed i steps).memory = s.memory := by
  simp [State.armed]
@[simp] theorem armValidationDone_memory (i : Nat) (s : State) : (armValidationDone i s).memory = s.memory := by
  unfold armValidationDone
  dsimp only
  (repeat' split) <;> simp

/-! ### Site -/

@[simp] theorem siteBundlesEffect_memory (i v : Nat) (s : State) : (siteBundlesEffect i v s).memory = s.memory := by
  simp [siteBundlesEffect]
@[simp] theorem beginStep_memory (s : State) (i k t : Nat) : (s.beginStep i k t).memory = s.memory := by
  simp [State.beginStep]
@[simp] theorem startRun_memory (s : State) (i t : Nat) : (s.startRun i t).memory = s.memory := by simp [State.startRun]
@[simp] theorem resumeRun_memory (s : State) (i point : Nat) : (s.resumeRun i point).memory = s.memory := (rfl)
@[simp] theorem endRun_memory (s : State) (i : Nat) : (s.endRun i).memory = s.memory := by simp [State.endRun]
@[simp] theorem toTransition_memory (s : State) (i : Nat) : (s.toTransition i).memory = s.memory := by
  simp [State.toTransition]
@[simp] theorem stepEnds_memory (i : Nat) (s : State) : (stepEnds i s).memory = s.memory := by simp [stepEnds]
@[simp] theorem stepStart_memory (i : Nat) (s : State) : (stepStart i s).memory = s.memory := by simp [stepStart]
@[simp] theorem lockstepMiss_memory (i : Nat) (s : State) : (lockstepMiss i s).memory = s.memory := by
  simp [lockstepMiss]
@[simp] theorem armEffect_memory (rq : Rq) (service : Nat) (a : Addr) (i : Nat) (s : State) :
    (armEffect rq service a i s).memory = s.memory := by simp [armEffect]
@[simp] theorem armRefused_memory (i : Nat) (st : Status) (s : State) : (armRefused i st s).memory = s.memory := by
  simp [armRefused]
@[simp] theorem startEffect_memory (i : Nat) (s : State) : (startEffect i s).memory = s.memory := (rfl)
@[simp] theorem pauseEffect'_memory (i : Nat) (s : State) : (pauseEffect' i s).memory = s.memory := by
  simp [pauseEffect']
@[simp] theorem resumeEffect'_memory (i : Nat) (s : State) : (resumeEffect' i s).memory = s.memory := by
  simp [resumeEffect']
@[simp] theorem withoutFailed_memory (s : State) (i : Nat) : (s.withoutFailed i).memory = s.memory := by
  unfold State.withoutFailed
  dsimp only
  split <;> simp
@[simp] theorem disarmEffect_memory (i : Nat) (s : State) : (disarmEffect i s).memory = s.memory := by
  unfold disarmEffect
  split <;> simp
@[simp] theorem siteCommandEffect_memory (rq : Rq) (service : Nat) (a : Addr) (i v : Nat) (s : State) :
    (siteCommandEffect rq service a i v s).2.memory = s.memory := by
  unfold siteCommandEffect
  split <;> simp
@[simp] theorem allSites_memory (v : Nat) (f : Nat → State → State) (s : State)
    (h : ∀ i t, (f i t).memory = t.memory) : (allSites v f s).memory = s.memory := by simp [allSites, h]
@[simp] theorem siteStartEffect_memory (i : Nat) (s : State) : (siteStartEffect i s).memory = s.memory := by
  unfold siteStartEffect
  split <;> simp
@[simp] theorem pauseTakesEffect_memory (i : Nat) (s : State) : (pauseTakesEffect i s).memory = s.memory := by
  simp [pauseTakesEffect]
@[simp] theorem pauseBoundary_memory (i : Nat) (s : State) : (pauseBoundary i s).memory = s.memory := by
  simp [pauseBoundary]
@[simp] theorem memberEvent_memory (s : State) (e : Sched) (i point : Nat) :
    (s.memberEvent e i point).memory = s.memory := by
  unfold State.memberEvent
  split <;> simp
@[simp] theorem actEvent_memory (s : State) (e : Sched) : (s.actEvent e).2.memory = s.memory := by
  unfold State.actEvent
  dsimp only
  (repeat' split) <;> simp
@[simp] theorem warpEventDue_memory (s : State) : (warpEventDue s).memory = s.memory := by simp [warpEventDue]
@[simp] theorem dictAbort_memory (src : Src) (code : Nat) (s : State) : (dictAbort src code s).memory = s.memory := by
  unfold dictAbort
  dsimp only
  (repeat' split) <;> simp
@[simp] theorem pinAbort_memory (s : State) : (pinAbort s).memory = s.memory := by simp [pinAbort]
@[simp] theorem abortN_memory (lowNs : Nat) (s : State) : (abortN lowNs s).memory = s.memory := by
  unfold abortN
  dsimp only
  (repeat' split) <;> simp
@[simp] theorem loseBundle_memory (s : State) (b : Nat) : (s.loseBundle b).memory = s.memory := by
  simp [State.loseBundle]
@[simp] theorem bundleFault_memory (b : Nat) (sram : Bool) (s : State) : (bundleFault b sram s).memory = s.memory := by
  refine onlyIf_memory _ _ _ ?_
  dsimp only
  rw [each_memory _ _ _ (fun _ _ => setCtx_memory _ _ _)]
  split <;> simp
@[simp] theorem lostFrom_memory (s : State) (i cid : Nat) : (s.lostFrom i cid).2.memory = s.memory := by
  unfold State.lostFrom
  dsimp only
  (repeat' split) <;> simp

/-! ### Device -/

@[simp] theorem unloadEffect_memory (rq : Rq) (service : Nat) (a : Addr) (s : State) :
    (unloadEffect rq service a s).memory = s.memory := by simp [unloadEffect]
@[simp] theorem clearFaultEffect_memory (rq : Rq) (service : Nat) (a : Addr) (s : State) :
    (clearFaultEffect rq service a s).memory = s.memory := by simp [clearFaultEffect]
@[simp] theorem selfTestEffect_memory (s : State) : (selfTestEffect s).memory = s.memory := (rfl)
@[simp] theorem devCommandEffect_memory (rq : Rq) (service : Nat) (a : Addr) (v : Nat) (s : State) :
    (devCommandEffect rq service a v s).2.memory = s.memory := by
  unfold devCommandEffect
  split <;> simp
@[simp] theorem portTested_memory (s : State) (f : SelfTestFinds) (p : Nat) : (s.portTested f p).memory = s.memory := by
  simp [State.portTested]
@[simp] theorem retire_memory (s : State) (f : SelfTestFinds) (p : Nat) : (s.retire f p).memory = s.memory := by
  simp [State.retire]
@[simp] theorem bundleTested_memory (s : State) (failed : Bool) (b : Nat) :
    (s.bundleTested failed b).memory = s.memory := by simp [State.bundleTested]
@[simp] theorem selfTestDone_memory (f : SelfTestFinds) (s : State) : (selfTestDone f s).memory = s.memory := by
  simp [selfTestDone]

/-! ### Reads -/

@[simp] theorem freeBytes_memory (s : State) (n : Nat) : (s.freeBytes n).2.memory = s.memory := by
  induction n generalizing s with
  | zero => rfl
  | succ n ih => simp [State.freeBytes, ih]
@[simp] theorem copyImage_memory (s : State) (place : Nat) : (s.copyImage place).2.memory = s.memory := by
  unfold State.copyImage
  dsimp only
  (repeat' split) <;> simp
@[simp] theorem ledgerChunk_memory (s : State) (c : Nat) : (s.ledgerChunk c).2.memory = s.memory := by
  unfold State.ledgerChunk
  (repeat' split) <;> simp
@[simp] theorem ledgerChunks_memory (s : State) (c n : Nat) : (s.ledgerChunks c n).2.memory = s.memory := by
  induction n generalizing s c with
  | zero => rfl
  | succ n ih => simp [State.ledgerChunks, ih]
@[simp] theorem ledgerBytes_memory (s : State) (off n : Nat) : (s.ledgerBytes off n).2.memory = s.memory := by
  simp [State.ledgerBytes]
@[simp] theorem live_memory (s : State) (runs : Bool) (n : Nat) : (s.live runs n).2.memory = s.memory := by
  unfold State.live
  split <;> simp
@[simp] theorem readLive_memory (s : State) (o : Obj) (u k : Nat) : (s.readLive o u k).2.memory = s.memory := by
  unfold State.readLive
  split <;> simp
@[simp] theorem holdReads_memory (s : State) (q : Nat) : (s.holdReads q).memory = s.memory := by simp [State.holdReads]
@[simp] theorem readScalar_memory (s : State) (o : Obj) (u k : Nat) : (s.readScalar o u k).2.memory = s.memory := by
  unfold State.readScalar
  split <;> simp
@[simp] theorem readDom_memory (s : State) (o : Obj) (u k off n : Nat) :
    (s.readDom o u k off n).2.memory = s.memory := by
  unfold State.readDom
  split <;> simp
@[simp] theorem readValue_memory (s : State) (o : Obj) (u k : Nat) : (s.readValue o u k).2.memory = s.memory := by
  unfold State.readValue
  split <;> simp

/-! ### Checks -/

@[simp] theorem orFree_memory (s : State) (x : Option Bool) : (s.orFree x).2.memory = s.memory := by
  unfold State.orFree
  split <;> simp
@[simp] theorem settle_memory (s : State) (w : Put) (x : Extra) : (s.settle w x).2.memory = s.memory := by
  unfold State.settle
  dsimp only
  (repeat' split) <;> simp
@[simp] theorem refusedPut_memory (w : Put) (st : Status) (s : State) : (refusedPut w st s).memory = s.memory := by
  unfold refusedPut
  split <;> simp

/-! ### Effects -/

@[simp] theorem traceEffect_memory (q v : Nat) (s : State) : (traceEffect q v s).memory = s.memory := by
  unfold traceEffect
  split <;> simp
@[simp] theorem ctxCmdEffect_memory (rq : Rq) (service : Nat) (a : Addr) (b : BundleNo) (v : Nat) (s : State) :
    (ctxCmdEffect rq service a b v s).2.memory = s.memory := by
  unfold ctxCmdEffect
  dsimp only
  split <;> simp
@[simp] theorem putHold_memory (w : Put) (s : State) : (w.hold s).memory = s.memory := by simp [Put.hold]
@[simp] theorem logClearEffect_memory (s : State) : (logClearEffect s).memory = s.memory := (rfl)
@[simp] theorem qdCloseEffect_memory (q : Nat) (s : State) : (qdCloseEffect q s).memory = s.memory := by
  simp [qdCloseEffect]
@[simp] theorem stageEffect_memory (a : Addr) (w : Put) (s : State) : (stageEffect a w s).2.memory = s.memory := by
  unfold stageEffect
  dsimp only
  split <;> simp
@[simp] theorem discardStaged_memory (s : State) : (discardStaged s).memory = s.memory := (rfl)
@[simp] theorem commitEffect_memory (s : State) : (commitEffect s).2.memory = s.memory := by
  unfold commitEffect
  split
  · rfl
  · split <;> simp

/-! ### Services -/

@[simp] theorem serveAbort_memory (rq : Rq) (code : Nat) (s : State) : (serveAbort rq code s).2.memory = s.memory := by
  unfold serveAbort
  (repeat' split) <;> simp
@[simp] theorem serveOwner_memory (rq : Rq) (v : Nat) (s : State) : (serveOwner rq v s).2.memory = s.memory := by
  unfold serveOwner
  dsimp only
  (repeat' split) <;> simp
@[simp] theorem serveCommit_memory (rq : Rq) (v : Nat) (s : State) : (serveCommit rq v s).2.memory = s.memory := by
  unfold serveCommit
  dsimp only
  (repeat' split) <;> simp
@[simp] theorem serveUser_memory (rq : Rq) (a : Addr) (e : UserEntry) (data : List Byte) (s : State) :
    (serveUser rq a e data s).2.memory = s.memory := by
  unfold serveUser
  dsimp only
  split <;> simp
@[simp] theorem frontRefused_memory (n : Named) (st : Status) (data : List Byte) (s : State) :
    (frontRefused n st data s).memory = s.memory := by
  unfold frontRefused
  split <;> simp
@[simp] theorem readAt_memory (src : Src) (a : Addr) (len : Nat) (s : State) :
    (readAt src a len s).2.2.memory = s.memory := by
  unfold readAt
  dsimp only
  (repeat' split) <;> simp
@[simp] theorem formSegments_memory (o : Obj) (u k total : Nat) (l : List (Nat × Nat)) (s : State) :
    (formSegments o u k total l s).2.memory = s.memory := by
  induction l generalizing s with
  | nil => rfl
  | cons x l ih => simp [formSegments, ih]
@[simp] theorem readBlock_memory (src : Src) (a : Addr) (seg off total : Nat) (s : State) :
    (readBlock src a seg off total s).2.memory = s.memory := by
  unfold readBlock
  dsimp only
  (repeat' split) <;> simp
@[simp] theorem dropTransfer_memory (src : Src) (s : State) : (dropTransfer src s).memory = s.memory := (rfl)
@[simp] theorem dropFrame_memory (s : State) : (dropFrame s).memory = s.memory := (rfl)
@[simp] theorem hears_memory (s : State) (addr : BitVec 128) : (s.hears addr).memory = s.memory := by simp [State.hears]
@[simp] theorem arrives_memory (rq : Rq) (service : Nat) (a : Addr) (blk : Option (Nat × Nat)) (f : State → State) (s : State)
    (h : ∀ t, (f t).memory = t.memory) : (arrives rq service a blk f s).memory = s.memory := by
  unfold arrives
  split
  · exact h s
  · dsimp only
    split
    · rfl
    · split
      · rfl
      · split
        · rfl
        · split <;> simp [h]
@[simp] theorem answerNow_memory (rq : Rq) (service : Nat) (a : Addr) (blk : Option (Nat × Nat)) (r : Option Status × State) :
    (answerNow rq service a blk r).memory = r.2.memory := by
  unfold answerNow
  split <;> simp
@[simp] theorem doRead_memory (rq : Rq) (a : Addr) (len : Nat) (s : State) : (doRead rq a len s).memory = s.memory := by
  simp [doRead]
@[simp] theorem doBlockRead_memory (rq : Rq) (a : Addr) (seg off total : Nat) (s : State) :
    (doBlockRead rq a seg off total s).memory = s.memory := by simp [doBlockRead]
@[simp] theorem doHeartbeat_memory (rq : Rq) (token : List Byte) (s : State) : (doHeartbeat rq token s).memory = s.memory := by
  simp [doHeartbeat]
@[simp] theorem doIdentify_memory (rq : Rq) (len : Nat) (s : State) : (doIdentify rq len s).memory = s.memory := by
  simp [doIdentify]
@[simp] theorem subscribeSlot_memory (addr : BitVec 128) (port : BitVec 16) (mask : BitVec 64) (lease : Nat) (s :
    State) :
    (subscribeSlot addr port mask lease s).2.2.memory = s.memory := by
  unfold subscribeSlot
  (repeat' split) <;> simp
@[simp] theorem doSubscribe_memory (rq : Rq) (mask : BitVec 64) (port lease : BitVec 16) (s : State) :
    (doSubscribe rq mask port lease s).memory = s.memory :=
  arrives_memory _ _ _ _ _ _ (fun t => by split <;> simp)

/-! ### Requests -/

@[simp] theorem undo_memory (w : Waits) (s : State) : (undo w s).memory = s.memory := by
  unfold undo
  split <;> simp
@[simp] theorem serviceTimeout_memory (rq : Rq) (s : State) : (serviceTimeout rq s).memory = s.memory := by
  unfold serviceTimeout
  split <;> simp

/-! ### Host -/

@[simp] theorem subscribeFrame_memory (rq : Rq) (p : List Byte) (s : State) : (subscribeFrame rq p s).memory = s.memory := by
  unfold subscribeFrame
  split <;> simp
@[simp] theorem doorbellRelease_memory (slot : SlotNo) (s : State) : (doorbellRelease slot s).memory = s.memory := by
  simp [doorbellRelease]
@[simp] theorem mergeGranule_memory (a : Nat) (data : List Byte) (g : Nat) (s : State) :
    (mergeGranule a data g s).2.memory = s.memory := by
  unfold mergeGranule
  dsimp only
  (repeat' split) <;> simp
@[simp] theorem mergeAll_memory (a : Nat) (data : List Byte) (l : List Nat) (s : State) :
    (mergeAll a data l s).2.memory = s.memory := by
  induction l generalizing s with
  | nil => rfl
  | cons g l ih => simp [mergeAll, ih]
@[simp] theorem countProtected_memory (l : List Nat) (s : State) : (countProtected l s).memory = s.memory := by
  unfold countProtected
  split <;> simp
@[simp] theorem bar2Read_memory (a n : Nat) (s : State) : (bar2Read a n s).memory = s.memory := by simp [bar2Read]
@[simp] theorem queueEnable_memory (n : QueueNo) (base : BitVec 64) (size ctrl : BitVec 32) (s : State) :
    (queueEnable n base size ctrl s).memory = s.memory := by simp [queueEnable]
@[simp] theorem descStart_memory (n : QueueNo) (d : List Byte) (s : State) : (descStart n d s).memory = s.memory := by
  simp [descStart]
@[simp] theorem toHost_memory (x : Desc) (s : State) : (toHost x s).2.memory = s.memory := by simp [toHost]
@[simp] theorem finishDesc_memory (n : QueueNo) (x : Desc) (failed : Bool) (result : Nat) (s : State) :
    (finishDesc n x failed result s).memory = s.memory := by simp [finishDesc]
@[simp] theorem pcieLinkDown_memory (s : State) : (pcieLinkDown s).memory = s.memory := by simp [pcieLinkDown]

end Sys2Proof.Laws
end

section
/-! The operations that write GDDR7 keep its canonical form (R466, R467). -/
namespace Sys2Proof.Laws
open Sys2Proof.Machine

/-- Both stores of GDDR7 are in canonical form. -/
def Canonical (m : Store Byte × Store (BitVec 32)) : Prop :=
  Store.wf (fun _ => (0 : Byte)) m.1 = true ∧ Store.wf (fun _ => (0 : BitVec 32)) m.2 = true

/-- An operation on the state keeps the canonical form. -/
def KeepsCanonical (f : State → State) : Prop := ∀ s, Canonical s.memory → Canonical (f s).memory

theorem canonical_memory_iff (s : State) : Canonical s.memory ↔ Memory.wf s = true := (memory_wf_iff s).symm

@[simp] theorem canonical_ite_iff (c : Prop) [Decidable c] (m n : Store Byte × Store (BitVec 32)) :
    Canonical (if c then m else n) ↔ (c → Canonical m) ∧ (¬ c → Canonical n) := by split <;> simp [*]
@[simp] theorem onlyIf_canonical (s : State) (c : Bool) (f : State → State) (h : Canonical s.memory)
    (hf : Canonical (f s).memory) : Canonical (s.onlyIf c f).memory := by cases c <;> simpa [State.onlyIf]
@[simp] theorem each_canonical (s : State) (l : List Nat) (f : Nat → State → State) (h : Canonical s.memory)
    (hf : ∀ i t, Canonical t.memory → Canonical (f i t).memory) : Canonical (s.each l f).memory :=
  each_keeps (fun t => Canonical t.memory) l f (fun i t _ ht => hf i t ht) s h
@[simp] theorem foldl_canonical {α : Type} (l : List α) (f : State → α → State) (s : State) (h : Canonical s.memory)
    (hf : ∀ t x, Canonical t.memory → Canonical (f t x).memory) : Canonical (l.foldl f s).memory := by
  induction l generalizing s with
  | nil => exact h
  | cons x l ih => exact ih _ (hf s x h)
@[simp] theorem foldl_snd_canonical {α β : Type} (l : List α) (f : β × State → α → β × State) (e : β × State)
    (h : Canonical e.2.memory) (hf : ∀ e x, Canonical e.2.memory → Canonical (f e x).2.memory) :
    Canonical (l.foldl f e).2.memory := by
  induction l generalizing e with
  | nil => exact h
  | cons x l ih => exact ih _ (hf e x h)

@[simp] theorem putGranule_canonical (s : State) (g : Nat) (data : List Byte) (h : Canonical s.memory) :
    Canonical (s.putGranule g data).memory :=
  (canonical_memory_iff _).2 (putGranule_memory_wf s g data ((canonical_memory_iff s).1 h))
@[simp] theorem putCodeword_canonical (s : State) (g : Nat) (data : List Byte) (check : BitVec 32) (h : Canonical s.memory) :
    Canonical (s.putCodeword g data check).memory :=
  (canonical_memory_iff _).2 (putCodeword_memory_wf s g data check ((canonical_memory_iff s).1 h))
@[simp] theorem zeroFill_canonical (s : State) (c : Nat) (h : Canonical s.memory) : Canonical (s.zeroFill c).memory :=
  (canonical_memory_iff _).2 (zeroFill_memory_wf s c ((canonical_memory_iff s).1 h))
@[simp] theorem rawByte_canonical (s : State) (i p v : Nat) (h : Canonical s.memory) : Canonical (s.rawByte i p v).memory :=
  (canonical_memory_iff _).2 (rawByte_memory_wf s i p v ((canonical_memory_iff s).1 h))
@[simp] theorem resetMain_canonical (s : State) : Canonical s.resetMain.memory :=
  (canonical_memory_iff _).2 (resetMain_memory_wf s)

@[simp] theorem writeGranule_canonical (s : State) (g : Nat) (data : List Byte) (check : Option (BitVec 32))
    (h : Canonical s.memory) : Canonical (s.writeGranule g data check).2.memory := by
  unfold State.writeGranule
  split
  · cases check <;> simp [h]
  · exact h
@[simp] theorem modifyGroup_canonical (s : State) (grp : Nat) (covered : List Nat) (ups : List Upset) (h : Canonical s.memory) :
    Canonical (s.modifyGroup grp covered ups).memory :=
  each_canonical _ _ _ (by simpa) (fun g t ht => by simp [ht])
@[simp] theorem powerRelease_canonical (s : State) (h : Canonical s.memory) : Canonical (powerRelease s).memory := by
  unfold powerRelease
  split <;> simp [h]
@[simp] theorem scrubGroup_canonical (c : Nat) (ups : List Upset) (overtaken : Bool) (s : State) (h : Canonical s.memory) :
    Canonical (scrubGroup c ups overtaken s).memory := by
  refine onlyIf_canonical _ _ _ h ?_
  rw [scrubNext_memory]
  exact each_canonical _ _ _ h (fun g t ht => by simp [ht])
@[simp] theorem rawBits_canonical (s : State) (i p v n : Nat) (h : Canonical s.memory) : Canonical (s.rawBits i p v n).memory := by
  simp [State.rawBits, h]
@[simp] theorem rawCycle_canonical (s : State) (i : Nat) (it : StrobeItem) (o : Seen) (h : Canonical s.memory) :
    Canonical (s.rawCycle i it o).memory := by simp [State.rawCycle, h]
@[simp] theorem writeSome_canonical (s : State) (grans : List (Nat × List Byte × Option (BitVec 32))) (ups : List Upset)
    (h : Canonical s.memory) : Canonical (s.writeSome grans ups).2.memory := by
  refine foldl_snd_canonical _ _ _ (each_canonical _ _ _ h (fun grp t ht => by simp [ht])) (fun e x he => ?_)
  simpa using writeGranule_canonical _ _ _ _ he
@[simp] theorem toDevice_canonical (x : Desc) (data : List Byte) (s : State) (h : Canonical s.memory) :
    Canonical (toDevice x data s).2.memory := by simp [toDevice, h]
@[simp] theorem rawSymbols_canonical (s : State) (i p : Nat) (syms : List Nat) (h : Canonical s.memory) :
    Canonical (s.rawSymbols i p syms).memory := by
  unfold State.rawSymbols
  dsimp only
  split
  · exact h
  · exact foldl_canonical _ _ _ h (fun t x ht => rawBits_canonical _ _ _ _ _ ht)
@[simp] theorem writeGranules_canonical (s : State) (g : Nat) (grans : List (List Byte × Option (BitVec 32)))
    (ups : List Upset) (h : Canonical s.memory) : Canonical (s.writeGranules g grans ups).2.memory :=
  writeSome_canonical _ _ _ h
@[simp] theorem store_canonical (s : State) (a : Nat) (data : List Byte) (h : Canonical s.memory) :
    Canonical (s.store a data).2.memory := writeGranules_canonical _ _ _ _ h
@[simp] theorem bar2Write_canonical (a : Nat) (data : List Byte) (s : State) (h : Canonical s.memory) :
    Canonical (bar2Write a data s).memory := onlyIf_canonical _ _ _ h (by simp [h])
@[simp] theorem memAccess_canonical (write : Bool) (addr : Nat) (data : List Byte) (count : Nat) (ups : List Upset)
    (tries : Nat) (s : State) (h : Canonical s.memory) : Canonical (memAccess write addr data count ups tries s).memory :=
  onlyIf_canonical _ _ _ h (by simp [h])
@[simp] theorem performFabric_canonical (s : State) (q : Nat) (r : FabricReq) (h : Canonical s.memory) :
    Canonical (s.performFabric q r).memory := by
  unfold State.performFabric
  dsimp only
  split
  · simpa
  · split
    · split <;> simp [h]
    · simp [h]
@[simp] theorem settleBeat_canonical (s : State) (i : Nat) (x : CycleBeat) (h : Canonical s.memory) :
    Canonical (s.settleBeat i x).memory := by
  refine foldl_canonical _ _ _ (by simp [h]) (fun t p ht => ?_)
  split <;> simp [ht]
@[simp] theorem assertMainReset_canonical (s : State) : Canonical s.assertMainReset.memory := by simp [State.assertMainReset]
@[simp] theorem pgLost_canonical (input : Fin 8) (s : State) (h : Canonical s.memory) : Canonical (pgLost input s).memory := by
  simp [pgLost, h]
@[simp] theorem lineLoss_canonical (s : State) (h : Canonical s.memory) : Canonical (lineLoss s).memory := by
  simp [lineLoss, h]
@[simp] theorem fabricPortResponse_canonical (q : Nat) (tag : BitVec 8) (s : State) (h : Canonical s.memory) :
    Canonical (fabricPortResponse q tag s).memory := by
  unfold fabricPortResponse
  split <;> simp [h]
@[simp] theorem ringCommit_canonical (s : State) (i c : Nat) (h : Canonical s.memory) : Canonical (s.ringCommit i c).memory := by
  unfold State.ringCommit
  split <;> simp [h]
@[simp] theorem checkpointComplete_canonical (cid : Nat) (s : State) (h : Canonical s.memory) :
    Canonical (checkpointComplete cid s).memory := by
  unfold checkpointComplete
  split <;> simp [h]
@[simp] theorem settleSite_canonical (s : State) (i t : Nat) (h : Canonical s.memory) : Canonical (s.settleSite i t).memory := by
  unfold State.settleSite
  extract_lets done s1 s2 floor1 floor2 r floor3
  have h1 : Canonical s1.memory := foldl_canonical _ _ _ h (fun u x hu => settleBeat_canonical u i x hu)
  have h2 : s2.memory = s1.memory := by simp [s2]
  exact each_canonical _ _ _ (by rwa [h2]) (fun p u hu => by split <;> simpa)

@[simp] theorem commitAll_canonical (s : State) (i : Nat) (h : Canonical s.memory) : Canonical (s.commitAll i).memory := by
  exact foldl_canonical _ _ _ h (fun t c ht => ringCommit_canonical t i c ht)
@[simp] theorem edgeTick_canonical (s : State) (h : Canonical s.memory) : Canonical s.edgeTick.memory := by
  exact each_canonical _ _ _ h (fun i t ht => by simp [ht])
@[simp] theorem powerHold_canonical (s : State) : Canonical s.powerHold.memory := by simp [State.powerHold]
@[simp] theorem discardRecord_canonical (s : State) (i : Nat) (l : List (Nat × Nat)) (c : Nat) (d : Discarded)
    (h : Canonical s.memory) : Canonical (s.discardRecord i l c d).2.memory := by
  unfold State.discardRecord
  dsimp only
  split
  · exact h
  · split <;> simp [h]
@[simp] theorem afterAbort_canonical (s : State) (h : Canonical s.memory) : Canonical s.afterAbort.memory := by
  simp [State.afterAbort, h]
@[simp] theorem flushSite_canonical (s : State) (i : Nat) (h : Canonical s.memory) : Canonical (s.flushSite i).2.memory := by
  simp [State.flushSite, h]
@[simp] theorem nextTime_canonical (s : State) (h : Canonical s.memory) : Canonical s.nextTime.memory := by
  simp [State.nextTime, h]
@[simp] theorem powerDownEffect_canonical (s : State) (h : Canonical s.memory) : Canonical (powerDownEffect s).memory := by
  unfold powerDownEffect
  split <;> simp [h]
@[simp] theorem discardPass_canonical (i : Nat) (bundles : List Nat) (s : State) (h : Canonical s.memory) :
    Canonical (discardPass i bundles s).memory := by
  simp only [discardPass, raise_memory, setSite_memory, wr_memory]
  exact foldl_snd_canonical _ _ _ (by simp [h]) (fun e c he => discardRecord_canonical _ _ _ _ _ he)
@[simp] theorem thermalSample_canonical (raw : List (BitVec 16)) (rimTemp : BitVec 16) (s : State) (h : Canonical s.memory) :
    Canonical (thermalSample raw rimTemp s).memory := by
  unfold thermalSample
  extract_lets s0 temps now limit warn enters hot first s1 therm s2 s3 s4 low s5 s6 which s7
  have h0 : Canonical s0.memory := by simp [s0, h]
  have h2 : s2.memory = s0.memory := by simp [s2, s1]
  have h5 : s5.memory = s2.memory := by simp [s5, s4, s3]
  have h7 : s7.memory = s5.memory := by simp [s7, s6]
  have h7' : Canonical s7.memory := by rwa [h7, h5, h2]
  split
  · exact h0
  · split
    · extract_lets s8 off therm' s9 s10 rim' s11
      have h11 : s11.memory = s7.memory := by simp [s11, s10, s9, s8]
      simp [h7', h11]
    · exact h7'
@[simp] theorem trained_canonical (s : State) (c : Nat) (failed : List (Fin 32)) (other : Bool) (h : Canonical s.memory) :
    Canonical (s.trained c failed other).memory := by
  unfold State.trained
  dsimp only
  split
  · simp [h]
  · split <;> simp [h]
@[simp] theorem memInitDone_canonical (c : Nat) (failed : List (Fin 32)) (other : Bool) (offsets : List (BitVec 16)) (s : State)
    (h : Canonical s.memory) : Canonical (memInitDone c failed other offsets s).memory := by simp [memInitDone, h]
@[simp] theorem abortFlushDone_canonical (i : Nat) (s : State) (h : Canonical s.memory) :
    Canonical (abortFlushDone i s).memory := by simp [abortFlushDone, h]
@[simp] theorem discardDone_canonical (s : State) (h : Canonical s.memory) : Canonical (discardDone s).memory := by
  unfold discardDone
  split <;> simp [h]
@[simp] theorem retrainDone_canonical (c : Nat) (failed : List (Fin 32)) (other : Bool) (s : State) (h : Canonical s.memory) :
    Canonical (retrainDone c failed other s).memory := by simp [retrainDone, h]
@[simp] theorem putEffect_canonical (rq : Rq) (service : Nat) (a : Addr) (w : Put) (x : Extra) (s : State)
    (h : Canonical s.memory) : Canonical (putEffect rq service a w x s).2.memory := by
  unfold putEffect
  dsimp only
  split <;> simp [h]
@[simp] theorem cycleStart_canonical (i : Nat) (obs : List PortObs) (s : State) (h : Canonical s.memory) :
    Canonical (cycleStart i obs s).memory := by
  refine onlyIf_canonical _ _ _ h ?_
  dsimp only
  split <;> simp [h]
@[simp] theorem servePut_canonical (rq : Rq) (service : Nat) (a : Addr) (w : Put) (x : Extra) (s : State)
    (h : Canonical s.memory) : Canonical (servePut rq service a w x s).2.memory := by simp [servePut, h]
@[simp] theorem receiveLanes_canonical (s : State) (i : Nat) (w : SerWord) (rx : List LaneObs) (h : Canonical s.memory) :
    Canonical (s.receiveLanes i w rx).2.memory :=
  foldl_snd_canonical _ _ _ h (fun e p he => rawSymbols_canonical _ _ _ _ (by simpa))
@[simp] theorem serveNamed_canonical (rq : Rq) (service : Nat) (a : Addr) (n : Named) (off : Nat) (data : List Byte) (x : Extra)
    (s : State) (h : Canonical s.memory) : Canonical (serveNamed rq service a n off data x s).2.memory := by
  unfold serveNamed
  dsimp only
  split <;> simp [h]
@[simp] theorem writeBlock_canonical (rq : Rq) (a : Addr) (off : Nat) (data : List Byte) (s : State) (h : Canonical s.memory) :
    Canonical (writeBlock rq a off data s).2.memory := by simp [writeBlock, h]
@[simp] theorem blockSegment_canonical (rq : Rq) (a : Addr) (g : Segment) (s : State) (h : Canonical s.memory) :
    Canonical (blockSegment rq a g s).2.memory := by simp [blockSegment, h]
@[simp] theorem arrives_canonical (rq : Rq) (service : Nat) (a : Addr) (blk : Option (Nat × Nat)) (f : State → State) (s : State)
    (h : Canonical s.memory) (hf : ∀ t, Canonical t.memory → Canonical (f t).memory) :
    Canonical (arrives rq service a blk f s).memory := by
  unfold arrives
  split
  · exact hf s h
  · dsimp only
    split
    · exact h
    · split
      · exact h
      · split
        · exact h
        · split <;> simp [h, hf]
@[simp] theorem blockTo_canonical (rq : Rq) (o : Obj) (u off : Nat) (data : List Byte) (s : State) (h : Canonical s.memory) :
    Canonical (blockTo rq o u off data s).memory := arrives_canonical _ _ _ _ _ _ h (fun t ht => by simp [ht])
@[simp] theorem chunkTo_canonical (rq : Rq) (quad : Option QuadNo) (data : List Byte) (s : State) (h : Canonical s.memory) :
    Canonical (chunkTo rq quad data s).memory := by
  unfold chunkTo
  split <;> simp [h]
@[simp] theorem prbsLocked_canonical (o : LaneObs) (s : State) (h : Canonical s.memory) : Canonical (prbsLocked o s).memory := by
  refine onlyIf_canonical _ _ _ h ?_
  dsimp only
  split <;> simp [h]
@[simp] theorem compareWord_canonical (s : State) (i : Nat) (rx : List LaneObs) (h : Canonical s.memory) :
    Canonical (s.compareWord i rx).memory := by
  unfold State.compareWord
  split <;> simp [h]
@[simp] theorem writeValue_canonical (rq : Rq) (service : Nat) (a : Addr) (data : List Byte) (x : Extra) (s : State)
    (h : Canonical s.memory) : Canonical (writeValue rq service a data x s).2.memory := by simp [writeValue, h]
@[simp] theorem chunkResult_canonical (ctrl : BitVec 32) (data : List Byte) (s : State) (h : Canonical s.memory) :
    Canonical (chunkResult ctrl data s).2.memory := by simp [chunkResult, h]
@[simp] theorem doService_canonical (rq : Rq) (service : Nat) (a : Addr) (data : List Byte) (s : State) (h : Canonical s.memory) :
    Canonical (doService rq service a data s).memory := arrives_canonical _ _ _ _ _ _ h (fun t ht => by simp [ht])
@[simp] theorem doBlockWrite_canonical (rq : Rq) (a : Addr) (g : Segment) (s : State) (h : Canonical s.memory) :
    Canonical (doBlockWrite rq a g s).memory := arrives_canonical _ _ _ _ _ _ h (fun t ht => by simp [ht])
@[simp] theorem wordCycle_canonical (i : Nat) (rx : List LaneObs) (fab : Bool) (s : State) (h : Canonical s.memory) :
    Canonical (wordCycle i rx fab s).memory := by simp [wordCycle, h]
@[simp] theorem doAbort_canonical (rq : Rq) (code : Nat) (s : State) (h : Canonical s.memory) :
    Canonical (doAbort rq code s).memory := arrives_canonical _ _ _ _ _ _ h (fun t ht => by simp [ht])
@[simp] theorem doCommit_canonical (rq : Rq) (v : Nat) (s : State) (h : Canonical s.memory) :
    Canonical (doCommit rq v s).memory := arrives_canonical _ _ _ _ _ _ h (fun t ht => by simp [ht])
@[simp] theorem doWrite_canonical (rq : Rq) (a : Addr) (data : List Byte) (x : Extra) (s : State) (h : Canonical s.memory) :
    Canonical (doWrite rq a data x s).memory := arrives_canonical _ _ _ _ _ _ h (fun t ht => by simp [ht])
@[simp] theorem perform_canonical (ctrl : BitVec 32) (x : Desc) (data : List Byte) (failed : Bool) (s : State)
    (h : Canonical s.memory) : Canonical (perform ctrl x data failed s).2.memory := by
  unfold perform
  split <;> simp [h]
theorem serveFrame_keepsCanonical (src : Src) (f : List Byte) : KeepsCanonical (serveFrame src f) := by
  unfold serveFrame
  dsimp only
  split
  · exact fun s h => arrives_canonical _ _ _ _ _ _ h (fun t ht => by simpa)
  · split <;> exact fun s h => by simp [h]
@[simp] theorem serveFrame_canonical (src : Src) (f : List Byte) (s : State) (h : Canonical s.memory) :
    Canonical (serveFrame src f s).memory := serveFrame_keepsCanonical src f s h
@[simp] theorem mgtFrame_canonical (f : LineFrame) (s : State) (h : Canonical s.memory) : Canonical (mgtFrame f s).memory := by
  unfold mgtFrame
  split
  · exact h
  · cases f <;> simp [h]
@[simp] theorem writeTo_canonical (rq : Rq) (o : Obj) (u k v : Nat) (x : Extra) (s : State) (h : Canonical s.memory) :
    Canonical (writeTo rq o u k v x s).memory := doWrite_canonical _ _ _ _ _ h
@[simp] theorem traceCommandTo_canonical (rq : Rq) (q v cmd : Nat) (s : State) (h : Canonical s.memory) :
    Canonical (traceCommandTo rq q v cmd s).memory := writeTo_canonical _ _ _ _ _ _ _ h
@[simp] theorem memCommand_canonical (rq : Rq) (op chan lane : Nat) (s : State) (h : Canonical s.memory) :
    Canonical (memCommand rq op chan lane s).memory := writeTo_canonical _ _ _ _ _ _ _ h
@[simp] theorem sendEvent_canonical (rq : Rq) (type group : Nat) (s : State) (h : Canonical s.memory) :
    Canonical (sendEvent rq type group s).memory := writeTo_canonical _ _ _ _ _ _ _ h
@[simp] theorem descComplete_canonical (n : QueueNo) (hostData : List Byte) (hostError : Bool) (s : State)
    (h : Canonical s.memory) : Canonical (descComplete n hostData hostError s).memory := by
  unfold descComplete
  dsimp only
  split <;> simp [h]
@[simp] theorem doorbellSubmit_canonical (slot : SlotNo) (frame : List Byte) (s : State) (h : Canonical s.memory) :
    Canonical (doorbellSubmit slot frame s).memory := by simp [doorbellSubmit, h]

end Sys2Proof.Laws
end

section
/-! What every step keeps: the commands that wait, the fused values, and the canonical form of GDDR7; and that no event
stays undelivered (R27, R466, R467, R531). -/
namespace Sys2Proof.Laws
open Sys2Proof.Machine Sys2Proof.Safety

/-- The outcome of a command: it goes on, with the queue and the fused values as they were, every event delivered, and
GDDR7 in canonical form if it was. -/
def Kept (s : State) (o : Out) : Prop :=
  ∃ t, o = .next t ∧ t.pending = s.pending ∧ t.fuses = s.fuses ∧ t.evt.now = [] ∧ (Canonical s.memory → Canonical t.memory)

theorem run_kept (f : State → State) (s : State) (hf : KeepsCanonical f) : Kept s (run f s) := by
  refine ⟨_, rfl, rfl, rfl, deliver_now _, fun hs => ?_⟩
  rw [keepFixed_memory, deliver_memory]
  exact hf { s with out := [] } hs

theorem memRun_kept (f : State → State) (s : State) (hf : KeepsCanonical f) : Kept s (memRun f s) :=
  run_kept _ _ (fun t ht => by simpa using hf t ht)

/-- Every row of the table is `run` or `memRun` of an effect, and each effect keeps the canonical form. -/
theorem exec_kept (c : Instr) (s : State) : Kept s (exec c s) := by
  cases c with
  | write rq addr data => exact (memRun_kept _ _ (fun t h => by simp [h]) : Kept s (execWrite rq addr data s))
  | read rq addr len => exact (run_kept _ _ (fun t h => by simp [h]) : Kept s (execRead rq addr len s))
  | blockRead rq addr seg offset total =>
    exact (run_kept _ _ (fun t h => by simp [h]) : Kept s (execBlockRead rq addr seg offset total s))
  | blockWrite rq addr seg => exact (run_kept _ _ (fun t h => by simp [h]) : Kept s (execBlockWrite rq addr seg s))
  | blockWriteIdleTimeout src =>
    exact (run_kept _ _ (fun t h => by simp [h]) : Kept s (execBlockWriteIdleTimeout src s))
  | serviceTimeout rq => exact (run_kept _ _ (fun t h => by simp [h]) : Kept s (execServiceTimeout rq s))
  | stagedWrite rq addr data =>
    exact (run_kept _ _ (fun t h => by simp [h]) : Kept s (execStagedWrite rq addr data s))
  | groupCommit rq => exact (run_kept _ _ (fun t h => by simp [h]) : Kept s (execGroupCommit rq s))
  | groupDiscard rq => exact (run_kept _ _ (fun t h => by simp [h]) : Kept s (execGroupDiscard rq s))
  | controlOwnerWrite rq value =>
    exact (run_kept _ _ (fun t h => by simp [h]) : Kept s (execControlOwnerWrite rq value s))
  | ownerRevert => exact (run_kept _ _ (fun t h => by simp [h]) : Kept s (execOwnerRevert s))
  | heartbeat rq token => exact (run_kept _ _ (fun t h => by simp [h]) : Kept s (execHeartbeat rq token s))
  | identify rq len => exact (run_kept _ _ (fun t h => by simp [h]) : Kept s (execIdentify rq len s))
  | subscribe rq mask port lease =>
    exact (run_kept _ _ (fun t h => by simp [h]) : Kept s (execSubscribe rq mask port lease s))
  | subscriptionLeaseExpiry slot =>
    exact (run_kept _ _ (fun t h => by simp [h]) : Kept s (execSubscriptionLeaseExpiry slot s))
  | mgtFrameReceive frame => exact (memRun_kept _ _ (fun t h => by simp [h]) : Kept s (execMgtFrameReceive frame s))
  | abort rq code => exact (run_kept _ _ (fun t h => by simp [h]) : Kept s (execAbort rq code s))
  | abortN lowNs => exact (run_kept _ _ (fun t h => by simp [h]) : Kept s (execAbortN lowNs s))
  | abortFlushDone site => exact (memRun_kept _ _ (fun t h => by simp [h]) : Kept s (execAbortFlushDone site s))
  | abortFlushDeadline site => exact (run_kept _ _ (fun t h => by simp [h]) : Kept s (execAbortFlushDeadline site s))
  | pauseAll rq => exact (run_kept _ _ (fun t h => by simp [h]) : Kept s (execPauseAll rq s))
  | resumeAll rq => exact (run_kept _ _ (fun t h => by simp [h]) : Kept s (execResumeAll rq s))
  | clearFault rq causeCleared =>
    exact (run_kept _ _ (fun t h => by simp [h]) : Kept s (execClearFault rq causeCleared s))
  | unload rq => exact (run_kept _ _ (fun t h => by simp [h]) : Kept s (execUnload rq s))
  | configWipeComplete micros =>
    exact (run_kept _ _ (fun t h => by simp [h]) : Kept s (execConfigWipeComplete micros s))
  | selfTest rq => exact (run_kept _ _ (fun t h => by simp [h]) : Kept s (execSelfTest rq s))
  | selfTestDone finds => exact (run_kept _ _ (fun t h => by simp [h]) : Kept s (execSelfTestDone finds s))
  | siteBundlesWrite rq site mask =>
    exact (run_kept _ _ (fun t h => by simp [h]) : Kept s (execSiteBundlesWrite rq site mask s))
  | arm rq site => exact (run_kept _ _ (fun t h => by simp [h]) : Kept s (execArm rq site s))
  | armValidationDone site => exact (memRun_kept _ _ (fun t h => by simp [h]) : Kept s (execArmValidationDone site s))
  | start rq site => exact (run_kept _ _ (fun t h => by simp [h]) : Kept s (execStart rq site s))
  | siteStartEffect site => exact (run_kept _ _ (fun t h => by simp [h]) : Kept s (execSiteStartEffect site s))
  | pause rq site => exact (run_kept _ _ (fun t h => by simp [h]) : Kept s (execPause rq site s))
  | pauseEffect site => exact (run_kept _ _ (fun t h => by simp [h]) : Kept s (execPauseEffect site s))
  | pauseBoundary site => exact (run_kept _ _ (fun t h => by simp [h]) : Kept s (execPauseBoundary site s))
  | resume rq site => exact (run_kept _ _ (fun t h => by simp [h]) : Kept s (execResume rq site s))
  | resumeEffect site => exact (run_kept _ _ (fun t h => by simp [h]) : Kept s (execResumeEffect site s))
  | disarm rq site => exact (run_kept _ _ (fun t h => by simp [h]) : Kept s (execDisarm rq site s))
  | siteAbort rq site => exact (run_kept _ _ (fun t h => by simp [h]) : Kept s (execSiteAbort rq site s))
  | stepEnd site => exact (run_kept _ _ (fun t h => by simp [h]) : Kept s (execStepEnd site s))
  | stepStart site => exact (run_kept _ _ (fun t h => by simp [h]) : Kept s (execStepStart site s))
  | lockstepMiss site => exact (run_kept _ _ (fun t h => by simp [h]) : Kept s (execLockstepMiss site s))
  | resetNFall => exact (run_kept _ _ (fun t h => by simp [h]) : Kept s (execResetNFall s))
  | resetNRise => exact (run_kept _ _ (fun t h => by simp [h]) : Kept s (execResetNRise s))
  | deviceWideFault cause => exact (run_kept _ _ (fun t h => by simp [h]) : Kept s (execDeviceWideFault cause s))
  | bundleFault bundle sram => exact (run_kept _ _ (fun t h => by simp [h]) : Kept s (execBundleFault bundle sram s))
  | spanBlankEnd port dac => exact (run_kept _ _ (fun t h => by simp [h]) : Kept s (execSpanBlankEnd port dac s))
  | pmuLimitReached seen => exact (run_kept _ _ (fun t h => by simp [h]) : Kept s (execPmuLimitReached seen s))
  | drvLimitReached seen => exact (run_kept _ _ (fun t h => by simp [h]) : Kept s (execDrvLimitReached seen s))
  | portStatusClear rq port value =>
    exact (run_kept _ _ (fun t h => by simp [h]) : Kept s (execPortStatusClear rq port value s))
  | poolCellsWrite rq bundle offset data =>
    exact (run_kept _ _ (fun t h => by simp [h]) : Kept s (execPoolCellsWrite rq bundle offset data s))
  | poolBlankEnd bundle cell =>
    exact (run_kept _ _ (fun t h => by simp [h]) : Kept s (execPoolBlankEnd bundle cell s))
  | poolLinkClose rq bundle node cell terminal =>
    exact (run_kept _ _ (fun t h => by simp [h]) : Kept s (execPoolLinkClose rq bundle node cell terminal s))
  | poolLinkOpen rq bundle cell terminal =>
    exact (run_kept _ _ (fun t h => by simp [h]) : Kept s (execPoolLinkOpen rq bundle cell terminal s))
  | poolWaveWrite rq bundle offset data =>
    exact (run_kept _ _ (fun t h => by simp [h]) : Kept s (execPoolWaveWrite rq bundle offset data s))
  | measConfigWrite rq bundle value =>
    exact (run_kept _ _ (fun t h => by simp [h]) : Kept s (execMeasConfigWrite rq bundle value s))
  | measInputSelect rq bundle input =>
    exact (run_kept _ _ (fun t h => by simp [h]) : Kept s (execMeasInputSelect rq bundle input s))
  | sync rq bundle => exact (run_kept _ _ (fun t h => by simp [h]) : Kept s (execSync rq bundle s))
  | swap rq bundle target fadeLen =>
    exact (run_kept _ _ (fun t h => by simp [h]) : Kept s (execSwap rq bundle target fadeLen s))
  | measCoefWrite rq bundle offset data =>
    exact (run_kept _ _ (fun t h => by simp [h]) : Kept s (execMeasCoefWrite rq bundle offset data s))
  | measOutput bundle samples =>
    exact (run_kept _ _ (fun t h => by simp [h]) : Kept s (execMeasOutput bundle samples s))
  | warpRoleWrite rq value => exact (run_kept _ _ (fun t h => by simp [h]) : Kept s (execWarpRoleWrite rq value s))
  | timebaseLocked => exact (run_kept _ _ (fun t h => by simp [h]) : Kept s (execTimebaseLocked s))
  | tbrefLost => exact (run_kept _ _ (fun t h => by simp [h]) : Kept s (execTbrefLost s))
  | tbrefReturn => exact (run_kept _ _ (fun t h => by simp [h]) : Kept s (execTbrefReturn s))
  | lineRatioWrite rq bundle value =>
    exact (run_kept _ _ (fun t h => by simp [h]) : Kept s (execLineRatioWrite rq bundle value s))
  | lineSettled bundle => exact (run_kept _ _ (fun t h => by simp [h]) : Kept s (execLineSettled bundle s))
  | warpTimeCode set => exact (run_kept _ _ (fun t h => by simp [h]) : Kept s (execWarpTimeCode set s))
  | warpEcho out seq flags check sub =>
    exact (run_kept _ _ (fun t h => by simp [h]) : Kept s (execWarpEcho out seq flags check sub s))
  | warpSync above mark time =>
    exact (run_kept _ _ (fun t h => by simp [h]) : Kept s (execWarpSync above mark time s))
  | warpStart above mark group time =>
    exact (run_kept _ _ (fun t h => by simp [h]) : Kept s (execWarpStart above mark group time s))
  | warpPause above mark group time =>
    exact (run_kept _ _ (fun t h => by simp [h]) : Kept s (execWarpPause above mark group time s))
  | warpAbort above mark group time =>
    exact (run_kept _ _ (fun t h => by simp [h]) : Kept s (execWarpAbort above mark group time s))
  | warpHold above mark time =>
    exact (run_kept _ _ (fun t h => by simp [h]) : Kept s (execWarpHold above mark time s))
  | warpEventDue => exact (run_kept _ _ (fun t h => by simp [h]) : Kept s (execWarpEventDue s))
  | warpLoss why => exact (run_kept _ _ (fun t h => by simp [h]) : Kept s (execWarpLoss why s))
  | warpLinkLocked => exact (run_kept _ _ (fun t h => by simp [h]) : Kept s (execWarpLinkLocked s))
  | warpAligned => exact (run_kept _ _ (fun t h => by simp [h]) : Kept s (execWarpAligned s))
  | eventSendSync rq group => exact (run_kept _ _ (fun t h => by simp [h]) : Kept s (execEventSendSync rq group s))
  | eventSendStart rq group => exact (run_kept _ _ (fun t h => by simp [h]) : Kept s (execEventSendStart rq group s))
  | eventSendPause rq group => exact (run_kept _ _ (fun t h => by simp [h]) : Kept s (execEventSendPause rq group s))
  | eventSendHold rq group => exact (run_kept _ _ (fun t h => by simp [h]) : Kept s (execEventSendHold rq group s))
  | warpChar rq value => exact (run_kept _ _ (fun t h => by simp [h]) : Kept s (execWarpChar rq value s))
  | warpCharDone delay => exact (run_kept _ _ (fun t h => by simp [h]) : Kept s (execWarpCharDone delay s))
  | cycleStart site obs => exact (memRun_kept _ _ (fun t h => by simp [h]) : Kept s (execCycleStart site obs s))
  | instructionIssue site rx fab =>
    exact (run_kept _ _ (fun t h => by simp [h]) : Kept s (execInstructionIssue site rx fab s))
  | next cid => exact (run_kept _ _ (fun t h => by simp [h]) : Kept s (execNext cid s))
  | jump cid target => exact (run_kept _ _ (fun t h => by simp [h]) : Kept s (execJump cid target s))
  | branch cid sel target xw yw bw fab =>
    exact (run_kept _ _ (fun t h => by simp [h]) : Kept s (execBranch cid sel target xw yw bw fab s))
  | loop cid k target => exact (run_kept _ _ (fun t h => by simp [h]) : Kept s (execLoop cid k target s))
  | setlc cid k imm => exact (run_kept _ _ (fun t h => by simp [h]) : Kept s (execSetlc cid k imm s))
  | call cid target => exact (run_kept _ _ (fun t h => by simp [h]) : Kept s (execCall cid target s))
  | ret cid => exact (run_kept _ _ (fun t h => by simp [h]) : Kept s (execRet cid s))
  | wait cid kind imm => exact (run_kept _ _ (fun t h => by simp [h]) : Kept s (execWait cid kind imm s))
  | waitTimerExpiry cid => exact (run_kept _ _ (fun t h => by simp [h]) : Kept s (execWaitTimerExpiry cid s))
  | waitDrainDone cid => exact (run_kept _ _ (fun t h => by simp [h]) : Kept s (execWaitDrainDone cid s))
  | waitFabricEvent site level =>
    exact (run_kept _ _ (fun t h => by simp [h]) : Kept s (execWaitFabricEvent site level s))
  | spawn cid imm => exact (run_kept _ _ (fun t h => by simp [h]) : Kept s (execSpawn cid imm s))
  | setreg cid reg imm => exact (run_kept _ _ (fun t h => by simp [h]) : Kept s (execSetreg cid reg imm s))
  | halt cid => exact (run_kept _ _ (fun t h => by simp [h]) : Kept s (execHalt cid s))
  | haltDone cid => exact (run_kept _ _ (fun t h => by simp [h]) : Kept s (execHaltDone cid s))
  | checkpoint cid => exact (run_kept _ _ (fun t h => by simp [h]) : Kept s (execCheckpoint cid s))
  | checkpointComplete cid => exact (memRun_kept _ _ (fun t h => by simp [h]) : Kept s (execCheckpointComplete cid s))
  | calBoundary site => exact (run_kept _ _ (fun t h => by simp [h]) : Kept s (execCalBoundary site s))
  | fabTrigger site => exact (run_kept _ _ (fun t h => by simp [h]) : Kept s (execFabTrigger site s))
  | patternCacheFill site line =>
    exact (memRun_kept _ _ (fun t h => by simp [h]) : Kept s (execPatternCacheFill site line s))
  | load rq bundle count first src =>
    exact (memRun_kept _ _ (fun t h => by simp [h]) : Kept s (execLoad rq bundle count first src s))
  | free rq bundle count first =>
    exact (run_kept _ _ (fun t h => by simp [h]) : Kept s (execFree rq bundle count first s))
  | restore rq bundle count first src =>
    exact (memRun_kept _ _ (fun t h => by simp [h]) : Kept s (execRestore rq bundle count first src s))
  | ctxCmdDone bundle => exact (run_kept _ _ (fun t h => by simp [h]) : Kept s (execCtxCmdDone bundle s))
  | act site ck => exact (run_kept _ _ (fun t h => by simp [h]) : Kept s (execAct site ck s))
  | rd site ck => exact (run_kept _ _ (fun t h => by simp [h]) : Kept s (execRd site ck s))
  | wr site ck => exact (run_kept _ _ (fun t h => by simp [h]) : Kept s (execWr site ck s))
  | rda site ck => exact (run_kept _ _ (fun t h => by simp [h]) : Kept s (execRda site ck s))
  | wra site ck => exact (run_kept _ _ (fun t h => by simp [h]) : Kept s (execWra site ck s))
  | pre site ck => exact (run_kept _ _ (fun t h => by simp [h]) : Kept s (execPre site ck s))
  | prea site ck => exact (run_kept _ _ (fun t h => by simp [h]) : Kept s (execPrea site ck s))
  | ref site ck => exact (run_kept _ _ (fun t h => by simp [h]) : Kept s (execRef site ck s))
  | refsb site ck => exact (run_kept _ _ (fun t h => by simp [h]) : Kept s (execRefsb site ck s))
  | mrw site ck => exact (run_kept _ _ (fun t h => by simp [h]) : Kept s (execMrw site ck s))
  | mrr site ck => exact (run_kept _ _ (fun t h => by simp [h]) : Kept s (execMrr site ck s))
  | des site ck => exact (run_kept _ _ (fun t h => by simp [h]) : Kept s (execDes site ck s))
  | pde site ck => exact (run_kept _ _ (fun t h => by simp [h]) : Kept s (execPde site ck s))
  | pdx site ck => exact (run_kept _ _ (fun t h => by simp [h]) : Kept s (execPdx site ck s))
  | sre site ck => exact (run_kept _ _ (fun t h => by simp [h]) : Kept s (execSre site ck s))
  | srx site ck => exact (run_kept _ _ (fun t h => by simp [h]) : Kept s (execSrx site ck s))
  | zqcal site ck => exact (run_kept _ _ (fun t h => by simp [h]) : Kept s (execZqcal site ck s))
  | train site ck => exact (run_kept _ _ (fun t h => by simp [h]) : Kept s (execTrain site ck s))
  | trainDone site failed => exact (run_kept _ _ (fun t h => by simp [h]) : Kept s (execTrainDone site failed s))
  | ucodeEnd site => exact (run_kept _ _ (fun t h => by simp [h]) : Kept s (execUcodeEnd site s))
  | ucodeCmd site ck => exact (run_kept _ _ (fun t h => by simp [h]) : Kept s (execUcodeCmd site ck s))
  | ucodeWait site => exact (run_kept _ _ (fun t h => by simp [h]) : Kept s (execUcodeWait site s))
  | ucodeWaitExpiry site => exact (run_kept _ _ (fun t h => by simp [h]) : Kept s (execUcodeWaitExpiry site s))
  | ucodeSweep site => exact (run_kept _ _ (fun t h => by simp [h]) : Kept s (execUcodeSweep site s))
  | sweepEnd site passes => exact (run_kept _ _ (fun t h => by simp [h]) : Kept s (execSweepEnd site passes s))
  | ucodePattern site => exact (run_kept _ _ (fun t h => by simp [h]) : Kept s (execUcodePattern site s))
  | ucodeLoop site => exact (run_kept _ _ (fun t h => by simp [h]) : Kept s (execUcodeLoop site s))
  | refreshDebtAccrue site rank =>
    exact (run_kept _ _ (fun t h => by simp [h]) : Kept s (execRefreshDebtAccrue site rank s))
  | refreshInsert site target ck =>
    exact (run_kept _ _ (fun t h => by simp [h]) : Kept s (execRefreshInsert site target ck s))
  | readBurstCompare site beats =>
    exact (run_kept _ _ (fun t h => by simp [h]) : Kept s (execReadBurstCompare site beats s))
  | dutError site kind burst port ck =>
    exact (run_kept _ _ (fun t h => by simp [h]) : Kept s (execDutError site kind burst port ck s))
  | injArm rq bundle => exact (run_kept _ _ (fun t h => by simp [h]) : Kept s (execInjArm rq bundle s))
  | injDisarm rq bundle => exact (run_kept _ _ (fun t h => by simp [h]) : Kept s (execInjDisarm rq bundle s))
  | injOneShot rq bundle => exact (run_kept _ _ (fun t h => by simp [h]) : Kept s (execInjOneShot rq bundle s))
  | injTransactionArrival site =>
    exact (run_kept _ _ (fun t h => by simp [h]) : Kept s (execInjTransactionArrival site s))
  | reorderWindowTimeout site =>
    exact (run_kept _ _ (fun t h => by simp [h]) : Kept s (execReorderWindowTimeout site s))
  | ringWrite bundle => exact (run_kept _ _ (fun t h => by simp [h]) : Kept s (execRingWrite bundle s))
  | recordCommit site count =>
    exact (memRun_kept _ _ (fun t h => by simp [h]) : Kept s (execRecordCommit site count s))
  | capReadWrite rq bundle value =>
    exact (run_kept _ _ (fun t h => by simp [h]) : Kept s (execCapReadWrite rq bundle value s))
  | laneLockAcquired port => exact (run_kept _ _ (fun t h => by simp [h]) : Kept s (execLaneLockAcquired port s))
  | laneLockLoss port => exact (run_kept _ _ (fun t h => by simp [h]) : Kept s (execLaneLockLoss port s))
  | laneElastic port full => exact (run_kept _ _ (fun t h => by simp [h]) : Kept s (execLaneElastic port full s))
  | markerAligned port => exact (run_kept _ _ (fun t h => by simp [h]) : Kept s (execMarkerAligned port s))
  | laneDeskew port arrivals =>
    exact (run_kept _ _ (fun t h => by simp [h]) : Kept s (execLaneDeskew port arrivals s))
  | prbsLocked port samples odd own =>
    exact (run_kept _ _ (fun t h => by simp [h]) : Kept s (execPrbsLocked port samples odd own s))
  | adaptDone port taps => exact (run_kept _ _ (fun t h => by simp [h]) : Kept s (execAdaptDone port taps s))
  | txeqWrite rq port value => exact (run_kept _ _ (fun t h => by simp [h]) : Kept s (execTxeqWrite rq port value s))
  | rxeqWrite rq port offset data =>
    exact (run_kept _ _ (fun t h => by simp [h]) : Kept s (execRxeqWrite rq port offset data s))
  | laneEq port pre2 pre1 post1 post2 =>
    exact (run_kept _ _ (fun t h => by simp [h]) : Kept s (execLaneEq port pre2 pre1 post1 post2 s))
  | temperatureSample bundle temp =>
    exact (run_kept _ _ (fun t h => by simp [h]) : Kept s (execTemperatureSample bundle temp s))
  | vrefCheck microvolts => exact (run_kept _ _ (fun t h => by simp [h]) : Kept s (execVrefCheck microvolts s))
  | calRequestCancel rq port =>
    exact (run_kept _ _ (fun t h => by simp [h]) : Kept s (execCalRequestCancel rq port s))
  | calRequestLive rq port => exact (run_kept _ _ (fun t h => by simp [h]) : Kept s (execCalRequestLive rq port s))
  | calRequestOffline rq port =>
    exact (run_kept _ _ (fun t h => by simp [h]) : Kept s (execCalRequestOffline rq port s))
  | clearSub rq bundle slot => exact (run_kept _ _ (fun t h => by simp [h]) : Kept s (execClearSub rq bundle slot s))
  | calCycleStart bundle => exact (run_kept _ _ (fun t h => by simp [h]) : Kept s (execCalCycleStart bundle s))
  | calPrepareDone bundle finds =>
    exact (run_kept _ _ (fun t h => by simp [h]) : Kept s (execCalPrepareDone bundle finds s))
  | calListenDone bundle stats =>
    exact (run_kept _ _ (fun t h => by simp [h]) : Kept s (execCalListenDone bundle stats s))
  | calListenLimit bundle transitions =>
    exact (run_kept _ _ (fun t h => by simp [h]) : Kept s (execCalListenLimit bundle transitions s))
  | calTakeover bundle => exact (run_kept _ _ (fun t h => by simp [h]) : Kept s (execCalTakeover bundle s))
  | calCalibrateDone bundle finds =>
    exact (run_kept _ _ (fun t h => by simp [h]) : Kept s (execCalCalibrateDone bundle finds s))
  | calRejoinDone bundle => exact (run_kept _ _ (fun t h => by simp [h]) : Kept s (execCalRejoinDone bundle s))
  | calReturn bundle => exact (run_kept _ _ (fun t h => by simp [h]) : Kept s (execCalReturn bundle s))
  | calSurveyListen bundle slot stats =>
    exact (run_kept _ _ (fun t h => by simp [h]) : Kept s (execCalSurveyListen bundle slot stats s))
  | ledgerCommit => exact (run_kept _ _ (fun t h => by simp [h]) : Kept s (execLedgerCommit s))
  | ledgerCommitDone => exact (run_kept _ _ (fun t h => by simp [h]) : Kept s (execLedgerCommitDone s))
  | clkDivWrite rq quad value =>
    exact (run_kept _ _ (fun t h => by simp [h]) : Kept s (execClkDivWrite rq quad value s))
  | clkDivSettled quad => exact (run_kept _ _ (fun t h => by simp [h]) : Kept s (execClkDivSettled quad s))
  | clkSelWrite rq quad value =>
    exact (run_kept _ _ (fun t h => by simp [h]) : Kept s (execClkSelWrite rq quad value s))
  | clkSwitchDone quad tree => exact (run_kept _ _ (fun t h => by simp [h]) : Kept s (execClkSwitchDone quad tree s))
  | qdResetWrite rq quad value =>
    exact (run_kept _ _ (fun t h => by simp [h]) : Kept s (execQdResetWrite rq quad value s))
  | probeSelWrite rq quad offset data =>
    exact (run_kept _ _ (fun t h => by simp [h]) : Kept s (execProbeSelWrite rq quad offset data s))
  | traceArm rq quad value => exact (run_kept _ _ (fun t h => by simp [h]) : Kept s (execTraceArm rq quad value s))
  | traceForce rq quad value since =>
    exact (run_kept _ _ (fun t h => by simp [h]) : Kept s (execTraceForce rq quad value since s))
  | traceStop rq quad value since =>
    exact (run_kept _ _ (fun t h => by simp [h]) : Kept s (execTraceStop rq quad value since s))
  | traceDone quad samples => exact (run_kept _ _ (fun t h => by simp [h]) : Kept s (execTraceDone quad samples s))
  | userObjectWrite rq addr data =>
    exact (run_kept _ _ (fun t h => by simp [h]) : Kept s (execUserObjectWrite rq addr data s))
  | userObjectAnswer rq answer =>
    exact (run_kept _ _ (fun t h => by simp [h]) : Kept s (execUserObjectAnswer rq answer s))
  | fabricPortRequest quad req =>
    exact (run_kept _ _ (fun t h => by simp [h]) : Kept s (execFabricPortRequest quad req s))
  | fabricPortResponse quad tag =>
    exact (memRun_kept _ _ (fun t h => by simp [h]) : Kept s (execFabricPortResponse quad tag s))
  | recWrite port data => exact (run_kept _ _ (fun t h => by simp [h]) : Kept s (execRecWrite port data s))
  | beginFull rq => exact (run_kept _ _ (fun t h => by simp [h]) : Kept s (execBeginFull rq s))
  | cfgChunk rq quad data => exact (run_kept _ _ (fun t h => by simp [h]) : Kept s (execCfgChunk rq quad data s))
  | cfgStalled => exact (run_kept _ _ (fun t h => by simp [h]) : Kept s (execCfgStalled s))
  | waitLock region => exact (run_kept _ _ (fun t h => by simp [h]) : Kept s (execWaitLock region s))
  | lockTimeout region => exact (run_kept _ _ (fun t h => by simp [h]) : Kept s (execLockTimeout region s))
  | releaseGsr region => exact (run_kept _ _ (fun t h => by simp [h]) : Kept s (execReleaseGsr region s))
  | enableWrites region => exact (run_kept _ _ (fun t h => by simp [h]) : Kept s (execEnableWrites region s))
  | releaseOutputs region => exact (run_kept _ _ (fun t h => by simp [h]) : Kept s (execReleaseOutputs region s))
  | prBegin rq quad region => exact (run_kept _ _ (fun t h => by simp [h]) : Kept s (execPrBegin rq quad region s))
  | prWipeDone quad region => exact (run_kept _ _ (fun t h => by simp [h]) : Kept s (execPrWipeDone quad region s))
  | keyRamWrite rq offset data =>
    exact (run_kept _ _ (fun t h => by simp [h]) : Kept s (execKeyRamWrite rq offset data s))
  | keyRamClear rq value => exact (run_kept _ _ (fun t h => by simp [h]) : Kept s (execKeyRamClear rq value s))
  | cfgFrameMismatch frame => exact (run_kept _ _ (fun t h => by simp [h]) : Kept s (execCfgFrameMismatch frame s))
  | cfgSentinelVote => exact (run_kept _ _ (fun t h => by simp [h]) : Kept s (execCfgSentinelVote s))
  | nocLinkRetry router link failures =>
    exact (run_kept _ _ (fun t h => by simp [h]) : Kept s (execNocLinkRetry router link failures s))
  | nocMalformed seen => exact (run_kept _ _ (fun t h => by simp [h]) : Kept s (execNocMalformed seen s))
  | nocLinkDownTimeout router link =>
    exact (run_kept _ _ (fun t h => by simp [h]) : Kept s (execNocLinkDownTimeout router link s))
  | isolatedTargetAnswer dest src vc epoch rest =>
    exact (run_kept _ _ (fun t h => by simp [h]) : Kept s (execIsolatedTargetAnswer dest src vc epoch rest s))
  | nocShadowWrite rq offset data =>
    exact (run_kept _ _ (fun t h => by simp [h]) : Kept s (execNocShadowWrite rq offset data s))
  | nocSwap rq => exact (run_kept _ _ (fun t h => by simp [h]) : Kept s (execNocSwap rq s))
  | nocDefaultCopy rq => exact (run_kept _ _ (fun t h => by simp [h]) : Kept s (execNocDefaultCopy rq s))
  | nocBackpressureDone cycles =>
    exact (run_kept _ _ (fun t h => by simp [h]) : Kept s (execNocBackpressureDone cycles s))
  | nocDrainDone cycles => exact (run_kept _ _ (fun t h => by simp [h]) : Kept s (execNocDrainDone cycles s))
  | memInitDone chan failedPins otherFail micros offsets =>
    exact (run_kept _ _ (fun t h => by simp [h]) : Kept s (execMemInitDone chan failedPins otherFail micros offsets s))
  | memAccess write addr data count shows =>
    exact (memRun_kept _ _ (fun t h => by simp [h]) : Kept s (execMemAccess write addr data count shows s))
  | scrubGroup chan upsets overtaken =>
    exact (memRun_kept _ _ (fun t h => by simp [h]) : Kept s (execScrubGroup chan upsets overtaken s))
  | scrubVoteUpset chan => exact (run_kept _ _ (fun t h => by simp [h]) : Kept s (execScrubVoteUpset chan s))
  | memRegionsWrite rq offset data =>
    exact (run_kept _ _ (fun t h => by simp [h]) : Kept s (execMemRegionsWrite rq offset data s))
  | declareLane rq chan lane =>
    exact (run_kept _ _ (fun t h => by simp [h]) : Kept s (execDeclareLane rq chan lane s))
  | isolate rq chan => exact (run_kept _ _ (fun t h => by simp [h]) : Kept s (execIsolate rq chan s))
  | retrain rq chan => exact (run_kept _ _ (fun t h => by simp [h]) : Kept s (execRetrain rq chan s))
  | retrainDone chan failedPins otherFail =>
    exact (run_kept _ _ (fun t h => by simp [h]) : Kept s (execRetrainDone chan failedPins otherFail s))
  | scrubNow rq chan => exact (run_kept _ _ (fun t h => by simp [h]) : Kept s (execScrubNow rq chan s))
  | doorbellSubmit slot frame =>
    exact (memRun_kept _ _ (fun t h => by simp [h]) : Kept s (execDoorbellSubmit slot frame s))
  | doorbellRelease slot => exact (run_kept _ _ (fun t h => by simp [h]) : Kept s (execDoorbellRelease slot s))
  | dmaQueueEnable queue base size ctrl =>
    exact (run_kept _ _ (fun t h => by simp [h]) : Kept s (execDmaQueueEnable queue base size ctrl s))
  | dmaQueueDisable queue => exact (run_kept _ _ (fun t h => by simp [h]) : Kept s (execDmaQueueDisable queue s))
  | dmaTailWrite queue tail => exact (run_kept _ _ (fun t h => by simp [h]) : Kept s (execDmaTailWrite queue tail s))
  | dmaDescriptorStart queue desc =>
    exact (run_kept _ _ (fun t h => by simp [h]) : Kept s (execDmaDescriptorStart queue desc s))
  | dmaDescriptorComplete queue hostData hostError =>
    exact (memRun_kept _ _ (fun t h => by simp [h]) : Kept s (execDmaDescriptorComplete queue hostData hostError s))
  | bar2Write addr data => exact (memRun_kept _ _ (fun t h => by simp [h]) : Kept s (execBar2Write addr data s))
  | bar2Read addr count => exact (memRun_kept _ _ (fun t h => by simp [h]) : Kept s (execBar2Read addr count s))
  | pcieLinkDown => exact (run_kept _ _ (fun t h => by simp [h]) : Kept s (execPcieLinkDown s))
  | logWrite => exact (run_kept _ _ (fun t h => by simp [h]) : Kept s (execLogWrite s))
  | devLogClear rq value => exact (run_kept _ _ (fun t h => by simp [h]) : Kept s (execDevLogClear rq value s))
  | rimStart => exact (run_kept _ _ (fun t h => by simp [h]) : Kept s (execRimStart s))
  | pwrLineLoss => exact (run_kept _ _ (fun t h => by simp [h]) : Kept s (execPwrLineLoss s))
  | powerUp rq cooled => exact (run_kept _ _ (fun t h => by simp [h]) : Kept s (execPowerUp rq cooled s))
  | powerDown rq => exact (run_kept _ _ (fun t h => by simp [h]) : Kept s (execPowerDown rq s))
  | powerUpStep => exact (run_kept _ _ (fun t h => by simp [h]) : Kept s (execPowerUpStep s))
  | pwrPgTimeout => exact (run_kept _ _ (fun t h => by simp [h]) : Kept s (execPwrPgTimeout s))
  | powerRelease micros => exact (run_kept _ _ (fun t h => by simp [h]) : Kept s (execPowerRelease micros s))
  | powerDownStep pgLow => exact (run_kept _ _ (fun t h => by simp [h]) : Kept s (execPowerDownStep pgLow s))
  | pwrPgLost input => exact (run_kept _ _ (fun t h => by simp [h]) : Kept s (execPwrPgLost input s))
  | thermalSample temps rim => exact (run_kept _ _ (fun t h => by simp [h]) : Kept s (execThermalSample temps rim s))
  | railMeterSample rails vbat rimVin domains milliJoules =>
    exact (run_kept _ _ (fun t h => by simp [h]) : Kept s (execRailMeterSample rails vbat rimVin domains milliJoules s))
  | qdPowerDown rq quad => exact (run_kept _ _ (fun t h => by simp [h]) : Kept s (execQdPowerDown rq quad s))
  | fenceDrainDone quad nanos =>
    exact (run_kept _ _ (fun t h => by simp [h]) : Kept s (execFenceDrainDone quad nanos s))
  | qdPowerUp rq quad => exact (run_kept _ _ (fun t h => by simp [h]) : Kept s (execQdPowerUp rq quad s))
  | qdSwitchDone quad => exact (run_kept _ _ (fun t h => by simp [h]) : Kept s (execQdSwitchDone quad s))
  | qdRestoreDone quad failedRegions micros =>
    exact (run_kept _ _ (fun t h => by simp [h]) : Kept s (execQdRestoreDone quad failedRegions micros s))
  | qdPwrUpFailed quad micros =>
    exact (run_kept _ _ (fun t h => by simp [h]) : Kept s (execQdPwrUpFailed quad micros s))
  | discardDone => exact (memRun_kept _ _ (fun t h => by simp [h]) : Kept s (execDiscardDone s))
  | ijUnlock rq value within10ms =>
    exact (run_kept _ _ (fun t h => by simp [h]) : Kept s (execIjUnlock rq value within10ms s))
  | ijArm rq => exact (run_kept _ _ (fun t h => by simp [h]) : Kept s (execIjArm rq s))
  | ijDisarm rq => exact (run_kept _ _ (fun t h => by simp [h]) : Kept s (execIjDisarm rq s))
  | ijFired => exact (run_kept _ _ (fun t h => by simp [h]) : Kept s (execIjFired s))
  | ijWindowExpiry => exact (run_kept _ _ (fun t h => by simp [h]) : Kept s (execIjWindowExpiry s))
  | abortNRelease => exact (run_kept _ _ (fun t h => by simp [h]) : Kept s (execAbortNRelease s))
  | pcieLinkUp gen width => exact (run_kept _ _ (fun t h => by simp [h]) : Kept s (execPcieLinkUp gen width s))
  | mgtLinkUp high => exact (run_kept _ _ (fun t h => by simp [h]) : Kept s (execMgtLinkUp high s))
  | mgtLinkDown => exact (run_kept _ _ (fun t h => by simp [h]) : Kept s (execMgtLinkDown s))
  | vbatLow millivolts => exact (run_kept _ _ (fun t h => by simp [h]) : Kept s (execVbatLow millivolts s))
  | streamUnderrun bundle wd =>
    exact (run_kept _ _ (fun t h => by simp [h]) : Kept s (execStreamUnderrun bundle wd s))
  | txUnderrun port => exact (run_kept _ _ (fun t h => by simp [h]) : Kept s (execTxUnderrun port s))
  | rxOverflow port => exact (run_kept _ _ (fun t h => by simp [h]) : Kept s (execRxOverflow port s))
  | eqClear port => exact (run_kept _ _ (fun t h => by simp [h]) : Kept s (execEqClear port s))
  | fabricClkSelect quad tree sel =>
    exact (run_kept _ _ (fun t h => by simp [h]) : Kept s (execFabricClkSelect quad tree sel s))
  | fabricUserReset quad tree level =>
    exact (run_kept _ _ (fun t h => by simp [h]) : Kept s (execFabricUserReset quad tree level s))
  | traceTrigger quad since sample =>
    exact (run_kept _ _ (fun t h => by simp [h]) : Kept s (execTraceTrigger quad since sample s))
  | nocLinkUp router link => exact (run_kept _ _ (fun t h => by simp [h]) : Kept s (execNocLinkUp router link s))
  | warpQuietEnd out => exact (run_kept _ _ (fun t h => by simp [h]) : Kept s (execWarpQuietEnd out s))
  | calSetsLoaded => exact (run_kept _ _ (fun t h => by simp [h]) : Kept s (execCalSetsLoaded s))
  | prFailWipeDone quad region =>
    exact (run_kept _ _ (fun t h => by simp [h]) : Kept s (execPrFailWipeDone quad region s))

/-- An idle step keeps what a command keeps (R531). -/
theorem tick_canonical (s : State) (h : Canonical s.memory) : Canonical s.tick.memory := by
  unfold State.tick
  extract_lets t
  have ht : Canonical t.memory := h
  split
  · rw [keepFixed_memory, deliver_memory]
    exact nextTime_canonical t ht
  · exact ht

theorem keepFixed_pending (s t : State) : (s.keepFixed t).pending = s.pending := rfl
theorem keepFixed_fuses (s t : State) : (s.keepFixed t).fuses = s.fuses := rfl
theorem keepFixed_evt (s t : State) : (s.keepFixed t).evt = t.evt := rfl

theorem tick_pending (s : State) : s.tick.pending = s.pending := by
  unfold State.tick
  extract_lets t
  split
  · exact keepFixed_pending t _
  · rfl

theorem tick_fuses (s : State) : s.tick.fuses = s.fuses := by
  unfold State.tick
  extract_lets t
  split
  · exact keepFixed_fuses t _
  · rfl

theorem tick_now (s : State) (h : s.evt.now = []) : s.tick.evt.now = [] := by
  unfold State.tick
  extract_lets t
  split
  · rw [keepFixed_evt]
    exact deliver_now _
  · exact h

theorem settled_iff (s : State) : Settled s ↔ s.evt.now = [] ∧ Canonical s.memory := Iff.rfl

end Sys2Proof.Laws

namespace Sys2Proof.Proofs
open Sys2Proof.Machine Sys2Proof.Safety Sys2Proof.Laws

/-- Settles O60: a step is a tick or one row, and both keep the queue's rest, the fused values and the canonical form. -/
theorem stepsStaySettled : Obligations.StepsStaySettled := by
  intro s t h
  unfold Machine.step at h
  split at h
  · next hp =>
    cases h
    refine ⟨by simp [tick_pending, hp], tick_fuses s, fun hne => absurd hp hne, fun hs => ?_⟩
    obtain ⟨hnow, hmem⟩ := (settled_iff s).1 hs
    exact (settled_iff _).2 ⟨tick_now s hnow, tick_canonical s hmem⟩
  · next c rest hp =>
    obtain ⟨u, hu, hpend, hfuse, hnow, hmem⟩ := exec_kept c { s with pending := rest }
    obtain rfl : u = t := by rw [hu] at h; cases h; rfl
    refine ⟨by rw [hpend, hp]; rfl, hfuse, fun _ => hnow, fun hs => ?_⟩
    exact (settled_iff _).2 ⟨hnow, hmem ((settled_iff s).1 hs).2⟩

end Sys2Proof.Proofs
end

section
/-! How a request that arrives is served: the state that its service begins in, and what the end of the command leaves of
the service's effect (R27, R71, R485 to R492). -/
namespace Sys2Proof.Laws
open Sys2Proof.Machine Sys2Proof.Safety

/-! ### The end of a command -/

@[simp] theorem keepFixed_out (s t : State) : (s.keepFixed t).out = t.out := rfl
@[simp] theorem keepFixed_site (s t : State) (i : Nat) : (s.keepFixed t).site i = t.site i := rfl
@[simp] theorem keepFixed_siteSt (s t : State) (i : Nat) : (s.keepFixed t).siteSt i = t.siteSt i := rfl
@[simp] theorem keepFixed_ctx (s t : State) (c : Nat) : (s.keepFixed t).ctx c = t.ctx c := rfl
@[simp] theorem keepFixed_quad (s t : State) (q : Nat) : (s.keepFixed t).quad q = t.quad q := rfl
@[simp] theorem keepFixed_rd (s t : State) (o : Obj) (u k : Nat) : (s.keepFixed t).rd o u k = t.rd o u k := rfl
@[simp] theorem keepFixed_ctl (s t : State) : (s.keepFixed t).ctl = t.ctl := rfl
@[simp] theorem keepFixed_dev (s t : State) : (s.keepFixed t).dev = t.dev := rfl
@[simp] theorem keepFixed_cfg (s t : State) : (s.keepFixed t).cfg = t.cfg := rfl
@[simp] theorem keepFixed_pcie (s t : State) : (s.keepFixed t).pcie = t.pcie := rfl
@[simp] theorem keepFixed_mem (s t : State) : (s.keepFixed t).mem = t.mem := rfl
@[simp] theorem keepFixed_memChk (s t : State) : (s.keepFixed t).memChk = t.memChk := rfl
@[simp] theorem deliver_siteSt (s : State) (i : Nat) : s.deliver.siteSt i = s.siteSt i := by simp [State.siteSt]

theorem run_next (f : State → State) (s t : State) (h : f { s with out := [] } = t) :
    run f s = .next (s.keepFixed t.deliver) := by subst h; rfl

/-- The state in which a command ends keeps the parts that its effect keeps. -/
theorem ended_keeps (l : List Part) (s t : State) (h : Keeps l s t) : Keeps l s (s.keepFixed t.deliver) := by
  refine ⟨rfl, rfl, fun p hp => ?_⟩
  have hd := (deliver_keeps t).2.2 p (by simp)
  exact Part_same_trans p _ _ _ (Part_same_trans p _ _ _ (h.2.2 p hp) hd) (Part_same_fixed _ _ _)

/-- What an effect sends is sent when its command ends. -/
theorem ended_sent (s t : State) (m : Msg) (h : m ∈ t.out) : m ∈ (s.keepFixed t.deliver).out := deliver_sent t m h

theorem memory_mem (s t : State) (h : t.memory = s.memory) : t.mem = s.mem := congrArg Prod.fst h
theorem memory_memChk (s t : State) (h : t.memory = s.memory) : t.memChk = s.memChk := congrArg Prod.snd h

theorem ended_mem (s t : State) (h : t.memory = s.memory) : (s.keepFixed t.deliver).mem = s.mem := by
  simpa using memory_mem s t h

/-! ### Arriving -/

theorem hears_eq (s : State) (a : BitVec 128) : s.hears a =
    { s with ctl := { s.ctl with heard := if s.ctl.ownerAddr == some a then s.elapsed else s.ctl.heard } } := by
  unfold State.hears
  split <;> rfl

/-- A request that arrives is served in the state in which it is received. -/
theorem arrives_received (rq : Rq) (service : Nat) (a : Addr) (blk : Option (Nat × Nat)) (f : State → State) (s : State)
    (h : Arrives rq s) : arrives rq service a blk f { s with out := [] } = f (received rq s) := by
  obtain ⟨src, seq, cfg⟩ := rq
  cases src with
  | host slot => rfl
  | mgt addr port =>
    obtain ⟨hpow, hrx, hcor, hseq, hout⟩ := h
    have hseq' : (s.hears addr).ctl.replies.find? (fun r => r.addr == addr && r.seq == seq) = none := by
      rw [hears_eq]
      exact hseq
    have hout' : ¬ 8 ≤ (s.hears addr).outstanding addr := by
      rw [hears_eq]
      exact Nat.not_le.mpr hout
    rw [hears_eq] at hseq' hout'
    simp only [arrives, received, hpow, hrx, hcor, Bool.not_true, Bool.false_eq_true, Nat.lt_irrefl, if_false, hears_eq, hseq']
    exact if_neg hout'

/-- Receiving changes no part of the state. -/
theorem received_keeps (rq : Rq) (s : State) : Keeps [] s (received rq s) := by
  obtain ⟨src, seq, cfg⟩ := rq
  cases src with
  | host slot => exact setOut_keeps _ _
  | mgt addr port =>
    refine ⟨?_, ?_, fun p _ => ?_⟩
    · simp [received, hears_eq]
    · simp [received, hears_eq]
    · cases p <;> simp [received, hears_eq, Part.same]

@[simp] theorem received_memory (rq : Rq) (s : State) : (received rq s).memory = s.memory :=
  Prod.ext ((received_keeps rq s).2.2 .mem (by simp)).1 ((received_keeps rq s).2.2 .mem (by simp)).2
@[simp] theorem received_sites (rq : Rq) (s : State) : (received rq s).sites = s.sites :=
  (received_keeps rq s).2.2 .sites (by simp)
@[simp] theorem received_site (rq : Rq) (s : State) (i : Nat) : (received rq s).site i = s.site i := by simp [State.site]
@[simp] theorem received_siteSt (rq : Rq) (s : State) (i : Nat) : (received rq s).siteSt i = s.siteSt i := by
  simp [State.siteSt]
@[simp] theorem received_dev (rq : Rq) (s : State) : (received rq s).dev = s.dev :=
  (received_keeps rq s).2.2 .dev (by simp)
@[simp] theorem received_elapsed (rq : Rq) (s : State) : (received rq s).elapsed = s.elapsed :=
  ((received_keeps rq s).2.2 .time (by simp)).2.2
@[simp] theorem received_time (rq : Rq) (s : State) : (received rq s).time = s.time :=
  ((received_keeps rq s).2.2 .time (by simp)).1
@[simp] theorem received_dict (rq : Rq) (s : State) : (received rq s).dict = s.dict := by
  obtain ⟨src, seq, cfg⟩ := rq
  cases src <;> simp [received, hears_eq]
@[simp] theorem received_cfg (rq : Rq) (s : State) : (received rq s).cfg = s.cfg :=
  (received_keeps rq s).2.2 .cfg (by simp)
@[simp] theorem received_services (rq : Rq) (s : State) : (received rq s).ctl.services = s.ctl.services := by
  obtain ⟨src, seq, cfg⟩ := rq
  cases src <;> simp [received, hears_eq]
@[simp] theorem received_txDrop (rq : Rq) (s : State) : (received rq s).ij.txDrop = s.ij.txDrop := by
  obtain ⟨src, seq, cfg⟩ := rq
  cases src <;> simp [received, hears_eq]
@[simp] theorem received_rd (rq : Rq) (s : State) (o : Obj) (u k : Nat) : (received rq s).rd o u k = s.rd o u k := by
  simp [State.rd, State.reg]
@[simp] theorem received_alive (rq : Rq) (s : State) : (received rq s).alive = s.alive := by
  obtain ⟨src, seq, cfg⟩ := rq
  cases src with
  | host slot => rfl
  | mgt addr port => simp only [received, hears_eq]; rfl

/-! ### Names -/

/-- An address that the dictionary resolves lies below the user indices, and names its entry in every state (R39, R40). -/
theorem named_of_target (s : State) (a : Addr) (o : Obj) (u k : Nat) (h : target a = .entry o u k) :
    s.named a = .base o u k := by
  have hbase : ¬ (0x6000 ≤ a.index.toNat ∧ a.index.toNat ≤ 0x6FFF) := by
    intro hi
    have : locate a.index.toNat = none := by
      unfold locate
      repeat rw [if_neg (by omega)]
    simp [target, this] at h
  simp [State.named, h, hbase]

theorem target_abort : target abortAddr = .entry .abort 0 0 := by decide
theorem target_devCommand : target Obj.devCommand.addr = .entry .devCommand 0 0 := by decide
theorem target_siteCommand (i : SiteNo) : target (Obj.siteCommand.addr i) = .entry .siteCommand i 0 := by revert i; decide
theorem target_siteBundles (i : SiteNo) : target (Obj.siteBundles.addr i) = .entry .siteBundles i 0 := by revert i; decide

@[simp] theorem length_leBytes (n v : Nat) : (leBytes n v).length = n := by
  induction n generalizing v with
  | zero => rfl
  | succ n ih => simp [leBytes, ih]

/-- A number that fits its bytes is read back from them. -/
theorem leNat_leBytes (n v : Nat) (h : v < 256 ^ n) : leNat (leBytes n v) = v := by
  induction n generalizing v with
  | zero => simpa [leBytes, leNat, eq_comm] using h
  | succ n ih =>
    have := ih (v / 256) (Nat.div_lt_of_lt_mul (by rwa [← Nat.pow_succ']))
    simp [leBytes, leNat, this]
    omega

/-- A write that passes the front checks is served by what its address names. -/
theorem writeValue_front (rq : Rq) (service : Nat) (a : Addr) (data : List Byte) (x : Extra) (s : State)
    (h : s.frontCheck rq.src a (s.named a) { write := true, block := false, len := data.length, v := leNat data } = .ok) :
    writeValue rq service a data x s = serveNamed rq service a (s.named a) 0 data x s := by
  simp [writeValue, h]

/-! ### The answer -/

/-- A command that answers a request with a status sends the reply's frame. -/
theorem answered_replied (rq : Rq) (service : Nat) (a : Addr) (st : Status) (s t : State)
    (h : s.ij.txDrop = 0 → t.ij.txDrop = 0) :
    Replied rq service a st s (s.keepFixed (t.reply rq service a st).deliver) := by
  intro hs
  have := reply_sends t rq service a st [] none (hs.imp_right h)
  exact ended_sent _ _ _ (by simpa using this)

/-- A command that answers a request changes what its effect changes, and what answering changes. -/
theorem answered_keeps (l : List Part) (rq : Rq) (service : Nat) (a : Addr) (st : Status) (data : List Byte)
    (blk : Option (Nat × Nat)) (s t : State) (h : Keeps l s t) (hl : ∀ p ∈ answerParts, p ∈ l) :
    Keeps l s (s.keepFixed (t.reply rq service a st data blk).deliver) :=
  ended_keeps _ _ _ (Keeps_trans _ _ _ _ h (Keeps_mono _ _ _ _ (reply_keeps _ _ _ _ _ _ _) hl))

end Sys2Proof.Laws
end

section
/-! What reading leaves as it is, and that it is served (R27, R68, R69, R486, R487). -/
namespace Sys2Proof.Laws
open Sys2Proof.Machine Sys2Proof.Safety

/-- A read takes free values from the world, and changes nothing else. -/
def OnlyFree (s t : State) : Prop := ∃ n, t = { s with freeCount := n }

@[simp] theorem onlyFree_refl (s : State) : OnlyFree s s := ⟨s.freeCount, rfl⟩
theorem onlyFree_trans (s t u : State) (h : OnlyFree s t) (h' : OnlyFree t u) : OnlyFree s u := by
  obtain ⟨n, rfl⟩ := h
  obtain ⟨m, rfl⟩ := h'
  exact ⟨m, rfl⟩
theorem onlyFree_keeps (s t : State) (h : OnlyFree s t) : Keeps [.free] s t := by
  obtain ⟨n, rfl⟩ := h
  exact ⟨rfl, rfl, fun p hp => by cases p <;> simp_all [Part.same]⟩
theorem onlyFree_txDrop (s t : State) (h : OnlyFree s t) : t.ij.txDrop = s.ij.txDrop := by
  obtain ⟨n, rfl⟩ := h
  rfl

@[simp] theorem free_onlyFree (s : State) (n : Nat) : OnlyFree s (s.free n).2 := ⟨_, rfl⟩
@[simp] theorem live_onlyFree (s : State) (runs : Bool) (n : Nat) : OnlyFree s (s.live runs n).2 := by
  cases runs
  · exact onlyFree_refl s
  · exact free_onlyFree s n
@[simp] theorem freeBytes_onlyFree (s : State) (n : Nat) : OnlyFree s (s.freeBytes n).2 := by
  induction n generalizing s with
  | zero => exact onlyFree_refl s
  | succ n ih => exact onlyFree_trans _ _ _ (free_onlyFree s 8) (ih _)
@[simp] theorem traceStatus_onlyFree (s : State) (q : Nat) : OnlyFree s (s.traceStatus q).2 := by
  simp only [State.traceStatus]
  split
  · exact onlyFree_refl s
  · split
    · exact onlyFree_refl s
    · exact free_onlyFree s 13
@[simp] theorem routerStatus_onlyFree (s : State) (n : Nat) : OnlyFree s (s.routerStatus n).2 := by
  simp only [State.routerStatus]
  split
  · exact onlyFree_refl s
  · exact free_onlyFree s 1
@[simp] theorem copyImage_onlyFree (s : State) (place : Nat) : OnlyFree s (s.copyImage place).2 := by
  simp only [State.copyImage]
  generalize (if (place % 2 == 0) = true then (s.pair (place / 2)).a else (s.pair (place / 2)).b) = x
  split
  · exact onlyFree_refl s
  · split
    · exact onlyFree_refl s
    · simp
@[simp] theorem ledgerChunk_onlyFree (s : State) (c : Nat) : OnlyFree s (s.ledgerChunk c).2 := by
  simp only [State.ledgerChunk]
  split
  · exact copyImage_onlyFree s _
  · split <;> exact onlyFree_refl s
@[simp] theorem ledgerChunks_onlyFree (s : State) (c n : Nat) : OnlyFree s (s.ledgerChunks c n).2 := by
  induction n generalizing s c with
  | zero => exact onlyFree_refl s
  | succ n ih => exact onlyFree_trans _ _ _ (ledgerChunk_onlyFree s c) (ih _ _)
@[simp] theorem ledgerBytes_onlyFree (s : State) (off n : Nat) : OnlyFree s (s.ledgerBytes off n).2 :=
  ledgerChunks_onlyFree s _ _
@[simp] theorem readLive_onlyFree (s : State) (o : Obj) (u k : Nat) : OnlyFree s (s.readLive o u k).2 := by
  unfold State.readLive
  split <;> simp
@[simp] theorem readScalar_onlyFree (s : State) (o : Obj) (u k : Nat) : OnlyFree s (s.readScalar o u k).2 := by
  unfold State.readScalar
  split <;> simp
@[simp] theorem readDom_onlyFree (s : State) (o : Obj) (u k off n : Nat) : OnlyFree s (s.readDom o u k off n).2 := by
  unfold State.readDom
  split <;> simp
@[simp] theorem readValue_onlyFree (s : State) (o : Obj) (u k : Nat) : OnlyFree s (s.readValue o u k).2 := by
  unfold State.readValue
  split <;> simp
@[simp] theorem formSegments_onlyFree (o : Obj) (u k total : Nat) (l : List (Nat × Nat)) (s : State) :
    OnlyFree s (formSegments o u k total l s).2 := by
  induction l generalizing s with
  | nil => exact onlyFree_refl s
  | cons x l ih => exact onlyFree_trans _ _ _ (readDom_onlyFree s o u k x.1 x.2) (ih _)
@[simp] theorem readAt_onlyFree (src : Src) (a : Addr) (len : Nat) (s : State) : OnlyFree s (readAt src a len s).2.2 := by
  simp only [readAt]
  split
  · exact onlyFree_refl s
  · split
    · exact onlyFree_refl s
    · split <;> simp
    · exact onlyFree_refl s
    · exact onlyFree_refl s
@[simp] theorem readBlock_onlyFree (src : Src) (a : Addr) (seg off total : Nat) (s : State) :
    OnlyFree s (readBlock src a seg off total s).2 := by
  simp only [readBlock]
  split
  · exact onlyFree_refl s
  · split
    · exact onlyFree_refl s
    · split <;> simp

/-! ### A readable entry is read -/

theorem vstrBytes_length_le (o : Obj) : (vstrBytes o).length ≤ 3 := by
  unfold vstrBytes
  split <;> simp

/-- The front checks admit a READ of a readable scalar that leaves room for its value (R68, R69, R71). -/
theorem frontCheck_read (s : State) (src : Src) (a : Addr) (o : Obj) (u k len : Nat) (hacc : o.row.acc ≠ .wo)
    (halive : s.alive = true ∨ rimServes a false = true) (hdom : o.row.type ≠ .dom) (hlen : len ≠ 0)
    (hsize : o.row.size ≤ len) :
    s.frontCheck src a (.base o u k) { write := false, block := false, len := len } = .ok := by
  have hl : lengthCheck (.base o u k) { write := false, block := false, len := len } = .ok := by
    simp [lengthCheck, Named.size, hsize, require]
  simp [State.frontCheck, firstRefusal, require, halive, hacc, hdom, hlen, hl, Named.acc, Named.isDom]

/-- The front checks admit a BLOCK_READ of a readable DOM entry inside its size. -/
theorem frontCheck_blockRead (s : State) (src : Src) (a : Addr) (o : Obj) (u k seg off n : Nat) (hacc : o.row.acc ≠ .wo)
    (halive : s.alive = true ∨ rimServes a false = true) (hdom : o.row.type = .dom) (hseg : seg ≠ 0) (hn : n ≠ 0)
    (hsize : off + n ≤ o.row.size) :
    s.frontCheck src a (.base o u k) { write := false, block := true, len := seg, off := off, total := n } = .ok := by
  have hl : lengthCheck (.base o u k) { write := false, block := true, len := seg, off := off, total := n } = .ok := by
    simp [lengthCheck, Named.size, Named.isDom, hdom, hsize, require]
  simp [State.frontCheck, firstRefusal, require, halive, hacc, hseg, hn, hl, Named.acc, Named.isDom]

/-- The value of a readable entry with room for it is read, and fits. -/
theorem readAt_ok (s : State) (src : Src) (a : Addr) (o : Obj) (u k len : Nat) (ht : target a = .entry o u k)
    (hacc : o.row.acc ≠ .wo) (halive : s.alive = true ∨ rimServes a false = true) (hdom : o.row.type ≠ .dom)
    (hlen : 3 ≤ len) (hsize : o.row.size ≤ len) :
    (readAt src a len s).1 = .ok ∧ (readAt src a len s).2.1.length ≤ len := by
  have hf := frontCheck_read s src a o u k len hacc halive hdom (by omega) hsize
  have hv : (s.readValue o u k).1.length ≤ len := by
    simp only [State.readValue]
    split
    · exact (vstrBytes_length_le o).trans hlen
    · simpa using hsize
  simp [readAt, named_of_target s a o u k ht, hf, Nat.not_lt.mpr hv, hv]

/-- A block no longer than its segment is one segment. -/
theorem segmentsOf_one (seg off n : Nat) (hn : 0 < n) (hle : n ≤ seg) : segmentsOf seg off n = [(off, n)] := by
  have h1 : ceilDiv n (max seg 1) = 1 := by
    rw [Nat.max_eq_left (by omega), ceilDiv]
    exact Nat.div_eq_of_lt_le (by omega) (by omega)
  simp [segmentsOf, h1, upto, Nat.min_eq_right hle]

/-- A readable DOM entry is read in one frame where one holds the bytes asked for. -/
theorem readBlock_ok (s : State) (src : Src) (a : Addr) (o : Obj) (u k seg off n : Nat) (ht : target a = .entry o u k)
    (hacc : o.row.acc ≠ .wo) (halive : s.alive = true ∨ rimServes a false = true) (hdom : o.row.type = .dom)
    (hn : 0 < n) (hle : n ≤ seg) (hseg : seg ≤ 1024) (hsize : off + n ≤ o.row.size) :
    ∃ data, (readBlock src a seg off n s).1 = [(.ok, some (off, n), data)] := by
  have hf := frontCheck_blockRead s src a o u k seg off n hacc halive hdom (by omega) (by omega) hsize
  refine ⟨(s.readDom o u k off n).1, ?_⟩
  simp [readBlock, named_of_target s a o u k ht, hf, segmentsOf_one seg off n hn hle, formSegments, Nat.not_lt.mpr hseg]

end Sys2Proof.Laws

namespace Sys2Proof.Proofs
open Sys2Proof.Machine Sys2Proof.Safety Sys2Proof.Laws

/-- Serving a READ that arrives: the answer goes out, and only free values are taken. -/
theorem read_served (rq : Rq) (a : Addr) (len : Nat) (s : State) (h : Arrives rq s) :
    exec (.read rq a len) s = .next (s.keepFixed ((readAt rq.src a len (received rq s)).2.2.reply rq svcRead a
      (readAt rq.src a len (received rq s)).1 (readAt rq.src a len (received rq s)).2.1).deliver) := by
  have hr := arrives_received rq svcRead a none (fun s => (readAt rq.src a len s).2.2.reply rq svcRead a
    (readAt rq.src a len s).1 (readAt rq.src a len s).2.1) s h
  exact run_next _ s _ hr

/-- Serving a BLOCK_READ that arrives. -/
theorem blockRead_served (rq : Rq) (a : Addr) (seg off total : Nat) (s : State) (h : Arrives rq s) :
    exec (.blockRead rq a seg off total) s = .next (s.keepFixed ((readBlock rq.src a seg off total (received rq s)).2.replyAll
      rq svcBlockRead a (readBlock rq.src a seg off total (received rq s)).1).deliver) := by
  have hr := arrives_received rq svcBlockRead a (some (off, total)) (fun s => (readBlock rq.src a seg off total s).2.replyAll
    rq svcBlockRead a (readBlock rq.src a seg off total s).1) s h
  exact run_next _ s _ hr

theorem received_onlyFree_keeps (rq : Rq) (s t : State) (h : OnlyFree (received rq s) t) :
    Keeps (.free :: answerParts) s t :=
  Keeps_trans _ _ _ _ (Keeps_mono _ _ _ _ (received_keeps rq s) (by simp))
    (Keeps_mono _ _ _ _ (onlyFree_keeps _ _ h) (by simp))

theorem received_onlyFree_txDrop (rq : Rq) (s t : State) (h : OnlyFree (received rq s) t) : t.ij.txDrop = s.ij.txDrop :=
  (onlyFree_txDrop _ _ h).trans (received_txDrop rq s)

/-- Settles O56: reading takes free values and nothing else, and R71's checks admit every read of the statement. -/
theorem readsAreServed : Obligations.ReadsAreServed := by
  unfold Obligations.ReadsAreServed
  refine fun rq s harr => ⟨fun a len => ?_, fun a seg off total => ?_, fun o u k ht hacc halive hsent => ⟨?_, ?_⟩⟩
  · exact ⟨_, read_served rq a len s harr, answered_keeps _ _ _ _ _ _ _ _ _
      (received_onlyFree_keeps _ _ _ (readAt_onlyFree _ _ _ _)) (fun p hp => List.mem_cons_of_mem _ hp)⟩
  · refine ⟨_, blockRead_served rq a seg off total s harr, ended_keeps _ _ _ (Keeps_trans _ _ _ _
      (received_onlyFree_keeps _ _ _ (readBlock_onlyFree _ _ _ _ _ _)) (Keeps_mono _ _ _ _ (replyAll_keeps _ _ _ _ _)
        (fun p hp => List.mem_cons_of_mem _ hp)))⟩
  · intro len hdom hlen hsize
    obtain ⟨hst, hfit⟩ := readAt_ok (received rq s) rq.src _ o u k len ht hacc (by simpa using halive) hdom hlen hsize
    refine ⟨_, _, read_served rq _ len s harr, hfit, ended_sent _ _ _ ?_⟩
    have hdrop := received_onlyFree_txDrop rq s _ (readAt_onlyFree rq.src (o.addr u k) len _)
    rw [hst]
    exact reply_sends (readAt rq.src (o.addr u k) len (received rq s)).2.2 rq svcRead (o.addr u k) .ok
      (readAt rq.src (o.addr u k) len (received rq s)).2.1 none (hsent.imp_right hdrop.trans)
  · intro seg off n hdom hn hle hseg hsize
    obtain ⟨data, hdata⟩ := readBlock_ok (received rq s) rq.src _ o u k seg off n ht hacc (by simpa using halive) hdom hn hle
      hseg hsize
    refine ⟨_, data, blockRead_served rq _ seg off n s harr, ended_sent _ _ _ ?_⟩
    have hdrop := received_onlyFree_txDrop rq s _ (readBlock_onlyFree rq.src (o.addr u k) seg off n _)
    rw [hdata]
    exact reply_sends (readBlock rq.src (o.addr u k) seg off n (received rq s)).2 rq svcBlockRead (o.addr u k) .ok data
      (some (off, n)) (hsent.imp_right hdrop.trans)

end Sys2Proof.Proofs
end

section
/-! Aborts: where each site stands after an abort of the device, of a site or of a bundle (R76, R87, R88, R95). -/
namespace Sys2Proof.Machine

/-- Where a site stands: its state, and the abort in progress. -/
def State.phase (s : State) (i : Nat) : SiteSt × Option AbortRec := ((s.site i).st, (s.site i).abort)

/-- Where every site of a list stands, and what injection is about to do. -/
def standingOf (sites : Store Site) (ij : Inject) : (Nat → SiteSt × Option AbortRec) × Inject :=
  (fun i => ((Store.get {} i sites).st, (Store.get {} i sites).abort), ij)

/-- Where every site stands, and what injection is about to do. -/
def State.standing (s : State) : (Nat → SiteSt × Option AbortRec) × Inject := standingOf s.sites s.ij

end Sys2Proof.Machine

namespace Sys2Proof.Laws
open Sys2Proof.Machine Sys2Proof.Safety

/-! ### What an abort does without moving a site -/

theorem standing_phase (s t : State) (h : t.standing = s.standing) (i : Nat) : t.phase i = s.phase i :=
  congrFun (congrArg Prod.fst h) i
theorem standing_ij (s t : State) (h : t.standing = s.standing) : t.ij = s.ij := congrArg Prod.snd h

@[simp] theorem standing_eta (s : State) : standingOf s.sites s.ij = s.standing := (rfl)
@[simp] theorem standing_mk (a1 a2 a3 a4 a5 a6 a7 a8 a9 a10 a11 sites a12 a13 a14 a15 a16 a17 ij a18 a19 a20 a21 a22 a23 a24 a25 a26) :
    (State.mk a1 a2 a3 a4 a5 a6 a7 a8 a9 a10 a11 sites a12 a13 a14 a15 a16 a17 ij
      a18 a19 a20 a21 a22 a23 a24 a25 a26).standing = standingOf sites ij := (rfl)
@[simp] theorem ite_standing (c : Prop) [Decidable c] (s t : State) :
    (if c then s else t).standing = if c then s.standing else t.standing := by split <;> rfl
@[simp] theorem each_standing (s : State) (l : List Nat) (f : Nat → State → State)
    (h : ∀ i t, (f i t).standing = t.standing) : (s.each l f).standing = s.standing := each_same State.standing l f h s
@[simp] theorem foldl_standing {α : Type} (l : List α) (f : State → α → State) (s : State)
    (h : ∀ t x, (f t x).standing = t.standing) : (l.foldl f s).standing = s.standing := by
  induction l generalizing s with
  | nil => rfl
  | cons x l ih => exact (ih _).trans (h s x)
@[simp] theorem foldl_snd_standing {α β : Type} (l : List α) (f : β × State → α → β × State) (e : β × State)
    (h : ∀ e x, (f e x).2.standing = e.2.standing) : (l.foldl f e).2.standing = e.2.standing := by
  induction l generalizing e with
  | nil => rfl
  | cons x l ih => exact (ih _).trans (h e x)
/-- A change of a site that moves neither its state nor its abort. -/
theorem setSite_standing (s : State) (i : Nat) (f : Site → Site)
    (h : ((f (s.site i)).st, (f (s.site i)).abort) = ((s.site i).st, (s.site i).abort)) :
    (s.setSite i f).standing = s.standing := by
  refine Prod.ext (funext fun j => ?_) rfl
  change (((s.setSite i f).site j).st, ((s.setSite i f).site j).abort) = ((s.site j).st, (s.site j).abort)
  rw [site_setSite]
  split
  · next hj => rw [hj, h]
  · rfl
@[simp] theorem setRing_standing (s : State) (i : Nat) (f : Ring → Ring) : (s.setRing i f).standing = s.standing :=
  setSite_standing s i _ rfl
@[simp] theorem setReg_standing (s : State) (o : Obj) (v : Word) (u k : Nat) :
    (s.setReg o v u k).standing = s.standing := (rfl)
@[simp] theorem wr_standing (s : State) (o : Obj) (v u k : Nat) : (s.wr o v u k).standing = s.standing := (rfl)
@[simp] theorem bump_standing (s : State) (o : Obj) (u k by' : Nat) : (s.bump o u k by').standing = s.standing := (rfl)
@[simp] theorem setBnd_standing (s : State) (b : Nat) (f : Bundle → Bundle) : (s.setBnd b f).standing = s.standing := (rfl)
@[simp] theorem setPort_standing (s : State) (p : Nat) (f : Port → Port) : (s.setPort p f).standing = s.standing := (rfl)
@[simp] theorem setCtx_standing (s : State) (c : Nat) (f : Context → Context) : (s.setCtx c f).standing = s.standing := (rfl)
@[simp] theorem setQuad_standing (s : State) (q : Nat) (f : Quad → Quad) : (s.setQuad q f).standing = s.standing := (rfl)
@[simp] theorem send_standing (s : State) (m : Msg) : (s.send m).standing = s.standing := (rfl)
@[simp] theorem raise_standing (s : State) (code kind unit arg0 arg1 : Nat) (ext : List Byte) (rim : Bool) :
    (s.raise code kind unit arg0 arg1 ext rim).standing = s.standing := (rfl)
@[simp] theorem clearEnables_standing (s : State) (p : Nat) : (s.clearEnables p).standing = s.standing := by
  simp [State.clearEnables]
@[simp] theorem setRegion_standing (s : State) (q r : Nat) (f : Region → Region) :
    (s.setRegion q r f).standing = s.standing := (rfl)
@[simp] theorem openPortLinks_standing (s : State) (p : Nat) : (s.openPortLinks p).standing = s.standing := (rfl)
@[simp] theorem setCap_standing (s : State) (b : Nat) (f : Capture → Capture) : (s.setCap b f).standing = s.standing := (rfl)
@[simp] theorem capture_standing (s : State) (i b : Nat) (r : Record) : (s.capture i b r).standing = s.standing := by
  simp [State.capture]
@[simp] theorem setTally_standing (s : State) (cid : Nat) (f : Tally → Tally) :
    (s.setTally cid f).standing = s.standing := (rfl)
@[simp] theorem emitRow_standing (s : State) (i cid : Nat) (a : RowAcc) (cont : Bool) :
    (s.emitRow i cid a cont).standing = s.standing := by simp [State.emitRow]
@[simp] theorem closeRow_standing (s : State) (i cid : Nat) : (s.closeRow i cid).standing = s.standing := by
  unfold State.closeRow
  split <;> simp
@[simp] theorem closeRows_standing (s : State) (i : Nat) : (s.closeRows i).standing = s.standing := by simp [State.closeRows]
@[simp] theorem sendTwice_standing (s : State) (out : Option (Fin 4)) (set : WarpSet) :
    (s.sendTwice out set).standing = s.standing := (rfl)
@[simp] theorem sendDown_standing (s : State) (set : WarpSet) : (s.sendDown set).standing = s.standing := by
  simp [State.sendDown]
@[simp] theorem sendUp_standing (s : State) (set : WarpSet) : (s.sendUp set).standing = s.standing := (rfl)
@[simp] theorem newSet_standing (s : State) (type group time : Nat) :
    (s.newSet type group time).2.standing = s.standing := (rfl)
@[simp] theorem announce_standing (s : State) (type group time : Nat) :
    (s.announce type group time).standing = s.standing := by simp [State.announce]
@[simp] theorem cutLane_standing (p : Nat) (s : State) : (cutLane p s).standing = s.standing := (rfl)
@[simp] theorem cutPort_standing (s : State) (p : Nat) : (s.cutPort p).standing = s.standing := by simp [State.cutPort]
@[simp] theorem endSurvey_standing (s : State) (b : Nat) : (s.endSurvey b).standing = s.standing := by
  unfold State.endSurvey
  split <;> simp
@[simp] theorem endCycle_standing (s : State) (b result : Nat) : (s.endCycle b result).standing = s.standing := by
  unfold State.endCycle
  split <;> simp
@[simp] theorem stopCal_standing (s : State) (b : Nat) : (s.stopCal b).2.standing = s.standing := by simp [State.stopCal]
@[simp] theorem cutBundles_standing (s : State) (bs : List Nat) : (s.cutBundles bs).2.standing = s.standing := by
  simp [State.cutBundles]
@[simp] theorem stopSite_standing (s : State) (i : Nat) : (s.stopSite i).standing = s.standing := by
  simp [State.stopSite, setSite_standing]
@[simp] theorem bundleAborted_standing (s : State) (b cause time flags : Nat) :
    (s.bundleAborted b cause time flags).standing = s.standing := (rfl)
@[simp] theorem abortDone_standing (s : State) (kind unit cause : Nat) (bs : List Nat) :
    (s.abortDone kind unit cause bs).standing = s.standing := (rfl)
@[simp] theorem deviceDone_standing (s : State) : s.deviceDone.standing = s.standing := by
  unfold State.deviceDone
  split <;> simp
@[simp] theorem cancelGroup_standing (s : State) (g : Nat) : (s.cancelGroup g).standing = s.standing := (rfl)
@[simp] theorem groupAbort_standing (s : State) (g : Nat) : (s.groupAbort g).standing = s.standing := by
  simp [State.groupAbort]
@[simp] theorem abortIdle_standing (s : State) (bs : List Nat) (a : AbortBy) : (s.abortIdle bs a).standing = s.standing := by
  unfold State.abortIdle
  dsimp only
  split <;> simp

/-! ### Moving sites -/

/-- No site stands elsewhere but those listed, and injection discards no frame if it discarded none. -/
def Moves (l : List Nat) (s t : State) : Prop :=
  (∀ j, j ∉ l → t.phase j = s.phase j) ∧ (s.ij.txDrop = 0 → t.ij.txDrop = 0)

theorem moves_of_standing (l : List Nat) (s t : State) (h : t.standing = s.standing) : Moves l s t :=
  ⟨fun j _ => standing_phase s t h j, fun hd => by rw [standing_ij s t h, hd]⟩
theorem moves_trans (l : List Nat) (s t u : State) (h : Moves l s t) (h' : Moves l t u) : Moves l s u :=
  ⟨fun j hj => (h'.1 j hj).trans (h.1 j hj), fun hd => h'.2 (h.2 hd)⟩
theorem moves_mono (l m : List Nat) (s t : State) (h : Moves l s t) (hlm : ∀ i ∈ l, i ∈ m) : Moves m s t :=
  ⟨fun j hj => h.1 j (fun hl => hj (hlm j hl)), h.2⟩
theorem moves_trans_standing (l : List Nat) (s t u : State) (h : Moves l s t) (h' : u.standing = t.standing) :
    Moves l s u := moves_trans l s t u h (moves_of_standing l t u h')

theorem reply_moves (s : State) (rq : Rq) (service : Nat) (a : Addr) (st : Status) : Moves [] s (s.reply rq service a st) := by
  refine ⟨fun j _ => ?_, fun hd => ?_⟩
  · have : (s.reply rq service a st).sites = s.sites := (reply_keeps s rq service a st [] none).2.2 .sites (by simp [answerParts])
    simp [State.phase, State.site, this]
  · obtain ⟨src, seq, cfg⟩ := rq
    cases src with
    | host slot =>
      have : (s.reply ⟨.host slot, seq, cfg⟩ service a st).ij = s.ij := by
        simp only [State.reply, State.replyAll, State.msix]
        (repeat' split) <;> rfl
      rw [this, hd]
    | mgt addr port => simp [State.reply, State.replyAll, State.transmit, hd]

theorem answer_moves (s : State) (o : OpenService) (st : Status) : Moves [] s (s.answer o st) := by
  unfold State.answer
  split
  · exact moves_of_standing _ _ _ rfl
  · exact reply_moves _ _ _ _ _

theorem answers_move (l : List OpenService) (st : Status) (s : State) :
    Moves [] s (l.foldl (fun t o => t.answer o st) s) := by
  induction l generalizing s with
  | nil => exact moves_of_standing _ _ _ rfl
  | cons o l ih =>
    exact moves_trans _ _ _ _ (answer_moves s o st) (ih _)

theorem complete_moves (s : State) (w : Waits) (st : Status) : Moves [] s (s.complete w st) :=
  moves_trans _ _ { s with ctl := { s.ctl with services := s.ctl.services.filter (fun o => o.waits != w) } } _
    (moves_of_standing _ _ _ rfl) (answers_move _ _ _)

theorem armAborted_moves (s : State) (i : Nat) : Moves [] s (s.armAborted i) := by
  unfold State.armAborted
  split
  · exact moves_of_standing _ _ _ rfl
  · exact moves_trans _ _ _ _ (moves_of_standing _ _ _ (by simp [setSite_standing])) (complete_moves _ _ _)

theorem failLoad_moves (s : State) (code place : Nat) (answer : Status) : Moves [] s (s.failLoad code place answer) := by
  have h (c : Bool) (w : Waits) : Moves [] s ((if c then s.bump .devAuthFailCount else s).complete w answer) :=
    moves_trans _ _ _ _ (moves_of_standing _ _ _ (by simp)) (complete_moves _ _ _)
  unfold State.failLoad
  dsimp only
  split
  · exact moves_of_standing _ _ _ rfl
  · split <;> exact moves_trans_standing _ _ _ _ (h (code == 3 || code == 4 || code == 5) .chunk) (by simp)

theorem phase_setSite (s : State) (i j : Nat) (f : Site → Site) :
    (s.setSite i f).phase j = if j = i then ((f (s.site i)).st, (f (s.site i)).abort) else s.phase j := by
  simp only [State.phase, site_setSite]
  split <;> rfl

theorem setSite_moves (s : State) (i : Nat) (f : Site → Site) : Moves [i] s (s.setSite i f) :=
  ⟨fun j hj => by rw [phase_setSite, if_neg (by simpa using hj)], id⟩

theorem closeOne_moves (s : State) (i : Nat) (incomplete : Bool) : Moves [i] s (s.closeOne i incomplete) := by
  unfold State.closeOne
  split
  · exact moves_of_standing _ _ _ rfl
  · extract_lets bs aborted stepped failed closed recovering
    have h1 : stepped.standing = s.standing := by simp [stepped, aborted]
    have h2 : Moves [i] s closed :=
      moves_trans _ _ _ _ (moves_of_standing _ _ _ h1) (setSite_moves stepped i _)
    have h3 : Moves [i] s recovering := moves_trans_standing _ _ _ _ h2 (by simp [recovering])
    split
    · exact moves_trans_standing _ _ _ _ h3 (by simp)
    · exact h3

theorem abortIdle_moves (s t : State) (bs : List Nat) (a : AbortBy) (h : Moves [] s t) : Moves [] s (t.abortIdle bs a) :=
  moves_trans_standing _ _ _ _ h (abortIdle_standing _ _ _)

/-- An abort moves no site but the one it aborts. -/
theorem abortFormed_moves (s : State) (i : Nat) (a : AbortBy) : Moves [i] s (s.abortFormed i a) := by
  unfold State.abortFormed
  split
  case h_1 | h_2 => exact moves_of_standing _ _ _ rfl
  case h_3 | h_4 =>
    have hd : Moves [] s ((s.armAborted i).wr .siteAbortCause a.cause i) :=
      moves_trans_standing _ _ _ _ (armAborted_moves s i) rfl
    exact moves_mono [] _ _ _ (abortIdle_moves _ _ _ _ hd) (by simp)
  case h_5 =>
    dsimp only
    split
    · refine moves_trans _ _ _ _ (moves_trans _ _ _ _ ?_ (setSite_moves _ _ _)) (closeOne_moves _ _ _)
      exact moves_of_standing _ _ _ (by simp)
    · refine moves_trans_standing _ _ _ _ (moves_trans _ _ _ _ ?_ (setSite_moves _ _ _))
        ((setRing_standing _ _ _).trans (closeRows_standing _ _))
      exact moves_of_standing _ _ _ (by simp)

theorem abortsWith_iff_phase (i c : Nat) (t : State) :
    AbortsWith i c t ↔ (t.phase i).1 = .aborting ∧ (t.phase i).2.map (·.cause) = some c := Iff.rfl

/-- A site that runs is aborting once it is aborted. -/
theorem abortFormed_running (s : State) (i : Nat) (a : AbortBy) (h : s.siteSt i = .running) :
    AbortsWith i a.cause (s.abortFormed i a) := by
  unfold State.abortFormed
  rw [h, abortsWith_iff_phase]
  dsimp only
  rw [if_neg (by decide), standing_phase _ _ ((setRing_standing _ _ _).trans (closeRows_standing _ _)), phase_setSite,
    if_pos rfl]
  exact ⟨rfl, rfl⟩

theorem nodup_upto (n : Nat) : (upto n).Nodup := List.nodup_range
theorem mem_upto (i n : Nat) : i ∈ upto n ↔ i < n := List.mem_range

/-- Aborting a list of sites: each that runs is aborting, and no other site moves. -/
theorem each_abortFormed (l : List Nat) (hl : l.Nodup) (a : AbortBy) (s : State) :
    Moves l s (s.each l (fun i t => t.abortFormed i a)) ∧
      ∀ i ∈ l, s.siteSt i = .running → AbortsWith i a.cause (s.each l (fun i t => t.abortFormed i a)) := by
  induction l generalizing s with
  | nil => exact ⟨moves_of_standing _ _ _ rfl, by simp⟩
  | cons i l ih =>
    obtain ⟨hi, hl⟩ := List.nodup_cons.mp hl
    obtain ⟨hmoves, hrun⟩ := ih hl (s.abortFormed i a)
    have hone := abortFormed_moves s i a
    refine ⟨moves_trans _ _ _ _ (moves_mono _ _ _ _ hone (by simp)) (moves_mono _ _ _ _ hmoves (by simp +contextual)), ?_⟩
    intro j hj hst
    rcases List.mem_cons.mp hj with rfl | hj
    · have := abortFormed_running s j a hst
      rw [abortsWith_iff_phase] at this ⊢
      exact (hmoves.1 j hi).symm ▸ this
    · have hne : j ≠ i := fun e => hi (e ▸ hj)
      exact hrun j hj ((congrArg Prod.fst (hone.1 j (by simpa using hne))).trans hst)

/-! ### The device, a site and a bundle -/

theorem abortSite_moves (s : State) (i cause : Nat) (warp : Bool) (at' : Option Nat) :
    Moves [i] s (s.abortSite i cause warp at') := abortFormed_moves _ _ _

theorem abortSite_running (s : State) (i cause : Nat) (warp : Bool) (at' : Option Nat) (h : s.siteSt i = .running) :
    AbortsWith i cause (s.abortSite i cause warp at') := abortFormed_running _ _ _ h

theorem abortBundle_running (s : State) (b i cause : Nat) (lost : List Nat) (hb : s.siteOf b = some i)
    (h : s.siteSt i = .running) : AbortsWith i cause (s.abortBundle b cause lost) := by
  simp only [State.abortBundle, hb]
  exact abortFormed_running _ _ _ h

theorem abortBundle_txDrop (s : State) (b cause : Nat) (lost : List Nat) (h : s.ij.txDrop = 0) :
    (s.abortBundle b cause lost).ij.txDrop = 0 := by
  unfold State.abortBundle
  dsimp only
  split
  · exact (abortFormed_moves _ _ _).2 h
  · rw [standing_ij _ _ (abortIdle_standing _ _ _), h]

theorem stopLoads_moves (s : State) : Moves [] s s.stopLoads := failLoad_moves _ _ _ _

/-- An abort of the device that begins moves no site before it aborts the twelve. -/
theorem abortDevice_begins (s : State) (cause : Nat) (pin warp quiet : Bool) (halive : s.alive = true)
    (hidle : s.dev.aborting = none) :
    ∃ (before : State) (a : AbortBy), a.cause = cause ∧ Moves [] s before ∧
      s.abortDevice cause pin warp quiet = (before.each (upto 12) (fun i t => t.abortFormed i a)).deviceDone := by
  unfold State.abortDevice
  rw [if_neg (by simp [halive, hidle])]
  extract_lets a faulted _ aborting stopped idle _ tested before _
  have hcalm : (aborting.cancelGroup 0).standing = s.standing := by simp [aborting, faulted]
  have hstop : Moves [] s stopped := moves_trans _ _ _ _ (moves_of_standing _ _ _ hcalm) (stopLoads_moves _)
  exact ⟨before, a, rfl, abortIdle_moves _ _ _ _ (moves_trans_standing _ _ _ _ hstop (by simp [tested, idle])), rfl⟩

/-- An abort of the device leaves every site that ran aborting. -/
theorem abortDevice_running (s : State) (cause : Nat) (pin warp quiet : Bool) (h : Abortable s) :
    RunningAbort cause s (s.abortDevice cause pin warp quiet) := by
  intro i hi hst
  obtain ⟨before, a, rfl, hmoves, heq⟩ := abortDevice_begins s cause pin warp quiet h.1 h.2.2
  have hb : before.siteSt i = .running := (congrArg Prod.fst (hmoves.1 i (by simp))).trans hst
  have hrun := (each_abortFormed (upto 12) (nodup_upto 12) a before).2 i ((mem_upto i 12).mpr hi) hb
  rw [abortsWith_iff_phase] at hrun ⊢
  rwa [heq, standing_phase _ _ (deviceDone_standing _)]

theorem abortDevice_txDrop (s : State) (cause : Nat) (pin warp quiet : Bool) (h : s.ij.txDrop = 0) :
    (s.abortDevice cause pin warp quiet).ij.txDrop = 0 := by
  by_cases hb : s.alive = true ∧ s.dev.aborting = none
  · obtain ⟨before, a, -, hmoves, heq⟩ := abortDevice_begins s cause pin warp quiet hb.1 hb.2
    rw [heq, standing_ij _ _ (deviceDone_standing _)]
    exact (each_abortFormed (upto 12) (nodup_upto 12) a before).1.2 (hmoves.2 h)
  · have hs : (!s.alive || s.dev.aborting.isSome) = true := by
      cases ha : s.alive <;> cases hd : s.dev.aborting <;> simp_all
    rwa [State.abortDevice, if_pos hs]

/-! ### An ABORT of the dictionary -/

/-- Announcing a set of symbols below changes what is sent and the time base. -/
theorem announce_changes (s : State) (type group time : Nat) :
    ∃ out tb, s.announce type group time = { s with out := out, tb := tb } := by
  have hfold : ∀ (l : List (Fin 4)) (set : WarpSet) (t : State),
      ∃ out, l.foldl (fun t n => t.sendTwice (some n) set) t = { t with out := out } := by
    intro l set
    induction l with
    | nil => exact fun t => ⟨t.out, rfl⟩
    | cons n l ih =>
      intro t
      obtain ⟨out, hout⟩ := ih (t.sendTwice (some n) set)
      exact ⟨out, hout⟩
  obtain ⟨out, hout⟩ := hfold (s.newSet type group time).2.outsRunning (s.newSet type group time).1
    (s.newSet type group time).2
  exact ⟨out, _, hout⟩

theorem announce_dev (s : State) (type group time : Nat) : (s.announce type group time).dev = s.dev := by
  obtain ⟨out, tb, heq⟩ := announce_changes s type group time
  rw [heq]
theorem announce_alive (s : State) (type group time : Nat) : (s.announce type group time).alive = s.alive := by
  obtain ⟨out, tb, heq⟩ := announce_changes s type group time
  rw [heq]
  rfl

/-- The device's abort is reported, and a root announces it to the devices below (R95). -/
def announced (src : Src) (s : State) : State :=
  let s := s.raise 0x0402 0 0 (if isHost src then 2 else 1)
  if s.role == 1 && s.dev.aborting.isNone then s.announce 4 0 s.time else s

theorem dictAbort_zero (src : Src) (s : State) (h : s.alive = true) :
    dictAbort src 0 s = (announced src s).abortDevice 0x0402 false false ((announced src s).role == 1) := by
  unfold dictAbort announced
  rw [if_neg (by simp [h])]
  rfl

@[simp] theorem announced_standing (src : Src) (s : State) : (announced src s).standing = s.standing := by
  simp [announced]

theorem announced_abortable (src : Src) (s : State) (h : Abortable s) : Abortable (announced src s) := by
  unfold announced
  generalize (if isHost src then 2 else 1) = who
  have hr : Abortable (s.raise 0x0402 0 0 who) := h
  generalize s.raise 0x0402 0 0 who = r at hr ⊢
  obtain ⟨halive, hfault, hidle⟩ := hr
  dsimp only
  split
  · exact ⟨by rw [announce_alive, halive], by rw [announce_dev, hfault], by rw [announce_dev, hidle]⟩
  · exact ⟨halive, hfault, hidle⟩

/-- An ABORT of the device leaves every site that ran aborting. -/
theorem dictAbort_device (src : Src) (s : State) (h : Abortable s) : RunningAbort 0x0402 s (dictAbort src 0 s) := by
  intro i hi hst
  rw [dictAbort_zero src s h.1]
  refine abortDevice_running _ _ _ _ _ (announced_abortable src s h) i hi ?_
  exact (congrArg Prod.fst (standing_phase _ _ (announced_standing src s) i)).trans hst

/-- An ABORT of a site leaves it aborting, where it ran. -/
theorem dictAbort_site (src : Src) (s : State) (i : Nat) (hi : i < 12) (halive : s.alive = true)
    (hst : s.siteSt i = .running) : AbortsWith i 0x0402 (dictAbort src (0x1000 + i) s) := by
  have hkind : (0x1000 + i) / 4096 = 1 := by omega
  have hunit : (0x1000 + i) % 16 = i := by omega
  simp only [dictAbort, halive, hkind, hunit]
  exact abortSite_running _ _ _ _ _ hst

/-- An ABORT of a bundle leaves its site aborting, where it ran. -/
theorem dictAbort_bundle (src : Src) (s : State) (b i : Nat) (hb : b < 12) (halive : s.alive = true)
    (hsite : s.siteOf b = some i) (hst : s.siteSt i = .running) : AbortsWith i 0x0402 (dictAbort src (0x2000 + b) s) := by
  have hkind : (0x2000 + b) / 4096 = 2 := by omega
  have hunit : (0x2000 + b) % 16 = b := by omega
  simp only [dictAbort, halive, hkind, hunit]
  exact abortBundle_running _ _ _ _ _ hsite hst

theorem dictAbort_txDrop (src : Src) (code : Nat) (s : State) (h : s.ij.txDrop = 0) : (dictAbort src code s).ij.txDrop = 0 := by
  unfold dictAbort
  generalize (if isHost src then 2 else 1) = who
  dsimp only
  split
  · exact h
  · split
    · refine abortDevice_txDrop _ _ _ _ _ ?_
      split
      · rw [standing_ij _ _ (announce_standing _ _ _ _)]
        exact h
      · exact h
    · exact (abortSite_moves _ _ _ _ _).2 h
    · exact abortBundle_txDrop _ _ _ _ h

end Sys2Proof.Laws

namespace Sys2Proof.Proofs
open Sys2Proof.Machine Sys2Proof.Safety Sys2Proof.Laws

/-- Serving an ABORT with a legal code. -/
theorem serveAbort_ok (rq : Rq) (code : Nat) (s : State) (h : abortRange code = .ok) :
    ∃ t, serveAbort rq code s = (.ok, t) ∧ t.sites = (dictAbort rq.src code s).sites ∧
      t.ij = (dictAbort rq.src code s).ij := by
  unfold serveAbort
  rw [if_neg (by simp [h])]
  exact ⟨_, rfl, by split <;> rfl, by split <;> rfl⟩

theorem serveAbort_range (rq : Rq) (code : Nat) (s : State) (h : abortRange code ≠ .ok) :
    serveAbort rq code s = (.range, s) := by
  simp [serveAbort, h]

/-- An ABORT that passes the front checks is served. -/
theorem abort_served (rq : Rq) (code : BitVec 16) (s : State) (h : FrontOk rq abortAddr (leBytes 2 code.toNat) s) :
    exec (.abort rq code) s = .next (s.keepFixed ((serveAbort rq code.toNat (received rq s)).2.reply rq svcAbort abortAddr
      (serveAbort rq code.toNat (received rq s)).1).deliver) := by
  have hn := named_of_target (received rq s) abortAddr .abort 0 0 target_abort
  have hv : leNat (leBytes 2 code.toNat) = code.toNat := leNat_leBytes 2 _ code.isLt
  refine run_next (doAbort rq code.toNat) s _ ?_
  rw [doAbort, arrives_received _ _ _ _ _ _ h.1, writeValue_front _ _ _ _ _ _ h.2, hn]
  simp only [serveNamed, hv]
  rfl

/-- SITE_COMMAND 6 that passes the front checks is served as the ABORT of its site (R82). -/
theorem siteAbort_served (rq : Rq) (site : SiteNo) (s : State) (h : FrontOk rq (Obj.siteCommand.addr site) [6] s) :
    exec (.siteAbort rq site) s = .next (s.keepFixed ((serveAbort rq (0x1000 + site) (received rq s)).2.reply rq svcWrite
      (Obj.siteCommand.addr site) (serveAbort rq (0x1000 + site) (received rq s)).1).deliver) := by
  have hn := named_of_target (received rq s) _ .siteCommand site 0 (target_siteCommand site)
  refine run_next (writeTo rq .siteCommand site 0 6) s _ ?_
  have hd : leBytes Obj.siteCommand.row.size 6 = [6] := by decide
  rw [writeTo, doWrite, arrives_received _ _ _ _ _ _ h.1, hd, writeValue_front _ _ _ _ _ _ h.2, hn]
  rfl

theorem abortRange_site (i : SiteNo) : abortRange (0x1000 + i) = .ok := by revert i; decide

theorem abortRange_bundle (b : Nat) (h : abortRange (0x2000 + b) = .ok) : b < 12 := by
  simp [abortRange, require] at h
  omega

/-- An answered abort: what the effect aborts is aborting when the command ends. -/
theorem answered_abortsWith (rq : Rq) (service : Nat) (a : Addr) (st : Status) (s t : State) (i c : Nat)
    (h : AbortsWith i c t) : AbortsWith i c (s.keepFixed (t.reply rq service a st).deliver) := by
  have hsites : (t.reply rq service a st).sites = t.sites :=
    (reply_keeps t rq service a st [] none).2.2 .sites (by simp [answerParts])
  have hsite : (s.keepFixed (t.reply rq service a st).deliver).site i = t.site i := by
    rw [keepFixed_site, deliver_site, State.site, hsites, State.site]
  simpa only [AbortsWith, State.siteSt, hsite] using h

/-- An answered ABORT with a legal code: its frame is sent, and GDDR7 stays. -/
theorem serveAbort_answered (rq : Rq) (service : Nat) (a : Addr) (code : Nat) (s : State) (h : abortRange code = .ok) :
    ∃ t, s.keepFixed ((serveAbort rq code (received rq s)).2.reply rq service a (serveAbort rq code (received rq s)).1).deliver
        = t ∧ Replied rq service a .ok s t ∧ t.mem = s.mem ∧
      ∀ i c, AbortsWith i c (dictAbort rq.src code (received rq s)) → AbortsWith i c t := by
  obtain ⟨t, ht, hsites, hij⟩ := serveAbort_ok rq code (received rq s) h
  have hmem : t.memory = s.memory := by
    have := serveAbort_memory rq code (received rq s)
    rwa [ht, received_memory] at this
  have htx (hd : s.ij.txDrop = 0) : t.ij.txDrop = 0 := by
    rw [hij]
    exact dictAbort_txDrop _ _ _ (by simpa using hd)
  rw [ht]
  refine ⟨_, rfl, answered_replied _ _ _ _ _ _ htx, ended_mem _ _ (by simpa using hmem), fun i c hi => ?_⟩
  refine answered_abortsWith _ _ _ _ _ _ _ _ ?_
  simpa only [AbortsWith, State.siteSt, State.site, hsites] using hi

/-- Settles O46: the ABORT reaches the dictionary service, and each scope ends in the abort of the sites that run. -/
theorem abortRequests : Obligations.AbortRequests := by
  unfold Obligations.AbortRequests
  refine fun rq s => ⟨fun code hfront => ⟨fun hok => ?_, fun hbad => ?_⟩, fun site hfront halive hst => ?_⟩
  · obtain ⟨t, rfl, hreply, hmem, haborts⟩ := serveAbort_answered rq svcAbort abortAddr code.toNat s hok
    refine ⟨_, abort_served rq code s hfront, hreply, hmem, ?_, fun i hi halive hcode hst => ?_, fun b i halive hcode hb hst => ?_⟩
    · rintro rfl hs i hi hst
      exact haborts i _ (dictAbort_device rq.src _ (by simpa [Abortable] using hs) i hi (by simpa using hst))
    · rw [hcode] at haborts ⊢
      exact haborts i _ (dictAbort_site rq.src _ i hi (by simpa using halive) (by simpa using hst))
    · have hlt : b < 12 := abortRange_bundle b (hcode ▸ hok)
      rw [hcode] at haborts ⊢
      exact haborts i _ (dictAbort_bundle rq.src _ b i hlt (by simpa using halive) (by simpa [State.siteOf] using hb)
        (by simpa using hst))
  · rw [abort_served rq code s hfront, serveAbort_range _ _ _ hbad]
    exact ⟨_, rfl, answered_replied _ _ _ _ _ _ (by simp), answered_keeps _ _ _ _ _ _ _ _ _
      (Keeps_mono _ _ _ _ (received_keeps rq s) (by simp)) (fun p hp => hp)⟩
  · obtain ⟨t, rfl, hreply, hmem, haborts⟩ := serveAbort_answered rq svcWrite (Obj.siteCommand.addr site) (0x1000 + site) s
      (abortRange_site site)
    exact ⟨_, siteAbort_served rq site s hfront, hreply, haborts site _
      (dictAbort_site rq.src _ site site.isLt (by simpa using halive) (by simpa using hst)), hmem⟩

end Sys2Proof.Proofs
end

section
/-! Accepted site and device commands (R79 to R83): an accepted write takes its effect, and what each effect does. -/
namespace Sys2Proof.Laws
open Sys2Proof.Machine Sys2Proof.Safety

/-! ### An accepted write -/

/-- The write of a number to a scalar entry. -/
def putOf (o : Obj) (u k v : Nat) : Put := { o := o, u := u, k := k, data := leBytes o.row.size v }

/-- An entry whose write goes through the checks of R71 to an effect of its own. -/
def Direct (o : Obj) (v : Nat) : Prop :=
  o ≠ .abort ∧ o ≠ .groupCommit ∧ o ≠ .controlOwner ∧ o.row.acc ≠ .rwg ∧ (o = .siteCommand → v ≠ 6)

theorem serveNamed_direct (rq : Rq) (service : Nat) (a : Addr) (o : Obj) (u k v : Nat) (x : Extra) (s : State)
    (hd : Direct o v) (hv : v < 256 ^ o.row.size)
    (hpre : s.preempted rq (fun code => s.scopeHas code o u k) = false)
    (hclosed : closedCheck s (putOf o u k v) = .ok) :
    serveNamed rq service a (.base o u k) 0 (leBytes o.row.size v) x s = servePut rq service a (putOf o u k v) x s := by
  obtain ⟨habort, hcommit, howner, hacc, hsix⟩ := hd
  have h6 : (o == .siteCommand && v == 6) = false := by
    simpa using hsix
  have hclosed' : closedCheck s { o := o, u := u, k := k, off := 0, data := leBytes o.row.size v } = .ok := hclosed
  simp [serveNamed, howner, leNat_leBytes _ _ hv, h6, hpre, hclosed']
  rfl

theorem writeTo_accepted (rq : Rq) (o : Obj) (u k v : Nat) (x : Extra) (s : State) (h : Accepted rq o u k v x s)
    (ht : target (o.addr u k) = .entry o u k) (hd : Direct o v) (hv : v < 256 ^ o.row.size)
    (hsettle : (received rq s).settle (putOf o u k v) x = (x, received rq s)) :
    writeTo rq o u k v x { s with out := [] } = answerNow rq svcWrite (o.addr u k) none
      (putEffect rq svcWrite (o.addr u k) (putOf o u k v) x (received rq s)) := by
  obtain ⟨harr, hfront, hpre, hclosed, hlater⟩ := h
  have hn := named_of_target (received rq s) (o.addr u k) o u k ht
  have hw : writeValue rq svcWrite (o.addr u k) (leBytes o.row.size v) x (received rq s)
      = serveNamed rq svcWrite (o.addr u k) (.base o u k) 0 (leBytes o.row.size v) x (received rq s) := by
    rw [writeValue_front, hn]
    rw [hn, length_leBytes]
    exact hfront
  rw [writeTo, doWrite, arrives_received _ _ _ _ _ _ harr, hw, serveNamed_direct _ _ _ _ _ _ _ _ _ hd hv hpre hclosed]
  have hlater' : laterChecks (received rq s) (putOf o u k v) x = .ok := hlater
  have hacc : ((putOf o u k v).o.row.acc == .rwg) = false := by simpa [putOf] using hd.2.2.2.1
  simp [servePut, hsettle, hlater', hacc]

/-! ### Frames of the operations that site and device commands use -/

theorem setReg_keeps (s : State) (o : Obj) (v : Word) (u k : Nat) : Keeps [.regs] s (s.setReg o v u k) :=
  ⟨rfl, rfl, fun p hp => by cases p <;> simp_all [Part.same]⟩
theorem wr_keeps (s : State) (o : Obj) (v u k : Nat) : Keeps [.regs] s (s.wr o v u k) := setReg_keeps _ _ _ _ _
theorem setSite_keeps (s : State) (i : Nat) (f : Site → Site) : Keeps [.sites] s (s.setSite i f) :=
  ⟨rfl, rfl, fun p hp => by cases p <;> simp_all [Part.same]⟩
theorem setBnd_keeps (s : State) (b : Nat) (f : Bundle → Bundle) : Keeps [.bnds] s (s.setBnd b f) :=
  ⟨rfl, rfl, fun p hp => by cases p <;> simp_all [Part.same]⟩
theorem setQuad_keeps (s : State) (q : Nat) (f : Quad → Quad) : Keeps [.quads] s (s.setQuad q f) :=
  ⟨rfl, rfl, fun p hp => by cases p <;> simp_all [Part.same]⟩
theorem setRegion_keeps (s : State) (q r : Nat) (f : Region → Region) : Keeps [.quads] s (s.setRegion q r f) :=
  setQuad_keeps _ _ _
theorem raise_keeps (s : State) (code kind unit arg0 arg1 : Nat) (ext : List Byte) (rim : Bool) :
    Keeps [] s (s.raise code kind unit arg0 arg1 ext rim) :=
  ⟨rfl, rfl, fun p _ => by cases p <;> simp [Part.same, State.raise]⟩
theorem each_keeps_of (m : List Part) (l : List Nat) (f : Nat → State → State) (s : State)
    (h : ∀ i t, Keeps m t (f i t)) : Keeps m s (s.each l f) :=
  each_keeps (Keeps m s) l f (fun i t _ ht => Keeps_trans _ _ _ _ ht (h i t)) s (Keeps_refl _ _)

/-- A frame after another. -/
theorem keeps_then (l m n : List Part) (s t u : State) (h : Keeps l s t) (h' : Keeps m t u) (hl : l ⊆ n) (hm : m ⊆ n) :
    Keeps n s u :=
  Keeps_trans _ _ _ _ (Keeps_mono _ _ _ _ h (fun _ hp => hl hp)) (Keeps_mono _ _ _ _ h' (fun _ hp => hm hp))

theorem keeps_elapsed (l : List Part) (s t : State) (h : Keeps l s t) (hl : .time ∉ l) : t.elapsed = s.elapsed :=
  (h.2.2 .time hl).2.2
theorem keeps_memory (l : List Part) (s t : State) (h : Keeps l s t) (hl : .mem ∉ l) : t.memory = s.memory :=
  Prod.ext (h.2.2 .mem hl).1 (h.2.2 .mem hl).2
theorem keeps_dev (l : List Part) (s t : State) (h : Keeps l s t) (hl : .dev ∉ l) : t.dev = s.dev := h.2.2 .dev hl

/-- What answering a validation that is abandoned changes. -/
def dissolveParts : List Part := [.regs, .sites, .ctl, .replies, .slots]

theorem armAborted_keeps (s : State) (i : Nat) : Keeps dissolveParts s (s.armAborted i) := by
  unfold State.armAborted
  split
  · exact Keeps_refl _ _
  · refine keeps_then [.regs, .sites] (.ctl :: answerParts) _ _ _ _ ?_ (complete_keeps _ _ _) (by decide) (by decide)
    refine keeps_then [.regs, .sites] [.regs] _ _ _ _ ?_ (wr_keeps _ _ _ _ _) (by decide) (by decide)
    refine keeps_then [.regs, .sites] [.regs] _ _ _ _ ?_ (wr_keeps _ _ _ _ _) (by decide) (by decide)
    refine keeps_then [.regs, .sites] [.regs] _ _ _ _ ?_ (wr_keeps _ _ _ _ _) (by decide) (by decide)
    exact keeps_then [.sites] [.regs] _ _ _ _ (setSite_keeps _ _ _) (wr_keeps _ _ _ _ _) (by decide) (by decide)

theorem dissolve_keeps (s : State) (i : Nat) : Keeps dissolveParts s (s.dissolve i) :=
  keeps_then dissolveParts [.sites] _ _ _ _
    (keeps_then dissolveParts [.regs] _ _ _ _ (armAborted_keeps s i) (wr_keeps _ _ _ _ _) (fun _ h => h) (by decide))
    (setSite_keeps _ _ _) (fun _ h => h) (by decide)

theorem dissolveAll_keeps (s : State) : Keeps dissolveParts s s.dissolveAll :=
  each_keeps_of _ _ _ _ (fun i t => by
    split
    · exact Keeps_refl _ _
    · exact dissolve_keeps t i)

theorem settleTrees_keeps (s : State) (q : Nat) : Keeps [.quads] s (s.settleTrees q) :=
  each_keeps_of _ _ _ _ (fun _ _ => setQuad_keeps _ _ _)

/-! ### The configuration is unloaded -/

@[simp] theorem complete_elapsed (s : State) (w : Waits) (st : Status) : (s.complete w st).elapsed = s.elapsed :=
  keeps_elapsed _ _ _ (complete_keeps s w st) (by decide)
@[simp] theorem each_elapsed (s : State) (l : List Nat) (f : Nat → State → State)
    (h : ∀ i t, (f i t).elapsed = t.elapsed) : (s.each l f).elapsed = s.elapsed := each_same State.elapsed l f h s
@[simp] theorem setRegion_elapsed (s : State) (q r : Nat) (f : Region → Region) :
    (s.setRegion q r f).elapsed = s.elapsed := (rfl)
@[simp] theorem failLoad_elapsed (s : State) (code place : Nat) (answer : Status) :
    (s.failLoad code place answer).elapsed = s.elapsed := by
  have hcount (c : Prop) [Decidable c] : (if c then s.bump .devAuthFailCount else s).elapsed = s.elapsed := by split <;> rfl
  unfold State.failLoad
  dsimp only
  split
  · rfl
  · split <;> simp [hcount]

/-- Unloading dissolves the sites, empties the regions, and leaves the wipe begun. -/
theorem unloadConfig_eq (s : State) : ∃ t, Keeps [.regs, .quads] s.dissolveAll t ∧
    s.unloadConfig = { t with
      dev := { t.dev with wiping := true, wipeSince := t.elapsed }
      cfg := { t.cfg with loaded := false, passes := t.sentPasses, shadows := [] } } := by
  refine ⟨_, ?_, rfl⟩
  refine keeps_then [.quads] [.regs, .quads] _ _ _ _ (each_keeps_of _ _ _ _ (fun k t => setRegion_keeps t _ _ _))
    (each_keeps_of _ _ _ _ (fun q t => ?_)) (by decide) (fun _ h => h)
  exact keeps_then [.regs] [.quads] _ _ _ _
    (keeps_then [.regs] [.regs] _ _ _ _ (setReg_keeps _ _ _ _ _) (setReg_keeps _ _ _ _ _) (by decide) (by decide))
    (settleTrees_keeps _ _) (by decide) (by decide)

theorem unloadConfig_wiping (s : State) : s.unloadConfig.dev.wiping = true := by
  obtain ⟨t, -, heq⟩ := unloadConfig_eq s
  rw [heq]
theorem unloadConfig_loaded (s : State) : s.unloadConfig.cfg.loaded = false := by
  obtain ⟨t, -, heq⟩ := unloadConfig_eq s
  rw [heq]
theorem unloadConfig_fault (s : State) : s.unloadConfig.dev.fault = s.dev.fault := by
  obtain ⟨t, hk, heq⟩ := unloadConfig_eq s
  rw [heq]
  change t.dev.fault = s.dev.fault
  rw [keeps_dev _ _ _ hk (by decide), keeps_dev _ _ _ (dissolveAll_keeps s) (by decide)]
@[simp] theorem unloadConfig_elapsed (s : State) : s.unloadConfig.elapsed = s.elapsed := by
  obtain ⟨t, hk, heq⟩ := unloadConfig_eq s
  rw [heq]
  change t.elapsed = s.elapsed
  rw [keeps_elapsed _ _ _ hk (by decide), keeps_elapsed _ _ _ (dissolveAll_keeps s) (by decide)]

/-- A site that is dissolved is none, and no other site changes its state. -/
theorem dissolve_siteSt (s : State) (i j : Nat) : (s.dissolve i).siteSt j = if j = i then .none else s.siteSt j := by
  have hphase : ((s.armAborted i).wr .siteBundles 0 i).siteSt j = s.siteSt j :=
    congrArg Prod.fst ((armAborted_moves s i).1 j (by simp))
  unfold State.dissolve
  simp only [State.siteSt, site_setSite]
  split
  · split <;> rfl
  · exact hphase

theorem dissolveAll_siteSt (s : State) (i : Nat) (hi : i < 12) : s.dissolveAll.siteSt i = .none := by
  have hstep (j : Nat) (t : State) : (if t.siteSt j == .none then t else t.dissolve j).siteSt i
      = if i = j then .none else t.siteSt i := by
    split
    · next h =>
      split
      · next hij => rw [hij]; exact eq_of_beq h
      · rfl
    · exact dissolve_siteSt t j i
  have hlist : ∀ (l : List Nat) (t : State), (i ∈ l ∨ t.siteSt i = .none) →
      (t.each l (fun j u => if u.siteSt j == .none then u else u.dissolve j)).siteSt i = .none := by
    intro l
    induction l with
    | nil => exact fun t h => h.resolve_left (by simp)
    | cons j l ih =>
      intro t h
      refine ih _ ?_
      rw [hstep]
      by_cases hij : i = j
      · exact Or.inr (if_pos hij)
      · rw [if_neg hij]
        exact h.imp_left (fun hm => (List.mem_cons.mp hm).resolve_left hij)
  exact hlist _ s (Or.inl ((mem_upto i 12).mpr hi))

theorem unloadConfig_siteSt (s : State) (i : Nat) (hi : i < 12) : s.unloadConfig.siteSt i = .none := by
  obtain ⟨t, hk, heq⟩ := unloadConfig_eq s
  have hsites : s.unloadConfig.sites = s.dissolveAll.sites := by
    rw [heq]
    exact hk.2.2 .sites (by decide)
  rw [State.siteSt, State.site, hsites]
  exact dissolveAll_siteSt s i hi

/-! ### A flag of every site that accepts a command -/

/-- Setting something of each site of a list for which a condition of that site holds: the others stay. -/
theorem each_onlyIf_setSite (c : State → Nat → Bool) (g : Site → Site)
    (hc : ∀ t u i, u.dict = t.dict → u.dev = t.dev → u.site i = t.site i → c u i = c t i) (l : List Nat) (hl : l.Nodup) (s : State) :
    (∀ i, (s.each l (fun i t => t.onlyIf (c t i) (·.setSite i g))).site i
      = if i ∈ l ∧ c s i = true then g (s.site i) else s.site i) ∧
    Keeps [.sites] s (s.each l (fun i t => t.onlyIf (c t i) (·.setSite i g))) ∧
    (s.each l (fun i t => t.onlyIf (c t i) (·.setSite i g))).ij = s.ij := by
  induction l generalizing s with
  | nil => exact ⟨by simp [State.each], Keeps_refl _ _, rfl⟩
  | cons i l ih =>
    obtain ⟨hi, hl⟩ := List.nodup_cons.mp hl
    obtain ⟨hsite, hkeeps, hij⟩ := ih hl (s.onlyIf (c s i) (·.setSite i g))
    have hone : ∀ j, (s.onlyIf (c s i) (·.setSite i g)).site j = if j = i ∧ c s i = true then g (s.site i) else s.site j := by
      intro j
      cases hci : c s i <;> simp [State.onlyIf]
    have hdict : (s.onlyIf (c s i) (·.setSite i g)).dict = s.dict := by cases c s i <;> rfl
    have hdev : (s.onlyIf (c s i) (·.setSite i g)).dev = s.dev := by cases c s i <;> rfl
    refine ⟨fun j => ?_, Keeps_trans _ _ _ _ (onlyIf_keeps _ _ _ _ _ (Keeps_refl _ _) (setSite_keeps _ _ _)) hkeeps,
      hij.trans (by cases c s i <;> rfl)⟩
    refine (hsite j).trans ?_
    by_cases hji : j = i
    · subst hji
      simp [hi, hone]
    · have hj : (s.onlyIf (c s i) (·.setSite i g)).site j = s.site j := by rw [hone j, if_neg (by simp [hji])]
      rw [hc s _ j hdict hdev hj, hj]
      simp [hji]

/-- The sites whose PAUSE takes effect later: those that run and accept it (R83). -/
def pauses (s : State) (i : Nat) : Bool := s.siteSt i == .running && siteCommandState s i 3 == .ok
/-- The sites whose RESUME takes effect later. -/
def resumes (s : State) (i : Nat) : Bool := s.siteSt i == .paused && siteCommandState s i 4 == .ok

theorem siteCommandState_congr (s t : State) (i v : Nat) (hdict : t.dict = s.dict) (hdev : t.dev = s.dev)
    (hsite : t.site i = s.site i) : siteCommandState t i v = siteCommandState s i v := by
  have hst : t.siteSt i = s.siteSt i := by rw [State.siteSt, hsite, State.siteSt]
  have hval : t.validates i = s.validates i := by rw [State.validates, hsite, State.validates]
  have hmem : t.isMember i = s.isMember i := by simp only [State.isMember, State.rd, State.reg, hdict]
  simp only [siteCommandState, hst, hval, hmem, hdev]

theorem pauses_congr (s t : State) (i : Nat) (hdict : t.dict = s.dict) (hdev : t.dev = s.dev) (hsite : t.site i = s.site i) :
    pauses t i = pauses s i := by
  simp [pauses, siteCommandState_congr s t i 3 hdict hdev hsite, State.siteSt, hsite]
theorem resumes_congr (s t : State) (i : Nat) (hdict : t.dict = s.dict) (hdev : t.dev = s.dev) (hsite : t.site i = s.site i) :
    resumes t i = resumes s i := by
  simp [resumes, siteCommandState_congr s t i 4 hdict hdev hsite, State.siteSt, hsite]

theorem allSites_pause (s : State) : allSites 3 pauseEffect' s =
    s.each (upto 12) (fun i t => t.onlyIf (pauses t i) (·.setSite i (fun x => { x with pausing := true }))) := by
  have h : ∀ (i : Nat) (t : State), t.onlyIf (siteCommandState t i 3 == .ok) (pauseEffect' i)
      = t.onlyIf (pauses t i) (·.setSite i (fun x => { x with pausing := true })) := by
    intro i t
    cases hc : siteCommandState t i 3 == .ok <;> simp [State.onlyIf, pauses, pauseEffect', hc]
  simp only [allSites, h]
theorem allSites_resume (s : State) : allSites 4 resumeEffect' s =
    s.each (upto 12) (fun i t => t.onlyIf (resumes t i) (·.setSite i (fun x => { x with resuming := true }))) := by
  have h : ∀ (i : Nat) (t : State), t.onlyIf (siteCommandState t i 4 == .ok) (resumeEffect' i)
      = t.onlyIf (resumes t i) (·.setSite i (fun x => { x with resuming := true })) := by
    intro i t
    cases hc : siteCommandState t i 4 == .ok <;> simp [State.onlyIf, resumes, resumeEffect', hc]
  simp only [allSites, h]

/-! ### How an accepted command ends -/

/-- A command whose effect is answered OK: what its effect leaves, it leaves. -/
theorem answered_ok (rq : Rq) (a : Addr) (f : State → State) (l : List Part) (s e : State)
    (hf : f { s with out := [] } = answerNow rq svcWrite a none (some .ok, e)) (hk : Keeps l (received rq s) e)
    (hij : e.ij.txDrop = s.ij.txDrop) :
    ∃ t, run f s = .next t ∧ Replied rq svcWrite a .ok s t ∧ Keeps (l ++ answerParts) s t ∧ t.sites = e.sites ∧
      t.dev = e.dev ∧ (∀ key d, ¬ eventKey key → Store.get d key t.dict.regs = Store.get d key e.dict.regs) := by
  have hr := reply_keeps e rq svcWrite a .ok [] none
  refine ⟨_, run_next f s _ hf, answered_replied _ _ _ _ _ _ (by simp [hij]), ?_, ?_, ?_, fun key d hkey => ?_⟩
  · exact answered_keeps _ _ _ _ _ _ _ _ _ (Keeps_trans _ _ _ _ (Keeps_mono _ _ _ _ (received_keeps rq s) (by simp))
      (Keeps_mono _ _ _ _ hk (by simp +contextual))) (by simp +contextual)
  · exact (deliver_sites _).trans (hr.2.2 .sites (by simp [answerParts]))
  · exact (deliver_dev _).trans (hr.2.2 .dev (by simp [answerParts]))
  · exact (deliver_get _ key d hkey).trans (hr.2.2 .regs (by simp [answerParts]) key d hkey)

theorem rd_of_regs (s t : State) (o : Obj) (u k : Nat) (h : Store.get o.dflt (o.key u k) t.dict.regs
    = Store.get o.dflt (o.key u k) s.dict.regs) : t.rd o u k = s.rd o u k := by rw [State.rd, State.reg, h]; rfl
theorem site_of_sites (s t : State) (h : t.sites = s.sites) (i : Nat) : t.site i = s.site i := by
  rw [State.site, h, State.site]

/-- A register below the ports' that is none of the six of the device which reporting changes. -/
theorem not_eventKey (key : Nat) (hlt : key < Obj.portEventCount.key)
    (hne : key ∉ [Obj.devLogLastCode.key, Obj.devEvtMasked.key, Obj.devEvtHostWritten.key, Obj.devEvtHostLost.key,
      Obj.devLogLost.key, Obj.devIjLastEvent.key]) : ¬ eventKey key := by
  rintro (h | ⟨u, rfl⟩)
  · exact hne h
  · have : Obj.portEventCount.key ≤ Obj.portEventCount.key u := by
      simp only [Obj.key, Obj.index, Space.base]
      exact Nat.add_le_add_right (Nat.mul_le_mul_right _ (Nat.add_le_add_right (by simp [Obj.row]) _)) _
    omega

theorem siteBundles_not_eventKey (i : SiteNo) : ¬ eventKey (Obj.siteBundles.key i) :=
  not_eventKey _ (by revert i; decide) (by revert i; decide)
theorem selftestState_not_eventKey : ¬ eventKey Obj.devSelftestState.key := not_eventKey _ (by decide) (by decide)

/-! ### The effects -/

theorem putOf_v (o : Obj) (u k v : Nat) (hv : v < 256 ^ o.row.size) : (putOf o u k v).v = v := leNat_leBytes _ _ hv

/-- The effect of a SITE_COMMAND. -/
theorem putEffect_siteCommand (rq : Rq) (a : Addr) (i v : Nat) (x : Extra) (s : State) (hv : v < 256) :
    putEffect rq svcWrite a (putOf .siteCommand i 0 v) x s = siteCommandEffect rq svcWrite a i v s := by
  have : (putOf .siteCommand i 0 v).v = v := putOf_v _ _ _ _ hv
  simp only [putEffect, this]
  rfl

theorem putEffect_devCommand (rq : Rq) (a : Addr) (v : Nat) (x : Extra) (s : State) (hv : v < 256) :
    putEffect rq svcWrite a (putOf .devCommand 0 0 v) x s = devCommandEffect rq svcWrite a v s := by
  have : (putOf .devCommand 0 0 v).v = v := putOf_v _ _ _ _ hv
  simp only [putEffect, this]
  rfl

theorem putEffect_siteBundles (rq : Rq) (a : Addr) (i v : Nat) (x : Extra) (s : State) (hv : v < 65536) :
    putEffect rq svcWrite a (putOf .siteBundles i 0 v) x s = (some .ok, siteBundlesEffect i v s) := by
  have : (putOf .siteBundles i 0 v).v = v := putOf_v _ _ _ _ hv
  simp only [putEffect, this]
  rfl

theorem direct_siteCommand (v : Nat) (h : v ≠ 6) : Direct .siteCommand v := ⟨by decide, by decide, by decide, by decide, fun _ => h⟩
theorem direct_devCommand (v : Nat) : Direct .devCommand v :=
  ⟨by decide, by decide, by decide, by decide, nofun⟩
theorem direct_siteBundles (v : Nat) : Direct .siteBundles v :=
  ⟨by decide, by decide, by decide, by decide, nofun⟩

/-- An accepted SITE_COMMAND below the abort does what its row says. -/
theorem siteCommand_accepted (rq : Rq) (i : SiteNo) (v : Nat) (s : State) (h : Accepted rq .siteCommand i 0 v {} s)
    (hv : v < 6) : writeTo rq .siteCommand i 0 v {} { s with out := [] } = answerNow rq svcWrite (Obj.siteCommand.addr i) none
      (siteCommandEffect rq svcWrite (Obj.siteCommand.addr i) i v (received rq s)) := by
  have hlt : v < 256 ^ Obj.siteCommand.row.size := Nat.lt_of_lt_of_le hv (by decide)
  rw [writeTo_accepted rq _ _ _ _ _ s h (target_siteCommand i) (direct_siteCommand v (by omega)) hlt rfl,
    putEffect_siteCommand _ _ _ _ _ _ (by omega)]

theorem settle_devCommand (v : Nat) (x : Extra) (s : State) (hv : v < 256) (h : v = 3 → x = { cleared := some true }) :
    s.settle (putOf .devCommand 0 0 v) x = (x, s) := by
  have hval : (putOf .devCommand 0 0 v).v = v := putOf_v _ _ _ _ hv
  have ho : (putOf .devCommand 0 0 v).o = .devCommand := rfl
  unfold State.settle
  rw [ho]
  dsimp only
  rw [hval]
  split
  · next h3 =>
    rw [h (eq_of_beq h3)]
    rfl
  · rfl

/-- An accepted DEV_COMMAND does what its row says; one that clears the fault is told that the cause is cleared. -/
theorem devCommand_accepted (rq : Rq) (v : Nat) (x : Extra) (s : State) (h : Accepted rq .devCommand 0 0 v x s)
    (hv : v < 6) (hx : v = 3 → x = { cleared := some true }) :
    writeTo rq .devCommand 0 0 v x { s with out := [] } = answerNow rq svcWrite Obj.devCommand.addr none
      (devCommandEffect rq svcWrite Obj.devCommand.addr v (received rq s)) := by
  have hlt : v < 256 ^ Obj.devCommand.row.size := Nat.lt_of_lt_of_le hv (by decide)
  have hset := settle_devCommand v x (received rq s) (by omega) hx
  rw [writeTo_accepted rq _ _ _ _ _ s h target_devCommand (direct_devCommand v) hlt hset,
    putEffect_devCommand _ _ _ _ _ (by omega)]

/-- An accepted SITE_BUNDLES of bundles forms the site. -/
theorem siteBundles_accepted (rq : Rq) (i : SiteNo) (mask : BitVec 16) (s : State) (hm : mask ≠ 0)
    (h : Accepted rq .siteBundles i 0 mask.toNat {} s) :
    writeTo rq .siteBundles i 0 mask.toNat {} { s with out := [] } = answerNow rq svcWrite (Obj.siteBundles.addr i) none
      (some .ok, ((received rq s).wr .siteBundles mask.toNat i).setSite i (fun t => { t with st := .ready })) := by
  have hlt : mask.toNat < 256 ^ Obj.siteBundles.row.size := mask.isLt
  have h0 : (mask.toNat == 0) = false := by
    simpa [BitVec.toNat_eq] using hm
  rw [writeTo_accepted rq _ _ _ _ _ s h (target_siteBundles i) (direct_siteBundles _) hlt rfl,
    putEffect_siteBundles _ _ _ _ _ _ mask.isLt]
  simp [siteBundlesEffect, h0]

end Sys2Proof.Laws

namespace Sys2Proof.Proofs
open Sys2Proof.Machine Sys2Proof.Safety Sys2Proof.Laws

theorem siteBundlesWrite_forms (rq : Rq) (s : State) (i : SiteNo) (mask : BitVec 16) (hm : mask ≠ 0)
    (h : Accepted rq .siteBundles i 0 mask.toNat {} s) :
    ∃ t, exec (.siteBundlesWrite rq i mask) s = .next t ∧ Replied rq svcWrite (Obj.siteBundles.addr i) .ok s t ∧
      t.rd .siteBundles i = mask.toNat ∧ t.siteSt i = .ready ∧ RegsBut [Obj.siteBundles.key i] s t ∧
      OnlySite i (.regs :: answerParts) s t := by
  obtain ⟨t, ht, hreply, hkeeps, hsites, -, hregs⟩ := answered_ok rq _ (writeTo rq .siteBundles i 0 mask.toNat) [.sites, .regs] s
    _ (siteBundles_accepted rq i mask s hm h) (keeps_then [.regs] [.sites] _ _ _ _ (wr_keeps _ _ _ _ _) (setSite_keeps _ _ _)
      (by decide) (by decide)) (by simp)
  have hsite := site_of_sites _ _ hsites
  refine ⟨t, ht, hreply, ?_, ?_, ?_, fun j hj => ?_, hkeeps⟩
  · rw [rd_of_regs _ _ _ _ _ (hregs _ _ (siteBundles_not_eventKey i)), setSite_rd, rd_wr_same,
      Nat.mod_eq_of_lt (Nat.lt_trans mask.isLt (by decide))]
  · simp [State.siteSt, hsite]
  · intro key d hkey hev
    rw [hregs key d hev, setSite_dict, State.wr, get_setReg _ _ _ _ _ _ _ (by simpa using hkey), received_dict]
  · simp [hsite, hj]

theorem armBegins_keeps (s : State) (i : Nat) : Keeps [.regs] s (s.armBegins i) :=
  each_keeps_of _ _ _ _ (fun _ _ => wr_keeps _ _ _ _ _)
@[simp] theorem armBegins_site (s : State) (i j : Nat) : (s.armBegins i).site j = s.site j :=
  site_of_sites _ _ ((armBegins_keeps s i).2.2 .sites (by decide)) j
@[simp] theorem armBegins_elapsed (s : State) (i : Nat) : (s.armBegins i).elapsed = s.elapsed :=
  keeps_elapsed _ _ _ (armBegins_keeps s i) (by decide)
@[simp] theorem armBegins_services (s : State) (i : Nat) : (s.armBegins i).ctl.services = s.ctl.services :=
  each_same (·.ctl.services) (s.portsOf i) (fun p t => t.wr .portTsetCheck 0 p) (fun _ _ => rfl) s

theorem arm_validates (rq : Rq) (s : State) (i : SiteNo) (h : Accepted rq .siteCommand i 0 1 {} s) :
    ∃ t, exec (.arm rq i) s = .next t ∧ (t.site i).validating = some rq ∧ OnlySite i [.regs, .ctl] s t ∧
      t.ctl.services = s.ctl.services ++
        [{ rq := rq, service := svcWrite, addr := Obj.siteCommand.addr i, waits := .arm i, since := s.elapsed }] := by
  refine ⟨_, run_next (writeTo rq .siteCommand i 0 1) s _ (siteCommand_accepted rq i 1 s h (by decide)), ?_, ⟨fun j hj => ?_, ?_⟩, ?_⟩
  · rw [keepFixed_site, deliver_site]
    change ((((received rq s).armBegins i).setSite i (fun x => { x with validating := some rq })).site i).validating = some rq
    simp
  · rw [keepFixed_site, deliver_site]
    change (((received rq s).armBegins i).setSite i (fun x => { x with validating := some rq })).site j = s.site j
    simp [hj]
  · refine ended_keeps _ _ _ (Keeps_trans _ _ _ _ (Keeps_mono _ _ _ _ (received_keeps rq s) (by simp)) ?_)
    exact keeps_then [.regs, .sites] [.ctl] _ _ _ _ (keeps_then [.regs] [.sites] _ _ _ _ (armBegins_keeps _ _)
      (setSite_keeps _ _ _) (by decide) (by decide)) (openService_keeps _ _ _ _ _) (by decide) (by decide)
  · simp [answerNow, siteCommandEffect, armEffect, State.openService]

/-- A SITE_COMMAND whose effect changes its site alone. -/
theorem siteCommand_setSite (rq : Rq) (s : State) (i : SiteNo) (v : Nat) (g : Site → Site) (hv : v < 6)
    (h : Accepted rq .siteCommand i 0 v {} s)
    (he : siteCommandEffect rq svcWrite (Obj.siteCommand.addr i) i v (received rq s) = (some .ok, (received rq s).setSite i g)) :
    ∃ t, run (writeTo rq .siteCommand i 0 v) s = .next t ∧ Replied rq svcWrite (Obj.siteCommand.addr i) .ok s t ∧
      t.site i = g (s.site i) ∧ OnlySite i answerParts s t := by
  obtain ⟨t, ht, hreply, hkeeps, hsites, -, -⟩ := answered_ok rq (Obj.siteCommand.addr i) (writeTo rq .siteCommand i 0 v)
    [.sites] s ((received rq s).setSite i g) (he ▸ siteCommand_accepted rq i v s h hv) (setSite_keeps _ _ _) (by simp)
  have hsite := site_of_sites _ _ hsites
  exact ⟨t, ht, hreply, by simp [hsite], fun j hj => by simp [hsite, hj], hkeeps⟩

/-- A SITE_COMMAND whose effect changes nothing. -/
theorem siteCommand_nothing (rq : Rq) (s : State) (i : SiteNo) (v : Nat) (hv : v < 6)
    (h : Accepted rq .siteCommand i 0 v {} s)
    (he : siteCommandEffect rq svcWrite (Obj.siteCommand.addr i) i v (received rq s) = (some .ok, received rq s)) :
    ∃ t, run (writeTo rq .siteCommand i 0 v) s = .next t ∧ Replied rq svcWrite (Obj.siteCommand.addr i) .ok s t ∧
      Keeps answerParts s t := by
  obtain ⟨t, ht, hreply, hkeeps, -⟩ := answered_ok rq (Obj.siteCommand.addr i) (writeTo rq .siteCommand i 0 v)
    [] s (received rq s) (he ▸ siteCommand_accepted rq i v s h hv) (Keeps_refl _ _) (by simp)
  exact ⟨t, ht, hreply, hkeeps⟩

theorem received_nextPoint (rq : Rq) (s : State) (i : Nat) : (received rq s).nextPoint i = s.nextPoint i := by
  obtain ⟨src, seq, cfg⟩ := rq
  cases src with
  | host slot => rfl
  | mgt addr port => simp only [received, hears_eq]; rfl

theorem start_remembers (rq : Rq) (s : State) (i : SiteNo) (h : Accepted rq .siteCommand i 0 2 {} s) :
    ∃ t, exec (.start rq i) s = .next t ∧ Replied rq svcWrite (Obj.siteCommand.addr i) .ok s t ∧
      t.site i = { s.site i with startAt := (s.site i).startAt.or (some (s.nextPoint i)) } ∧ OnlySite i answerParts s t :=
  siteCommand_setSite rq s i 2 (fun x => { x with startAt := x.startAt.or (some (s.nextPoint i)) }) (by decide) h
    (by simp [siteCommandEffect, startEffect, received_nextPoint])

theorem pauseAll_pauses (rq : Rq) (s : State) (h : Accepted rq .devCommand 0 0 1 {} s) :
    ∃ t, exec (.pauseAll rq) s = .next t ∧ Replied rq svcWrite Obj.devCommand.addr .ok s t ∧
      Keeps (.sites :: answerParts) s t ∧
      ∀ i, i < 12 → t.site i = { s.site i with pausing := (s.site i).pausing || pauses s i } := by
  obtain ⟨hsite, hkeeps, hij⟩ := each_onlyIf_setSite pauses (fun x => { x with pausing := true }) pauses_congr (upto 12)
    (nodup_upto 12) (received rq s)
  have hf := devCommand_accepted rq 1 {} s h (by decide) nofun
  rw [devCommandEffect, allSites_pause] at hf
  obtain ⟨t, ht, hreply, hframe, hsites, -⟩ := answered_ok rq Obj.devCommand.addr (writeTo rq .devCommand 0 0 1) [.sites] s _
    hf hkeeps (by rw [hij, received_txDrop])
  refine ⟨t, ht, hreply, hframe, fun i hi => ?_⟩
  have hsame := pauses_congr s (received rq s) i (by simp) (by simp) (by simp)
  rw [site_of_sites _ _ hsites, hsite i, hsame, received_site]
  cases pauses s i <;> simp [mem_upto, hi]

theorem resumeAll_resumes (rq : Rq) (s : State) (h : Accepted rq .devCommand 0 0 2 {} s) :
    ∃ t, exec (.resumeAll rq) s = .next t ∧ Replied rq svcWrite Obj.devCommand.addr .ok s t ∧
      Keeps (.sites :: answerParts) s t ∧
      ∀ i, i < 12 → t.site i = { s.site i with resuming := (s.site i).resuming || resumes s i } := by
  obtain ⟨hsite, hkeeps, hij⟩ := each_onlyIf_setSite resumes (fun x => { x with resuming := true }) resumes_congr (upto 12)
    (nodup_upto 12) (received rq s)
  have hf := devCommand_accepted rq 2 {} s h (by decide) nofun
  rw [devCommandEffect, allSites_resume] at hf
  obtain ⟨t, ht, hreply, hframe, hsites, -⟩ := answered_ok rq Obj.devCommand.addr (writeTo rq .devCommand 0 0 2) [.sites] s _
    hf hkeeps (by rw [hij, received_txDrop])
  refine ⟨t, ht, hreply, hframe, fun i hi => ?_⟩
  have hsame := resumes_congr s (received rq s) i (by simp) (by simp) (by simp)
  rw [site_of_sites _ _ hsites, hsite i, hsame, received_site]
  cases resumes s i <;> simp [mem_upto, hi]

/-- What the end of an UNLOAD or a CLEAR_FAULT leaves: a state as unloading has made it, with the service open. -/
theorem unloading_ends (rq : Rq) (f : State → State) (s u e : State)
    (hf : f { s with out := [] } = e.openService rq svcWrite Obj.devCommand.addr .unload)
    (he : e.elapsed = s.elapsed) (hmem : e.memory = s.memory) (hdev : e.dev = u.unloadConfig.dev)
    (hcfg : e.cfg = u.unloadConfig.cfg) (hsites : e.sites = u.unloadConfig.sites) :
    ∃ t, run f s = .next t ∧ t.dev.fault = u.dev.fault ∧ t.dev.wiping = true ∧ t.cfg.loaded = false ∧
      (∀ i, i < 12 → t.siteSt i = .none) ∧ t.mem = s.mem ∧
      { rq := rq, service := svcWrite, addr := Obj.devCommand.addr, waits := Waits.unload, since := s.elapsed } ∈ t.ctl.services := by
  refine ⟨_, run_next f s _ hf, ?_, ?_, ?_, fun i hi => ?_, ended_mem _ _ hmem, ?_⟩
  · simp [State.openService, hdev, unloadConfig_fault]
  · simp [State.openService, hdev, unloadConfig_wiping]
  · simp [State.openService, hcfg, unloadConfig_loaded]
  · rw [keepFixed_siteSt, deliver_siteSt]
    exact (congrArg Site.st (site_of_sites u.unloadConfig e hsites i)).trans (unloadConfig_siteSt u i hi)
  · simp [State.openService, he]

/-- CLEAR_FAULT first takes the fault away (R79). -/
def faultCleared (s : State) : State :=
  { s with dev := { s.dev with fault := none }, therm := { s.therm with shutdown := false } }

/-- CLEAR_FAULT last takes back the failure of the bundles that have passed a self-test since (R79). -/
def bundlesPardoned (s : State) : State :=
  s.each (upto 12) (fun b s => s.onlyIf ((s.bnd b).failed && (s.bnd b).passed) (fun s =>
    s.setBnd b (fun t => { t with failed := false, passed := false })))

theorem clearFaultEffect_eq (rq : Rq) (service : Nat) (a : Addr) (s : State) : clearFaultEffect rq service a s =
    (bundlesPardoned (faultCleared s).unloadConfig).openService rq service a .unload := by
  unfold clearFaultEffect bundlesPardoned faultCleared
  rfl

theorem bundlesPardoned_keeps (s : State) : Keeps [.bnds] s (bundlesPardoned s) :=
  each_keeps_of _ _ _ _ (fun _ _ => onlyIf_keeps _ _ _ _ _ (Keeps_refl _ _) (setBnd_keeps _ _ _))

theorem clearFault_ends (rq : Rq) (s : State) (h : Accepted rq .devCommand 0 0 3 { cleared := some true } s) :
    ∃ t, exec (.clearFault rq true) s = .next t ∧ t.dev.fault = none ∧ t.dev.wiping = true ∧ t.cfg.loaded = false ∧
      (∀ i, i < 12 → t.siteSt i = .none) ∧ t.mem = s.mem ∧
      { rq := rq, service := svcWrite, addr := Obj.devCommand.addr, waits := Waits.unload, since := s.elapsed } ∈ t.ctl.services := by
  have he := bundlesPardoned_keeps (faultCleared (received rq s)).unloadConfig
  have hmem : (faultCleared (received rq s)).memory = s.memory := received_memory rq s
  have helapsed : (faultCleared (received rq s)).elapsed = s.elapsed := received_elapsed rq s
  have hf : writeTo rq .devCommand 0 0 3 { cleared := some true } { s with out := [] } =
      (bundlesPardoned (faultCleared (received rq s)).unloadConfig).openService rq svcWrite Obj.devCommand.addr .unload := by
    rw [devCommand_accepted rq 3 _ s h (by decide) (fun _ => rfl), devCommandEffect, clearFaultEffect_eq]
    rfl
  exact unloading_ends rq (writeTo rq .devCommand 0 0 3 { cleared := some true }) s (faultCleared (received rq s)) _ hf
    (by rw [keeps_elapsed _ _ _ he (by decide), unloadConfig_elapsed, helapsed])
    (by rw [keeps_memory _ _ _ he (by decide), unloadConfig_memory, hmem])
    (he.2.2 .dev (by decide)) (he.2.2 .cfg (by decide)) (he.2.2 .sites (by decide))

theorem unload_ends (rq : Rq) (s : State) (h : Accepted rq .devCommand 0 0 4 {} s) :
    ∃ t, exec (.unload rq) s = .next t ∧ t.dev.wiping = true ∧ t.cfg.loaded = false ∧
      (∀ i, i < 12 → t.siteSt i = .none) ∧ t.mem = s.mem ∧
      { rq := rq, service := svcWrite, addr := Obj.devCommand.addr, waits := Waits.unload, since := s.elapsed } ∈ t.ctl.services := by
  obtain ⟨t, ht, -, hends⟩ := unloading_ends rq (writeTo rq .devCommand 0 0 4) s ((received rq s).failLoad 15 0 .aborted) _
    (devCommand_accepted rq 4 {} s h (by decide) nofun) (by simp) (by simp) rfl rfl rfl
  exact ⟨t, ht, hends⟩

theorem selfTestEffect_keeps (s : State) : Keeps [.regs, .dev] s (selfTestEffect s) :=
  keeps_then [.regs] [.dev] _ _ (s.wr .devSelftestState 1) _ (wr_keeps _ _ _ _ _)
    ⟨rfl, rfl, fun p hp => by cases p <;> simp_all [Part.same, selfTestEffect]⟩ (by decide) (by decide)

theorem selfTest_begins (rq : Rq) (s : State) (h : Accepted rq .devCommand 0 0 5 {} s) :
    ∃ t, exec (.selfTest rq) s = .next t ∧ Replied rq svcWrite Obj.devCommand.addr .ok s t ∧ t.dev.selfTest = true ∧
      t.rd .devSelftestState = 1 ∧ RegsBut [Obj.devSelftestState.key] s t ∧ Keeps (.regs :: .dev :: answerParts) s t := by
  obtain ⟨t, ht, hreply, hkeeps, -, hdev, hregs⟩ := answered_ok rq Obj.devCommand.addr (writeTo rq .devCommand 0 0 5)
    [.regs, .dev] s _ (devCommand_accepted rq 5 {} s h (by decide) nofun) (selfTestEffect_keeps _) (by simp [selfTestEffect])
  refine ⟨t, ht, hreply, by rw [hdev]; rfl, ?_, fun key d hkey hev => ?_, hkeeps⟩
  · rw [rd_of_regs _ _ _ _ _ (hregs _ _ selftestState_not_eventKey)]
    exact rd_wr_same _ _ _ _ _
  · rw [hregs key d hev]
    exact (get_setReg _ _ _ _ _ _ _ (by simpa using hkey)).trans (by rw [received_dict])

/-- Settles O47: each accepted command takes the effect that its lemma above describes. -/
theorem siteCommands : Obligations.SiteCommands := by
  unfold Obligations.SiteCommands
  refine fun rq s => ⟨fun i mask hm h => siteBundlesWrite_forms rq s i mask hm h, fun i => ⟨fun h => arm_validates rq s i h,
    fun h => start_remembers rq s i h, fun h hst => ?_, fun h hst => ?_, fun h hst => ?_, fun h hst => ?_, fun h hst => ?_,
    fun h hst => ?_⟩, pauseAll_pauses rq s, resumeAll_resumes rq s, clearFault_ends rq s, unload_ends rq s, selfTest_begins rq s⟩
  · exact siteCommand_setSite rq s i 3 (fun x => { x with pausing := true }) (by decide) h
      (by simp [siteCommandEffect, pauseEffect', hst, State.onlyIf])
  · exact siteCommand_nothing rq s i 3 (by decide) h (by simp [siteCommandEffect, pauseEffect', hst, State.onlyIf])
  · exact siteCommand_nothing rq s i 4 (by decide) h (by simp [siteCommandEffect, resumeEffect', hst, State.onlyIf])
  · exact siteCommand_nothing rq s i 5 (by decide) h (by simp [siteCommandEffect, disarmEffect, hst])
  · exact siteCommand_setSite rq s i 4 (fun x => { x with resuming := true }) (by decide) h
      (by simp [siteCommandEffect, resumeEffect', hst, State.onlyIf])
  · exact siteCommand_setSite rq s i 5 (fun x => { x with st := .ready, startAt := none }) (by decide) h
      (by simp [siteCommandEffect, disarmEffect, hst])

end Sys2Proof.Proofs
end

section
/-! GDDR7 with quiet channels and stored check bytes that are those of the data: reading, merging and writing granules change
no channel's state, and a write leaves its bytes and no others (R464 to R471, R479, R480). -/
namespace Sys2Proof.Laws
open Sys2Proof.Machine Sys2Proof.Safety

/-! ### What requests to a healthy memory leave as it is -/

/-- The registers in which requests to GDDR7 are counted and recorded. -/
def memKeys : List Nat :=
  [Obj.devMemRmw.key, Obj.devMemProtectedWrites.key, Obj.devMemProtectedLast.key, Obj.devNocAbsorbedWrites.key,
   Obj.devNocPoisonedReads.key, Obj.devPciePoisoned.key, Obj.devPcieBar2Range.key, Obj.devPcieD2hBytes.key]

/-- What the health of a channel is judged by. -/
def Chan.judged (c : Chan) : ChanSt × Option (Fin 32) × List (Nat × Nat) × List Nat := (c.st, c.lane, c.recent, c.recentBad)

/-- Nothing differs but stored bytes, counts of channels, and the registers of `memKeys`. -/
structure Calm (s t : State) : Prop where
  frame : Keeps [.regs, .mem, .chans] s t
  chan : ∀ c, Chan.judged (t.chan c) = Chan.judged (s.chan c)
  regs : RegsBut memKeys s t

theorem calm_refl (s : State) : Calm s s := ⟨Keeps_refl _ _, fun _ => rfl, fun _ _ _ _ => rfl⟩
theorem calm_trans (s t u : State) (h : Calm s t) (h' : Calm t u) : Calm s u :=
  ⟨Keeps_trans _ _ _ _ h.frame h'.frame, fun c => (h'.chan c).trans (h.chan c),
   fun key d hk he => (h'.regs key d hk he).trans (h.regs key d hk he)⟩

theorem calm_wr (s : State) (o : Obj) (v u k : Nat) (h : o.key u k ∈ memKeys) : Calm s (s.wr o v u k) :=
  ⟨Keeps_mono _ _ _ _ (wr_keeps _ _ _ _ _) (by simp), fun _ => rfl,
   fun _ _ hk _ => get_setReg _ _ _ _ _ _ _ (fun e => hk (e ▸ h))⟩
theorem calm_bump (s : State) (o : Obj) (u k n : Nat) (h : o.key u k ∈ memKeys) : Calm s (s.bump o u k n) := calm_wr _ _ _ _ _ h
theorem calm_raise (s : State) (code kind unit arg0 arg1 : Nat) (ext : List Byte) (rim : Bool) :
    Calm s (s.raise code kind unit arg0 arg1 ext rim) :=
  ⟨Keeps_mono _ _ _ _ (raise_keeps _ _ _ _ _ _ _ _) (by simp), fun _ => rfl, fun _ _ _ _ => rfl⟩
theorem calm_send (s : State) (m : Msg) : Calm s (s.send m) :=
  ⟨Keeps_mono _ _ _ _ (send_keeps _ _) (by simp), fun _ => rfl, fun _ _ _ _ => rfl⟩
theorem calm_setChan (s : State) (c : Nat) (f : Chan → Chan) (h : Chan.judged (f (s.chan c)) = Chan.judged (s.chan c)) :
    Calm s (s.setChan c f) := by
  refine ⟨⟨rfl, rfl, fun p hp => by cases p <;> simp_all [Part.same]⟩, fun d => ?_, fun _ _ _ _ => rfl⟩
  rw [chan_setChan]
  split
  · next hd => rw [hd, h]
  · rfl
theorem calm_putGranule (s : State) (g : Nat) (data : List Byte) : Calm s (s.putGranule g data) :=
  ⟨⟨rfl, rfl, fun p hp => by cases p <;> simp_all [Part.same, State.putGranule]⟩, fun _ => rfl, fun _ _ _ _ => rfl⟩
theorem calm_putCodeword (s : State) (g : Nat) (data : List Byte) (check : BitVec 32) : Calm s (s.putCodeword g data check) :=
  ⟨⟨rfl, rfl, fun p hp => by cases p <;> simp_all [Part.same, State.putCodeword]⟩, fun _ => rfl, fun _ _ _ _ => rfl⟩

/-! ### What calm states share -/

theorem calm_quad (s t : State) (h : Calm s t) (q : Nat) : t.quad q = s.quad q := by
  have : t.quads = s.quads := h.frame.2.2 .quads (by decide)
  rw [State.quad, this, State.quad]
theorem calm_memU (s t : State) (h : Calm s t) : t.memU = s.memU := by
  rw [State.memU, State.density, h.frame.2.1, State.memU, State.density]
theorem calm_memCap (s t : State) (h : Calm s t) : t.memCap = s.memCap := by
  rw [State.memCap, calm_memU s t h, State.memCap]
theorem calm_chanOf (s t : State) (h : Calm s t) (a : Nat) : t.chanOf a = s.chanOf a := by
  simp only [State.chanOf, State.quadGroup, calm_memU s t h]

/-- What stands at an address depends on no count and no stored byte. -/
theorem calm_spot (s t : State) (h : Calm s t) (a : Nat) : t.spot a = s.spot a := by
  have hst : (t.chan (s.chanOf a)).st = (s.chan (s.chanOf a)).st := congrArg Prod.fst (h.chan _)
  have hclosed (q : Nat) : t.quadClosed q = s.quadClosed q := by rw [State.quadClosed, calm_quad s t h, State.quadClosed]
  unfold State.spot
  rw [calm_memCap s t h, calm_chanOf s t h]
  dsimp only
  rw [hclosed, hst]

theorem calm_rd (s t : State) (h : Calm s t) (o : Obj) (u k : Nat) (hk : o.key u k ∉ memKeys) (he : ¬ eventKey (o.key u k)) :
    t.rd o u k = s.rd o u k := rd_of_regs _ _ _ _ _ (h.regs _ _ hk he)

theorem laneThreshold_not_eventKey : ¬ eventKey Obj.devMemLaneThreshold.key := not_eventKey _ (by decide) (by decide)

theorem calm_quiet (s t : State) (h : Calm s t) (hq : ChansQuiet s) : ChansQuiet t := by
  intro c hc
  obtain ⟨hbad, hrate⟩ := hq c hc
  obtain ⟨-, hrest⟩ := Prod.mk.inj (h.chan c)
  obtain ⟨-, hrest⟩ := Prod.mk.inj hrest
  obtain ⟨hrecent, hrecentBad⟩ := Prod.mk.inj hrest
  have hlane (l : Nat) : (t.chan c).laneRate l = (s.chan c).laneRate l := by rw [Chan.laneRate, hrecent, Chan.laneRate]
  have hthr := calm_rd s t h .devMemLaneThreshold 0 0 (by decide) laneThreshold_not_eventKey
  exact ⟨hrecentBad ▸ hbad, fun l hl => by rw [hlane, hthr]; exact hrate l hl⟩

/-! ### The health of quiet channels -/

theorem chanHealth_of_quiet (s : State) (c : Nat) (hbad : (s.chan c).recentBad.length < 64)
    (hrate : ∀ l, l < 32 → (s.chan c).laneRate l = 0 ∨ (s.chan c).laneRate l < s.rd .devMemLaneThreshold) :
    s.chanHealth c = s := by
  have hnone (p : Nat → Bool) : (upto 32).find? (fun l => decide (s.rd .devMemLaneThreshold ≤ (s.chan c).laneRate l)
      && decide (1 ≤ (s.chan c).laneRate l) && p l) = none := by
    rw [List.find?_eq_none]
    intro l hl
    have := hrate l ((mem_upto l 32).mp hl)
    simp
    omega
  have hhit : (upto 32).find? (fun l => decide (s.rd .devMemLaneThreshold ≤ (s.chan c).laneRate l)
      && decide (1 ≤ (s.chan c).laneRate l)) = none := by simpa using hnone (fun _ => true)
  have h64 : ¬ 64 ≤ (s.chan c).recentBad.length := Nat.not_le.mpr hbad
  unfold State.chanHealth
  simp only [hhit, hnone]
  cases (s.chan c).st <;> simp [h64]

/-- Channels with no counts that would change their state stay as they are. -/
theorem memHealth_of_quiet (s : State) (h : ChansQuiet s) : s.memHealth = s := by
  have hlist : ∀ (l : List Nat), (∀ c ∈ l, c < 12) → s.each l (fun c t => t.chanHealth c) = s := by
    intro l
    induction l with
    | nil => exact fun _ => rfl
    | cons c l ih =>
      intro hl
      obtain ⟨hbad, hrate⟩ := h c (hl c (by simp))
      have := chanHealth_of_quiet s c hbad hrate
      rw [State.each, List.foldl_cons, this]
      exact ih (fun d hd => hl d (List.mem_cons_of_mem _ hd))
  exact hlist _ (fun c hc => (mem_upto c 12).mp hc)

/-- A command on GDDR7 that leaves the channels quiet ends as any other. -/
theorem memRun_next (f : State → State) (s t : State) (h : f { s with out := [] } = t) (hq : ChansQuiet t) :
    memRun f s = .next (s.keepFixed t.deliver) := run_next _ s t (by rw [h, memHealth_of_quiet t hq])

/-! ### Reading and merging a healthy memory -/

/-- The stored check bytes are those of the data. -/
def Checked (s : State) : Prop := ∀ g, Store.get 0 g s.memChk = 0

theorem checked_of_memory (s t : State) (h : t.memory = s.memory) (hs : Checked s) : Checked t :=
  fun g => by rw [memory_memChk s t h]; exact hs g

/-- A granule whose check bytes are right is read as it is stored. -/
theorem decodeGranule_checked (s : State) (h : Checked s) (g : Nat) :
    s.decodeGranule g [] = ⟨s.granData g ++ s.granCheck g, [], false⟩ := by
  unfold State.decodeGranule
  rw [h g]
  rfl

theorem countDecoded_good (s : State) (g : Nat) (w : List Byte) : s.countDecoded g ⟨w, [], false⟩ = s := rfl

theorem length_granData (s : State) (g : Nat) : (s.granData g).length = 32 := Store_gets_length _ _ _ _
theorem length_granCheck (s : State) (g : Nat) : (s.granCheck g).length = 4 := by
  simp [State.granCheck, weaveCheck, upto]

/-- Reading a granule counts it and changes nothing else. -/
theorem readGranule_calm (s : State) (h : Checked s) (g : Nat) : Calm s (s.readGranule g []).2 := by
  unfold State.readGranule
  rw [decodeGranule_checked s h g]
  split
  · exact calm_setChan s _ (fun ch => { ch with bytesRead := capped ch.bytesRead 32 max64 }) rfl
  · exact calm_refl s

theorem readGranule_word (s : State) (h : Checked s) (g : Nat) :
    (s.readGranule g []).1.1.length = 36 ∧ (s.spot (32 * g) = .ok → (s.readGranule g []).1.2 = false) := by
  unfold State.readGranule
  rw [decodeGranule_checked s h g]
  split
  · exact ⟨by simp [length_granData, length_granCheck], fun _ => rfl⟩
  · next hno => exact ⟨by simp, fun hok => absurd hok hno⟩

/-- Reading granules: each gives 36 bytes, none of those whose channel serves is poisoned, and nothing but counts changes. -/
theorem readGranules_calm (s : State) (h : Checked s) (g n : Nat) :
    Calm s (s.readGranules g [] n).2 ∧ (s.readGranules g [] n).1.length = n ∧
      (∀ e ∈ (s.readGranules g [] n).1, e.1.length = 36) ∧
      ((∀ k, k < n → s.spot (32 * (g + k)) = .ok) → ∀ e ∈ (s.readGranules g [] n).1, e.2 = false) := by
  induction n generalizing s g with
  | zero => exact ⟨calm_refl s, rfl, by simp [State.readGranules], by simp [State.readGranules]⟩
  | succ n ih =>
    have hc := readGranule_calm s h g
    obtain ⟨hlen, hgood⟩ := readGranule_word s h g
    have h' : Checked (s.readGranule g []).2 := checked_of_memory _ _ (readGranule_memory _ _ _) h
    obtain ⟨ihc, ihlen, ihword, ihgood⟩ := ih (s.readGranule g []).2 h' (g + 1)
    refine ⟨calm_trans _ _ _ hc ihc, by simp [State.readGranules, ihlen], fun e he => ?_, fun hok e he => ?_⟩
    · rcases List.mem_cons.mp he with rfl | he
      · exact hlen
      · exact ihword e he
    · rcases List.mem_cons.mp he with rfl | he
      · exact hgood (by simpa using hok 0 (by omega))
      · refine ihgood (fun k hk => ?_) e he
        rw [calm_spot _ _ hc, show g + 1 + k = g + (k + 1) by omega]
        exact hok (k + 1) (by omega)

/-! ### Writing a healthy memory -/

/-- Rewriting a group of granules that are as stored changes the count of rewrites alone. -/
theorem modifyGroup_checked (s : State) (h : Checked s) (grp : Nat) (covered : List Nat) :
    s.modifyGroup grp covered [] = s.bump .devMemRmw := by
  have hstep (g : Nat) (t : State) (ht : t = s.bump .devMemRmw) : (let d := t.decodeGranule g []
      let u := t.countDecoded g d
      if covered.contains g || d.bad || d.fixed.isEmpty then u
      else u.putCodeword g (d.word.take 32) (BitVec.ofNat 32 (leNat (d.word.drop 32)))) = t := by
    have hd := decodeGranule_checked t (by rw [ht]; exact h) g
    simp only [hd]
    simp [countDecoded_good]
  exact each_keeps (fun t => t = s.bump .devMemRmw) _ _ (fun g t _ ht => (hstep g t ht).trans ht) _ rfl

/-- The bytes that writing granules leaves: of each granule listed the data given, of the others what they were. -/
def putAll (l : List (Nat × List Byte × Option (BitVec 32))) (m : Store Byte) : Store Byte :=
  l.foldl (fun m e => Store.puts 0 (32 * e.1) (e.2.1.take 32) m) m

theorem writeGranule_calm (s : State) (g : Nat) (data : List Byte) (check : Option (BitVec 32)) :
    Calm s (s.writeGranule g data check).2 := by
  have hcount (t : State) : Calm t (t.setChan (s.chanOf (32 * g)) (fun ch =>
      { ch with bytesWritten := capped ch.bytesWritten 32 max64 })) := calm_setChan t _ _ rfl
  unfold State.writeGranule
  split
  · cases check with
    | none => exact calm_trans _ _ _ (calm_putGranule s g data) (hcount _)
    | some c => exact calm_trans _ _ _ (calm_putCodeword s g data c) (hcount _)
  · exact calm_refl s

theorem writeGranule_mem (s : State) (g : Nat) (data : List Byte) (check : Option (BitVec 32)) (h : s.spot (32 * g) = .ok) :
    (s.writeGranule g data check).2.mem = Store.puts 0 (32 * g) (data.take 32) s.mem := by
  unfold State.writeGranule
  rw [h]
  cases check <;> rfl

/-- Writes the granules of a list in turn, and says whether all have reached memory. -/
def writeEach (l : List (Nat × List Byte × Option (BitVec 32))) (x : Bool × State) : Bool × State :=
  l.foldl (fun x d => (x.1 && (x.2.writeGranule d.1 d.2.1 d.2.2).1, (x.2.writeGranule d.1 d.2.1 d.2.2).2)) x

theorem writeEach_calm (l : List (Nat × List Byte × Option (BitVec 32))) (x : Bool × State) : Calm x.2 (writeEach l x).2 := by
  induction l generalizing x with
  | nil => exact calm_refl _
  | cons d l ih =>
    exact calm_trans _ _ _ (writeGranule_calm x.2 d.1 d.2.1 d.2.2)
      (ih (x.1 && (x.2.writeGranule d.1 d.2.1 d.2.2).1, (x.2.writeGranule d.1 d.2.1 d.2.2).2))

theorem writeEach_mem (l : List (Nat × List Byte × Option (BitVec 32))) (x : Bool × State)
    (h : ∀ e ∈ l, x.2.spot (32 * e.1) = .ok) : (writeEach l x).2.mem = putAll l x.2.mem := by
  induction l generalizing x with
  | nil => rfl
  | cons d l ih =>
    refine (ih _ (fun e he => ?_)).trans ?_
    · rw [calm_spot _ _ (writeGranule_calm x.2 d.1 d.2.1 d.2.2)]
      exact h e (List.mem_cons_of_mem _ he)
    · rw [writeGranule_mem x.2 d.1 d.2.1 d.2.2 (h d (by simp))]
      rfl

/-- A write first rewrites the groups that it covers in part, which changes no stored byte, and then writes its granules. -/
theorem writeSome_split (s : State) (h : Checked s) (l : List (Nat × List Byte × Option (BitVec 32))) :
    ∃ t, Calm s t ∧ t.memory = s.memory ∧ s.writeSome l [] = writeEach l (true, t) := by
  have hstep (grp : Nat) (own : List Nat) (t : State) (ht : Calm s t ∧ t.memory = s.memory) :
      let u := if own.length == 8 || t.spot (256 * grp) != .ok then t else t.modifyGroup grp own []
      Calm s u ∧ u.memory = s.memory := by
    obtain ⟨hc, hm⟩ := ht
    dsimp only
    split
    · exact ⟨hc, hm⟩
    · rw [modifyGroup_checked t (checked_of_memory _ _ hm h)]
      exact ⟨calm_trans _ _ _ hc (calm_bump _ _ _ _ _ (by decide)), hm⟩
  have hgroups := each_keeps (fun t => Calm s t ∧ t.memory = s.memory) ((l.map (·.1)).map (· / 8)).eraseDups _
    (fun grp t _ ht => hstep grp ((l.map (·.1)).filter (fun x => x / 8 == grp)) t ht) s ⟨calm_refl s, rfl⟩
  exact ⟨_, hgroups.1, hgroups.2, rfl⟩

/-- Writing granules changes the stored bytes and counts. -/
theorem writeSome_calm (s : State) (h : Checked s) (l : List (Nat × List Byte × Option (BitVec 32))) :
    Calm s (s.writeSome l []).2 := by
  obtain ⟨t, hc, -, heq⟩ := writeSome_split s h l
  rw [heq]
  exact calm_trans _ _ _ hc (writeEach_calm l (true, t))

/-- Writing granules whose channels serve leaves their data. -/
theorem writeSome_mem (s : State) (h : Checked s) (l : List (Nat × List Byte × Option (BitVec 32)))
    (hok : ∀ e ∈ l, s.spot (32 * e.1) = .ok) : (s.writeSome l []).2.mem = putAll l s.mem := by
  obtain ⟨t, hc, hm, heq⟩ := writeSome_split s h l
  rw [heq, writeEach_mem l (true, t) (fun e he => (calm_spot s t hc _).trans (hok e he)), memory_mem s t hm]

/-- A byte after a write of granules whose data is a function of the granule. -/
theorem get_putAll (l : List Nat) (data : Nat → List Byte) (check : Nat → Option (BitVec 32)) (hlen : ∀ g ∈ l, (data g).length = 32)
    (m : Store Byte) (a : Nat) : Store.get 0 a (putAll (l.map (fun g => (g, data g, check g))) m)
      = if a / 32 ∈ l then (data (a / 32)).getD (a % 32) 0 else Store.get 0 a m := by
  induction l generalizing m with
  | nil => rfl
  | cons g l ih =>
    have hg : (data g).take 32 = data g := List.take_of_length_le (by rw [hlen g (by simp)])
    have hput : Store.get 0 a (Store.puts 0 (32 * g) ((data g).take 32) m)
        = if a / 32 = g then (data g).getD (a % 32) 0 else Store.get 0 a m := by
      rw [hg, Store_get_puts, hlen g (by simp)]
      by_cases h : a / 32 = g
      · rw [if_pos (by omega), if_pos h, show a - 32 * g = a % 32 by omega]
      · rw [if_neg (by omega), if_neg h]
    refine (ih (fun x hx => hlen x (List.mem_cons_of_mem _ hx)) _).trans ?_
    rw [hput]
    by_cases h : a / 32 = g
    · subst h
      simp
    · simp [h]

/-- A list is what is read, where each of its bytes is. -/
theorem gets_eq_of_get (a : Nat) (data : List Byte) (m : Store Byte)
    (h : ∀ i, i < data.length → Store.get 0 (a + i) m = data.getD i 0) : Store.gets 0 a data.length m = data := by
  refine List.ext_getElem? (fun i => ?_)
  by_cases hi : i < data.length
  · rw [Store_gets_get _ _ _ _ _ hi, h i hi, List.getElem?_eq_getElem hi, List.getD_eq_getElem _ _ hi]
  · rw [List.getElem?_eq_none (by rw [Store_gets_length]; omega), List.getElem?_eq_none (by omega)]

end Sys2Proof.Laws
end

section
/-! A quadrant's NoC fabric port (R30, R407, R408, R464, R477). -/
namespace Sys2Proof.Laws
open Sys2Proof.Machine Sys2Proof.Safety

/-! ### Changing a quadrant's requests and counts -/

theorem spot_setQuad (s : State) (q : Nat) (f : Quad → Quad) (h : (f (s.quad q)).power = (s.quad q).power) (a : Nat) :
    (s.setQuad q f).spot a = s.spot a := by
  have hclosed (p : Nat) : (s.setQuad q f).quadClosed p = s.quadClosed p := by
    rw [State.quadClosed, quad_setQuad, State.quadClosed]
    split
    · next hp => rw [hp, h]
    · rfl
  unfold State.spot
  simp only [hclosed]
  rfl

theorem spots_setQuad (s : State) (q : Nat) (f : Quad → Quad) (r : FabricReq) (h : (f (s.quad q)).power = (s.quad q).power) :
    (s.setQuad q f).spots r = s.spots r := by
  simp only [State.spots, spot_setQuad s q f h]

/-- What a fabric port changes of GDDR7's side: calm but for one quadrant, whose requests and power stay. -/
structure CalmPort (q : Nat) (s t : State) : Prop where
  quiet : ChansQuiet s → ChansQuiet t
  requests : (t.quad q).requests = (s.quad q).requests

theorem calmPort_trans (q : Nat) (s t u : State) (h : CalmPort q s t) (h' : CalmPort q t u) : CalmPort q s u :=
  ⟨fun hs => h'.quiet (h.quiet hs), h'.requests.trans h.requests⟩
theorem calmPort_of_calm (q : Nat) (s t : State) (h : Calm s t) : CalmPort q s t :=
  ⟨calm_quiet s t h, by rw [calm_quad s t h]⟩
theorem calmPort_setQuad (q : Nat) (s : State) (f : Quad → Quad) (h : (f (s.quad q)).requests = (s.quad q).requests) :
    CalmPort q s (s.setQuad q f) := ⟨id, by rw [quad_setQuad, if_pos rfl, h]⟩

/-! ### The four ways of a request -/

theorem protectedWrite_calm (s : State) (src a : Nat) : Calm s (s.protectedWrite src a) :=
  calm_trans _ _ _ (calm_trans _ _ _ (calm_bump s .devMemProtectedWrites 0 0 1 (by decide))
    (calm_wr _ .devMemProtectedLast a 0 0 (by decide))) (calm_raise _ _ _ _ _ _ _ _)

theorem performFabric_beyond (s : State) (q : QuadNo) (r : FabricReq) (h : (s.spots r).contains .beyond = true) :
    s.performFabric q r = s.send (.fabricPort q r.tag.toNat 3 []) := by
  have hq : Fin.ofNat 4 q.val = q := Fin.ext (Nat.mod_eq_of_lt q.isLt)
  simp only [State.performFabric, h, hq, if_true]

theorem performFabric_protected (s : State) (q : QuadNo) (r : FabricReq) (a : Nat) (h : (s.spots r).contains .beyond = false)
    (hw : r.write = true) (ht : s.touchesProtected r.addr (32 * r.count) = some a) :
    s.performFabric q r = ((s.setQuad q (fun t => { t with protectedWrites := min (t.protectedWrites + 1) 0xFFFFFFFF })).protectedWrite
      (0x20 + q) a).send (.fabricPort q r.tag.toNat 4 []) := by
  have hq : Fin.ofNat 4 q.val = q := Fin.ext (Nat.mod_eq_of_lt q.isLt)
  simp only [State.performFabric, h, hw, ht, hq, Bool.false_eq_true, if_false, if_true]

/-- The status of a write whose granules are in memory. -/
def writeStatus (l : List MemSpot) : Nat := if l.contains .closed then 2 else if l.contains .isolated then 1 else 0

theorem performFabric_write (s : State) (q : QuadNo) (r : FabricReq) (h : (s.spots r).contains .beyond = false)
    (hw : r.write = true) (ht : s.touchesProtected r.addr (32 * r.count) = none) :
    s.performFabric q r = (s.writeGranules (r.addr / 32) (fabricGranules r)).2.send
      (.fabricPort q r.tag.toNat (writeStatus (s.spots r)) []) := by
  have hq : Fin.ofNat 4 q.val = q := Fin.ext (Nat.mod_eq_of_lt q.isLt)
  simp only [State.performFabric, h, hw, ht, hq, writeStatus, Bool.false_eq_true, if_false, if_true]

/-- The status of a read whose granules are in memory. -/
def readStatus (l : List MemSpot) (g : List (List Byte × Bool)) : Nat :=
  if l.contains .closed then 2 else if g.any (·.2) then 1 else 0

theorem performFabric_read (s : State) (q : QuadNo) (r : FabricReq) (h : (s.spots r).contains .beyond = false)
    (hw : r.write = false) : ∃ t, CalmPort q (s.readGranules (r.addr / 32) [] r.count).2 t ∧ t.memory = s.memory ∧
      s.performFabric q r = t.send (.fabricPort q r.tag.toNat
        (readStatus (s.spots r) (s.readGranules (r.addr / 32) [] r.count).1)
        ((s.readGranules (r.addr / 32) [] r.count).1.flatMap (·.1))) := by
  have hq : Fin.ofNat 4 q.val = q := Fin.ext (Nat.mod_eq_of_lt q.isLt)
  have heq : s.performFabric q r = (if readStatus (s.spots r) (s.readGranules (r.addr / 32) [] r.count).1 == 1 then
      (s.readGranules (r.addr / 32) [] r.count).2.setQuad q (fun t =>
        { t with poisonedReads := min (t.poisonedReads + 1) 0xFFFF })
      else (s.readGranules (r.addr / 32) [] r.count).2).send (.fabricPort q r.tag.toNat
        (readStatus (s.spots r) (s.readGranules (r.addr / 32) [] r.count).1)
        ((s.readGranules (r.addr / 32) [] r.count).1.flatMap (·.1))) := by
    simp only [State.performFabric, h, hw, hq, readStatus, Bool.false_eq_true, if_false]
    rfl
  refine ⟨_, ?_, ?_, heq⟩
  · split
    · exact calmPort_setQuad _ _ _ rfl
    · exact calmPort_of_calm _ _ _ (calm_refl _)
  · split <;> simp

theorem fabricGranules_eq (g : Nat) (r : FabricReq) : ((upto (fabricGranules r).length).map (g + ·)).zip (fabricGranules r) =
    ((upto r.count).map (g + ·)).map (fun x => (x, (r.data.drop (32 * (x - g))).take 32,
      if r.encode then none else some (r.check.getD (x - g) 0))) := by
  have hlen : (fabricGranules r).length = r.count := by simp [fabricGranules, upto]
  rw [hlen, fabricGranules, List.zip_map', List.map_map]
  simp

/-- However a request ends, the channels stay quiet and the other requests outstanding. -/
theorem performFabric_calmPort (s : State) (q : QuadNo) (r : FabricReq) (h : Checked s) : CalmPort q s (s.performFabric q r) := by
  have hsend (t : State) (m : Msg) : CalmPort q t (t.send m) := calmPort_of_calm _ _ _ (calm_send t m)
  cases hb : (s.spots r).contains .beyond with
  | true =>
    rw [performFabric_beyond s q r hb]
    exact hsend _ _
  | false =>
    cases hw : r.write with
    | true =>
      cases ht : s.touchesProtected r.addr (32 * r.count) with
      | some a =>
        rw [performFabric_protected s q r a hb hw ht]
        exact calmPort_trans _ _ _ _ (calmPort_trans _ _ _ _ (calmPort_setQuad _ _ _ rfl)
          (calmPort_of_calm _ _ _ (protectedWrite_calm _ _ _))) (hsend _ _)
      | none =>
        rw [performFabric_write s q r hb hw ht]
        exact calmPort_trans _ _ _ _ (calmPort_of_calm _ _ _ (writeSome_calm s h _)) (hsend _ _)
    | false =>
      obtain ⟨t, ht, -, heq⟩ := performFabric_read s q r hb hw
      rw [heq]
      exact calmPort_trans _ _ _ _ (calmPort_trans _ _ _ _ (calmPort_of_calm _ _ _ (readGranules_calm s h _ _).1) ht) (hsend _ _)

/-! ### What a write leaves, and what a read gives -/

theorem mem_spots (s : State) (r : FabricReq) (k : Nat) (hk : k < r.count) : s.spot (r.addr + 32 * k) ∈ s.spots r :=
  List.mem_map.mpr ⟨k, (mem_upto k r.count).mpr hk, rfl⟩

theorem fabricForm_iff (r : FabricReq) (h : fabricForm r = true) (hw : r.write = true) :
    r.addr % 32 = 0 ∧ r.data.length = 32 * r.count := by
  simp [fabricForm, hw] at h
  exact ⟨h.1.1.1, h.2.1⟩

/-- A byte after a fabric write whose channels serve. -/
theorem fabricWrite_get (s : State) (h : Checked s) (r : FabricReq) (hform : fabricForm r = true) (hw : r.write = true)
    (hok : ∀ x ∈ s.spots r, x = .ok) (a : Nat) :
    Store.get 0 a (s.writeGranules (r.addr / 32) (fabricGranules r)).2.mem =
      if r.addr ≤ a ∧ a < r.addr + 32 * r.count then r.data.getD (a - r.addr) 0 else Store.get 0 a s.mem := by
  obtain ⟨haddr, hlen⟩ := fabricForm_iff r hform hw
  have hmem (g : Nat) : g ∈ (upto r.count).map (r.addr / 32 + ·) ↔ r.addr / 32 ≤ g ∧ g < r.addr / 32 + r.count := by
    simp only [List.mem_map, mem_upto]
    exact ⟨fun ⟨k, hk, he⟩ => by omega, fun hg => ⟨g - r.addr / 32, by omega, by omega⟩⟩
  have hspot : ∀ g ∈ (upto r.count).map (r.addr / 32 + ·), s.spot (32 * g) = .ok := by
    intro g hg
    have hg := (hmem g).mp hg
    have := hok _ (mem_spots s r (g - r.addr / 32) (by omega))
    rwa [show r.addr + 32 * (g - r.addr / 32) = 32 * g by omega] at this
  have hsize : ∀ g ∈ (upto r.count).map (r.addr / 32 + ·), ((r.data.drop (32 * (g - r.addr / 32))).take 32).length = 32 := by
    intro g hg
    have hg := (hmem g).mp hg
    simp only [List.length_take, List.length_drop, hlen]
    omega
  rw [State.writeGranules, fabricGranules_eq, writeSome_mem s h, get_putAll _ _ _ hsize]
  · by_cases ha : r.addr ≤ a ∧ a < r.addr + 32 * r.count
    · rw [if_pos ha, if_pos ((hmem _).mpr (by omega))]
      have hk : a - r.addr = 32 * (a / 32 - r.addr / 32) + a % 32 := by omega
      simp only [List.getD_eq_getElem?_getD, List.getElem?_take, List.getElem?_drop, hk]
      rw [if_pos (Nat.mod_lt _ (by decide))]
    · rw [if_neg ha, if_neg (fun hg => ha (by have := (hmem _).mp hg; omega))]
  · intro e he
    obtain ⟨g, hg, rfl⟩ := List.mem_map.mp he
    exact hspot g hg

/-- A write whose channels serve is answered OK and leaves its data. -/
theorem performFabric_write_ok (s : State) (h : Checked s) (q : QuadNo) (r : FabricReq) (hform : fabricForm r = true)
    (hw : r.write = true) (ht : s.touchesProtected r.addr (32 * r.count) = none) (hok : ∀ x ∈ s.spots r, x = .ok) :
    Msg.fabricPort q r.tag.toNat 0 [] ∈ (s.performFabric q r).out ∧ ∀ a, Store.get 0 a (s.performFabric q r).mem =
      if r.addr ≤ a ∧ a < r.addr + 32 * r.count then r.data.getD (a - r.addr) 0 else Store.get 0 a s.mem := by
  have hno (x : MemSpot) (hx : x ≠ .ok) : (s.spots r).contains x = false := by
    simpa using fun hm => hx (hok x hm)
  have hst : writeStatus (s.spots r) = 0 := by
    simp only [writeStatus, hno .closed (by decide), hno .isolated (by decide)]
    rfl
  rw [performFabric_write s q r (hno _ (by decide)) hw ht, hst]
  exact ⟨by simp [State.send], fabricWrite_get s h r hform hw hok⟩

theorem length_flatMap_words (l : List (List Byte × Bool)) (h : ∀ e ∈ l, e.1.length = 36) :
    (l.flatMap (·.1)).length = 36 * l.length := by
  induction l with
  | nil => rfl
  | cons e l ih =>
    rw [List.flatMap_cons, List.length_append, h e (by simp), ih (fun x hx => h x (List.mem_cons_of_mem _ hx)),
      List.length_cons]
    omega

/-- A read whose channels serve is answered OK, with 36 bytes for each granule. -/
theorem performFabric_read_ok (s : State) (h : Checked s) (q : QuadNo) (r : FabricReq) (hform : fabricForm r = true)
    (hw : r.write = false) (hok : ∀ x ∈ s.spots r, x = .ok) : (s.performFabric q r).memory = s.memory ∧
      ∃ d, d.length = 36 * r.count ∧ Msg.fabricPort q r.tag.toNat 0 d ∈ (s.performFabric q r).out := by
  have hno (x : MemSpot) (hx : x ≠ .ok) : (s.spots r).contains x = false := by
    simpa using fun hm => hx (hok x hm)
  have haddr : r.addr % 32 = 0 := by
    simp [fabricForm] at hform
    exact hform.1.1.1
  obtain ⟨t, -, hmem, heq⟩ := performFabric_read s q r (hno _ (by decide)) hw
  obtain ⟨-, hlen, hword, hgood⟩ := readGranules_calm s h (r.addr / 32) r.count
  have hclean : (s.readGranules (r.addr / 32) [] r.count).1.any (·.2) = false := by
    rw [List.any_eq_false]
    intro e he
    rw [hgood (fun k hk => ?_) e he]
    · decide
    · have := hok _ (mem_spots s r k hk)
      rwa [show r.addr + 32 * k = 32 * (r.addr / 32 + k) by omega] at this
  have hst : readStatus (s.spots r) (s.readGranules (r.addr / 32) [] r.count).1 = 0 := by
    simp only [readStatus, hno .closed (by decide), hclean]
    rfl
  rw [heq, hst]
  exact ⟨hmem, _, (length_flatMap_words _ hword).trans (by rw [hlen]), by simp [State.send]⟩

end Sys2Proof.Laws

namespace Sys2Proof.Proofs
open Sys2Proof.Machine Sys2Proof.Safety Sys2Proof.Laws

theorem devMemProtectedLast_not_eventKey : ¬ eventKey Obj.devMemProtectedLast.key := not_eventKey _ (by decide) (by decide)

/-- A well-formed request with a free tag becomes outstanding. -/
theorem fabricPortRequest_accepted (q : QuadNo) (r : FabricReq) (s : State) (halive : s.alive = true)
    (hopen : s.quadClosed q = false) (hform : fabricForm r = true) (hroom : (s.quad q).requests.length < 256)
    (htag : ∀ x ∈ (s.quad q).requests, x.tag ≠ r.tag) :
    ∃ t, exec (.fabricPortRequest q r) s = .next t ∧ OnlyQuad q [] s t ∧
      t.quad q = { s.quad q with requests := (s.quad q).requests ++ [r] } := by
  have hcond : (s.alive && !s.quadClosed q && fabricForm r && decide ((s.quad q).requests.length < 256)
      && (s.quad q).requests.all (fun x => x.tag != r.tag)) = true := by
    simpa [halive, hopen, hform, hroom] using htag
  have hf : fabricPortRequest q r { s with out := [] } =
      ({ s with out := [] } : State).setQuad q (fun t => { t with requests := t.requests ++ [r] }) := by
    unfold fabricPortRequest
    exact onlyIf_pos _ _ _ hcond
  have hquad (p : Nat) : (s.keepFixed (({ s with out := [] } : State).setQuad q (fun t =>
      { t with requests := t.requests ++ [r] })).deliver).quad p
        = if p = q then { s.quad q with requests := (s.quad q).requests ++ [r] } else s.quad p := by
    rw [keepFixed_quad, deliver_quad, quad_setQuad]
    rfl
  refine ⟨_, run_next (fabricPortRequest q r) s _ hf, ⟨fun p hp => by rw [hquad, if_neg hp], ?_⟩, by rw [hquad, if_pos rfl]⟩
  exact ended_keeps _ _ _ (keeps_then [] [.quads] _ _ _ _ (setOut_keeps s []) (setQuad_keeps _ _ _) (by simp) (by simp))

/-- The state in which an outstanding request is performed: it is outstanding no more. -/
def taken (q : Nat) (tag : BitVec 8) (s : State) : State :=
  ({ s with out := [] } : State).setQuad q (fun t => { t with requests := t.requests.filter (fun x => x.tag != tag) })

theorem taken_spots (q : Nat) (tag : BitVec 8) (s : State) (r : FabricReq) : (taken q tag s).spots r = s.spots r :=
  spots_setQuad { s with out := [] } q _ r rfl

theorem fabricPortResponse_performs (q : QuadNo) (r : FabricReq) (s : State) (halive : s.alive = true) (hs : Healthy s)
    (hfind : (s.quad q).requests.find? (fun x => x.tag == r.tag) = some r) (hwait : (s.spots r).contains .waits = false) :
    exec (.fabricPortResponse q r.tag) s = .next (s.keepFixed ((taken q r.tag s).performFabric q r).deliver) := by
  refine memRun_next (fabricPortResponse q r.tag) s _ ?_ ((performFabric_calmPort (taken q r.tag s) q r hs.2).quiet hs.1)
  have hcond : (({ s with out := [] } : State).alive && !(({ s with out := [] } : State).spots r).contains .waits) = true := by
    have hw : (({ s with out := [] } : State).spots r).contains .waits = false := hwait
    have ha : ({ s with out := [] } : State).alive = true := halive
    rw [hw, ha]
    rfl
  unfold fabricPortResponse
  have hfind' : (({ s with out := [] } : State).quad q).requests.find? (fun x => x.tag == r.tag) = some r := hfind
  rw [hfind']
  exact onlyIf_pos _ _ _ hcond

/-- A request that would meet a channel still in training waits. -/
theorem fabricPortResponse_waits (q : QuadNo) (r : FabricReq) (s : State) (hs : ChansQuiet s)
    (hfind : (s.quad q).requests.find? (fun x => x.tag == r.tag) = some r) (hwait : (s.spots r).contains .waits = true) :
    ∃ t, exec (.fabricPortResponse q r.tag) s = .next t ∧ Keeps [] s t := by
  have hf : fabricPortResponse q r.tag { s with out := [] } = { s with out := [] } := by
    unfold fabricPortResponse
    have hfind' : (({ s with out := [] } : State).quad q).requests.find? (fun x => x.tag == r.tag) = some r := hfind
    have hwait' : (({ s with out := [] } : State).spots r).contains .waits = true := hwait
    rw [hfind']
    dsimp only
    rw [hwait', Bool.not_true, Bool.and_false]
    rfl
  exact ⟨_, memRun_next _ s _ hf hs, ended_keeps _ _ _ (setOut_keeps s [])⟩

/-- Settles O33: each way in which a request ends, from the lemma about it. -/
theorem fabricPort : Obligations.FabricPort := by
  unfold Obligations.FabricPort
  refine fun q r s halive => ⟨fabricPortRequest_accepted q r s halive, fun hs hfind hwait => ?_,
    fun hs hfind hwait => fabricPortResponse_waits q r s hs hfind hwait⟩
  have hspots := taken_spots q r.tag s r
  have hchecked : Checked (taken q r.tag s) := hs.2
  have hport := performFabric_calmPort (taken q r.tag s) q r hchecked
  refine ⟨_, fabricPortResponse_performs q r s halive hs hfind hwait, ?_, fun hb => ?_, fun a hb hw ht => ?_,
    fun hok hform => ⟨fun hw ht => ?_, fun hw => ?_⟩⟩
  · rw [keepFixed_quad, deliver_quad, hport.requests]
    exact congrArg Quad.requests ((quad_setQuad _ _ _ _).trans (if_pos rfl))
  · rw [performFabric_beyond _ q r (hspots ▸ hb)]
    exact ⟨ended_sent _ _ _ (by simp [State.send]), ended_mem _ _ rfl⟩
  · rw [performFabric_protected (taken q r.tag s) q r a (hspots ▸ hb) hw ht]
    refine ⟨ended_sent _ _ _ (by simp [State.send]), ended_mem _ _ rfl, ?_⟩
    rw [keepFixed_rd, deliver_rd _ _ _ _ devMemProtectedLast_not_eventKey]
    exact rd_wr_same _ _ _ _ _
  · obtain ⟨hmsg, hget⟩ := performFabric_write_ok (taken q r.tag s) hchecked q r hform hw ht (hspots ▸ hok)
    have hlen := (fabricForm_iff r hform hw).2
    refine ⟨ended_sent _ _ _ hmsg, ?_, fun a ha => ?_⟩
    · rw [keepFixed_mem, deliver_mem, ← hlen]
      refine gets_eq_of_get _ _ _ (fun i hi => ?_)
      rw [hget, if_pos (by omega), Nat.add_sub_cancel_left]
    · rw [keepFixed_mem, deliver_mem, hget, if_neg (by omega)]
      rfl
  · obtain ⟨hmem, d, hlen, hmsg⟩ := performFabric_read_ok _ hchecked q r hform hw (hspots ▸ hok)
    exact ⟨ended_mem _ _ hmem, d, hlen, ended_sent _ _ _ hmsg⟩

end Sys2Proof.Proofs
end

section
/-! The host's window into GDDR7, and the loss of its link (R30, R54, R464, R471, R490, R493, R494, R509). -/
namespace Sys2Proof.Laws
open Sys2Proof.Machine Sys2Proof.Safety

/-! ### Merging a write of any alignment into its granules -/

/-- A granule as a write of bytes leaves it: the bytes written, and around them the bytes stored. -/
def merged (s : State) (a : Nat) (data : List Byte) (g : Nat) : List Byte :=
  (upto 32).map (fun i => if a ≤ 32 * g + i ∧ 32 * g + i < a + data.length then data.getD (32 * g + i - a) 0
    else Store.get 0 (32 * g + i) s.mem)

theorem length_merged (s : State) (a : Nat) (data : List Byte) (g : Nat) : (merged s a data g).length = 32 := by
  simp [merged, upto]

theorem merged_getD (s : State) (a : Nat) (data : List Byte) (b : Nat) : (merged s a data (b / 32)).getD (b % 32) 0 =
    if a ≤ b ∧ b < a + data.length then data.getD (b - a) 0 else Store.get 0 b s.mem := by
  have hb : 32 * (b / 32) + b % 32 = b := Nat.div_add_mod b 32
  have hlt : b % 32 < 32 := Nat.mod_lt _ (by decide)
  simp [merged, upto, List.getD_eq_getElem?_getD, hlt, hb]

theorem granData_getD (s : State) (g i : Nat) (hi : i < 32) (l : List Byte) :
    (s.granData g ++ l).getD i 0 = Store.get 0 (32 * g + i) s.mem := by
  rw [List.getD_eq_getElem?_getD, List.getElem?_append_left (by rw [length_granData]; exact hi), State.granData,
    Store_gets_get _ _ _ _ _ hi]
  rfl

/-- Merging a write into a granule that is as stored gives its merged bytes, and changes nothing. -/
theorem mergeGranule_checked (s : State) (h : Checked s) (a : Nat) (data : List Byte) (g : Nat) :
    mergeGranule a data g s = (some (merged s a data g), s) := by
  unfold mergeGranule
  dsimp only
  split
  · next hin =>
    have hin : a ≤ 32 * g ∧ 32 * g + 32 ≤ a + data.length := by simpa using hin
    refine Prod.ext (congrArg some (List.ext_getElem? fun i => ?_)) rfl
    by_cases hi : i < 32
    · have hlt : 32 * g - a + i < data.length := by omega
      simp [merged, upto, hi, List.getElem?_drop]
      rw [if_pos (by omega), List.getElem?_eq_getElem hlt, show 32 * g + i - a = 32 * g - a + i by omega,
        List.getElem?_eq_getElem hlt]
      rfl
    · rw [List.getElem?_eq_none (by simp; omega), List.getElem?_eq_none (by rw [length_merged]; omega)]
  · rw [decodeGranule_checked s h g]
    simp only [countDecoded_good, Bool.false_eq_true, if_false]
    refine Prod.ext (congrArg some (List.map_congr_left fun i hi => ?_)) rfl
    have hi : i < 32 := (mem_upto i 32).mp hi
    rw [granData_getD s g i hi]
    simp

theorem mergeAll_checked (s : State) (h : Checked s) (a : Nat) (data : List Byte) (l : List Nat) :
    mergeAll a data l s = (l.map (fun g => (g, merged s a data g, none)), s) := by
  induction l with
  | nil => rfl
  | cons g l ih => simp only [mergeAll, mergeGranule_checked s h, ih, List.map_cons]

/-- The granules of a write that reach GDDR7: those that are served and not protected. -/
def served (s : State) (a n : Nat) : List Nat :=
  ((touched a n).filter (fun g => !s.isProtected (32 * g))).filter (fun g => s.spot (32 * g) == .ok)

theorem mem_served (s : State) (a n g : Nat) :
    g ∈ served s a n ↔ g ∈ touched a n ∧ s.spot (32 * g) = .ok ∧ s.isProtected (32 * g) = false := by
  simp [served]

theorem mem_touched (a n g : Nat) (hn : 0 < n) : g ∈ touched a n ↔ a / 32 ≤ g ∧ g ≤ (a + n - 1) / 32 := by
  have h0 : (n == 0) = false := by simp; omega
  simp only [touched, h0, Bool.false_eq_true, if_false, List.mem_map, mem_upto]
  exact ⟨fun ⟨k, hk, he⟩ => by omega, fun hg => ⟨g - a / 32, by omega, by omega⟩⟩

theorem countProtected_calm (l : List Nat) (s : State) : Calm s (countProtected l s) := by
  cases l with
  | nil => exact calm_refl s
  | cons g l => exact protectedWrite_calm s _ _

theorem countProtected_mem (l : List Nat) (s : State) : (countProtected l s).mem = s.mem := by
  cases l <;> rfl

/-! ### A write of the host -/

/-- The state in which a write of the host is performed: its bytes are counted. -/
def counted (n : Nat) (s : State) : State := s.bump .devPcieH2dBytes 0 0 n

theorem devPcieH2dBytes_not_eventKey : ¬ eventKey Obj.devPcieH2dBytes.key := not_eventKey _ (by decide) (by decide)

theorem counted_rd (n : Nat) (s : State) : (counted n s).rd .devPcieH2dBytes = min (s.rd .devPcieH2dBytes + n) (2 ^ 64 - 1) := by
  rw [counted, State.bump, rd_wr_same]
  exact Nat.mod_eq_of_lt (Nat.lt_of_le_of_lt (Nat.min_le_right _ _) (by decide))

theorem counted_quiet (n : Nat) (s : State) (h : ChansQuiet s) : ChansQuiet (counted n s) := by
  have hthr : (counted n s).rd .devMemLaneThreshold = s.rd .devMemLaneThreshold := rd_wr_ne _ _ _ _ _ _ _ _ (by decide)
  intro c hc
  rw [hthr]
  exact h c hc

/-- A write beyond the memory is counted, and stores nothing. -/
theorem bar2Write_beyond (a : Nat) (data : List Byte) (s : State) (halive : s.alive = true) (hdata : data ≠ [])
    (hcap : s.memCap < a + data.length) :
    bar2Write a data s = (counted data.length s).bump .devPcieBar2Range := by
  have hcond : (s.alive && !data.isEmpty) = true := by simpa [halive] using hdata
  have hcap' : (counted data.length s).memCap < a + data.length := hcap
  unfold bar2Write
  rw [onlyIf_pos _ _ _ hcond]
  exact if_pos hcap'

/-- A write inside the memory writes the merged granules that are served, and then counts those that are not. -/
theorem bar2Write_within (a : Nat) (data : List Byte) (s : State) (h : Checked s) (halive : s.alive = true) (hdata : data ≠ [])
    (hcap : ¬ s.memCap < a + data.length) : ∃ (guarded : List Nat) (whole : Bool), bar2Write a data s =
      (countProtected guarded ((counted data.length s).writeSome
        ((served s a data.length).map (fun g => (g, merged s a data g, none))) []).2).onlyIf (!whole)
          (·.bump .devNocAbsorbedWrites) := by
  have hcond : (s.alive && !data.isEmpty) = true := by simpa [halive] using hdata
  have hcap' : ¬ (counted data.length s).memCap < a + data.length := hcap
  have hmerge : mergeAll a data (served s a data.length) (counted data.length s) =
      ((served s a data.length).map (fun g => (g, merged s a data g, none)), counted data.length s) :=
    mergeAll_checked (counted data.length s) h a data _
  have hwhole (t : State) (l : List Nat) : (if l.isEmpty then t else t.bump .devNocAbsorbedWrites)
      = t.onlyIf (!l.isEmpty) (·.bump .devNocAbsorbedWrites) := by cases l <;> rfl
  refine ⟨(touched a data.length).filter (fun g => s.isProtected (32 * g)),
    (((touched a data.length).filter (fun g => !s.isProtected (32 * g))).filter (fun g => s.spot (32 * g) != MemSpot.ok)).isEmpty, ?_⟩
  unfold bar2Write
  rw [onlyIf_pos _ _ _ hcond, ← hwhole]
  refine (if_neg hcap').trans ?_
  change (let (w, t) := mergeAll a data (served s a data.length) (counted data.length s)
    let t := (t.writeSome w).2
    let t := countProtected ((touched a data.length).filter (fun g => s.isProtected (32 * g))) t
    if (((touched a data.length).filter (fun g => !s.isProtected (32 * g))).filter (fun g => s.spot (32 * g) != MemSpot.ok)).isEmpty
    then t else t.bump .devNocAbsorbedWrites) = _
  rw [hmerge]

/-- What a write of the host leaves: the channels are quiet, the count is right, and each byte that a served granule holds is
the one written. -/
theorem bar2Write_leaves (a : Nat) (data : List Byte) (s : State) (hs : Healthy s) (halive : s.alive = true) (hdata : data ≠ []) :
    ChansQuiet (bar2Write a data s) ∧
      (bar2Write a data s).rd .devPcieH2dBytes = min (s.rd .devPcieH2dBytes + data.length) (2 ^ 64 - 1) ∧
      (s.memCap < a + data.length → (bar2Write a data s).mem = s.mem) ∧
      (¬ s.memCap < a + data.length →
        (bar2Write a data s).mem = putAll ((served s a data.length).map (fun g => (g, merged s a data g, none))) s.mem) := by
  have hcalm (t : State) (ht : Calm (counted data.length s) t) : ChansQuiet t ∧
      t.rd .devPcieH2dBytes = min (s.rd .devPcieH2dBytes + data.length) (2 ^ 64 - 1) :=
    ⟨calm_quiet _ _ ht (counted_quiet _ _ hs.1),
      (calm_rd _ _ ht _ 0 0 (by decide) devPcieH2dBytes_not_eventKey).trans (counted_rd _ _)⟩
  by_cases hcap : s.memCap < a + data.length
  · rw [bar2Write_beyond a data s halive hdata hcap]
    obtain ⟨hq, hrd⟩ := hcalm _ (calm_bump _ .devPcieBar2Range 0 0 1 (by decide))
    exact ⟨hq, hrd, fun _ => rfl, fun h => absurd hcap h⟩
  · obtain ⟨guarded, whole, heq⟩ := bar2Write_within a data s hs.2 halive hdata hcap
    have hw := writeSome_calm (counted data.length s) hs.2
      ((served s a data.length).map (fun g => (g, merged s a data g, none)))
    have hm := writeSome_mem (counted data.length s) hs.2
      ((served s a data.length).map (fun g => (g, merged s a data g, none))) (fun e he => by
        obtain ⟨g, hg, rfl⟩ := List.mem_map.mp he
        exact ((mem_served s a data.length g).mp hg).2.1)
    have hcount := calm_trans _ _ _ hw (countProtected_calm guarded _)
    have hmem := (countProtected_mem guarded _).trans hm
    rw [heq]
    cases whole with
    | true => exact ⟨(hcalm _ hcount).1, (hcalm _ hcount).2, fun h => absurd h hcap, fun _ => hmem⟩
    | false =>
      obtain ⟨hq, hrd⟩ := hcalm _ (calm_trans _ _ _ hcount (calm_bump _ .devNocAbsorbedWrites 0 0 1 (by decide)))
      exact ⟨hq, hrd, fun h => absurd h hcap, fun _ => hmem⟩

/-! ### A read of the host -/

theorem length_consumed (r : List Byte × Bool) (h : r.1.length = 36) : ((consumed r).getD (r.1.take 32)).length = 32 := by
  have hset (i : Nat) (d : Byte) : (addAt r.1 i d).length = 36 := by simp [addAt, h]
  have hdec : (decodeDefault r.1).word.length = 36 := by
    unfold decodeDefault
    dsimp only
    split
    · exact h
    · split
      · exact hset _ _
      · exact h
  unfold consumed
  split
  · simp [h]
  · dsimp only
    split
    · simp [h]
    · simp [hdec]

theorem length_flatMap_consumed (l : List (List Byte × Bool)) (h : ∀ e ∈ l, e.1.length = 36) :
    (l.flatMap (fun e => (consumed e).getD (e.1.take 32))).length = 32 * l.length := by
  induction l with
  | nil => rfl
  | cons e l ih =>
    rw [List.flatMap_cons, List.length_append, length_consumed e (h e (by simp)),
      ih (fun x hx => h x (List.mem_cons_of_mem _ hx)), List.length_cons]
    omega

theorem mem_send (s : State) (m : Msg) : m ∈ (s.send m).out := List.mem_append_right _ (List.mem_singleton.mpr rfl)

theorem length_touched (a n : Nat) (hn : 0 < n) : (touched a n).length = (a + n - 1) / 32 + 1 - a / 32 := by
  have h0 : (n == 0) = false := by simp; omega
  simp [touched, h0, upto]

theorem calm_ite (c : Prop) [Decidable c] (s t u : State) (h : Calm s t) (h' : Calm s u) : Calm s (if c then t else u) := by
  split
  · exact h
  · exact h'

/-- What a read of the host gives: its number of bytes, and calm. -/
theorem bar2Read_gives (a n : Nat) (s : State) (hs : Checked s) (halive : s.alive = true) (hn : 0 < n) :
    ∃ d p, Calm s (bar2Read a n s) ∧ (bar2Read a n s).memory = s.memory ∧ d.length = n ∧
      Msg.bar2Data d p ∈ (bar2Read a n s).out ∧ (s.memCap < a + n → d = List.replicate n 0 ∧ p = false) := by
  have hcond : (s.alive && decide (0 < n)) = true := by simp [halive, hn]
  have hbump : Calm s (s.bump .devPcieD2hBytes 0 0 n) := calm_bump _ _ _ _ _ (by decide)
  unfold bar2Read
  rw [onlyIf_pos _ _ _ hcond]
  dsimp only
  split
  · next hcap =>
    exact ⟨List.replicate n 0, false, calm_trans _ _ _ (calm_trans _ _ _ hbump (calm_bump _ .devPcieBar2Range 0 0 1 (by decide)))
      (calm_send _ _), rfl, by simp, by simp [State.send], fun _ => ⟨rfl, rfl⟩⟩
  · next hcap =>
    have hcap' : ¬ s.memCap < a + n := hcap
    obtain ⟨hread, hlen, hword, -⟩ := readGranules_calm (s.bump .devPcieD2hBytes 0 0 n) hs (a / 32) (touched a n).length
    have hbytes := (length_flatMap_consumed _ hword).trans (by rw [hlen, length_touched a n hn])
    have hr := calm_trans _ _ _ hbump hread
    have hlost := calm_trans _ _ _ hr (calm_bump _ .devNocPoisonedReads 0 0 1 (by decide))
    refine ⟨_, _, calm_trans _ _ _ (calm_ite _ _ _ _ (calm_trans _ _ _ (calm_ite _ _ _ _ hlost hr)
      (calm_bump _ .devPciePoisoned 0 0 1 (by decide))) (calm_ite _ _ _ _ hlost hr)) (calm_send _ _), by simp, ?_,
      mem_send _ _, fun h => absurd h hcap'⟩
    rw [List.length_take, List.length_drop, hbytes]
    omega

/-! ### The host's link goes down -/

theorem devPcieLink_not_eventKey : ¬ eventKey Obj.devPcieLink.key := not_eventKey _ (by decide) (by decide)
theorem devPcieLinkDowns_not_eventKey : ¬ eventKey Obj.devPcieLinkDowns.key := not_eventKey _ (by decide) (by decide)
theorem controlOwner_not_eventKey : ¬ eventKey Obj.controlOwner.key := not_eventKey _ (by decide) (by decide)

theorem deliver_queues (s : State) : s.deliver.pcie.queues = s.pcie.queues := by
  have h : ({ s.deliver.pcie with
      slots := s.pcie.slots, pendingBits := s.pcie.pendingBits, evtHead := s.pcie.evtHead, evtSeq := s.pcie.evtSeq } : Pcie)
      = s.pcie := (deliver_keeps s).2.2 .pcie (by simp)
  exact (congrArg Pcie.queues h :)

/-- Ownership reverts from whoever holds it (R54). -/
theorem revertOwner_keeps (s : State) : Keeps [.regs, .ctl, .ij] s s.revertOwner := by
  unfold State.revertOwner
  dsimp only
  split
  · exact Keeps_refl _ _
  · refine keeps_then [.regs, .ctl, .ij] [] _ _ _ _ ?_ (raise_keeps _ _ _ _ _ _ _ _) (fun _ h => h) (by simp)
    refine keeps_then [.regs] [.ctl, .ij] _ _ (s.wr .controlOwner 0) _ (wr_keeps _ _ _ _ _) ?_ (by decide) (by decide)
    exact ⟨rfl, rfl, fun p hp => by cases p <;> simp_all [Part.same]⟩

theorem revertOwner_rd (s : State) (o : Obj) (ho : o.key ≠ Obj.controlOwner.key) : s.revertOwner.rd o = s.rd o := by
  unfold State.revertOwner
  dsimp only
  split
  · rfl
  · exact rd_wr_ne _ _ _ _ _ _ _ _ ho

theorem revertOwner_owner (s : State) : s.revertOwner.rd .controlOwner = 0 := by
  unfold State.revertOwner
  dsimp only
  split
  · next h => exact eq_of_beq h
  · exact rd_wr_same _ _ _ _ _

theorem revertOwner_transfers (s : State) : s.revertOwner.ctl.transfers = s.ctl.transfers := by
  unfold State.revertOwner
  dsimp only
  split <;> rfl

theorem revertOwner_pcie (s : State) : s.revertOwner.pcie = s.pcie := by
  unfold State.revertOwner
  dsimp only
  split <;> rfl

/-- The state in which the host's link is down: what was the host's is gone, and the loss is counted. -/
def linkLost (s : State) : State :=
  let s := { s with
    pcie := {}
    ctl := { s.ctl with
      transfers := s.ctl.transfers.filter (fun t => !isHost t.src)
      services := s.ctl.services.map (fun (o : OpenService) => if isHost o.rq.src then { o with discard := true } else o) } }
  (s.wr .devPcieLink 0).bump .devPcieLinkDowns

theorem pcieLinkDown_eq (s : State) : pcieLinkDown s =
    (linkLost s).onlyIf ((linkLost s).rd .controlOwner == 2) State.revertOwner := by
  unfold pcieLinkDown linkLost State.onlyIf
  rfl

theorem linkLost_keeps (s : State) : Keeps [.regs, .ctl, .ij, .pcie, .slots] s (linkLost s) := by
  have hgone : Keeps [.ctl, .pcie, .slots] s { s with
      pcie := {}
      ctl := { s.ctl with
        transfers := s.ctl.transfers.filter (fun t => !isHost t.src)
        services := s.ctl.services.map (fun (o : OpenService) => if isHost o.rq.src then { o with discard := true } else o) } } :=
    ⟨rfl, rfl, fun p hp => by cases p <;> simp_all [Part.same]⟩
  exact keeps_then [.regs, .ctl, .pcie, .slots] [.regs] _ _ _ _ (keeps_then [.ctl, .pcie, .slots] [.regs] _ _ _ _ hgone
    (wr_keeps _ .devPcieLink 0 0 0) (by decide) (by decide)) (wr_keeps _ _ _ _ _) (by decide) (by decide)

theorem linkLost_owner (s : State) : (linkLost s).rd .controlOwner = s.rd .controlOwner :=
  (rd_wr_ne _ _ _ _ _ _ _ _ (by decide)).trans (rd_wr_ne _ _ _ _ _ _ _ _ (by decide))
theorem linkLost_link (s : State) : (linkLost s).rd .devPcieLink = 0 :=
  (rd_wr_ne _ _ _ _ _ _ _ _ (by decide)).trans (rd_wr_same _ _ _ _ _)
theorem linkLost_downs (s : State) : (linkLost s).rd .devPcieLinkDowns = min (s.rd .devPcieLinkDowns + 1) 0xFFFFFFFF := by
  have h : ∀ t : State, t.rd .devPcieLinkDowns = s.rd .devPcieLinkDowns →
      (t.bump .devPcieLinkDowns).rd .devPcieLinkDowns = min (s.rd .devPcieLinkDowns + 1) 0xFFFFFFFF := by
    intro t ht
    rw [State.bump, rd_wr_same, ht]
    exact Nat.mod_eq_of_lt (Nat.lt_of_le_of_lt (Nat.min_le_right _ _) (by decide))
  exact h _ (rd_wr_ne _ _ _ _ _ _ _ _ (by decide))

end Sys2Proof.Laws

namespace Sys2Proof.Proofs
open Sys2Proof.Machine Sys2Proof.Safety Sys2Proof.Laws

/-- A write of the host stores its bytes where a served granule holds them, and nothing elsewhere. -/
theorem bar2Write_stores (addr : Nat) (s : State) (halive : s.alive = true) (hs : Healthy s) (data : List Byte) (hdata : data ≠ []) :
    ∃ t, exec (.bar2Write addr data) s = .next t ∧
      t.rd .devPcieH2dBytes = min (s.rd .devPcieH2dBytes + data.length) (2 ^ 64 - 1) ∧
      (∀ a, a < addr ∨ addr + data.length ≤ a → Store.get 0 a t.mem = Store.get 0 a s.mem) ∧
      (addr + data.length ≤ s.memCap →
        (∀ g ∈ touched addr data.length, s.spot (32 * g) = .ok ∧ s.isProtected (32 * g) = false) →
        Store.gets 0 addr data.length t.mem = data) ∧
      (s.memCap < addr + data.length ∨
        (∀ g ∈ touched addr data.length, s.spot (32 * g) ≠ .ok ∨ s.isProtected (32 * g) = true) → t.mem = s.mem) := by
  have hpos : 0 < data.length := List.length_pos_iff.mpr hdata
  obtain ⟨hquiet, hrd, hbeyond, hwithin⟩ := bar2Write_leaves addr data { s with out := [] } hs halive hdata
  have hget (hcap : ¬ s.memCap < addr + data.length) (a : Nat) : Store.get 0 a (bar2Write addr data { s with out := [] }).mem =
      if a / 32 ∈ served s addr data.length then
        (if addr ≤ a ∧ a < addr + data.length then data.getD (a - addr) 0 else Store.get 0 a s.mem)
      else Store.get 0 a s.mem := by
    rw [hwithin hcap]
    refine (get_putAll _ _ _ (fun g _ => length_merged _ _ _ g) _ a).trans ?_
    rw [merged_getD]
    rfl
  refine ⟨_, memRun_next _ s _ rfl hquiet, ?_, fun a ha => ?_, fun hcap hok => ?_, fun hno => ?_⟩
  · rw [keepFixed_rd, deliver_rd _ _ _ _ devPcieH2dBytes_not_eventKey]
    exact hrd
  · rw [keepFixed_mem, deliver_mem]
    by_cases hcap : s.memCap < addr + data.length
    · rw [hbeyond hcap]
    · rw [hget hcap, if_neg (by omega : ¬ (addr ≤ a ∧ a < addr + data.length)), ite_self]
  · rw [keepFixed_mem, deliver_mem]
    refine gets_eq_of_get _ _ _ (fun i hi => ?_)
    have hmem : (addr + i) / 32 ∈ served s addr data.length := by
      have ht := (mem_touched addr data.length ((addr + i) / 32) hpos).mpr (by omega)
      exact (mem_served _ _ _ _).mpr ⟨ht, hok _ ht⟩
    rw [hget (by omega), if_pos hmem, if_pos (by omega), Nat.add_sub_cancel_left]
  · rw [keepFixed_mem, deliver_mem]
    by_cases hcap : s.memCap < addr + data.length
    · exact hbeyond hcap
    · have hnone : served s addr data.length = [] := by
        refine List.eq_nil_iff_forall_not_mem.mpr (fun g hg => ?_)
        obtain ⟨ht, hok, hpro⟩ := (mem_served _ _ _ _).mp hg
        rcases hno.resolve_left hcap g ht with h | h
        · exact h hok
        · rw [hpro] at h
          exact absurd h (by decide)
      rw [hwithin hcap]
      change putAll ((served s addr data.length).map _) s.mem = s.mem
      rw [hnone]
      rfl

theorem bar2Read_answers (addr : Nat) (s : State) (halive : s.alive = true) (hs : Healthy s) (n : Nat) (hn : 0 < n) :
    ∃ t d p, exec (.bar2Read addr n) s = .next t ∧ d.length = n ∧ Msg.bar2Data d p ∈ t.out ∧ t.mem = s.mem ∧
      t.memChk = s.memChk ∧ (s.memCap < addr + n → d = List.replicate n 0 ∧ p = false) := by
  obtain ⟨d, p, hcalm, hmem, hlen, hmsg, hbeyond⟩ := bar2Read_gives addr n { s with out := [] } hs.2 halive hn
  refine ⟨_, d, p, memRun_next _ s _ rfl (calm_quiet _ _ hcalm hs.1), hlen, ended_sent _ _ _ hmsg, ended_mem _ _ hmem, ?_, hbeyond⟩
  rw [keepFixed_memChk, deliver_memChk]
  exact memory_memChk { s with out := [] } _ hmem

/-- When the host's link goes down, what is the host's is at its defaults and its ownership reverts. -/
theorem pcieLinkDown_loses (s : State) (halive : s.alive = true) :
    ∃ t, exec .pcieLinkDown s = .next t ∧ t.pcie.queues = [] ∧ t.pcie.slots = [] ∧ t.rd .devPcieLink = 0 ∧
      t.rd .devPcieLinkDowns = min (s.rd .devPcieLinkDowns + 1) 0xFFFFFFFF ∧
      t.ctl.transfers.all (fun x => !isHost x.src) = true ∧
      t.rd .controlOwner = (if s.rd .controlOwner = 2 then 0 else s.rd .controlOwner) ∧
      Keeps [.regs, .ctl, .ij, .pcie, .slots] s t := by
  have howner : (linkLost { s with out := [] }).rd .controlOwner = s.rd .controlOwner := linkLost_owner _
  have hf : (({ s with out := [] } : State).onlyIf ({ s with out := [] } : State).alive pcieLinkDown) =
      (linkLost { s with out := [] }).onlyIf (s.rd .controlOwner == 2) State.revertOwner := by
    rw [← howner, ← pcieLinkDown_eq]
    exact onlyIf_pos _ _ _ halive
  have hlost : Keeps [.regs, .ctl, .ij, .pcie, .slots] s (linkLost { s with out := [] }) :=
    keeps_then [] [.regs, .ctl, .ij, .pcie, .slots] _ _ _ _ (setOut_keeps s []) (linkLost_keeps _) (by simp) (fun _ h => h)
  have htransfers : (linkLost { s with out := [] }).ctl.transfers.all (fun x => !isHost x.src) = true := by
    simp [linkLost]
  refine ⟨_, run_next (fun s => s.onlyIf s.alive pcieLinkDown) s _ hf, ?_⟩
  rw [keepFixed_pcie, deliver_queues, deliver_slots, keepFixed_rd, keepFixed_rd, keepFixed_rd,
    deliver_rd _ _ _ _ devPcieLink_not_eventKey, deliver_rd _ _ _ _ devPcieLinkDowns_not_eventKey,
    deliver_rd _ _ _ _ controlOwner_not_eventKey, keepFixed_ctl, deliver_ctl]
  by_cases h2 : s.rd .controlOwner = 2
  · rw [if_pos h2, onlyIf_pos _ _ _ (by simpa using h2), revertOwner_pcie, revertOwner_rd _ _ (by decide),
      revertOwner_rd _ _ (by decide), revertOwner_transfers, revertOwner_owner]
    exact ⟨rfl, rfl, linkLost_link _, linkLost_downs _, htransfers, rfl, ended_keeps _ _ _ (keeps_then _ [.regs, .ctl, .ij] _ _ _ _
      hlost (revertOwner_keeps _) (fun _ h => h) (by decide))⟩
  · rw [if_neg h2, onlyIf_neg _ _ _ (by simpa using h2)]
    exact ⟨rfl, rfl, linkLost_link _, linkLost_downs _, htransfers, howner, ended_keeps _ _ _ hlost⟩

/-- Settles O36: a write and a read of the host's window, and the loss of its link. -/
theorem hostMemory : Obligations.HostMemory := by
  unfold Obligations.HostMemory
  exact fun addr s halive hs => ⟨bar2Write_stores addr s halive hs, bar2Read_answers addr s halive hs, pcieLinkDown_loses s halive⟩

end Sys2Proof.Proofs
end
section
/-! PROOF. A run starts, and a step begins, at its instant (O10). -/
namespace Sys2Proof.Proofs
open Sys2Proof.Machine Sys2Proof.Safety Sys2Proof.Laws

/-! ### What drives the ports changes nothing else -/

/-- The state without its ports. -/
def unported (s : State) : State := { s with ports := [] }

theorem ofUnported {α : Type} (g : State → α) (s t : State) (h : unported t = unported s) (hg : ∀ u, g (unported u) = g u) :
    g t = g s := by rw [← hg t, h, hg]

@[simp] theorem each_unported (s : State) (l : List Nat) (f : Nat → State → State)
    (h : ∀ i u, unported (f i u) = unported u) : unported (s.each l f) = unported s := each_same unported l f h s
@[simp] theorem foldl_unported {α : Type} (s : State) (l : List α) (f : State → α → State)
    (h : ∀ u x, unported (f u x) = unported u) : unported (l.foldl f s) = unported s := by
  induction l generalizing s with
  | nil => rfl
  | cons x l ih => exact (ih (f s x)).trans (h s x)
@[simp] theorem setPort_unported (s : State) (p : Nat) (f : Port → Port) : unported (s.setPort p f) = unported s := (rfl)
@[simp] theorem setLane_unported (s : State) (p : Nat) (f : Lane → Lane) : unported (s.setLane p f) = unported s := (rfl)
@[simp] theorem addDrives_unported (s : State) (p : Nat) (l : List DriveEvent) : unported (s.addDrives p l) = unported s := (rfl)
@[simp] theorem addTimed_unported (s : State) (p : Nat) (l : List DriveEvent) : unported (s.addTimed p l) = unported s := (rfl)
@[simp] theorem stepLane_unported (p : Nat) (s : State) : unported (stepLane p s) = unported s := (rfl)
@[simp] theorem pinSymbol_unported (s : State) (p t x : Nat) : unported (s.pinSymbol p t x) = unported s := by
  simp [State.pinSymbol]
@[simp] theorem pinOff_unported (s : State) (p t : Nat) : unported (s.pinOff p t) = unported s := by simp [State.pinOff]
@[simp] theorem pinsIdle_unported (s : State) (i t : Nat) : unported (s.pinsIdle i t) = unported s := by simp [State.pinsIdle]
@[simp] theorem releaseReset_unported (s : State) (i : Nat) : unported (s.releaseReset i) = unported s := by
  simp [State.releaseReset]
@[simp] theorem launchOne_unported (s : State) (p : Nat) (past : List (Option Nat)) (x : TxSymbol) (next : List TxSymbol) :
    unported (s.launchOne p past x next) = unported s := by simp [State.launchOne]
@[simp] theorem launches_unported (s : State) (p keep : Nat) (past : List (Option Nat)) (l : List TxSymbol) :
    unported (s.launches p keep past l) = unported s := by
  induction l generalizing s past with
  | nil => simp [State.launches]
  | cons x l ih =>
    rw [State.launches]
    split
    · simp
    · simp [ih]
@[simp] theorem flushLane_unported (s : State) (p : Nat) : unported (s.flushLane p) = unported s := by simp [State.flushLane]
@[simp] theorem idleFrom_unported (s : State) (p t : Nat) : unported (s.idleFrom p t) = unported s := by
  unfold State.idleFrom
  dsimp only
  split <;> simp
@[simp] theorem idleAll_unported (s : State) (i : Nat) : unported (s.idleAll i) = unported s := by simp [State.idleAll]

/-! ### How far a site has come in its run -/

/-- A site without its scheduler, the dictionary and the contexts. -/
def progress (s : State) (i : Nat) : Site × Dict × Store Context := ({ s.site i with sched := {} }, s.dict, s.ctxs)

theorem progress_of_unported (s t : State) (i : Nat) (h : unported t = unported s) : progress t i = progress s i :=
  ofUnported (progress · i) s t h fun _ => rfl

theorem setSched_progress (s : State) (i : Nat) (f : Scheduler → Scheduler) : progress (s.setSched i f) i = progress s i := by
  simp [progress, State.setSched]

theorem progress_run (s t : State) (i : Nat) (h : progress t i = progress s i) : t.run' i = s.run' i :=
  (congrArg (fun x => x.1.run) h :)
theorem progress_siteSt (s t : State) (i : Nat) (h : progress t i = progress s i) : t.siteSt i = s.siteSt i :=
  (congrArg (fun x => x.1.st) h :)
theorem progress_transition (s t : State) (i : Nat) (h : progress t i = progress s i) :
    (t.site i).transition = (s.site i).transition := (congrArg (fun x => x.1.transition) h :)
theorem progress_dict (s t : State) (i : Nat) (h : progress t i = progress s i) : t.dict = s.dict :=
  (congrArg (fun x => x.2.1) h :)
theorem progress_ctx (s t : State) (i : Nat) (h : progress t i = progress s i) (c : Nat) : t.ctx c = s.ctx c :=
  (congrArg (fun x => Store.get {} c x.2.2) h :)

theorem wr_progress (s t : State) (i : Nat) (o : Obj) (v u k : Nat) (h : progress t i = progress s i) :
    progress (t.wr o v u k) i = progress (s.wr o v u k) i :=
  (congrArg (fun x => (x.1, { x.2.1 with regs := Store.put o.dflt (o.key u k) (Word.of v) x.2.1.regs }, x.2.2)) h :)

/-- A sequence of the site's step starts, and the site has come as far as before: where the sequence is microcode, its word 0
may be executed (R320). -/
theorem startTraining_progress (s : State) (i number : Nat)
    (h : number = 0x80 → 0 < (s.stepRec i).ucodeLen ∧ wordOk (s.stepRec i) { number := 0x80 } ((s.stepRec i).ucodeWord 0) = true) :
    progress (s.startTraining i number none) i = progress s i := by
  have htaken : progress (s.takeSequence i number none) i = progress s i := by
    unfold State.takeSequence
    refine (setSched_progress _ i _).trans ?_
    split
    · exact progress_of_unported _ _ i (releaseReset_unported s i)
    · rfl
  have hrec : (s.takeSequence i number none).stepRec i = s.stepRec i := by
    rw [State.stepRec, progress_run _ _ i htaken, State.stepRec]
  unfold State.startTraining
  dsimp only
  split
  · next q hq =>
    split
    · next hucode =>
      have hq' : q = { number := number, txn := none, todo := if number == 0x80 then [] else (s.stepRec i).builtIn number } := by
        simpa [State.takeSequence, State.sched, State.setSched] using hq.symm
      subst hq'
      have hnumber : number = 0x80 := by simpa using hucode
      obtain ⟨hlen, hword⟩ := h hnumber
      subst hnumber
      unfold State.reach
      simp only [hrec]
      rw [if_pos (by simpa [hlen] using hword)]
      exact (setSched_progress _ i _).trans htaken
    · exact htaken
  · exact htaken

/-! ### A step begins -/

/-- The site's step k stands at its beginning, before any instant of it is known. -/
def atStep (k : Nat) (x : Site) : Site :=
  { x with
    transition := false
    run := { x.run with
      step := k, begun := false, paused := 0, cycling := false, vec := 0, symbols := false, wordCount := 0, wordTaken := 0
      cycles := [], words := [], expects := [] } }

/-- An entry context becomes READY. -/
def readied (c : Nat) (s : State) : State := s.setCtx c (fun x => { x with st := .ready, cause := .none })

/-- Step k of a site stands at its beginning, its entry contexts READY. -/
def entered (s : State) (i k : Nat) : State :=
  (s.each (s.entries i ((s.run' i).stepRec k)) readied).setSite i (atStep k)

theorem readied_ctx (c d : Nat) (s : State) (h : d = c ∨ (s.ctx c).st = .ready) : ((readied d s).ctx c).st = .ready := by
  rw [readied, ctx_setCtx]
  split
  · rfl
  · next hne => exact h.resolve_left fun hd => hne hd.symm

theorem each_readied (l : List Nat) (c : Nat) (hc : c ∈ l) (s : State) : ((s.each l readied).ctx c).st = .ready := by
  obtain ⟨before, after, rfl⟩ := List.append_of_mem hc
  rw [State.each, List.foldl_append, List.foldl_cons]
  exact each_keeps (fun t => (t.ctx c).st = .ready) after readied (fun d t _ ht => readied_ctx c d t (.inr ht)) _
    (readied_ctx c c _ (.inl rfl))

theorem entered_site (s : State) (i k : Nat) : (entered s i k).site i = atStep k (s.site i) := by
  rw [entered, site_setSite, if_pos rfl, each_same (·.site i) _ readied fun _ _ => rfl]

theorem entered_dict (s : State) (i k : Nat) : (entered s i k).dict = s.dict :=
  each_same State.dict _ readied (fun _ _ => rfl) s

theorem entered_ctx (s : State) (i k c : Nat) (hc : c ∈ s.entries i ((s.run' i).stepRec k)) : ((entered s i k).ctx c).st = .ready :=
  each_readied _ c hc s

theorem isMember_of_dict (s t : State) (i : Nat) (h : t.dict = s.dict) : t.isMember i = s.isMember i := by
  simp [State.isMember, State.rd, State.reg, h]

/-- The step start instant of step k is known as it begins (R212, R294, R304). -/
def knowsStart (s : State) (i k : Nat) : Bool :=
  k == 1 || s.isMember i || (((s.run' i).stepRec k).isMemory && ((s.run' i).stepRec k).init != 0)

theorem knowsStart_succ (s : State) (i k : Nat) :
    knowsStart s i (k + 1) = true ↔ s.isMember i = true ∨
      (((s.run' i).stepRec (k + 1)).isMemory = true ∧ ((s.run' i).stepRec (k + 1)).init ≠ 0) ∨ k = 0 := by
  simp only [knowsStart, Bool.or_eq_true, Bool.and_eq_true, beq_iff_eq, bne_iff_ne, Nat.add_eq_right]
  tauto

/-- Step k of a site has begun at TIME t, before its lanes, its pins and its INIT sequence. -/
def opened (s : State) (i k t : Nat) : State :=
  if knowsStart s i k then (entered s i k).startsAt i t else entered s i k

theorem startsAt_ctx (s : State) (i t c : Nat) : (s.startsAt i t).ctx c = s.ctx c := rfl
theorem startsAt_siteSt (s : State) (i t : Nat) : (s.startsAt i t).siteSt i = s.siteSt i := by
  simp [State.startsAt, State.siteSt]
theorem startsAt_transition (s : State) (i t : Nat) : ((s.startsAt i t).site i).transition = (s.site i).transition := by
  simp [State.startsAt]
theorem startsAt_run (s : State) (i t : Nat) :
    (s.startsAt i t).run' i = { s.run' i with
      begun := true, stepStart := t, cycle0 := t + 2048, nextCycle := (t + 2048) * stepsPerTick
      wordOrigin := (t + 2048) * stepsPerTick } := by
  simp [State.startsAt, State.run']

theorem opened_ctx (s : State) (i k t c : Nat) (hc : c ∈ s.entries i ((s.run' i).stepRec k)) :
    ((opened s i k t).ctx c).st = .ready := by
  unfold opened
  split
  · rw [startsAt_ctx, entered_ctx s i k c hc]
  · exact entered_ctx s i k c hc

theorem opened_site (s : State) (i k t : Nat) :
    (opened s i k t).siteSt i = s.siteSt i ∧ ((opened s i k t).site i).transition = false ∧
      ((opened s i k t).run' i).step = k ∧ ((opened s i k t).run' i).steps = (s.run' i).steps := by
  have h : (entered s i k).site i = atStep k (s.site i) := entered_site s i k
  unfold opened
  split
  · rw [startsAt_siteSt, startsAt_transition, startsAt_run]
    simp [State.siteSt, State.run', h, atStep]
  · simp [State.siteSt, State.run', h, atStep]

theorem opened_start (s : State) (i k t : Nat) :
    (knowsStart s i k = true → ((opened s i k t).run' i).begun = true ∧ ((opened s i k t).run' i).stepStart = t ∧
      ((opened s i k t).run' i).cycle0 = t + 2048) ∧
    (knowsStart s i k = false → ((opened s i k t).run' i).begun = false) := by
  refine ⟨fun h => ?_, fun h => ?_⟩
  · rw [opened, if_pos h, startsAt_run]
    simp
  · simp [opened, h, State.run', entered_site, atStep]

theorem opened_stepRec (s : State) (i k t : Nat) : (opened s i k t).stepRec i = (s.run' i).stepRec k := by
  obtain ⟨-, -, hstep, hsteps⟩ := opened_site s i k t
  rw [State.stepRec, Run.stepRec, hstep, hsteps, Run.stepRec]

theorem wr_stepRec (s : State) (o : Obj) (v u k i : Nat) : (s.wr o v u k).stepRec i = s.stepRec i := rfl

/-- A step that begins well has come to its beginning, and SITE_STEP_NOW reads it. -/
theorem beginStep_progress (s : State) (i k t : Nat) (h : beginsWell ((s.run' i).stepRec k)) :
    progress (s.beginStep i k t) i = progress ((opened s i k t).wr .siteStepNow k i) i := by
  have hmember : (entered s i k).isMember i = s.isMember i := isMember_of_dict _ _ i (entered_dict s i k)
  have hopened : (if k == 1 || (entered s i k).isMember i
      || (((s.run' i).stepRec k).isMemory && ((s.run' i).stepRec k).init != 0) then (entered s i k).startsAt i t else entered s i k)
      = opened s i k t := by rw [hmember]; rfl
  set u := (((opened s i k t).each ((opened s i k t).dutPortsOf i) stepLane).wr .siteStepNow k i) with hu
  have hlanes : progress u i = progress ((opened s i k t).wr .siteStepNow k i) i :=
    wr_progress _ _ i _ _ _ _ (progress_of_unported _ _ i (by simp))
  set v := (if k == 1 && ((s.run' i).stepRec k).isMemory then (u.pinsIdle i u.now).setSched i (fun c => { c with clocked := u.now })
    else u) with hv
  have hpins : progress v i = progress ((opened s i k t).wr .siteStepNow k i) i := by
    rw [hv]
    split
    · exact (setSched_progress _ i _).trans ((progress_of_unported _ _ i (by simp)).trans hlanes)
    · exact hlanes
  have hrec : v.stepRec i = (s.run' i).stepRec k := by
    rw [State.stepRec, progress_run _ _ i hpins]
    exact (wr_stepRec _ _ _ _ _ _).trans (opened_stepRec s i k t)
  have hall : s.beginStep i k t = if ((s.run' i).stepRec k).isMemory && ((s.run' i).stepRec k).init != 0
      then v.startTraining i ((s.run' i).stepRec k).init none else v := by
    rw [hv, hu, ← hopened]
    rfl
  rw [hall]
  split
  · exact (startTraining_progress v i _ (by rw [hrec]; exact h)).trans hpins
  · exact hpins

/-- What a step that begins well leaves behind: the parts of the statement that a first and a later step share. -/
theorem beginStep_leaves (s : State) (i k t : Nat) (hk : k < 65536) (h : beginsWell ((s.run' i).stepRec k)) :
    (s.beginStep i k t).siteSt i = s.siteSt i ∧ ((s.beginStep i k t).site i).transition = false ∧
      ((s.beginStep i k t).run' i).step = k ∧ (s.beginStep i k t).rd .siteStepNow i = k ∧
      (∀ c ∈ s.entries i ((s.run' i).stepRec k), ((s.beginStep i k t).ctx c).st = .ready) := by
  have hp := beginStep_progress s i k t h
  obtain ⟨hst, htransition, hstep, -⟩ := opened_site s i k t
  refine ⟨(progress_siteSt _ _ i hp).trans hst, (progress_transition _ _ i hp).trans htransition, ?_, ?_, fun c hc => ?_⟩
  · rw [progress_run _ _ i hp]
    exact hstep
  · rw [rd_of_regs ((opened s i k t).wr .siteStepNow k i) _ _ _ _ (by rw [progress_dict _ _ i hp]), rd_wr_same]
    omega
  · rw [progress_ctx _ _ i hp]
    exact opened_ctx s i k t c hc

/-- The step start instant and cycle 0 of a step that begins well: known at once, or not before its first instruction. -/
theorem beginStep_start (s : State) (i k t : Nat) (h : beginsWell ((s.run' i).stepRec k)) :
    (knowsStart s i k = true → ((s.beginStep i k t).run' i).begun = true ∧ ((s.beginStep i k t).run' i).stepStart = t ∧
      ((s.beginStep i k t).run' i).cycle0 = t + 2048) ∧
    (knowsStart s i k = false → ((s.beginStep i k t).run' i).begun = false) := by
  have hrun : (s.beginStep i k t).run' i = ((opened s i k t).wr .siteStepNow k i).run' i :=
    progress_run _ _ i (beginStep_progress s i k t h)
  rw [hrun]
  exact opened_start s i k t

theorem siteStepNow_not_eventKey (i : SiteNo) : ¬ eventKey (Obj.siteStepNow.key i) :=
  not_eventKey _ (by revert i; decide) (by revert i; decide)

/-! ### The instants -/

/-- The drivers of a site may drive again, and its lanes are idle. -/
def loosed (s : State) (i : Nat) : State :=
  (s.each (s.dutPortsOf i) (fun p s => s.setPort p (fun q => { q with fe := { q.fe with off := false, mapped := false } }))).idleAll i

/-- The state in which a site's first step begins. -/
def running (s : State) (i : Nat) : State :=
  (loosed s i).setSite i (fun x => { x with st := .running, startAt := none, resumeAt := none })

theorem startRun_eq (s : State) (i t : Nat) : s.startRun i t = (running s i).beginStep i 1 t := rfl

theorem loosed_progress (s : State) (i : Nat) : progress (loosed s i) i = progress s i :=
  progress_of_unported _ _ i (by simp [loosed])

theorem running_siteSt (s : State) (i : Nat) : (running s i).siteSt i = .running := by simp [running, State.siteSt]
theorem running_run (s : State) (i : Nat) : (running s i).run' i = s.run' i := by
  rw [← progress_run _ _ i (loosed_progress s i)]
  simp [running, State.run']
theorem running_dict (s : State) (i : Nat) : (running s i).dict = s.dict := progress_dict s (loosed s i) i (loosed_progress s i)

theorem entries_of_dict (s t : State) (i : Nat) (r : StepRec) (h : t.dict = s.dict) : t.entries i r = s.entries i r := by
  simp [State.entries, State.bundlesOf, State.rd, State.reg, h]

/-- The state that a run of one operation ends in, seen where O10 looks. -/
theorem ended_begun (s t : State) (i : SiteNo) :
    (s.keepFixed t.deliver).siteSt i = t.siteSt i ∧ (s.keepFixed t.deliver).run' i = t.run' i ∧
      ((s.keepFixed t.deliver).site i).transition = (t.site i).transition ∧
      (s.keepFixed t.deliver).rd .siteStepNow i = t.rd .siteStepNow i ∧ ∀ c, (s.keepFixed t.deliver).ctx c = t.ctx c :=
  ⟨by simp, by simp [State.run'], by simp, by rw [keepFixed_rd, deliver_rd _ _ _ _ (siteStepNow_not_eventKey i)], fun c => by simp⟩

theorem exec_siteStartEffect (site : SiteNo) (s : State) :
    exec (.siteStartEffect site) s = run (siteStartEffect site.val) s := rfl
theorem exec_stepStart (site : SiteNo) (s : State) : exec (.stepStart site) s = run (stepStart site.val) s := rfl

theorem siteStartEffect_eq (i : Nat) (s : State) (p : Nat) (hat : (s.site i).startAt = some p) (harmed : s.siteSt i = .armed)
    (hp : p ≤ s.time) : siteStartEffect i s = (running s i).beginStep i 1 p := by
  simp [siteStartEffect, hat, harmed, hp, onlyIf_pos, startRun_eq]

theorem stepStart_eq (i : Nat) (s : State) (p : Nat)
    (hpoint : p = s.coincidenceAt (s.lead i) (if s.isMember i then s.realignAt i else s.time)) (hst : s.siteSt i = .running)
    (htransition : (s.site i).transition = true) (hmember : s.isMember i = true → p ≤ s.time) :
    stepStart i s = s.beginStep i ((s.run' i).step + 1) p := by
  have hdue : (s.siteSt i == .running && (s.site i).transition && (!s.isMember i || decide (p ≤ s.time))) = true := by
    rw [hst, htransition]
    cases h : s.isMember i
    · rfl
    · simpa using hmember h
  subst hpoint
  unfold stepStart
  exact onlyIf_pos s _ _ hdue

/-- SITE_START_EFFECT at the coincidence point of an accepted START. -/
theorem siteStartEffect_starts (site : SiteNo) (s : State) (p : Nat) (hat : (s.site site).startAt = some p)
    (harmed : s.siteSt site = .armed) (hp : p ≤ s.time) (hwell : beginsWell ((s.run' site).stepRec 1)) :
    ∃ t, exec (.siteStartEffect site) s = .next t ∧ t.siteSt site = .running ∧ (t.run' site).step = 1 ∧
      (t.run' site).begun = true ∧ (t.run' site).stepStart = p ∧ (t.run' site).cycle0 = p + 2048 ∧
      t.rd .siteStepNow site = 1 ∧
      (∀ c ∈ s.entries site ((s.run' site).stepRec 1), (t.ctx c).st = .ready) ∧ t.mem = s.mem := by
  have hrun : (running { s with out := [] } site).run' site = s.run' site := running_run _ _
  have hdict : (running { s with out := [] } site).dict = s.dict := running_dict _ _
  have heffect := siteStartEffect_eq site { s with out := [] } p hat harmed hp
  have hmem : ((running { s with out := [] } site).beginStep site 1 p).memory = s.memory := by simp [running, loosed]
  have hrunning : (running { s with out := [] } site).siteSt site = .running := running_siteSt _ _
  generalize running { s with out := [] } site = u at hrun hdict heffect hmem hrunning
  have hwell' : beginsWell ((u.run' site).stepRec 1) := by rwa [hrun]
  obtain ⟨hst, -, hstep, hnow, hctx⟩ := beginStep_leaves u site 1 p (by decide) hwell'
  obtain ⟨hbegun, hstart, hcycle0⟩ := (beginStep_start u site 1 p hwell').1 (by simp [knowsStart])
  obtain ⟨hendSt, hendRun, -, hendNow, hendCtx⟩ := ended_begun s (u.beginStep site 1 p) site
  rw [hrun, entries_of_dict s u _ _ hdict] at hctx
  refine ⟨_, (exec_siteStartEffect site s).trans (run_next _ s _ heffect), ?_⟩
  rw [hendSt, hendRun, hendNow, hst]
  exact ⟨hrunning, hstep, hbegun, hstart, hcycle0, hnow, fun c hc => (congrArg Context.st (hendCtx c)).trans (hctx c hc),
    ended_mem _ _ hmem⟩

/-- STEP_START at the step start instant of a site in transition. -/
theorem stepStart_begins (site : SiteNo) (s : State) (p : Nat)
    (hpoint : p = s.coincidenceAt (s.lead site) (if s.isMember site then s.realignAt site else s.time))
    (hst : s.siteSt site = .running) (htransition : (s.site site).transition = true)
    (hmember : s.isMember site = true → p ≤ s.time) (hlast : (s.run' site).step < 65535)
    (hwell : beginsWell ((s.run' site).stepRec ((s.run' site).step + 1))) :
    ∃ t, exec (.stepStart site) s = .next t ∧ t.siteSt site = .running ∧ (t.site site).transition = false ∧
      (t.run' site).step = (s.run' site).step + 1 ∧ t.rd .siteStepNow site = (s.run' site).step + 1 ∧
      (let r := (s.run' site).stepRec ((s.run' site).step + 1)
       if s.isMember site = true ∨ (r.isMemory = true ∧ r.init ≠ 0) ∨ (s.run' site).step = 0
       then (t.run' site).begun = true ∧ (t.run' site).cycle0 = p + 2048 else (t.run' site).begun = false) ∧
      (∀ c ∈ s.entries site ((s.run' site).stepRec ((s.run' site).step + 1)), (t.ctx c).st = .ready) ∧ t.mem = s.mem := by
  have heffect : stepStart site { s with out := [] } = ({ s with out := [] } : State).beginStep site ((s.run' site).step + 1) p :=
    stepStart_eq site { s with out := [] } p hpoint hst htransition hmember
  have hmem : (({ s with out := [] } : State).beginStep site ((s.run' site).step + 1) p).memory = s.memory := by simp
  obtain ⟨hbegunSt, hbegunTransition, hstep, hnow, hctx⟩ :=
    beginStep_leaves { s with out := [] } site ((s.run' site).step + 1) p (by omega) hwell
  obtain ⟨hknown, hunknown⟩ := beginStep_start { s with out := [] } site ((s.run' site).step + 1) p hwell
  have hknows := knowsStart_succ { s with out := [] } site (s.run' site).step
  obtain ⟨hendSt, hendRun, hendTransition, hendNow, hendCtx⟩ :=
    ended_begun s (({ s with out := [] } : State).beginStep site ((s.run' site).step + 1) p) site
  refine ⟨_, (exec_stepStart site s).trans (run_next _ s _ heffect), hendSt.trans (hbegunSt.trans hst),
    hendTransition.trans hbegunTransition, (congrArg Run.step hendRun).trans hstep, hendNow.trans hnow, ?_,
    fun c hc => (congrArg Context.st (hendCtx c)).trans (hctx c hc), ended_mem _ _ hmem⟩
  dsimp only
  rw [hendRun]
  split
  · next h =>
    obtain ⟨hbegun, -, hcycle0⟩ := hknown (hknows.mpr h)
    exact ⟨hbegun, hcycle0⟩
  · next h => exact hunknown (Bool.eq_false_of_not_eq_true fun hk => h (hknows.mp hk))

/-- Settles O10: the first step begins at the site's coincidence point, a later one at its step start instant. -/
theorem runStartsAndSteps : Obligations.RunStartsAndSteps := by
  unfold Obligations.RunStartsAndSteps
  exact fun site s => ⟨siteStartEffect_starts site s, stepStart_begins site s⟩

end Sys2Proof.Proofs
end

section
/-! What an abort of a site, a bundle or the device spares: the parts of the state, the registers, the enables and the time base
that it leaves, and that what was sent before it stays in front (R81, R84, R85, R91, R92, R95, R97). -/
namespace Sys2Proof.Laws
open Sys2Proof.Machine Sys2Proof.Safety

/-! ### What was sent stays in front -/

theorem onlyIf_prefix (s t : State) (c : Bool) (f : State → State) (h : s.out <+: t.out) (hf : t.out <+: (f t).out) :
    s.out <+: (t.onlyIf c f).out := by
  cases c
  · exact h
  · exact h.trans hf

theorem msix_prefix (s : State) (v : Nat) : s.out <+: (s.msix v).out := by
  unfold State.msix
  split
  · exact List.prefix_append _ _
  · exact List.prefix_rfl

theorem replyAll_prefix (s : State) (rq : Rq) (service : Nat) (a : Addr) (l : List (Status × Option (Nat × Nat) × List Byte)) :
    s.out <+: (s.replyAll rq service a l).out := by
  unfold State.replyAll
  split
  · exact List.prefix_append _ _
  · dsimp only
    split
    · split
      · refine List.IsPrefix.trans ?_ (msix_prefix _ _)
        exact List.prefix_append _ _
      · exact List.prefix_append _ _
    · exact List.prefix_append _ _

theorem answer_prefix (s : State) (o : OpenService) (st : Status) : s.out <+: (s.answer o st).out := by
  unfold State.answer
  split
  · exact List.prefix_rfl
  · exact replyAll_prefix _ _ _ _ _

theorem complete_prefix (s : State) (w : Waits) (st : Status) : s.out <+: (s.complete w st).out := by
  have h : ∀ (l : List OpenService) (t : State), t.out <+: (l.foldl (fun t o => t.answer o st) t).out := by
    intro l
    induction l with
    | nil => exact fun _ => List.prefix_rfl
    | cons o l ih => exact fun t => (answer_prefix t o st).trans (ih _)
  exact h _ { s with ctl := { s.ctl with services := s.ctl.services.filter (fun o => o.waits != w) } }

theorem signal_prefix (s : State) (e : Event) : s.out <+: (s.signal e).out := by
  unfold State.signal
  split
  · exact msix_prefix _ _
  · exact List.prefix_rfl

theorem ringPad_prefix (s : State) (b : Bool) : s.out <+: (s.ringPad b).out := by
  cases b
  · exact List.prefix_rfl
  · exact List.prefix_append _ _

theorem hostRing_prefix (s : State) (e : Event) : s.out <+: (s.hostRing e).out := by
  unfold State.hostRing
  extract_lets frame need size head free pad at1
  split
  · exact List.prefix_rfl
  · split
    · exact List.prefix_rfl
    · refine (ringPad_prefix s (decide (pad > 0))).trans (List.IsPrefix.trans ?_ (signal_prefix _ _))
      exact List.prefix_append _ _

theorem toSlot_prefix (s : State) (e : Event) (i : Nat) : s.out <+: (s.toSlot e i).out := by
  unfold State.toSlot
  split
  · exact List.prefix_rfl
  · split
    · exact List.prefix_rfl
    · split
      · exact onlyIf_prefix _ _ _ _ List.prefix_rfl (List.prefix_append _ _)
      · exact List.prefix_rfl

theorem toLog_prefix (s : State) (e : Event) : s.out <+: (s.toLog e).out := by
  unfold State.toLog
  split
  · exact List.prefix_rfl
  · split <;> exact List.prefix_rfl

theorem deliverOne_prefix (s : State) (e : Event) : s.out <+: (s.deliverOne e).out := by
  have hslots (t : State) : t.out <+: (t.each (upto 4) (fun i u => u.toSlot e i)).out :=
    each_keeps (fun u => t.out <+: u.out) _ _ (fun i u _ hu => hu.trans (toSlot_prefix u e i)) t List.prefix_rfl
  refine onlyIf_prefix _ _ _ _ (onlyIf_prefix _ _ _ _ List.prefix_rfl ?_) ((hslots _).trans (toLog_prefix _ _))
  refine List.IsPrefix.trans ?_ (hostRing_prefix _ _)
  refine onlyIf_prefix _ _ _ _ (onlyIf_prefix _ _ _ _ (onlyIf_prefix _ _ _ _ ?_ ?_) ?_) ?_ <;> exact List.prefix_rfl

/-- Delivering events appends to what a command has sent. -/
theorem deliver_prefix (s : State) : s.out <+: s.deliver.out := by
  have h : ∀ (l : List Event) (t : State), t.out <+: (l.foldl (fun t e => t.deliverOne e) t).out := by
    intro l
    induction l with
    | nil => exact fun _ => List.prefix_rfl
    | cons e l ih => exact fun t => (deliverOne_prefix t e).trans (ih _)
  exact h _ { s with evt := { s.evt with now := [] } }

/-! ### The registers that an abort writes -/

/-- The six enables of a port. -/
def enableObjs : List Obj := [.portEnDrive, .portEnCompare, .portEnLoad, .portEnPmu, .portEnPinsw, .portEnTerm]

/-- The other objects that aborts write, beside DEV_FAULT_CAUSE. -/
def reportObjs : List Obj :=
  [.siteAbortCause, .siteStepNow, .siteArmStatus, .siteArmCheck, .siteArmStep, .siteArmObject, .bndAbortCause, .bndAbortTime,
   .bndAbortFlags, .bndAbortCount, .bndInjControl, .devRecoverState, .devCfgError, .devCfgErrWhere, .devAuthFailCount,
   .devSelftestState, .qdPrError, .qdPrErrWhere]

/-- A register that an abort may write. -/
def abortKey (key : Nat) : Prop := ∃ o ∈ enableObjs ++ reportObjs, ∃ u, key = o.key u

/-- The six enables of a port are the first six sub-indices of its block. -/
theorem enable_key (e : Obj) (h : e ∈ enableObjs) (p : Nat) :
    ∃ n, 1 ≤ n ∧ n ≤ 6 ∧ e.key p = (0x4000 + 0x40 * p) * 256 + n := by
  simp only [enableObjs, List.mem_cons, List.not_mem_nil, or_false] at h
  obtain rfl | rfl | rfl | rfl | rfl | rfl := h
  exacts [⟨1, by decide, by decide, rfl⟩, ⟨2, by decide, by decide, rfl⟩, ⟨3, by decide, by decide, rfl⟩,
    ⟨4, by decide, by decide, rfl⟩, ⟨5, by decide, by decide, rfl⟩, ⟨6, by decide, by decide, rfl⟩]

theorem enable_dflt (e : Obj) (h : e ∈ enableObjs) : e.dflt = 0 := by revert e; decide

/-- Those of the device. -/
def deviceReports : List Nat :=
  [Obj.devRecoverState.key, Obj.devCfgError.key, Obj.devCfgErrWhere.key, Obj.devAuthFailCount.key, Obj.devSelftestState.key]

theorem deviceReports_low : ∀ k ∈ deviceReports, k < 0x2A00 * 256 := by decide

/-- Where the other registers that an abort writes stand. -/
theorem report_key (o : Obj) (h : o ∈ reportObjs) (u : Nat) :
    o.key u ∈ deviceReports ∨
    (0x2A00 * 256 ≤ o.key u ∧ o.key u / 256 % 16 ∈ [5, 6, 7]) ∨ (0x3000 * 256 ≤ o.key u ∧ o.key u / 256 % 64 ≠ 0) := by
  have hsite (off n : Nat) (hoff : off ∈ [5, 6, 7]) (hn : n < 256) :
      0x2A00 * 256 ≤ (0x2A00 + 0x10 * u + off) * 256 + n ∧ ((0x2A00 + 0x10 * u + off) * 256 + n) / 256 % 16 ∈ [5, 6, 7] := by
    simp only [List.mem_cons, List.not_mem_nil, or_false] at hoff ⊢
    omega
  have hquad (off : Nat) (hoff : off % 64 ≠ 0) :
      0x3000 * 256 ≤ (0x3000 + 0x100 * u + off) * 256 + 0 ∧ ((0x3000 + 0x100 * u + off) * 256 + 0) / 256 % 64 ≠ 0 := by omega
  have hbnd (off n : Nat) (hoff : off % 64 ≠ 0) (hn : n < 256) :
      0x3000 * 256 ≤ (0x3400 + 0x40 * u + off) * 256 + n ∧ ((0x3400 + 0x40 * u + off) * 256 + n) / 256 % 64 ≠ 0 := by omega
  simp only [reportObjs, List.mem_cons, List.not_mem_nil, or_false] at h
  obtain rfl | rfl | rfl | rfl | rfl | rfl | rfl | rfl | rfl | rfl | rfl | rfl | rfl | rfl | rfl | rfl | rfl | rfl := h
  exacts [.inr (.inl (hsite 7 0 (by decide) (by decide))), .inr (.inl (hsite 6 0 (by decide) (by decide))),
    .inr (.inl (hsite 5 1 (by decide) (by decide))), .inr (.inl (hsite 5 2 (by decide) (by decide))),
    .inr (.inl (hsite 5 3 (by decide) (by decide))), .inr (.inl (hsite 5 4 (by decide) (by decide))),
    .inr (.inr (hbnd 2 0 (by decide) (by decide))), .inr (.inr (hbnd 3 1 (by decide) (by decide))),
    .inr (.inr (hbnd 3 2 (by decide) (by decide))), .inr (.inr (hbnd 4 0 (by decide) (by decide))),
    .inr (.inr (hbnd 0x39 0 (by decide) (by decide))), .inl (List.mem_of_getElem? (i := 0) rfl),
    .inl (List.mem_of_getElem? (i := 1) rfl), .inl (List.mem_of_getElem? (i := 2) rfl),
    .inl (List.mem_of_getElem? (i := 3) rfl), .inl (List.mem_of_getElem? (i := 4) rfl),
    .inr (.inr (hquad 0x23 (by decide))), .inr (.inr (hquad 0x24 (by decide)))]

/-- A report is no enable. -/
theorem report_ne_enable (o e : Obj) (ho : o ∈ reportObjs) (he : e ∈ enableObjs) (u p : Nat) : e.key p ≠ o.key u := by
  obtain ⟨n, hn, hn', hkey⟩ := enable_key e he p
  rw [hkey]
  obtain h | ⟨-, h⟩ | ⟨-, h⟩ := report_key o ho u
  · have := deviceReports_low _ h
    omega
  · intro hk
    simp only [← hk, List.mem_cons, List.not_mem_nil, or_false] at h
    omega
  · omega

/-- A register below the quadrants' is written by an abort only where it is one of five of the device, or a report of a site. -/
theorem not_abortKey (key : Nat) (hlow : key < 0x3000 * 256)
    (hdev : key ∉ deviceReports)
    (hsite : key < 0x2A00 * 256 ∨ key / 256 % 16 ∉ [5, 6, 7]) : ¬ abortKey key := by
  rintro ⟨o, ho, u, rfl⟩
  obtain ho | ho := List.mem_append.mp ho
  · obtain ⟨n, hn, hn', hkey⟩ := enable_key o ho u
    omega
  · obtain h | ⟨h, h'⟩ | ⟨h, -⟩ := report_key o ho u
    · exact hdev h
    · exact hsite.elim (fun hs => absurd hs (by omega)) (fun hs => hs h')
    · omega

/-- An object of the site block that is no report of an abort. -/
theorem site_not_abortKey (off sub i : Nat) (hi : i < 12) (hoff : off < 16) (hne : off ∉ [5, 6, 7]) (hsub : sub < 256) :
    ¬ abortKey ((0x2A00 + 0x10 * i + off) * 256 + sub) := by
  have hindex : ((0x2A00 + 0x10 * i + off) * 256 + sub) / 256 % 16 = off := by omega
  refine not_abortKey _ (by omega) (fun h => ?_) (.inr (by rwa [hindex]))
  have := deviceReports_low _ h
  omega

theorem siteBundles_not_abortKey (i : Nat) (hi : i < 12) : ¬ abortKey (Obj.siteBundles.key i) :=
  site_not_abortKey 1 0 i hi (by decide) (by decide) (by decide)
theorem siteLockstep_not_abortKey (i : Nat) (hi : i < 12) : ¬ abortKey (Obj.siteLockstep.key i) :=
  site_not_abortKey 4 0 i hi (by decide) (by decide) (by decide)

/-! ### What an abort spares -/

/-- The parts of the state that the abort of sites and bundles changes, and those that the abort of the device changes. -/
def abortParts : List Part := [.regs, .sites, .bnds, .ports, .ctxs, .tb, .ctl, .replies, .slots]
def deviceAbortParts : List Part := .dev :: .quads :: .cfg :: abortParts

/-- The time base but for the events scheduled and the SEQ of the next set. -/
def Timebase.steady (x : Timebase) : Timebase := { x with sched := [], txSeq := 0 }

/-- Nothing differs but the parts listed; of the registers, only those that an abort writes, and no port gains an enable; the
time base differs in what is scheduled and in SEQ; what was sent stays in front. -/
structure Spares (l : List Part) (s t : State) : Prop where
  keeps : Keeps l s t
  regs : ∀ key d, ¬ abortKey key → ¬ eventKey key → Store.get d key t.dict.regs = Store.get d key s.dict.regs
  off : ∀ p, (s.enables p).none = true → (t.enables p).none = true
  tb : Timebase.steady t.tb = Timebase.steady s.tb
  pin : t.dev.abortNLow = s.dev.abortNLow
  out : s.out <+: t.out

theorem spares_refl (l : List Part) (s : State) : Spares l s s :=
  ⟨Keeps_refl _ _, fun _ _ _ _ => rfl, fun _ h => h, rfl, rfl, List.prefix_rfl⟩

theorem spares_trans {l : List Part} {s t u : State} (h : Spares l s t) (h' : Spares l t u) : Spares l s u :=
  ⟨Keeps_trans _ _ _ _ h.keeps h'.keeps, fun key d hk he => (h'.regs key d hk he).trans (h.regs key d hk he),
   fun p hp => h'.off p (h.off p hp), h'.tb.trans h.tb, h'.pin.trans h.pin, h.out.trans h'.out⟩

theorem spares_mono {l m : List Part} {s t : State} (h : Spares l s t) (hlm : l ⊆ m) : Spares m s t :=
  ⟨Keeps_mono _ _ _ _ h.keeps (fun _ hp => hlm hp), h.regs, h.off, h.tb, h.pin, h.out⟩

theorem enable_not_eventKey (e : Obj) (h : e ∈ enableObjs) (p : Nat) : ¬ eventKey (e.key p) := by
  obtain ⟨n, hn, hn', hkey⟩ := enable_key e h p
  rw [hkey]
  rintro (hdev | ⟨u, hport⟩)
  · have hlow : ∀ k ∈ [Obj.devLogLastCode.key, Obj.devEvtMasked.key, Obj.devEvtHostWritten.key, Obj.devEvtHostLost.key,
      Obj.devLogLost.key, Obj.devIjLastEvent.key], k < 0x4000 * 256 := by decide
    have := hlow _ hdev
    omega
  · have hcount : Obj.portEventCount.key u = (0x4000 + 0x40 * u + 0x33) * 256 + 0 := rfl
    omega

theorem enables_none_iff (s : State) (p : Nat) : (s.enables p).none = true ↔ ∀ e ∈ enableObjs, s.rd e p ≠ 1 := by
  simp [State.enables, Enables.none, enableObjs, and_assoc]

/-- A change of parts that hold no register. -/
theorem spares_of {l m : List Part} {s t : State} (h : Keeps l s t) (hl : l ⊆ m) (hr : .regs ∉ l) (hd : t.dev.abortNLow = s.dev.abortNLow)
    (ht : Timebase.steady t.tb = Timebase.steady s.tb) (ho : s.out <+: t.out) : Spares m s t := by
  refine ⟨Keeps_mono _ _ _ _ h (fun _ hp => hl hp), fun key d _ he => h.2.2 .regs hr key d he, fun p hp => ?_, ht, hd, ho⟩
  rw [enables_none_iff] at hp ⊢
  intro e he
  rw [rd_of_regs s t e p 0 (h.2.2 .regs hr _ _ (enable_not_eventKey e he p))]
  exact hp e he

/-- An enable that is cleared reads 0, another as before. -/
theorem enable_clear (s : State) (o e : Obj) (u p : Nat) (ho : o ∈ enableObjs) (he : e ∈ enableObjs) :
    (s.wr o 0 u).rd e p = if e.key p = o.key u then 0 else s.rd e p := by
  split
  · next hkey =>
    rw [State.rd, State.reg, State.wr, State.setReg, hkey, enable_dflt e he, enable_dflt o ho, Store_get_put, if_pos rfl]
    rfl
  · next hkey => exact rd_wr_ne _ _ _ _ _ _ _ _ hkey

/-- A write of one of the registers of an abort that sets no enable. -/
theorem spares_wr (s : State) (o : Obj) (v u : Nat) (ho : o ∈ enableObjs ++ reportObjs) (hv : o ∈ enableObjs → v = 0) :
    Spares abortParts s (s.wr o v u) := by
  refine ⟨Keeps_mono _ _ _ _ (wr_keeps _ _ _ _ _) (by simp [abortParts]),
    fun key d hk _ => get_setReg _ _ _ _ _ _ _ (fun e => hk ⟨o, ho, u, e⟩), fun p hp => ?_, rfl, rfl, List.prefix_rfl⟩
  rw [enables_none_iff] at hp ⊢
  intro e he
  by_cases hkey : e.key p = o.key u
  · obtain ho | ho := List.mem_append.mp ho
    · rw [hv ho, enable_clear s o e u p ho he, if_pos hkey]
      decide
    · exact absurd hkey (report_ne_enable o e ho he u p)
  · rw [rd_wr_ne _ _ _ _ _ _ _ _ hkey]
    exact hp e he

theorem spares_bump (s : State) (o : Obj) (u : Nat) (ho : o ∈ reportObjs) (hne : o ∉ enableObjs) :
    Spares abortParts s (s.bump o u) := spares_wr _ _ _ _ (List.mem_append_right _ ho) (fun h => absurd h hne)

theorem spares_report (s : State) (o : Obj) (v u : Nat) (ho : o ∈ reportObjs) (hne : o ∉ enableObjs) :
    Spares abortParts s (s.wr o v u) := spares_wr _ _ _ _ (List.mem_append_right _ ho) (fun h => absurd h hne)

theorem spares_setSite (s : State) (i : Nat) (f : Site → Site) : Spares abortParts s (s.setSite i f) :=
  spares_of (setSite_keeps s i f) (by decide) (by decide) rfl rfl List.prefix_rfl
theorem spares_setBnd (s : State) (b : Nat) (f : Bundle → Bundle) : Spares abortParts s (s.setBnd b f) :=
  spares_of (setBnd_keeps s b f) (by decide) (by decide) rfl rfl List.prefix_rfl
theorem setPort_keeps (s : State) (p : Nat) (f : Port → Port) : Keeps [.ports] s (s.setPort p f) :=
  ⟨rfl, rfl, fun q hq => by cases q <;> simp_all [Part.same]⟩
theorem spares_setPort (s : State) (p : Nat) (f : Port → Port) : Spares abortParts s (s.setPort p f) :=
  spares_of (setPort_keeps s p f) (by decide) (by decide) rfl rfl List.prefix_rfl
theorem setCtx_keeps (s : State) (c : Nat) (f : Context → Context) : Keeps [.ctxs] s (s.setCtx c f) :=
  ⟨rfl, rfl, fun p hp => by cases p <;> simp_all [Part.same]⟩
theorem spares_setCtx (s : State) (c : Nat) (f : Context → Context) : Spares abortParts s (s.setCtx c f) :=
  spares_of (setCtx_keeps s c f) (by decide) (by decide) rfl rfl List.prefix_rfl
theorem spares_raise (s : State) (code kind unit arg0 arg1 : Nat) (ext : List Byte) (rim : Bool) :
    Spares abortParts s (s.raise code kind unit arg0 arg1 ext rim) :=
  spares_of (raise_keeps s _ _ _ _ _ _ _) (by decide) (by decide) rfl rfl List.prefix_rfl
theorem spares_setRing (s : State) (i : Nat) (f : Ring → Ring) : Spares abortParts s (s.setRing i f) := spares_setSite _ _ _
theorem spares_setCap (s : State) (b : Nat) (f : Capture → Capture) : Spares abortParts s (s.setCap b f) := spares_setBnd _ _ _

theorem spares_complete (s : State) (w : Waits) (st : Status) : Spares abortParts s (s.complete w st) := by
  have h := complete_keeps s w st
  exact spares_of h (by decide) (by decide) (by rw [h.2.2 .dev (by decide)]) (by rw [h.2.2 .tb (by decide)]) (complete_prefix s w st)

/-- Delivering the events of a command spares everything. -/
theorem spares_deliver (s : State) : Spares [] s s.deliver :=
  spares_of (deliver_keeps s) (by simp) (by simp) (by simp) (by simp) (deliver_prefix s)

theorem spares_each {l : List Part} (s : State) (is : List Nat) (f : Nat → State → State) (h : ∀ i t, Spares l t (f i t)) :
    Spares l s (s.each is f) :=
  each_keeps (Spares l s) is f (fun i t _ ht => spares_trans ht (h i t)) s (spares_refl _ _)

theorem each_cons (s : State) (i : Nat) (l : List Nat) (f : Nat → State → State) : s.each (i :: l) f = (f i s).each l f := rfl

theorem spares_foldl {α : Type} {l : List Part} (s : State) (xs : List α) (f : State → α → State)
    (h : ∀ t x, Spares l t (f t x)) : Spares l s (xs.foldl f s) := by
  induction xs generalizing s with
  | nil => exact spares_refl _ _
  | cons x xs ih => exact spares_trans (h s x) (ih _)

/-! ### Cut -/

theorem spares_clearEnables (s : State) (p : Nat) : Spares abortParts s (s.clearEnables p) := by
  have hwr : ∀ (l : List Obj), (∀ o ∈ l, o ∈ enableObjs) → ∀ t : State,
      Spares abortParts t (l.foldl (fun t o => t.wr o 0 p) t) := by
    intro l
    induction l with
    | nil => exact fun _ _ => spares_refl _ _
    | cons o l ih =>
      intro hl t
      exact spares_trans (spares_wr t o 0 p (List.mem_append_left _ (hl o (by simp))) (fun _ => rfl))
        (ih (fun o ho => hl o (List.mem_cons_of_mem _ ho)) _)
  unfold State.clearEnables
  exact spares_trans (hwr enableObjs (fun _ h => h) s) (spares_setPort _ _ _)

theorem spares_cutCleared (s : State) (p : Nat) : Spares abortParts (s.clearEnables p) (s.cutPort p) :=
  spares_trans (spares_trans (spares_setBnd _ _ _) (spares_setPort _ _ _)) (spares_setPort _ _ _)

theorem spares_cutPort (s : State) (p : Nat) : Spares abortParts s (s.cutPort p) :=
  spares_trans (spares_clearEnables s p) (spares_cutCleared s p)

theorem spares_endSurvey (s : State) (b : Nat) : Spares abortParts s (s.endSurvey b) := by
  unfold State.endSurvey
  split
  · exact spares_refl _ _
  · exact spares_trans (spares_trans (spares_setPort _ _ _) (spares_setPort _ _ _)) (spares_setBnd _ _ _)

theorem spares_stopCal (s : State) (b : Nat) : Spares abortParts s (s.stopCal b).2 := by
  refine spares_trans (spares_setBnd s b (fun t => { t with cal := { t.cal with survey := none } })) ?_
  simp only [State.stopCal, State.endCycle]
  split
  · exact spares_endSurvey _ _
  · exact spares_trans (spares_trans (spares_setPort _ _ _) (spares_setPort _ _ _)) (spares_setBnd _ _ _)

/-- One bundle in the Cut phase. -/
theorem cutBundles_cons (s : State) (b : Nat) (bs : List Nat) :
    (s.cutBundles (b :: bs)).2 = (((s.stopCal b).2.each (portsOfBundle b) (fun p s => s.cutPort p)).cutBundles bs).2 := by
  have hacc : ∀ (l : List Nat) (named : List Nat) (t : State), (l.foldl (fun (e : List Nat × State) c =>
      let (hit, u) := e.2.stopCal c
      (if hit then e.1 ++ [c] else e.1, u.each (portsOfBundle c) (fun p v => v.cutPort p))) (named, t)).2
        = (t.cutBundles l).2 := by
    intro l
    induction l with
    | nil => exact fun _ _ => rfl
    | cons c l ih => exact fun named t => (ih _ _).trans (ih _ _).symm
  exact hacc bs _ _

theorem spares_cutBundles (s : State) (bs : List Nat) : Spares abortParts s (s.cutBundles bs).2 := by
  induction bs generalizing s with
  | nil => exact spares_refl _ _
  | cons b bs ih =>
    rw [cutBundles_cons]
    exact spares_trans (spares_trans (spares_stopCal s b) (spares_each _ _ _ (fun p t => spares_cutPort t p))) (ih _)

/-! ### Stop and Close -/

theorem spares_stopSite (s : State) (i : Nat) : Spares abortParts s (s.stopSite i) := by
  unfold State.stopSite
  extract_lets aborted stopped lead injects
  have haborted : Spares abortParts s aborted := spares_each _ _ _ (fun c t => spares_setCtx t c _)
  exact spares_trans (spares_trans (spares_trans haborted (spares_setSite aborted i _))
    (spares_report stopped .bndInjControl 0 lead (by decide) (by decide))) (spares_setBnd injects lead _)

theorem spares_bundleAborted (s : State) (b cause time flags : Nat) :
    Spares abortParts s (s.bundleAborted b cause time flags) :=
  spares_trans (spares_trans (spares_trans (spares_report _ .bndAbortCause _ _ (by decide) (by decide))
    (spares_report _ .bndAbortTime _ _ (by decide) (by decide))) (spares_report _ .bndAbortFlags _ _ (by decide) (by decide)))
    (spares_bump _ .bndAbortCount _ (by decide) (by decide))

theorem spares_closeOne (s : State) (i : Nat) (incomplete : Bool) : Spares abortParts s (s.closeOne i incomplete) := by
  unfold State.closeOne
  split
  · exact spares_refl _ _
  · next r _ =>
    extract_lets bs aborted stepped failed closed recovering
    have h1 : Spares abortParts s aborted := spares_each _ _ _ (fun b t => spares_bundleAborted t b _ _ _)
    have h2 : Spares abortParts s stepped :=
      spares_trans (spares_trans h1 (spares_report _ .siteAbortCause _ _ (by decide) (by decide)))
        (spares_report _ .siteStepNow _ _ (by decide) (by decide))
    have h3 : Spares abortParts s recovering := by
      have hclosed : Spares abortParts s closed := spares_trans h2 (spares_setSite stepped i _)
      unfold recovering
      split
      · exact hclosed
      · exact spares_trans hclosed (spares_report _ .devRecoverState _ _ (by decide) (by decide))
    split
    · exact spares_trans h3 (spares_raise _ _ _ _ _ _ _ _)
    · exact h3

/-! ### Groups -/

theorem tbPart_keeps (s : State) (tb : Timebase) (out : List Msg) : Keeps [.tb] s { s with tb := tb, out := out } :=
  ⟨rfl, rfl, fun p hp => by cases p <;> simp_all [Part.same]⟩

theorem spares_cancelGroup (s : State) (g : Nat) : Spares abortParts s (s.cancelGroup g) :=
  spares_of (tbPart_keeps s _ s.out) (by decide) (by decide) rfl rfl List.prefix_rfl

theorem spares_sendTwice (s : State) (n : Option (Fin 4)) (w : WarpSet) : Spares abortParts s (s.sendTwice n w) :=
  spares_of (tbPart_keeps s s.tb _) (by decide) (by decide) rfl rfl ((List.prefix_append _ _).trans (List.prefix_append _ _))

theorem spares_newSet (s : State) (type group time : Nat) : Spares abortParts s (s.newSet type group time).2 :=
  spares_of (tbPart_keeps s _ s.out) (by decide) (by decide) rfl rfl List.prefix_rfl

theorem spares_announce (s : State) (type group time : Nat) : Spares abortParts s (s.announce type group time) :=
  spares_trans (spares_newSet s type group time) (spares_foldl _ _ _ (fun t n => spares_sendTwice t (some n) _))

theorem spares_groupAbort (s : State) (g : Nat) : Spares abortParts s (s.groupAbort g) := by
  unfold State.groupAbort
  split
  · exact spares_announce _ _ _ _
  · split
    · exact spares_trans (spares_newSet s 4 g s.time) (spares_sendTwice _ none _)
    · exact spares_refl _ _

/-! ### The abort of a site -/

theorem spares_armAborted (s : State) (i : Nat) : Spares abortParts s (s.armAborted i) := by
  unfold State.armAborted
  split
  · exact spares_refl _ _
  · refine spares_trans (spares_trans (spares_trans (spares_trans (spares_trans (spares_setSite _ _ _)
      (spares_report _ .siteArmStatus _ _ (by decide) (by decide))) (spares_report _ .siteArmCheck _ _ (by decide) (by decide)))
      (spares_report _ .siteArmStep _ _ (by decide) (by decide))) (spares_report _ .siteArmObject _ _ (by decide) (by decide)))
      (spares_complete _ _ _)

theorem spares_abortIdle (s : State) (bs : List Nat) (a : AbortBy) : Spares abortParts s (s.abortIdle bs a) := by
  unfold State.abortIdle
  dsimp only
  have hreported (f : Nat → State → Nat) (g : Nat → Nat) :
      Spares abortParts s ((s.cutBundles bs).2.each bs (fun b t => t.bundleAborted b a.cause (f b t) (g b))) :=
    spares_trans (spares_cutBundles s bs) (spares_each _ _ _ (fun b t => spares_bundleAborted t b _ _ _))
  split
  · exact spares_trans (hreported _ _) (spares_raise _ _ _ _ _ _ _ _)
  · exact hreported _ _

theorem spares_closeRows (s : State) (i : Nat) : Spares abortParts s (s.closeRows i) := by
  have hcap (t : State) (b : Nat) (r : Record) : Spares abortParts t (t.capture i b r) := by
    unfold State.capture
    dsimp only
    split
    · exact spares_trans (spares_setCap _ _ _) (spares_setCap _ _ _)
    · exact spares_trans (spares_trans (spares_setCap _ _ _) (spares_setCap _ _ _)) (spares_setRing _ _ _)
  refine spares_foldl _ _ _ (fun t c => ?_)
  unfold State.closeRow
  split
  · exact spares_refl _ _
  · exact spares_trans (spares_trans (spares_setCap _ _ _) (hcap _ _ _)) (spares_setCtx _ _ _)

/-- The group of a site learns of the site's abort, unless a Warp ABORT covers the group already (R97). -/
def tellsGroup (s : State) (i : Nat) (a : AbortBy) : State :=
  if s.rd .siteLockstep i == 0 then s
  else if a.quiet || a.warp then s.cancelGroup (s.rd .siteLockstep i)
  else (s.cancelGroup (s.rd .siteLockstep i)).groupAbort (s.rd .siteLockstep i)

/-- A site after its Cut and Stop phases. -/
def halted (s : State) (i : Nat) (a : AbortBy) : State := (tellsGroup (s.cutBundles (s.bundlesOf i)).2 i a).stopSite i

/-- A site that aborts, with the record of its abort (R91). -/
def recorded (s : State) (i : Nat) (a : AbortBy) : State :=
  (halted s i a).setSite i (fun x => { x with
    st := .aborting,
    abort := some { cause := a.cause, time := a.at'.getD (halted s i a).time, since := (halted s i a).elapsed, pin := a.pin
                    warp := a.warp, scope := a.scope, lost := a.lost, cal := (s.cutBundles (s.bundlesOf i)).1 } })

/-- A site that runs is cut, stopped and recorded as aborting; its rows close, and the END marker is due. -/
theorem abortFormed_runs (s : State) (i : Nat) (a : AbortBy) (h : s.siteSt i = .running ∨ s.siteSt i = .paused) :
    s.abortFormed i a = ((recorded s i a).closeRows i).setRing i (fun g => { g with
      endDue := some (a.cause, (((recorded s i a).closeRows i).run' i).step, a.at'.getD ((recorded s i a).closeRows i).time) }) := by
  obtain h | h := h <;>
  · unfold State.abortFormed
    rw [h]
    dsimp only
    rw [if_neg (by decide)]
    rfl

theorem abortFormed_armed (s : State) (i : Nat) (a : AbortBy) (h : s.siteSt i = .armed) :
    s.abortFormed i a = (recorded s i a).closeOne i false := by
  unfold State.abortFormed
  rw [h]
  dsimp only
  rw [if_pos (by decide)]
  rfl

theorem abortFormed_idle (s : State) (i : Nat) (a : AbortBy) (h : s.siteSt i = .ready ∨ s.siteSt i = .fault) :
    s.abortFormed i a = ((s.armAborted i).wr .siteAbortCause a.cause i).abortIdle (s.bundlesOf i) a := by
  obtain h | h := h <;> (unfold State.abortFormed; rw [h])

theorem abortFormed_none (s : State) (i : Nat) (a : AbortBy) (h : s.siteSt i = .none ∨ s.siteSt i = .aborting) :
    s.abortFormed i a = s := by
  obtain h | h := h <;> (unfold State.abortFormed; rw [h])

theorem spares_tellsGroup (s : State) (i : Nat) (a : AbortBy) : Spares abortParts s (tellsGroup s i a) := by
  unfold tellsGroup
  split
  · exact spares_refl _ _
  · split
    · exact spares_cancelGroup _ _
    · exact spares_trans (spares_cancelGroup _ _) (spares_groupAbort _ _)

theorem spares_recorded (s : State) (i : Nat) (a : AbortBy) :
    Spares abortParts (s.cutBundles (s.bundlesOf i)).2 (recorded s i a) :=
  spares_trans (spares_trans (spares_tellsGroup _ i a) (spares_stopSite _ i)) (spares_setSite (halted s i a) i _)

theorem spares_abortFormed (s : State) (i : Nat) (a : AbortBy) : Spares abortParts s (s.abortFormed i a) := by
  have hrecorded : Spares abortParts s (recorded s i a) := spares_trans (spares_cutBundles s _) (spares_recorded s i a)
  cases h : s.siteSt i
  case none => rw [abortFormed_none s i a (.inl h)]; exact spares_refl _ _
  case aborting => rw [abortFormed_none s i a (.inr h)]; exact spares_refl _ _
  case ready | fault =>
    rw [abortFormed_idle s i a (by simp [h])]
    exact spares_trans (spares_trans (spares_armAborted s i) (spares_report _ .siteAbortCause _ _ (by decide) (by decide)))
      (spares_abortIdle _ _ _)
  case armed => rw [abortFormed_armed s i a h]; exact spares_trans hrecorded (spares_closeOne _ _ _)
  case running | paused =>
    rw [abortFormed_runs s i a (by simp [h])]
    exact spares_trans (spares_trans hrecorded (spares_closeRows _ i)) (spares_setRing _ i _)

theorem spares_abortSite (s : State) (i cause : Nat) (warp : Bool) (at' : Option Nat) :
    Spares abortParts s (s.abortSite i cause warp at') := spares_abortFormed _ _ _

/-! ### Where the abort leaves a site -/

/-- A site that runs or is paused is aborting, with the abort's cause and PIN. -/
theorem abortFormed_phase (s : State) (i : Nat) (a : AbortBy) (h : s.siteSt i = .running ∨ s.siteSt i = .paused) :
    (s.abortFormed i a).siteSt i = .aborting ∧
      ((s.abortFormed i a).site i).abort.map (fun r => (r.cause, r.pin)) = some (a.cause, a.pin) := by
  have hphase : (s.abortFormed i a).phase i = (recorded s i a).phase i := by
    rw [abortFormed_runs s i a h]
    exact standing_phase _ _ ((setRing_standing _ _ _).trans (closeRows_standing _ _)) i
  rw [recorded, phase_setSite, if_pos rfl] at hphase
  exact ⟨congrArg Prod.fst hphase, congrArg (fun x => x.2.map (fun r => (r.cause, r.pin))) hphase⟩

/-- A READY site stays READY. -/
theorem abortFormed_ready (s : State) (i : Nat) (a : AbortBy) (h : s.siteSt i = .ready) :
    (s.abortFormed i a).siteSt i = .ready := by
  rw [abortFormed_idle s i a (.inl h)]
  have hphase := standing_phase _ _ (abortIdle_standing ((s.armAborted i).wr .siteAbortCause a.cause i) (s.bundlesOf i) a) i
  have harm := (armAborted_moves s i).1 i (by simp)
  exact (congrArg Prod.fst (hphase.trans harm)).trans h

/-- An operation for each site of a list that moves no other site: where such a site stands at the end is where its own
operation left it. -/
theorem each_at (l : List Nat) (hl : l.Nodup) (f : Nat → State → State) (hspares : ∀ i t, Spares abortParts t (f i t))
    (hmoves : ∀ i t, Moves [i] t (f i t)) (s : State) (i : Nat) (hi : i ∈ l) :
    ∃ u, Spares abortParts s u ∧ u.phase i = s.phase i ∧ Spares abortParts (f i u) (s.each l f) ∧
      (s.each l f).phase i = (f i u).phase i := by
  induction l generalizing s with
  | nil => exact absurd hi (by simp)
  | cons j l ih =>
    obtain ⟨hj, hl⟩ := List.nodup_cons.mp hl
    rcases List.mem_cons.mp hi with rfl | hi
    · refine ⟨s, spares_refl _ _, rfl, spares_each (f i s) l f hspares, ?_⟩
      exact each_keeps (fun t => t.phase i = (f i s).phase i) l f (fun k t hk ht =>
        ((hmoves k t).1 i (by simp only [List.mem_singleton]; exact fun h => hj (h ▸ hk))).trans ht) (f i s) rfl
    · obtain ⟨u, hu, hphase, hrest, hend⟩ := ih hl (f j s) hi
      have hne : i ≠ j := fun h => hj (h ▸ hi)
      exact ⟨u, spares_trans (hspares j s) hu, hphase.trans ((hmoves j s).1 i (by simpa using hne)), hrest, hend⟩

/-! ### The ports of an aborted site -/

theorem clearEnables_none (s : State) (p : Nat) : ((s.clearEnables p).enables p).none = true := by
  rw [enables_none_iff]
  have hwr : ∀ (l : List Obj) (t : State) (e : Obj), (∀ o ∈ l, o ∈ enableObjs) → e ∈ enableObjs → (e ∈ l ∨ t.rd e p = 0) →
      (l.foldl (fun t o => t.wr o 0 p) t).rd e p = 0 := by
    intro l
    induction l with
    | nil => exact fun t e _ _ h => h.resolve_left (by simp)
    | cons o l ih =>
      intro t e hl he h
      refine ih _ e (fun o ho => hl o (List.mem_cons_of_mem _ ho)) he ?_
      rw [enable_clear t o e p p (hl o (by simp)) he]
      split
      · exact .inr rfl
      · next hkey => exact h.imp_left (fun hm => (List.mem_cons.mp hm).resolve_left (fun heq => hkey (heq ▸ rfl)))
  intro e he
  have hzero := hwr enableObjs s e (fun _ h => h) he (.inl he)
  unfold State.clearEnables
  extract_lets cleared
  rw [setPort_rd, show cleared.rd e p = 0 from hzero]
  decide

theorem cutBundles_off (s : State) (bs : List Nat) (b p : Nat) (hb : b ∈ bs) (hp : p ∈ portsOfBundle b) :
    ((s.cutBundles bs).2.enables p).none = true := by
  have hport (t : State) : ((t.cutPort p).enables p).none = true :=
    (spares_cutCleared t p).off p (clearEnables_none t p)
  have hports : ∀ (l : List Nat) (t : State), p ∈ l → ((t.each l (fun q u => u.cutPort q)).enables p).none = true := by
    intro l
    induction l with
    | nil => exact fun t h => absurd h (by simp)
    | cons q l ih =>
      intro t h
      rw [each_cons]
      rcases List.mem_cons.mp h with rfl | h
      · exact (spares_each (t.cutPort p) l _ (fun q u => spares_cutPort u q)).off p (hport t)
      · exact ih _ h
  induction bs generalizing s with
  | nil => exact absurd hb (by simp)
  | cons c bs ih =>
    rw [cutBundles_cons]
    rcases List.mem_cons.mp hb with rfl | hb
    · exact (spares_cutBundles _ bs).off p (hports _ _ hp)
    · exact ih _ hb

/-- The ports of a site that ran are without enables once it is aborted. -/
theorem abortFormed_off (s : State) (i : Nat) (a : AbortBy) (h : s.siteSt i = .running ∨ s.siteSt i = .paused) (p : Nat)
    (hp : p ∈ s.portsOf i) : ((s.abortFormed i a).enables p).none = true := by
  obtain ⟨b, hb, hp⟩ := List.mem_flatMap.mp hp
  have hcut := cutBundles_off s (s.bundlesOf i) b p hb hp
  rw [abortFormed_runs s i a h]
  exact (spares_trans (spares_recorded s i a) (spares_trans (spares_closeRows _ i) (spares_setRing _ i _))).off p hcut

/-! ### The abort of the device -/

theorem device_spares {s t : State} (h : Spares abortParts s t) : Spares deviceAbortParts s t := spares_mono h (by decide)

theorem spares_setRegion (s : State) (q r : Nat) (f : Region → Region) : Spares deviceAbortParts s (s.setRegion q r f) :=
  spares_of (setRegion_keeps s q r f) (by decide) (by decide) rfl rfl List.prefix_rfl

theorem devCfg_keeps (s : State) (d : Device) (c : Loader) : Keeps [.dev, .cfg] s { s with dev := d, cfg := c } :=
  ⟨rfl, rfl, fun p hp => by cases p <;> simp_all [Part.same]⟩

theorem devOut_keeps (s : State) (d : Device) (out : List Msg) : Keeps [.dev] s { s with dev := d, out := out } :=
  ⟨rfl, rfl, fun p hp => by cases p <;> simp_all [Part.same]⟩

theorem spares_devCfg (s : State) (d : Device) (c : Loader) (hd : d.abortNLow = s.dev.abortNLow) :
    Spares deviceAbortParts s { s with dev := d, cfg := c } :=
  spares_of (devCfg_keeps s d c) (by decide) (by decide) hd rfl List.prefix_rfl

theorem spares_failLoad (s : State) (code place : Nat) (answer : Status) :
    Spares deviceAbortParts s (s.failLoad code place answer) := by
  unfold State.failLoad
  split
  · exact spares_refl _ _
  · next l _ =>
    extract_lets counted answered _ ended shown blank _ _ wiped
    have hcounted : Spares abortParts s counted := by
      unfold counted
      split
      · exact spares_bump _ .devAuthFailCount _ (by decide) (by decide)
      · exact spares_refl _ _
    have hended : Spares deviceAbortParts s ended :=
      spares_trans (device_spares (spares_trans hcounted (spares_complete counted _ _))) (spares_devCfg answered answered.dev _ rfl)
    split
    · have hshown : Spares abortParts ended shown := spares_trans (spares_report _ .devCfgError _ _ (by decide) (by decide))
        (spares_report _ .devCfgErrWhere _ _ (by decide) (by decide))
      have hblank : Spares deviceAbortParts shown blank := spares_each _ _ _ (fun k t => spares_setRegion t _ _ _)
      have hwiped : Spares deviceAbortParts blank wiped := spares_devCfg _ _ _ rfl
      exact spares_trans (spares_trans (spares_trans (spares_trans hended (device_spares hshown)) hblank) hwiped)
        (device_spares (spares_raise _ _ _ _ _ _ _ _))
    · next q r _ =>
      extract_lets reported region _ again
      have hreported : Spares abortParts ended reported := spares_trans (spares_report _ .qdPrError _ _ (by decide) (by decide))
        (spares_report _ .qdPrErrWhere _ _ (by decide) (by decide))
      have hagain : Spares deviceAbortParts reported again :=
        spares_trans (spares_setRegion reported _ _ _) (spares_devCfg region region.dev _ rfl)
      exact spares_trans (spares_trans (spares_trans hended (device_spares hreported)) hagain)
        (device_spares (spares_raise _ _ _ _ _ _ _ _))

/-- The device's abort has begun, its cause shown unless a fault's is (R76, R95). -/
def called (s : State) (cause : Nat) : State :=
  let t := if s.dev.fault.isSome then s else s.wr .devFaultCause cause
  { t with dev := { t.dev with aborting := some cause } }

theorem spares_deviceDone (s : State) : Spares deviceAbortParts s s.deviceDone := by
  unfold State.deviceDone
  split
  · exact spares_refl _ _
  · split
    · exact spares_refl _ _
    · exact spares_trans (device_spares (spares_raise _ _ _ _ _ _ _ _)) (spares_devCfg _ _ _ rfl)

/-- The abort of every site, as the device's abort asks for it. -/
def allAborted (s : State) (a : AbortBy) : State := s.each (upto 12) (fun i t => t.abortFormed i a)

/-- An abort of the device that begins spares what aborts spare from its call on, and moves sites only as it aborts the twelve. -/
theorem abortDevice_calls (s : State) (cause : Nat) (pin warp quiet : Bool) (halive : s.alive = true)
    (hidle : s.dev.aborting = none) :
    ∃ before, Spares deviceAbortParts (called s cause) before ∧ Moves [] s before ∧
      s.abortDevice cause pin warp quiet
        = (allAborted before { cause := cause, pin := pin, warp := warp, quiet := quiet }).deviceDone := by
  unfold State.abortDevice
  rw [if_neg (by simp [halive, hidle])]
  extract_lets a faulted _ aborting stopped idle _ tested before _
  have hstopped : Spares deviceAbortParts (called s cause) stopped :=
    spares_trans (device_spares (spares_cancelGroup (called s cause) 0)) (spares_failLoad _ _ _ _)
  have htested : Spares deviceAbortParts stopped tested := by
    unfold tested
    split
    · exact spares_trans (device_spares (spares_report _ .devSelftestState _ _ (by decide) (by decide))) (spares_devCfg idle _ idle.cfg rfl)
    · exact spares_refl _ _
  have hcalm : (aborting.cancelGroup 0).standing = s.standing := by simp [aborting, faulted]
  have hmoves : Moves [] s stopped := moves_trans _ _ _ _ (moves_of_standing _ _ _ hcalm) (stopLoads_moves _)
  exact ⟨before, spares_trans (spares_trans hstopped htested) (device_spares (spares_abortIdle _ _ _)),
    abortIdle_moves _ _ _ _ (moves_trans_standing _ _ _ _ hmoves (by simp [tested, idle])), rfl⟩

theorem spares_allAborted (s : State) (a : AbortBy) : Spares abortParts s (allAborted s a) :=
  spares_each _ _ _ (fun i t => spares_abortFormed t i a)

/-- An abort of the device that begins spares, from its call on, what aborts spare. -/
theorem spares_abortDevice (s : State) (cause : Nat) (pin warp quiet : Bool) (halive : s.alive = true)
    (hidle : s.dev.aborting = none) : Spares deviceAbortParts (called s cause) (s.abortDevice cause pin warp quiet) := by
  obtain ⟨before, hspares, -, heq⟩ := abortDevice_calls s cause pin warp quiet halive hidle
  rw [heq]
  exact spares_trans (spares_trans hspares (device_spares (spares_allAborted _ _))) (spares_deviceDone _)

/-- What the abort of each site is, in the abort of the device. -/
theorem abortDevice_at (s : State) (cause : Nat) (pin warp quiet : Bool) (halive : s.alive = true)
    (hidle : s.dev.aborting = none) (i : Nat) (hi : i < 12) :
    ∃ (u : State) (a : AbortBy), a.cause = cause ∧ a.pin = pin ∧ Spares deviceAbortParts (called s cause) u ∧ u.phase i = s.phase i ∧
      Spares deviceAbortParts (u.abortFormed i a) (s.abortDevice cause pin warp quiet) ∧
      (s.abortDevice cause pin warp quiet).phase i = (u.abortFormed i a).phase i := by
  obtain ⟨before, hbefore, hmoves, heq⟩ := abortDevice_calls s cause pin warp quiet halive hidle
  set a : AbortBy := { cause := cause, pin := pin, warp := warp, quiet := quiet } with ha
  obtain ⟨u, hu, hphase, hrest, hend⟩ := each_at (upto 12) (nodup_upto 12) (fun j t => t.abortFormed j a)
    (fun j t => spares_abortFormed t j a) (fun j t => abortFormed_moves t j a) before i ((mem_upto i 12).mpr hi)
  refine ⟨u, a, rfl, rfl, spares_trans hbefore (device_spares hu), hphase.trans (hmoves.1 i (by simp)), ?_, ?_⟩
  · rw [heq]
    exact spares_trans (device_spares hrest) (spares_deviceDone _)
  · rw [heq, standing_phase _ _ (deviceDone_standing _)]
    exact hend

/-! ### What is read after an abort -/

theorem spares_rd {l : List Part} {s t : State} (h : Spares l s t) (o : Obj) (u k : Nat) (hk : ¬ abortKey (o.key u k))
    (he : ¬ eventKey (o.key u k)) : t.rd o u k = s.rd o u k := rd_of_regs _ _ _ _ _ (h.regs _ _ hk he)

theorem spares_bundlesOf {l : List Part} {s t : State} (h : Spares l s t) (i : Nat) (hi : i < 12) :
    t.bundlesOf i = s.bundlesOf i := by
  rw [State.bundlesOf, spares_rd h .siteBundles i 0 (siteBundles_not_abortKey i hi) (siteBundles_not_eventKey ⟨i, hi⟩),
    State.bundlesOf]

theorem faultCause_not_abortKey : ¬ abortKey Obj.devFaultCause.key := not_abortKey _ (by decide) (by decide) (.inl (by decide))
theorem faultCause_not_eventKey : ¬ eventKey Obj.devFaultCause.key := not_eventKey _ (by decide) (by decide)

/-- The call of the device's abort writes DEV_FAULT_CAUSE alone. -/
theorem called_rd (s : State) (cause : Nat) (o : Obj) (u k : Nat) (h : o.key u k ≠ Obj.devFaultCause.key) :
    (called s cause).rd o u k = s.rd o u k := by
  unfold called
  dsimp only
  split
  · rfl
  · exact rd_wr_ne s .devFaultCause o cause 0 0 u k h

theorem called_faultCause (s : State) (cause : Nat) (hfault : s.dev.fault = none) (hc : cause < 2 ^ 64) :
    (called s cause).rd .devFaultCause = cause := by
  have h : (called s cause).rd .devFaultCause = (s.wr .devFaultCause cause).rd .devFaultCause := by
    rw [called, hfault]
    rfl
  rw [h, rd_wr_same, Nat.mod_eq_of_lt hc]

theorem called_same (s : State) (cause : Nat) : (called s cause).tb = s.tb ∧ (called s cause).out = s.out ∧
    (called s cause).dev.abortNLow = s.dev.abortNLow := by
  unfold called
  dsimp only
  split <;> exact ⟨rfl, rfl, rfl⟩

/-- An abort of the device begins, or changes nothing. -/
theorem abortDevice_from (s : State) (cause : Nat) (pin warp quiet : Bool) :
    s.abortDevice cause pin warp quiet = s ∨ Spares deviceAbortParts (called s cause) (s.abortDevice cause pin warp quiet) := by
  by_cases h : s.alive = true ∧ s.dev.aborting = none
  · exact .inr (spares_abortDevice s cause pin warp quiet h.1 h.2)
  · refine .inl (if_pos ?_)
    cases ha : s.alive <;> cases hd : s.dev.aborting <;> simp_all

theorem abortDevice_tb (s : State) (cause : Nat) (pin warp quiet : Bool) :
    Timebase.steady (s.abortDevice cause pin warp quiet).tb = Timebase.steady s.tb := by
  obtain h | h := abortDevice_from s cause pin warp quiet
  · rw [h]
  · rw [h.tb, (called_same s cause).1]

theorem abortDevice_out (s : State) (cause : Nat) (pin warp quiet : Bool) :
    s.out <+: (s.abortDevice cause pin warp quiet).out := by
  obtain h | h := abortDevice_from s cause pin warp quiet
  · rw [h]
  · rw [← (called_same s cause).2.1]
    exact h.out

theorem abortDevice_pin (s : State) (cause : Nat) (pin warp quiet : Bool) :
    (s.abortDevice cause pin warp quiet).dev.abortNLow = s.dev.abortNLow := by
  obtain h | h := abortDevice_from s cause pin warp quiet
  · rw [h]
  · rw [h.pin, (called_same s cause).2.2]

theorem abortDevice_rd (s : State) (cause : Nat) (pin warp quiet : Bool) (o : Obj) (u k : Nat)
    (hfault : o.key u k ≠ Obj.devFaultCause.key) (hk : ¬ abortKey (o.key u k)) (he : ¬ eventKey (o.key u k)) :
    (s.abortDevice cause pin warp quiet).rd o u k = s.rd o u k := by
  obtain h | h := abortDevice_from s cause pin warp quiet
  · rw [h]
  · rw [spares_rd h o u k hk he, called_rd s cause o u k hfault]

theorem abortDevice_faultCause (s : State) (cause : Nat) (pin warp quiet : Bool) (h : Abortable s) (hc : cause < 2 ^ 64) :
    (s.abortDevice cause pin warp quiet).rd .devFaultCause = cause := by
  obtain ⟨halive, hfault, hidle⟩ := h
  rw [spares_rd (spares_abortDevice s cause pin warp quiet halive hidle) _ _ _ faultCause_not_abortKey faultCause_not_eventKey,
    called_faultCause s cause hfault hc]

/-- Where the abort of the device leaves a site that runs or is paused, with the enables of its ports. -/
theorem abortDevice_phase (s : State) (cause : Nat) (pin warp quiet : Bool) (h : Abortable s) (i : Nat) (hi : i < 12)
    (hst : s.siteSt i = .running ∨ s.siteSt i = .paused) :
    (s.abortDevice cause pin warp quiet).siteSt i = .aborting ∧
      ((s.abortDevice cause pin warp quiet).site i).abort.map (fun r => (r.cause, r.pin)) = some (cause, pin) ∧
      ∀ p ∈ s.portsOf i, ((s.abortDevice cause pin warp quiet).enables p).none = true := by
  obtain ⟨u, a, rfl, rfl, hu, hphase, hrest, hend⟩ := abortDevice_at s cause pin warp quiet h.1 h.2.2 i hi
  have hst' : u.siteSt i = .running ∨ u.siteSt i = .paused := by
    rwa [show u.siteSt i = s.siteSt i from congrArg Prod.fst hphase]
  obtain ⟨haborting, hrec⟩ := abortFormed_phase u i a hst'
  refine ⟨(congrArg Prod.fst hend).trans haborting,
    (congrArg (fun x => x.2.map (fun r => (r.cause, r.pin))) hend).trans hrec, fun p hp => hrest.off p ?_⟩
  refine abortFormed_off u i a hst' p ?_
  have hne : Obj.siteBundles.key i ≠ Obj.devFaultCause.key := by
    have hkey : Obj.siteBundles.key i = (0x2A00 + 0x10 * i + 1) * 256 + 0 := rfl
    have hdev : Obj.devFaultCause.key < 0x2A00 * 256 := by decide
    omega
  rwa [State.portsOf, spares_bundlesOf hu i hi, State.bundlesOf, called_rd _ _ _ _ _ hne]

theorem abortDevice_ready (s : State) (cause : Nat) (pin warp quiet : Bool) (h : Abortable s) (i : Nat) (hi : i < 12)
    (hst : s.siteSt i = .ready) : (s.abortDevice cause pin warp quiet).siteSt i = .ready := by
  obtain ⟨u, a, -, -, -, hphase, -, hend⟩ := abortDevice_at s cause pin warp quiet h.1 h.2.2 i hi
  exact (congrArg Prod.fst hend).trans (abortFormed_ready u i a ((congrArg Prod.fst hphase).trans hst))

/-! ### The end of a command that aborts -/

theorem announce_abortable (s : State) (type group time : Nat) (h : Abortable s) : Abortable (s.announce type group time) := by
  obtain ⟨halive, hfault, hidle⟩ := h
  exact ⟨by rw [announce_alive, halive], by rw [announce_dev, hfault], by rw [announce_dev, hidle]⟩

/-- A command begins with no message to send. -/
theorem keeps_emptied {l : List Part} {s t : State} (h : Keeps l { s with out := [] } t) : Keeps l s t :=
  Keeps_trans _ _ _ _ (Keeps_mono _ _ _ _ (setOut_keeps s []) (by simp)) h

theorem ended_effect_keeps {l : List Part} {s t : State} (h : Keeps l { s with out := [] } t) : Keeps l s (s.keepFixed t.deliver) :=
  ended_keeps _ _ _ (keeps_emptied h)

theorem ended_rd (s t : State) (o : Obj) (u k : Nat) (he : ¬ eventKey (o.key u k)) :
    (s.keepFixed t.deliver).rd o u k = t.rd o u k := deliver_rd t o u k he
theorem ended_out (s t : State) : t.out <+: (s.keepFixed t.deliver).out := deliver_prefix t
theorem ended_off (s t : State) (p : Nat) (h : (t.enables p).none = true) : ((s.keepFixed t.deliver).enables p).none = true :=
  (spares_deliver t).off p h

end Sys2Proof.Laws
end

section
/-! PROOF. A low ABORT_N (O25). -/
namespace Sys2Proof.Proofs
open Sys2Proof.Machine Sys2Proof.Safety Sys2Proof.Laws

/-- ABORT_PIN is reported, and a master tells the tree (R87, R97). -/
def pinReported (s : State) : State :=
  let t := s.raise 0x0401
  if t.role == 1 && t.dev.aborting.isNone then t.announce 4 0 t.time else t

theorem pinAbort_eq (s : State) : pinAbort s = (pinReported s).abortDevice 0x0401 true false ((pinReported s).role == 1) := rfl

theorem spares_pinReported (s : State) : Spares abortParts s (pinReported s) := by
  unfold pinReported
  extract_lets t
  have ht : Spares abortParts s t := spares_raise _ _ _ _ _ _ _ _
  split
  · exact spares_trans ht (spares_announce _ _ _ _)
  · exact ht

theorem pinReported_standing (s : State) : (pinReported s).standing = s.standing := by simp [pinReported]

theorem pinReported_abortable (s : State) (h : Abortable s) : Abortable (pinReported s) := by
  unfold pinReported
  extract_lets t
  have ht : Abortable t := h
  split
  · exact announce_abortable _ _ _ _ ht
  · exact ht

/-- The device records the low line. -/
def lowSeen (s : State) : State := { s with dev := { s.dev with abortNLow := true } }

/-- What an abort at ABORT_N leaves. -/
theorem pinAbort_effects (s : State) (h : Abortable s) :
    (pinAbort s).rd .devFaultCause = 0x0401 ∧
      (∀ i, i < 12 → s.siteSt i = .running ∨ s.siteSt i = .paused →
        (pinAbort s).siteSt i = .aborting ∧ ((pinAbort s).site i).abort.map (fun r => (r.cause, r.pin)) = some (0x0401, true) ∧
          ∀ p ∈ s.portsOf i, ((pinAbort s).enables p).none = true) ∧
      (∀ i, i < 12 → s.siteSt i = .ready → (pinAbort s).siteSt i = .ready) := by
  have hab := pinReported_abortable s h
  have hsite (i : Nat) : (pinReported s).siteSt i = s.siteSt i :=
    congrArg Prod.fst (standing_phase _ _ (pinReported_standing s) i)
  rw [pinAbort_eq]
  refine ⟨abortDevice_faultCause _ _ _ _ _ hab (by decide), fun i hi hst => ?_,
    fun i hi hst => abortDevice_ready _ _ _ _ _ hab i hi (by rwa [hsite i])⟩
  obtain ⟨haborting, hrec, hoff⟩ := abortDevice_phase _ 0x0401 true false ((pinReported s).role == 1) hab i hi (by rwa [hsite i])
  refine ⟨haborting, hrec, fun p hp => hoff p ?_⟩
  rwa [State.portsOf, spares_bundlesOf (spares_pinReported s) i hi]

theorem pinAbort_low (s : State) : (pinAbort s).dev.abortNLow = s.dev.abortNLow := by
  rw [pinAbort_eq, abortDevice_pin, (spares_pinReported s).pin]

/-- A line that was high and is seen low is recorded, and aborts where the main die runs. -/
theorem onlyIf_pinAbort_low (s : State) : ((lowSeen s).onlyIf (lowSeen s).alive pinAbort).dev.abortNLow = true := by
  unfold State.onlyIf
  split
  · exact pinAbort_low (lowSeen s)
  · rfl

theorem free_keeps (s : State) (n : Nat) : Keeps [.free] s (s.free n).2 :=
  ⟨rfl, rfl, fun p hp => by cases p <;> simp_all [Part.same, State.free]⟩

/-- A low time that may act or not: a free value decides, and a line that is low already changes nothing (R87; log 96). -/
theorem abortN_between (lowNs : Nat) (s : State) (hmin : 5 ≤ lowNs) (hmax : lowNs < 20) :
    Keeps [.free] s (abortN lowNs s) ∨ (abortN lowNs s).dev.abortNLow = true := by
  unfold abortN
  rw [if_neg (by omega), if_pos hmax]
  dsimp only
  cases (s.free 1).1 == 1 && !(s.free 1).2.dev.abortNLow with
  | false => exact .inl (free_keeps s 1)
  | true => exact .inr (onlyIf_pinAbort_low (s.free 1).2)

/-- A low time of 20 ns or more at a line that was high aborts. -/
theorem abortN_acts (lowNs : Nat) (s : State) (hlong : 20 ≤ lowNs) (hhigh : s.dev.abortNLow = false)
    (halive : (lowSeen s).alive = true) : abortN lowNs s = pinAbort (lowSeen s) := by
  unfold abortN
  rw [if_neg (by omega), if_neg (by omega)]
  dsimp only
  rw [onlyIf_pos _ _ _ (by simp [hhigh])]
  exact onlyIf_pos (lowSeen s) _ _ halive

/-- Settles O25, by the time that ABORT_N is low. -/
theorem abortLine : Obligations.AbortLine := by
  unfold Obligations.AbortLine
  refine fun lowNs s => ⟨fun hlong hhigh halive hfault hidle => ?_, fun hshort => ?_, fun hmin hmax => ?_, ?_⟩
  · set low := lowSeen { s with out := [] }
    have hab : Abortable low := ⟨halive, hfault, hidle⟩
    have heq : abortN lowNs { s with out := [] } = pinAbort low := abortN_acts _ _ hlong hhigh halive
    obtain ⟨hcause, haborts, hready⟩ := pinAbort_effects low hab
    refine ⟨_, run_next (abortN lowNs) s _ heq, ?_, ?_, fun i hi hst => ?_, fun i hi hst p hp => ?_, fun i hi hst => ?_, ?_⟩
    · rw [keepFixed_dev, deliver_dev]
      exact pinAbort_low low
    · rw [ended_rd _ _ _ _ _ faultCause_not_eventKey, hcause]
    · obtain ⟨haborting, hrec, -⟩ := haborts i hi hst
      exact ⟨by simpa using haborting, by simpa using hrec⟩
    · exact ended_off s _ p ((haborts i hi (.inl hst)).2.2 p hp)
    · simpa using hready i hi hst
    · exact ended_mem s _ (by simp [pinAbort, low, lowSeen])
  · exact ⟨_, run_next (abortN lowNs) s { s with out := [] } (if_pos hshort), ended_effect_keeps (Keeps_refl _ _)⟩
  · refine ⟨_, run_next (abortN lowNs) s _ rfl, ?_⟩
    obtain h | h := abortN_between lowNs { s with out := [] } hmin hmax
    · exact .inl (ended_effect_keeps h)
    · exact .inr (by rw [keepFixed_dev, deliver_dev, h])
  · refine ⟨_, rfl, ended_keeps _ _ _ (devOut_keeps _ _ _), ?_⟩
    rw [keepFixed_dev, deliver_dev]

end Sys2Proof.Proofs
end

section
/-! The statement about the Flush phase and the faults is refuted at a TIME that the register of an abort time does not
hold. -/
namespace Sys2Proof.Proofs
open Sys2Proof.Machine Sys2Proof.Safety Sys2Proof.Laws

/-- A scalar object reads as a word of 64 bits. -/
theorem rd_lt (s : State) (o : Obj) (u k : Nat) : s.rd o u k < 2 ^ 64 := (s.reg o u k).isLt

/-- The reset state at the first TIME beyond 64 bits. -/
def lateReset : State := { State.reset with time := 2 ^ 64 }

/-- Refutes O26: its last clause equates BND_ABORT_TIME, which reads 64 bits, with TIME, which the statement leaves unbounded.
At the reset state with TIME = 2^64 a fault of bundle 0, which no site holds, writes an abort time below TIME. -/
theorem not_flushAndFaults : ¬ Obligations.FlushAndFaults := by
  unfold Obligations.FlushAndFaults
  rintro ⟨-, hfaults⟩
  have halive : lateReset.alive = true := by decide
  obtain ⟨-, hbundle⟩ := hfaults lateReset halive
  obtain ⟨t, -, -, -, -, -, hfree⟩ := hbundle 0 false (by decide) (by decide)
  obtain ⟨-, htime⟩ := hfree (by decide)
  exact absurd (rd_lt t .bndAbortTime _ _) (by rw [htime]; decide)

end Sys2Proof.Proofs
end

section
/-! Wipes of the configuration, the frame sentinel, and the key RAM's battery (R78, R79, R435, R439 to R442, R525). -/
namespace Sys2Proof.Laws
open Sys2Proof.Machine Sys2Proof.Safety

theorem region_setRegion (s : State) (q r q' r' : Nat) (f : Region → Region) :
    (s.setRegion q r f).region q' r' = if q' = q ∧ r' = r then f (s.region q r) else s.region q' r' := by
  simp only [State.region, State.setRegion, quad_setQuad]
  by_cases hq : q' = q
  · subst hq
    by_cases hr : r' = r <;> simp [hr]
  · simp [hq]

/-- What one operation of a list brings about and every operation keeps holds in the end. -/
theorem each_reaches (P : State → Prop) (l : List Nat) (f : Nat → State → State) (k : Nat) (hk : k ∈ l)
    (hat : ∀ t, P (f k t)) (hkeep : ∀ j t, P t → P (f j t)) (s : State) : P (s.each l f) := by
  induction l generalizing s with
  | nil => exact absurd hk List.not_mem_nil
  | cons j l ih =>
    rw [each_cons]
    obtain rfl | hk := List.mem_cons.mp hk
    · exact each_keeps P l f (fun j t _ => hkeep j t) _ (hat s)
    · exact ih hk _

/-- A counter of at most 8 bytes stops at its largest value. -/
theorem rd_bump (s : State) (o : Obj) (u k n : Nat) (h : o.row.size ≤ 8) :
    (s.bump o u k n).rd o u k = min (s.rd o u k + n) (2 ^ (8 * o.row.size) - 1) := by
  have hpos : 0 < 2 ^ (8 * o.row.size) := Nat.two_pow_pos _
  have hle : 2 ^ (8 * o.row.size) ≤ 2 ^ 64 := Nat.pow_le_pow_right (by decide) (by omega)
  exact (rd_wr_same _ _ _ _ _).trans (Nat.mod_eq_of_lt (by omega))

theorem cfgPart_keeps (s : State) (c : Loader) : Keeps [.cfg] s { s with cfg := c } :=
  ⟨rfl, rfl, fun p hp => by cases p <;> simp_all [Part.same]⟩

theorem complete_services (s : State) (w : Waits) (st : Status) :
    (s.complete w st).ctl.services = s.ctl.services.filter (fun o => o.waits != w) :=
  congrArg (·.services) ((answers_keep _ st { s with ctl := { s.ctl with services := s.ctl.services.filter (fun o => o.waits != w) } }).2.2
    .ctl (by simp [answerParts]))

/-- The open services are those of the state that a command reaches. -/
theorem ended_services (s t : State) : (s.keepFixed t.deliver).ctl.services = t.ctl.services :=
  congrArg (·.services) ((ended_keeps [] t t (Keeps_refl _ _)).2.2 .ctl (by simp))

/-- The frames by which the sentinel tells the regions and the sites are no part of what an abort changes. -/
theorem spares_frameHits {s t : State} (h : Spares abortParts s t) (a i : Nat) (hi : i < 12) (hst : t.siteSt i = s.siteSt i) :
    t.frameHits a i = s.frameHits a i := by
  have hcfg : t.cfg = s.cfg := h.keeps.2.2 .cfg (by decide)
  simp only [State.frameHits, State.regionUsed, State.regionFeeds, State.designByte, hst, spares_bundlesOf h i hi, hcfg]

end Sys2Proof.Laws

namespace Sys2Proof.Proofs
open Sys2Proof.Machine Sys2Proof.Safety Sys2Proof.Laws

/-! ### Wipes -/

/-- Every region as a configuration wipe leaves it. -/
def regionsWiped (s : State) : State := s.each (upto 16) (fun k s => s.setRegion (k / 4) (k % 4) (fun _ => {}))

/-- The frames of every region as a configuration wipe leaves them, with the time that it took. -/
def framesWiped (s : State) : State :=
  ({ s with dev := { s.dev with wiping := false }, cfg := { s.cfg with frames := [] } } : State).wr
    .devCfgWipeTime (s.microsSince s.dev.wipeSince)

theorem regionsWiped_keeps (s : State) : Keeps [.quads] s (regionsWiped s) :=
  each_keeps_of _ _ _ _ (fun _ _ => setRegion_keeps _ _ _ _)

theorem regionsWiped_empty (s : State) (q r : Nat) (hq : q < 4) (hr : r < 4) : ((regionsWiped s).region q r).st = .empty := by
  refine each_reaches (fun t => (t.region q r).st = .empty) _ _ (4 * q + r) (by rw [mem_upto]; omega) (fun t => ?_)
    (fun j t ht => ?_) s <;>
    rw [region_setRegion]
  · rw [if_pos ⟨by omega, by omega⟩]
  · split
    · rfl
    · exact ht

theorem framesWiped_keeps (s : State) : Keeps [.regs, .dev, .cfg] s (framesWiped s) :=
  keeps_then [.dev, .cfg] [.regs] _ _ _ _ (devCfg_keeps _ _ _) (wr_keeps _ _ _ _ _) (by decide) (by decide)

theorem framesWiped_effects (s : State) : (framesWiped s).dev.wiping = false ∧ (framesWiped s).cfg.frames = [] ∧
    (framesWiped s).rd .devCfgWipeTime = s.microsSince s.dev.wipeSince % 2 ^ 64 ∧
    ∀ key (d : Word), key ≠ Obj.devCfgWipeTime.key →
      Store.get d key (framesWiped s).dict.regs = Store.get d key s.dict.regs :=
  ⟨rfl, rfl, rd_wr_same _ _ _ _ _, fun _ _ h => get_setReg _ _ _ _ _ _ _ h⟩

theorem configWipeComplete_eq (s : State) (h : s.dev.wiping = true) :
    configWipeComplete s = (framesWiped (regionsWiped s)).complete .unload .ok := by
  rw [configWipeComplete, onlyIf_pos _ _ _ h]
  extract_lets w
  change _ = (framesWiped w).complete .unload .ok
  clear_value w
  rfl

theorem wipeTime_not_eventKey : ¬ eventKey Obj.devCfgWipeTime.key := not_eventKey _ (by decide) (by decide)

/-- The end of a wipe of the configuration (R79, R435, R439). -/
theorem wipe_ends (s : State) (h : s.dev.wiping = true) :
    ∃ t, exec (.configWipeComplete ()) s = .next t ∧ t.dev.wiping = false ∧ t.cfg.frames = [] ∧
      t.rd .devCfgWipeTime = s.microsSince s.dev.wipeSince % 2 ^ 64 ∧ (∀ q r, q < 4 → r < 4 → (t.region q r).st = .empty) ∧
      t.ctl.services = s.ctl.services.filter (fun o => o.waits != .unload) ∧ RegsBut [Obj.devCfgWipeTime.key] s t ∧
      Keeps [.regs, .dev, .quads, .cfg, .ctl, .replies, .slots] s t := by
  obtain ⟨w, hw⟩ : ∃ w, w = regionsWiped { s with out := [] } := ⟨_, rfl⟩
  have heq : configWipeComplete { s with out := [] } = (framesWiped w).complete .unload .ok := by
    rw [hw]
    exact configWipeComplete_eq _ h
  have hwiped : Keeps [.quads] s w := hw ▸ keeps_emptied (regionsWiped_keeps _)
  have hempty : ∀ q r, q < 4 → r < 4 → (w.region q r).st = .empty := hw ▸ regionsWiped_empty _
  clear hw
  obtain ⟨hwiping, hframes, htime, hregs⟩ := framesWiped_effects w
  have hc := complete_keeps (framesWiped w) .unload .ok
  have hrest := hc.2.2 .regs (by decide)
  refine ⟨_, run_next configWipeComplete s _ heq, ?_, ?_, ?_, fun q r hq hr => ?_, ?_, fun key d hkey he => ?_, ?_⟩
  · rw [keepFixed_dev, deliver_dev, hc.2.2 .dev (by decide), hwiping]
  · rw [keepFixed_cfg, deliver_cfg, hc.2.2 .cfg (by decide), hframes]
  · rw [ended_rd _ _ _ _ _ wipeTime_not_eventKey, rd_of_regs _ _ _ _ _ (hrest _ _ wipeTime_not_eventKey), htime,
      State.microsSince, keeps_elapsed _ _ _ hwiped (by decide), hwiped.2.2 .dev (by decide), State.microsSince]
  · have hquads : ((framesWiped w).complete .unload .ok).quads = w.quads := hc.2.2 .quads (by decide)
    have hquad : ((framesWiped w).complete .unload .ok).quad q = w.quad q := by rw [State.quad, hquads, State.quad]
    rw [State.region, keepFixed_quad, deliver_quad, hquad]
    exact hempty q r hq hr
  · have hctl : (framesWiped w).ctl.services = s.ctl.services := congrArg (·.services) (hwiped.2.2 .ctl (by decide))
    rw [ended_services, complete_services, hctl]
  · refine (deliver_get _ key d he).trans ((hrest key d he).trans ((hregs key d (by simpa using hkey)).trans ?_))
    exact hwiped.2.2 .regs (by decide) key d he
  · exact ended_keeps _ _ _ (keeps_then [.quads] _ _ _ _ _ hwiped
      (keeps_then _ _ [.regs, .dev, .cfg, .ctl, .replies, .slots] _ _ _ (framesWiped_keeps w) hc (by decide) (by decide))
      (by decide) (by decide))

/-- A region whose load failed, once its wipe has ended. -/
def regionBlank (q : QuadNo) (r : Fin 4) (s : State) : State :=
  { s.setRegion q.val r.val (fun g => { g with st := .empty }) with
    cfg := { s.cfg with
      frames := s.cfg.frames.filter (fun e => frameRegion e.1 != some (q.val, r.val)), rewipe := s.cfg.rewipe.filter (· != (q, r)) } }

theorem prFailWipeDone_eq (q : QuadNo) (r : Fin 4) (s : State) (h : s.cfg.rewipe.contains (q, r) = true) :
    prFailWipeDone q r s = regionBlank q r s := onlyIf_pos _ _ _ h

theorem regionBlank_keeps (q : QuadNo) (r : Fin 4) (s : State) : Keeps [.quads, .cfg] s (regionBlank q r s) :=
  keeps_then [.quads] [.cfg] _ _ _ _ (setRegion_keeps _ _ _ _) (cfgPart_keeps _ _) (by decide) (by decide)

theorem regionBlank_region (q : QuadNo) (r : Fin 4) (s : State) : ((regionBlank q r s).region q r).st = .empty := by
  have h := region_setRegion s q r q r (fun g => { g with st := .empty })
  rw [if_pos ⟨rfl, rfl⟩] at h
  exact congrArg Region.st h

theorem regionBlank_quad (q : QuadNo) (r : Fin 4) (s : State) (p : Nat) (hp : p ≠ q) : (regionBlank q r s).quad p = s.quad p := by
  have h : (s.setRegion q r (fun g => { g with st := .empty })).quad p = s.quad p := (quad_setQuad _ _ _ _).trans (if_neg hp)
  exact h

/-- The end of the wipe of a failed region (R78, R435). -/
theorem failedWipe_ends (s : State) (q : QuadNo) (r : Fin 4) (h : s.cfg.rewipe.contains (q, r) = true) :
    ∃ t, exec (.prFailWipeDone q r) s = .next t ∧ (t.region q r).st = .empty ∧
      t.cfg.frames.all (fun e => frameRegion e.1 != some (q.val, r.val)) = true ∧
      t.cfg.rewipe.contains (q, r) = false ∧ OnlyQuad q [.cfg] s t := by
  refine ⟨_, run_next (prFailWipeDone q r) s _ (prFailWipeDone_eq q r _ h), ?_, ?_, ?_, fun p hp => ?_,
    ended_effect_keeps (regionBlank_keeps q r _)⟩
  · rw [State.region, keepFixed_quad, deliver_quad, ← State.region]
    exact regionBlank_region q r _
  · simp [regionBlank]
  · simp [regionBlank]
  · rw [keepFixed_quad, deliver_quad]
    exact regionBlank_quad q r _ p hp

/-! ### The frame sentinel -/

/-- A mismatch that the sentinel has counted, recorded and reported (R441). -/
def mismatchSeen (a : Nat) (s : State) : State :=
  ((s.bump .devSentMismatches).wr .devSentLastMismatch a).raise 0x1C02 4 (frameQuad a) a

/-- A site that uses what the frame configures is aborted (R442). -/
def abortHit (a i : Nat) (s : State) : State := if s.frameHits a i then s.abortSite i 0x1C02 false else s

theorem frameMismatch_eq (a : Nat) (s : State) (h : s.sentinelReads a = true) :
    frameMismatch a s = if (mismatchSeen a s).rd .devSentAction == 1 then (mismatchSeen a s).each (upto 12) (abortHit a)
      else mismatchSeen a s := onlyIf_pos _ _ _ h

theorem spares_abortHit (a i : Nat) (s : State) : Spares abortParts s (abortHit a i s) := by
  unfold abortHit
  split
  · exact spares_abortSite _ _ _ _ _
  · exact spares_refl _ _

theorem abortHit_moves (a i : Nat) (s : State) : Moves [i] s (abortHit a i s) := by
  unfold abortHit
  split
  · exact abortSite_moves _ _ _ _ _
  · exact moves_of_standing _ _ _ rfl

/-- A running site that the frame concerns is aborted. -/
theorem abortHits_abort (a i : Nat) (s : State) (hi : i < 12) (hhit : s.frameHits a i = true) (hst : s.siteSt i = .running) :
    AbortsWith i 0x1C02 (s.each (upto 12) (abortHit a)) := by
  obtain ⟨u, hu, hphase, -, hend⟩ :=
    each_at _ (nodup_upto 12) (abortHit a) (spares_abortHit a) (abortHit_moves a) s i ((mem_upto i 12).mpr hi)
  have hsite : u.siteSt i = s.siteSt i := congrArg Prod.fst hphase
  have hrun := abortSite_running u i 0x1C02 false none (hsite.trans hst)
  rw [abortsWith_iff_phase, hend, abortHit, if_pos (by rw [spares_frameHits hu a i hi hsite, hhit])]
  exact (abortsWith_iff_phase _ _ _).mp hrun

theorem mismatchSeen_keeps (a : Nat) (s : State) : Keeps [.regs] s (mismatchSeen a s) :=
  keeps_then [.regs] [] _ _ _ _ (Keeps_trans _ _ _ _ (wr_keeps _ _ _ _ _) (wr_keeps _ _ _ _ _)) (raise_keeps _ _ _ _ _ _ _ _)
    (by decide) (by decide)

theorem mismatchSeen_rd (a : Nat) (s : State) (o : Obj) (u k : Nat)
    (h : o.key u k ≠ Obj.devSentMismatches.key ∧ o.key u k ≠ Obj.devSentLastMismatch.key) :
    (mismatchSeen a s).rd o u k = s.rd o u k :=
  (rd_wr_ne _ _ _ _ _ _ _ _ h.2).trans (rd_wr_ne _ _ _ _ _ _ _ _ h.1)

theorem mismatchSeen_counts (a : Nat) (s : State) (ha : a < 2 ^ 20) :
    (mismatchSeen a s).rd .devSentLastMismatch = a ∧
      (mismatchSeen a s).rd .devSentMismatches = min (s.rd .devSentMismatches + 1) 0xFFFFFFFF := by
  have hcount := rd_bump s .devSentMismatches 0 0 1 (by decide)
  exact ⟨(rd_wr_same _ _ _ _ _).trans (Nat.mod_eq_of_lt (by omega)),
    (rd_wr_ne _ .devSentLastMismatch .devSentMismatches _ _ _ _ _ (by decide)).trans hcount⟩

theorem mismatchSeen_frameHits (a i : Nat) (s : State) (hi : i < 12) (b : Nat) :
    (mismatchSeen a s).frameHits b i = s.frameHits b i := by
  have hbundles : (mismatchSeen a s).bundlesOf i = s.bundlesOf i := by
    rw [State.bundlesOf, mismatchSeen_rd _ _ _ _ _ (by revert i; decide), State.bundlesOf]
  unfold State.frameHits State.regionUsed
  rw [hbundles]
  rfl

theorem sentLast_not_eventKey : ¬ eventKey Obj.devSentLastMismatch.key := not_eventKey _ (by decide) (by decide)
theorem sentCount_not_eventKey : ¬ eventKey Obj.devSentMismatches.key := not_eventKey _ (by decide) (by decide)
theorem sentLast_not_abortKey : ¬ abortKey Obj.devSentLastMismatch.key := not_abortKey _ (by decide) (by decide) (.inl (by decide))
theorem sentCount_not_abortKey : ¬ abortKey Obj.devSentMismatches.key := not_abortKey _ (by decide) (by decide) (.inl (by decide))

/-- A mismatch that the sentinel may read is counted and recorded, and aborts the running sites it concerns where
DEV_SENT_ACTION is 1 (R440 to R442). -/
theorem sentinel_mismatch (s : State) (frame : BitVec 20) (h : s.sentinelReads frame.toNat = true) :
    ∃ t, exec (.cfgFrameMismatch frame) s = .next t ∧ t.rd .devSentLastMismatch = frame.toNat ∧
      t.rd .devSentMismatches = min (s.rd .devSentMismatches + 1) 0xFFFFFFFF ∧ t.mem = s.mem ∧
      (s.rd .devSentAction ≠ 1 → Keeps [.regs] s t) ∧
      (∀ i, i < 12 → s.rd .devSentAction = 1 → s.frameHits frame.toNat i = true → s.siteSt i = .running →
        AbortsWith i 0x1C02 t) := by
  obtain ⟨u, hu⟩ : ∃ u, u = mismatchSeen frame.toNat { s with out := [] } := ⟨_, rfl⟩
  have hcounts := hu ▸ mismatchSeen_counts frame.toNat { s with out := [] } frame.isLt
  have haction : u.rd .devSentAction = s.rd .devSentAction :=
    hu ▸ mismatchSeen_rd frame.toNat { s with out := [] } .devSentAction 0 0 (by decide)
  have hkeeps : Keeps [.regs] s u := hu ▸ keeps_emptied (mismatchSeen_keeps _ _)
  have hhits (i : Nat) (hi : i < 12) : u.frameHits frame.toNat i = s.frameHits frame.toNat i :=
    hu ▸ mismatchSeen_frameHits frame.toNat i { s with out := [] } hi _
  have heq := hu ▸ frameMismatch_eq frame.toNat { s with out := [] } h
  have hmem := frameMismatch_memory frame.toNat { s with out := [] }
  have hsites : u.sites = s.sites := hkeeps.2.2 .sites (by decide)
  clear hu
  have hspares : Spares abortParts u (frameMismatch frame.toNat { s with out := [] }) := by
    rw [heq]
    split
    · exact spares_each _ _ _ (spares_abortHit _)
    · exact spares_refl _ _
  refine ⟨_, run_next (frameMismatch frame.toNat) s _ rfl, ?_, ?_, ended_mem _ _ hmem, fun hact => ?_, fun i hi hact hhit hst => ?_⟩
  · rw [ended_rd _ _ _ _ _ sentLast_not_eventKey, spares_rd hspares _ _ _ sentLast_not_abortKey sentLast_not_eventKey, hcounts.1]
  · rw [ended_rd _ _ _ _ _ sentCount_not_eventKey, spares_rd hspares _ _ _ sentCount_not_abortKey sentCount_not_eventKey, hcounts.2]
    rfl
  · rw [heq, haction, if_neg (by simpa using hact)]
    exact ended_keeps _ _ _ hkeeps
  · have habort := abortHits_abort frame.toNat i u hi (by rw [hhits i hi, hhit]) (by rw [State.siteSt, State.site, hsites]; exact hst)
    rw [heq, haction, if_pos (by simpa using hact)]
    simpa [AbortsWith] using habort

/-! ### The vote and the battery -/

/-- An outvoted disagreement, counted, with the scan begun anew (R440, R441). -/
def outvoted (s : State) : State :=
  (({ s with cfg := { s.cfg with passes := s.sentPasses, scanFrom := s.time } } : State).bump .devSentVoteUpsets).raise 0x1C03

theorem outvoted_keeps (s : State) : Keeps [.regs, .cfg] s (outvoted s) :=
  keeps_then [.cfg] [.regs] _ _ _ _ (cfgPart_keeps _ _)
    (keeps_then [.regs] [] _ _ _ _ (wr_keeps _ _ _ _ _) (raise_keeps _ _ _ _ _ _ _ _) (by decide) (by decide)) (by decide) (by decide)

theorem sentinel_votes (s : State) (h : s.scans = true) :
    ∃ t, exec .cfgSentinelVote s = .next t ∧
      t.rd .devSentVoteUpsets = min (s.rd .devSentVoteUpsets + 1) 0xFFFFFFFF ∧ RegsBut [Obj.devSentVoteUpsets.key] s t ∧
      t.cfg = { s.cfg with passes := s.sentPasses, scanFrom := s.time } ∧ Keeps [.regs, .cfg] s t := by
  have heq : (fun s => s.onlyIf s.scans outvoted) { s with out := [] } = outvoted { s with out := [] } := onlyIf_pos _ _ _ h
  refine ⟨_, run_next (fun s => s.onlyIf s.scans outvoted) s _ heq, ?_, fun key d hkey he => ?_, ?_,
    ended_effect_keeps (outvoted_keeps _)⟩
  · rw [ended_rd _ _ _ _ _ (not_eventKey _ (by decide) (by decide))]
    exact rd_bump _ .devSentVoteUpsets 0 0 1 (by decide)
  · exact (deliver_get _ key d he).trans (get_setReg _ _ _ _ _ _ _ (by simpa using hkey))
  · rw [keepFixed_cfg, deliver_cfg]
    rfl

/-- A battery below 1.0 V clears the key RAM (R525). -/
theorem vbat_low (s : State) (mv : BitVec 16) : ∃ t, exec (.vbatLow mv) s = .next t ∧ Keeps [.cfg] s t ∧
    t.cfg = { s.cfg with keyRam := if mv.toNat < 1000 then none else s.cfg.keyRam } := by
  set vbat : State → State := fun s => s.onlyIf (decide (mv.toNat < 1000)) keyClearEffect
  by_cases hmv : mv.toNat < 1000
  · refine ⟨_, run_next vbat s _ (onlyIf_pos _ _ _ (decide_eq_true hmv)), ended_effect_keeps
      (cfgPart_keeps _ _), ?_⟩
    rw [if_pos hmv, keepFixed_cfg, deliver_cfg]
    rfl
  · refine ⟨_, run_next vbat s _ (onlyIf_neg _ _ _ (decide_eq_false hmv)), ended_effect_keeps
      (Keeps_refl _ _), ?_⟩
    rw [if_neg hmv, keepFixed_cfg, deliver_cfg]

/-- Settles O38, by the lemmas above on the end of a wipe, the sentinel and the battery. -/
theorem wipesAndSentinel : Obligations.WipesAndSentinel := by
  unfold Obligations.WipesAndSentinel
  exact fun s => ⟨wipe_ends s, failedWipe_ends s, sentinel_mismatch s, sentinel_votes s, vbat_low s⟩

end Sys2Proof.Proofs
end

section
/-! The states of the time base (R98, R179 to R181, R193, R195, R200, R201, R203). -/
namespace Sys2Proof.Laws
open Sys2Proof.Machine Sys2Proof.Safety

/-! ### What a command's end leaves of the time base -/

theorem ended_tb (s t : State) : (s.keepFixed t.deliver).tb = t.tb := deliver_tb t
theorem ended_time (s t : State) : (s.keepFixed t.deliver).time = t.time := deliver_time t
theorem ended_timeRuns (s t : State) : (s.keepFixed t.deliver).timeRuns = t.timeRuns := deliver_timeRuns t
theorem ended_link (s t : State) (i : Nat) : (s.keepFixed t.deliver).link i = t.link i := by
  rw [State.link, ended_tb, State.link]

theorem ended_abortsWith (s t : State) (i c : Nat) (h : AbortsWith i c t) : AbortsWith i c (s.keepFixed t.deliver) := by
  simpa [AbortsWith] using h

theorem steady_state {x y : Timebase} (h : Timebase.steady x = Timebase.steady y) : x.state = y.state := congrArg (·.state) h
theorem steady_link {s t : State} (h : Timebase.steady t.tb = Timebase.steady s.tb) (i : Nat) : t.link i = s.link i := by
  have hlinks : t.tb.links = s.tb.links := congrArg (·.links) h
  rw [State.link, hlinks, State.link]

theorem link_setLink (s : State) (i j : Nat) (f : WarpLink → WarpLink) :
    (s.setLink i f).link j = if j = i then f (s.link i) else s.link j := Store_get_put _ _ _ _ _

theorem tb_keeps (s : State) (x : Timebase) : Keeps [.tb] s { s with tb := x } :=
  ⟨rfl, rfl, fun p hp => by cases p <;> simp_all [Part.same]⟩

/-! ### The arrival of ROOT -/

theorem setChan_keeps (s : State) (m : Nat) (f : Chan → Chan) : Keeps [.chans] s (s.setChan m f) :=
  ⟨rfl, rfl, fun p hp => by cases p <;> simp_all [Part.same]⟩

theorem rootArrives_keeps (s : State) : Keeps [.time, .tb, .chans] s s.rootArrives := by
  have hset (t : State) : Keeps [.time, .tb, .chans] t { t with tb := { t.tb with cfgOnRoot := true, synth := 2 }, timeRuns := true } :=
    ⟨rfl, rfl, fun p hp => by cases p <;> simp_all [Part.same]⟩
  unfold State.rootArrives
  split
  · exact hset s
  · exact keeps_then [.chans] _ _ _ _ _ (each_keeps_of _ _ _ _ (fun _ _ => setChan_keeps _ _ _)) (hset _) (by decide) (by decide)

theorem rootArrives_runs (s : State) : s.rootArrives.tb = { s.tb with cfgOnRoot := true, synth := 2 } ∧
    s.rootArrives.time = s.time ∧ s.rootArrives.timeRuns = true := by
  unfold State.rootArrives
  split
  · exact ⟨rfl, rfl, rfl⟩
  · next h =>
    have hk : Keeps [.chans] s (s.each ((upto 12).filter (fun c => (s.quad (c / 3)).power == .on))
        (fun c s => s.setChan c (fun _ => { st := .init, initSince := s.elapsed }))) :=
      each_keeps_of _ _ _ _ (fun _ _ => setChan_keeps _ _ _)
    refine ⟨?_, (hk.2.2 .time (by decide)).1, rfl⟩
    dsimp only
    rw [hk.2.2 .tb (by decide)]

end Sys2Proof.Laws

namespace Sys2Proof.Proofs
open Sys2Proof.Machine Sys2Proof.Safety Sys2Proof.Laws

/-! ### TBREF -/

/-- ROOT locked to TBREF, once it has arrived (R180, R182, R200). -/
def tbrefLocked (first : Bool) (s : State) : State :=
  ((({ s with tb := { s.tb with state := 1, started := true }, time := if first then 0 else s.time } : State).wr
    .devTbrefPresent 1).raise 0x0804 0 0 1)

theorem timebaseLocked_eq (s : State) (halive : s.alive = true) (hrole : s.role ≠ 2) (hst : s.tb.state = 0 ∨ s.tb.state = 2) :
    timebaseLocked s = tbrefLocked (!s.tb.started) s.rootArrives := by
  have hgate : (s.alive && s.role != 2 && (s.tb.state == 0 || s.tb.state == 2)) = true := by simp [halive, hrole, hst]
  exact onlyIf_pos _ _ _ hgate

theorem tbref_not_eventKey : ¬ eventKey Obj.devTbrefPresent.key := not_eventKey _ (by decide) (by decide)

theorem tbrefLocked_keeps (first : Bool) (s : State) : Keeps [.time, .regs, .tb] s (tbrefLocked first s) := by
  have hset : Keeps [.time, .tb] s { s with tb := { s.tb with state := 1, started := true }, time := if first then 0 else s.time } :=
    ⟨rfl, rfl, fun p hp => by cases p <;> simp_all [Part.same]⟩
  exact keeps_then [.time, .tb] [.regs] _ _ _ _ hset
    (keeps_then [.regs] [] _ _ _ _ (wr_keeps _ _ _ _ _) (raise_keeps _ _ _ _ _ _ _ _) (by decide) (by decide)) (by decide) (by decide)

/-- Lock of a device that is no follower. -/
theorem root_locks (s : State) (halive : s.alive = true) (hrole : s.role ≠ 2) (hst : s.tb.state = 0 ∨ s.tb.state = 2) :
    ∃ t, exec .timebaseLocked s = .next t ∧ t.tb.state = 1 ∧ t.tb.started = true ∧ t.timeRuns = true ∧
      t.tb.cfgOnRoot = true ∧ t.time = (if s.tb.started then s.time else 0) ∧ t.rd .devTbrefPresent = 1 ∧
      RegsBut [Obj.devTbrefPresent.key] s t ∧ Keeps [.time, .regs, .tb, .chans] s t := by
  obtain ⟨r, hr⟩ : ∃ r, r = ({ s with out := [] } : State).rootArrives := ⟨_, rfl⟩
  have heq : timebaseLocked { s with out := [] } = tbrefLocked (!s.tb.started) r := by
    rw [hr]
    exact timebaseLocked_eq _ halive hrole hst
  obtain ⟨htb, htime, hruns⟩ := hr ▸ rootArrives_runs { s with out := [] }
  have hkeeps := hr ▸ rootArrives_keeps { s with out := [] }
  clear hr
  refine ⟨_, run_next timebaseLocked s _ heq, ?_, ?_, ?_, ?_, ?_, ?_, fun key d hkey he => ?_, ?_⟩
  · rw [ended_tb]; rfl
  · rw [ended_tb]; rfl
  · rw [ended_timeRuns]; exact hruns
  · rw [ended_tb, show (tbrefLocked (!s.tb.started) r).tb = { r.tb with state := 1, started := true } from rfl, htb]
  · rw [ended_time, show (tbrefLocked (!s.tb.started) r).time = if !s.tb.started then 0 else r.time from rfl, htime]
    cases s.tb.started <;> rfl
  · rw [ended_rd _ _ _ _ _ tbref_not_eventKey]
    exact rd_wr_same _ _ _ _ _
  · exact (deliver_get _ key d he).trans ((get_setReg _ _ _ _ _ _ _ (by simpa using hkey)).trans
      (hkeeps.2.2 .regs (by decide) key d he))
  · exact ended_effect_keeps (keeps_then [.time, .tb, .chans] _ _ _ _ _ hkeeps (tbrefLocked_keeps _ _) (by decide) (by decide))

/-- The reference's return (R180, R200). -/
theorem tbref_returns (s : State) (halive : s.alive = true) (hrole : s.role ≠ 2) :
    ∃ t, exec .tbrefReturn s = .next t ∧ t.rd .devTbrefPresent = 1 ∧ RegsBut [Obj.devTbrefPresent.key] s t ∧
      Keeps [.regs] s t := by
  have hgate : (s.alive && s.role != 2) = true := by simp [halive, hrole]
  refine ⟨_, run_next (fun s => s.onlyIf (s.alive && s.role != 2) (fun s => s.wr .devTbrefPresent 1)) s _ (onlyIf_pos _ _ _ hgate), ?_,
    fun key d hkey he => ?_, ended_effect_keeps (wr_keeps _ _ _ _ _)⟩
  · rw [ended_rd _ _ _ _ _ tbref_not_eventKey]
    exact rd_wr_same _ _ _ _ _
  · exact (deliver_get _ key d he).trans (get_setReg _ _ _ _ _ _ _ (by simpa using hkey))

/-- A locked ROOT whose reference is lost (R200, R203). -/
def inHoldover (s : State) : State := ({ s with tb := { s.tb with state := 2 } } : State).countLoss.raise 0x0803

/-- The master tells its tree of an abort of the system (R97). -/
def systemTold (s : State) : State := if s.role == 1 then s.announce 4 0 s.time else s

/-- What HOLDOVER leads to (R97, R98). -/
def holdoverAborts (s : State) : State :=
  if s.rd .devHoldoverAbort == 1 then (systemTold s).abortDevice 0x0803 false false ((systemTold s).role == 1) else s

theorem tbrefLost_eq (s : State) (halive : s.alive = true) (hrole : s.role ≠ 2) :
    tbrefLost s = if s.tb.state = 1 then holdoverAborts (inHoldover (s.wr .devTbrefPresent 0)) else s.wr .devTbrefPresent 0 := by
  have hgate : (s.alive && s.role != 2) = true := by simp [halive, hrole]
  rw [tbrefLost, onlyIf_pos _ _ _ hgate]
  dsimp only
  split
  · next h => exact onlyIf_pos _ _ _ (by simp [h])
  · next h => exact onlyIf_neg _ _ _ (by simp [h])

theorem inHoldover_keeps (s : State) : Keeps [.regs, .tb] s (inHoldover s) :=
  keeps_then [.tb] [.regs] _ _ _ _ (tb_keeps s _)
    (keeps_then [.regs] [] _ _ _ _ (wr_keeps _ _ _ _ _) (raise_keeps _ _ _ _ _ _ _ _) (by decide) (by decide)) (by decide) (by decide)

theorem inHoldover_rd (s : State) (o : Obj) (u k : Nat) (h : o.key u k ≠ Obj.devSynthLossCount.key) :
    (inHoldover s).rd o u k = s.rd o u k := rd_wr_ne _ _ _ _ _ _ _ _ h

theorem inHoldover_counts (s : State) :
    (inHoldover s).rd .devSynthLossCount = min (s.rd .devSynthLossCount + 1) 0xFFFFFFFF := rd_bump _ .devSynthLossCount 0 0 1 (by decide)

theorem spares_systemTold (s : State) : Spares abortParts s (systemTold s) := by
  unfold systemTold
  split
  · exact spares_announce _ _ _ _
  · exact spares_refl _ _

theorem systemTold_standing (s : State) : (systemTold s).standing = s.standing := by
  unfold systemTold
  split <;> simp

theorem systemTold_abortable (s : State) (h : Abortable s) : Abortable (systemTold s) := by
  unfold systemTold
  split
  · exact announce_abortable _ _ _ _ h
  · exact h

theorem holdoverAborts_tb (s : State) : Timebase.steady (holdoverAborts s).tb = Timebase.steady s.tb := by
  unfold holdoverAborts
  split
  · exact (abortDevice_tb _ _ _ _ _).trans (spares_systemTold s).tb
  · rfl

/-- A register that no abort and no report writes reads after HOLDOVER's abort as before. -/
theorem holdoverAborts_rd (s : State) (o : Obj) (u k : Nat) (hfault : o.key u k ≠ Obj.devFaultCause.key)
    (hk : ¬ abortKey (o.key u k)) (he : ¬ eventKey (o.key u k)) : (holdoverAborts s).rd o u k = s.rd o u k := by
  unfold holdoverAborts
  split
  · rw [abortDevice_rd _ _ _ _ _ _ _ _ hfault hk he, spares_rd (spares_systemTold s) _ _ _ hk he]
  · rfl

theorem holdoverAborts_running (s : State) (h : Abortable s) (hact : s.rd .devHoldoverAbort = 1) :
    RunningAbort 0x0803 s (holdoverAborts s) := by
  intro i hi hst
  have hsite : (systemTold s).siteSt i = s.siteSt i := congrArg Prod.fst (standing_phase _ _ (systemTold_standing s) i)
  rw [holdoverAborts, if_pos (by simp [hact])]
  exact abortDevice_running _ _ _ _ _ (systemTold_abortable s h) i hi (hsite.trans hst)

theorem tbref_not_abortKey : ¬ abortKey Obj.devTbrefPresent.key := not_abortKey _ (by decide) (by decide) (.inl (by decide))
theorem lossCount_not_eventKey : ¬ eventKey Obj.devSynthLossCount.key := not_eventKey _ (by decide) (by decide)
theorem lossCount_not_abortKey : ¬ abortKey Obj.devSynthLossCount.key := not_abortKey _ (by decide) (by decide) (.inl (by decide))

/-- A lost reference of a device that is no follower. -/
theorem tbref_lost (s : State) (halive : s.alive = true) (hrole : s.role ≠ 2) :
    ∃ t, exec .tbrefLost s = .next t ∧ t.rd .devTbrefPresent = 0 ∧ t.mem = s.mem ∧
      t.tb.state = (if s.tb.state = 1 then 2 else s.tb.state) ∧
      (s.tb.state = 1 → t.rd .devSynthLossCount = min (s.rd .devSynthLossCount + 1) 0xFFFFFFFF) ∧
      (s.tb.state = 1 → s.rd .devHoldoverAbort = 1 → Abortable s → RunningAbort 0x0803 s t) ∧
      (s.tb.state ≠ 1 ∨ s.rd .devHoldoverAbort ≠ 1 → Keeps [.regs, .tb] s t) := by
  obtain ⟨a, ha⟩ : ∃ a, a = ({ s with out := [] } : State).wr .devTbrefPresent 0 := ⟨_, rfl⟩
  have heq := ha ▸ tbrefLost_eq { s with out := [] } halive hrole
  have hmem := tbrefLost_memory { s with out := [] }
  have hrun := run_next tbrefLost s _ rfl
  have habsent : a.rd .devTbrefPresent = 0 := ha ▸ rd_wr_same _ _ _ _ _
  have hother (o : Obj) (h : o.key ≠ Obj.devTbrefPresent.key) : a.rd o = s.rd o := ha ▸ rd_wr_ne _ _ _ _ _ _ _ _ h
  have htb : a.tb = s.tb := by rw [ha]; rfl
  have hkeeps : Keeps [.regs] s a := ha ▸ keeps_emptied (wr_keeps _ _ _ _ _)
  have hab (h : Abortable s) : Abortable a := ha ▸ h
  have hsites : a.sites = s.sites := hkeeps.2.2 .sites (by decide)
  clear ha
  by_cases hst : s.tb.state = 1
  · rw [if_pos (show ({ s with out := [] } : State).tb.state = 1 from hst)] at heq
    rw [heq] at hrun hmem
    refine ⟨_, hrun, ?_, ended_mem _ _ hmem, ?_, fun _ => ?_, fun _ hact h i hi hsite => ?_, fun h => ended_keeps _ _ _ ?_⟩
    · rw [ended_rd _ _ _ _ _ tbref_not_eventKey, holdoverAborts_rd _ _ _ _ (by decide) tbref_not_abortKey tbref_not_eventKey,
        inHoldover_rd _ _ _ _ (by decide), habsent]
    · rw [ended_tb, steady_state (holdoverAborts_tb _), if_pos hst]
      rfl
    · rw [ended_rd _ _ _ _ _ lossCount_not_eventKey, holdoverAborts_rd _ _ _ _ (by decide) lossCount_not_abortKey
        lossCount_not_eventKey, inHoldover_counts, hother _ (by decide)]
    · refine ended_abortsWith _ _ _ _ (holdoverAborts_running (inHoldover a) (hab h) ?_ i hi ?_)
      · rw [inHoldover_rd _ _ _ _ (by decide), hother _ (by decide), hact]
      · rw [State.siteSt, State.site, show (inHoldover a).sites = a.sites from rfl, hsites]
        exact hsite
    · have hact : s.rd .devHoldoverAbort ≠ 1 := h.resolve_left (fun hne => hne hst)
      have hsame : (inHoldover a).rd .devHoldoverAbort = s.rd .devHoldoverAbort := by
        rw [inHoldover_rd _ _ _ _ (by decide), hother _ (by decide)]
      rw [holdoverAborts, if_neg (by simpa [hsame] using hact)]
      exact keeps_then [.regs] _ _ _ _ _ hkeeps (inHoldover_keeps a) (by decide) (by decide)
  · rw [if_neg (show ¬ ({ s with out := [] } : State).tb.state = 1 from hst)] at heq
    rw [heq] at hrun hmem
    refine ⟨_, hrun, ?_, ended_mem _ _ hmem, ?_, fun h => absurd h hst, fun h => absurd h hst, fun _ =>
      ended_keeps _ _ _ (Keeps_mono _ _ _ _ hkeeps (by simp))⟩
    · rw [ended_rd _ _ _ _ _ tbref_not_eventKey, habsent]
    · rw [ended_tb, htb, if_neg hst]

/-! ### Warp-in -/

/-- The state of a follower that acquires or is FREE, in the instant of a WARP_LINK_LOCKED row. -/
theorem warpLinkLocked_eq (s : State) (halive : s.alive = true) (hrole : s.role = 2) (hst : s.tb.state = 3 ∨ s.tb.state = 6) :
    warpLinkLocked s = if s.tb.relock then relockEnds s else relockBegins s := by
  have hgate : (s.alive && s.role == 2 && (s.tb.state == 3 || s.tb.state == 6)) = true := by simp [halive, hrole, hst]
  rw [warpLinkLocked, onlyIf_pos _ _ _ hgate]
  split <;> rfl

/-- Valid code groups on Warp-in begin a re-lock (R201; log 147). -/
theorem relock_begins (s : State) (halive : s.alive = true) (hrole : s.role = 2) (hst : s.tb.state = 3 ∨ s.tb.state = 6)
    (hrelock : s.tb.relock = false) :
    ∃ t, exec .warpLinkLocked s = .next t ∧ t.tb.relock = true ∧ t.tb.state = s.tb.state ∧
      t.tb.synth = 1 ∧ (t.link 0).signal = true ∧ (t.link 0).locked = true ∧ (t.link 0).lost = false ∧ Keeps [.tb] s t := by
  have heq : warpLinkLocked { s with out := [] } = relockBegins { s with out := [] } :=
    (warpLinkLocked_eq { s with out := [] } halive hrole hst).trans (if_neg (by simp [hrelock]))
  have hlink := link_setLink { s with out := [] } 0 0 (fun l => { l with signal := true, locked := true, lost := false, last := none })
  rw [if_pos rfl] at hlink
  have hrow : (relockBegins { s with out := [] }).link 0 = { s.link 0 with signal := true, locked := true, lost := false, last := none } :=
    hlink
  refine ⟨_, run_next warpLinkLocked s _ heq, ?_, ?_, ?_, ?_, ?_, ?_, ended_effect_keeps
    (Keeps_trans _ _ _ _ (tb_keeps _ _) (tb_keeps _ _))⟩
  · rw [ended_tb]; rfl
  · rw [ended_tb]; rfl
  · rw [ended_tb]; rfl
  · rw [ended_link, hrow]
  · rw [ended_link, hrow]
  · rw [ended_link, hrow]

/-- ROOT locked to Warp-in, once it has arrived (R179, R201). -/
def warpInLocked (s : State) : State :=
  ({ s with tb := { s.tb with state := 4, relock := false, offsets := [], turns := [], echoes := [] } } : State).setLink 0
    (fun l => { l with bad := 0, heard := s.time })

theorem relockEnds_eq (s : State) : relockEnds s = warpInLocked s.rootArrives := rfl

/-- The end of a re-lock (R179, R181, R201; log 147). -/
theorem relock_ends (s : State) (halive : s.alive = true) (hrole : s.role = 2) (hst : s.tb.state = 3 ∨ s.tb.state = 6)
    (hrelock : s.tb.relock = true) :
    ∃ t, exec .warpLinkLocked s = .next t ∧ t.tb.relock = false ∧ t.tb.state = 4 ∧ t.tb.synth = 2 ∧
      t.tb.cfgOnRoot = true ∧ t.timeRuns = true ∧ t.time = s.time ∧ Keeps [.time, .tb, .chans] s t := by
  obtain ⟨r, hr⟩ : ∃ r, r = ({ s with out := [] } : State).rootArrives := ⟨_, rfl⟩
  have heq : warpLinkLocked { s with out := [] } = warpInLocked r := by
    rw [hr]
    exact (warpLinkLocked_eq { s with out := [] } halive hrole hst).trans ((if_pos hrelock).trans (relockEnds_eq _))
  obtain ⟨htb, htime, hruns⟩ := hr ▸ rootArrives_runs { s with out := [] }
  have hkeeps := hr ▸ rootArrives_keeps { s with out := [] }
  clear hr
  have hsame : (warpInLocked r).tb.synth = r.tb.synth ∧ (warpInLocked r).tb.cfgOnRoot = r.tb.cfgOnRoot := ⟨rfl, rfl⟩
  refine ⟨_, run_next warpLinkLocked s _ heq, ?_, ?_, ?_, ?_, ?_, ?_, ended_effect_keeps
    (keeps_then _ [.tb] _ _ _ _ hkeeps (Keeps_trans _ _ _ _ (tb_keeps _ _) (tb_keeps _ _)) (by decide) (by decide))⟩
  · rw [ended_tb]; rfl
  · rw [ended_tb]; rfl
  · rw [ended_tb, hsame.1, htb]
  · rw [ended_tb, hsame.2, htb]
  · rw [ended_timeRuns]; exact hruns
  · rw [ended_time]; exact htime

theorem warpAligned_eq (s : State) (halive : s.alive = true) (hrole : s.role = 2) (hst : s.tb.state = 4)
    (hpeer : (s.link 0).peerAligned = true) (hdepth : (s.link 0).peerDepth ≤ 2) (hlow : -100 ≤ s.residual) (hhigh : s.residual ≤ 100) :
    warpAligned s = ({ s with tb := { s.tb with state := 5 } } : State).raise 0x0804 0 0 5 := by
  have hgate : (s.alive && s.role == 2 && s.tb.state == 4 && (s.link 0).peerAligned && decide ((s.link 0).peerDepth ≤ 2)
      && decide (-100 ≤ s.residual) && decide (s.residual ≤ 100)) = true := by
    simp [halive, hrole, hst, hpeer, hdepth, hlow, hhigh]
  rw [warpAligned]
  exact onlyIf_pos _ _ _ hgate

/-- Alignment completes (R195). -/
theorem warp_aligns (s : State) (halive : s.alive = true) (hrole : s.role = 2) (hst : s.tb.state = 4)
    (hpeer : (s.link 0).peerAligned = true) (hdepth : (s.link 0).peerDepth ≤ 2) (hlow : -100 ≤ s.residual) (hhigh : s.residual ≤ 100) :
    ∃ t, exec .warpAligned s = .next t ∧ t.tb = { s.tb with state := 5 } ∧ Keeps [.tb] s t := by
  refine ⟨_, run_next warpAligned s _ (warpAligned_eq { s with out := [] } halive hrole hst hpeer hdepth hlow hhigh), ?_, ended_effect_keeps
    (keeps_then [.tb] [] _ _ _ _ (tb_keeps _ _) (raise_keeps _ _ _ _ _ _ _ _) (by decide) (by decide))⟩
  rw [ended_tb]
  rfl

/-! ### A lost Warp-in -/

/-- What is seen of Warp-in when it is lost: the loss is reported, and no re-lock goes on (R193, R201). -/
def lossSeen (why : Fin 3) (s : State) : State :=
  let t := (s.setLink 0 (fun l => { l with
    lost := true, signal := l.signal && why.val != 0, locked := l.locked && why.val == 2, peerAligned := false })).raise 0x0801 0 0 (why.val + 1)
  { t with tb := { t.tb with relock := false } }

/-- ROOT free, counted unless it is free already (R201, R203). -/
def freed (s : State) : State :=
  let t := { s with tb := { s.tb with relock := false, echoes := [] } }
  if t.rootPresent && t.tb.state != 6 then { t with tb := { t.tb with state := 6, synth := 2 } }.countLoss else t

theorem enterFree_eq (s : State) (cause : Nat) : s.enterFree cause = (freed s).abortDevice cause false false false := rfl

theorem warpLoss_eq (why : Fin 3) (s : State) (halive : s.alive = true) (hrole : s.role = 2) (hlocked : (s.link 0).locked = true)
    (hlost : (s.link 0).lost = false) (hcodes : why = 2 → s.codesMissing = true) :
    warpLoss why s = (freed ((lossSeen why s).announce 5 0 s.time)).abortDevice 0x0801 false false false := by
  have hgate : (s.alive && s.role == 2 && (s.link 0).locked && !(s.link 0).lost && (why.val != 2 || s.codesMissing)) = true := by
    by_cases hwhy : why = 2
    · simp [halive, hrole, hlocked, hlost, hcodes hwhy]
    · have : why.val ≠ 2 := fun h => hwhy (Fin.ext h)
      simp [halive, hrole, hlocked, hlost, this]
  exact onlyIf_pos _ _ _ hgate

theorem lossSeen_link (why : Fin 3) (s : State) : ((lossSeen why s).link 0).lost = true ∧ ((lossSeen why s).link 0).peerAligned = false := by
  have h := link_setLink s 0 0 (fun l => { l with
    lost := true, signal := l.signal && why.val != 0, locked := l.locked && why.val == 2, peerAligned := false })
  rw [if_pos rfl] at h
  have hlink : (lossSeen why s).link 0 = (s.setLink 0 (fun l => { l with
    lost := true, signal := l.signal && why.val != 0, locked := l.locked && why.val == 2, peerAligned := false })).link 0 := rfl
  rw [hlink, h]
  exact ⟨rfl, rfl⟩

theorem freed_eq (s : State) : freed s =
    if s.rootPresent && s.tb.state != 6
    then ({ s with tb := { s.tb with relock := false, echoes := [], state := 6, synth := 2 } } : State).countLoss
    else { s with tb := { s.tb with relock := false, echoes := [] } } := rfl

/-- ROOT of a follower that is present runs free. -/
theorem freed_tb (s : State) : (freed s).tb.state = (if s.rootPresent then 6 else s.tb.state) ∧ (freed s).tb.relock = false := by
  rw [freed_eq]
  split
  · next h =>
    rw [if_pos (Bool.and_eq_true_iff.mp h).1]
    exact ⟨rfl, rfl⟩
  · next h =>
    refine ⟨?_, rfl⟩
    split
    · next hp => simpa [hp] using h
    · rfl

/-- The entry into FREE is counted (R203). -/
theorem freed_counts (s : State) (h : s.rootPresent = true) : (freed s).rd .devSynthLossCount
    = if s.tb.state = 6 then s.rd .devSynthLossCount else min (s.rd .devSynthLossCount + 1) 0xFFFFFFFF := by
  rw [freed_eq, h]
  by_cases hst : s.tb.state = 6
  · rw [if_neg (by simp [hst]), if_pos hst]
    rfl
  · rw [if_pos (by simp [hst]), if_neg hst]
    exact rd_bump _ .devSynthLossCount 0 0 1 (by decide)

/-- Entering FREE changes no site, no link and nothing of the device. -/
theorem freed_same (s : State) : (freed s).tb.links = s.tb.links ∧ (freed s).sites = s.sites ∧ (freed s).dev = s.dev ∧
    (freed s).alive = s.alive := by
  unfold freed
  dsimp only
  split <;> exact ⟨rfl, rfl, rfl, rfl⟩

/-- A lost Warp-in. -/
theorem warp_lost (s : State) (halive : s.alive = true) (hrole : s.role = 2) (why : Fin 3)
    (hst : s.tb.state = 4 ∨ s.tb.state = 5 ∨ s.tb.state = 6) (hlocked : (s.link 0).locked = true) (hlost : (s.link 0).lost = false)
    (hcodes : why = 2 → 2 ≤ (s.link 0).bad ∨ (s.link 0).heard + 2560 ≤ s.time) :
    ∃ t, exec (.warpLoss why) s = .next t ∧ t.tb.state = 6 ∧ (t.link 0).lost = true ∧ (t.link 0).peerAligned = false ∧
      t.rd .devSynthLossCount
        = (if s.tb.state = 6 then s.rd .devSynthLossCount else min (s.rd .devSynthLossCount + 1) 0xFFFFFFFF) ∧
      t.mem = s.mem ∧ (Abortable s → RunningAbort 0x0801 s t) := by
  set seen := lossSeen why { s with out := [] }
  set told := seen.announce 5 0 s.time with htold
  have hmissing (h : why = 2) : s.codesMissing = true := by simpa [State.codesMissing] using hcodes h
  have heq : warpLoss why { s with out := [] } = (freed told).abortDevice 0x0801 false false false :=
    warpLoss_eq why _ halive hrole hlocked hlost hmissing
  have hmem := warpLoss_memory why { s with out := [] }
  rw [heq] at hmem
  have hspares : Spares abortParts seen told := spares_announce _ _ _ _
  have hstate : told.tb.state = s.tb.state := (steady_state hspares.tb : told.tb.state = seen.tb.state)
  have hcount : told.rd .devSynthLossCount = s.rd .devSynthLossCount :=
    spares_rd hspares _ _ _ lossCount_not_abortKey lossCount_not_eventKey
  obtain ⟨hlinks, hsites, hdev, hrun⟩ := freed_same told
  have hlink : ((freed told).abortDevice 0x0801 false false false).link 0 = seen.link 0 := by
    rw [steady_link (abortDevice_tb _ _ _ _ _), State.link, hlinks, ← State.link, steady_link hspares.tb]
  have hpresent : told.rootPresent = true := by
    have : s.tb.state ≠ 0 ∧ s.tb.state ≠ 3 := by omega
    simp [State.rootPresent, hstate, this]
  have hfree := freed_counts told hpresent
  rw [hstate, hcount] at hfree
  refine ⟨_, run_next (warpLoss why) s _ heq, ?_, ?_, ?_, ?_, ended_mem _ _ hmem, fun hab i hi hsite => ended_abortsWith _ _ _ _
    (abortDevice_running _ _ _ _ _ ?_ i hi ?_)⟩
  · rw [ended_tb, steady_state (abortDevice_tb _ _ _ _ _), (freed_tb told).1, if_pos hpresent]
  · rw [ended_link, hlink, (lossSeen_link _ _).1]
  · rw [ended_link, hlink, (lossSeen_link _ _).2]
  · rw [ended_rd _ _ _ _ _ lossCount_not_eventKey,
      abortDevice_rd _ _ _ _ _ _ _ _ (by decide) lossCount_not_abortKey lossCount_not_eventKey, hfree]
  · obtain ⟨h1, h2, h3⟩ := announce_abortable seen 5 0 s.time hab
    exact ⟨hrun.trans h1, by rw [hdev]; exact h2, by rw [hdev]; exact h3⟩
  · have hold : told.siteSt i = s.siteSt i :=
      congrArg Prod.fst (standing_phase seen told (by rw [htold]; exact announce_standing _ _ _ _) i)
    rw [State.siteSt, State.site, hsites, ← State.site, ← State.siteSt, hold, hsite]

/-- Settles O29: each of the rows that move the time base has the effect that its lemma above describes. -/
theorem rootStates : Obligations.RootStates := by
  unfold Obligations.RootStates
  exact fun s halive => ⟨fun hrole => ⟨root_locks s halive hrole, tbref_lost s halive hrole, tbref_returns s halive hrole⟩,
    fun hrole => ⟨fun hst => ⟨relock_begins s halive hrole hst, relock_ends s halive hrole hst⟩, warp_aligns s halive hrole,
      warp_lost s halive hrole⟩⟩

end Sys2Proof.Proofs
end

section
/-! Event sets of the Warp tree and the events that they schedule (R96 to R98, R187, R190, R191, R199). -/
namespace Sys2Proof.Laws
open Sys2Proof.Machine Sys2Proof.Safety

/-! ### The time base under the Cut phase -/

theorem foldl_wr_tb (l : List Obj) (p : Nat) (s : State) : (l.foldl (fun t o => t.wr o 0 p) s).tb = s.tb := by
  induction l generalizing s with
  | nil => rfl
  | cons o l ih => exact ih _

theorem cutPort_tb (s : State) (p : Nat) : (s.cutPort p).tb = s.tb := by
  rw [State.cutPort, setPort_tb, cutLane, setPort_tb, State.openPortLinks, setBnd_tb, State.clearEnables, setPort_tb, foldl_wr_tb]

theorem endSurvey_tb (s : State) (b : Nat) : (s.endSurvey b).tb = s.tb := by
  unfold State.endSurvey
  split <;> rfl

theorem stopCal_tb (s : State) (b : Nat) : (s.stopCal b).2.tb = s.tb := by
  simp only [State.stopCal, State.endCycle]
  split
  · exact endSurvey_tb _ _
  · rfl

theorem cutBundles_tb (s : State) (bs : List Nat) : (s.cutBundles bs).2.tb = s.tb := by
  induction bs generalizing s with
  | nil => rfl
  | cons b bs ih =>
    rw [cutBundles_cons, ih, each_same (·.tb) _ _ (fun p t => cutPort_tb t p), stopCal_tb]

theorem bundleAborted_tb (s : State) (b cause time flags : Nat) : (s.bundleAborted b cause time flags).tb = s.tb := by
  rw [State.bundleAborted, bump_tb, wr_tb, wr_tb, wr_tb]

theorem abortIdle_tb (s : State) (bs : List Nat) (a : AbortBy) : (s.abortIdle bs a).tb = s.tb := by
  unfold State.abortIdle
  dsimp only
  have hreported (f : Nat → State → Nat) (g : Nat → Nat) :
      ((s.cutBundles bs).2.each bs (fun b t => t.bundleAborted b a.cause (f b t) (g b))).tb = s.tb :=
    (each_same State.tb bs _ (fun b t => bundleAborted_tb t b a.cause (f b t) (g b)) _).trans (cutBundles_tb s bs)
  split
  · rw [State.abortDone, raise_tb]
    exact hreported _ _
  · exact hreported _ _

theorem armAborted_tb (s : State) (i : Nat) : (s.armAborted i).tb = s.tb := by
  unfold State.armAborted
  split
  · rfl
  · have hcomplete (t : State) (w : Waits) (st : Status) : (t.complete w st).tb = t.tb := (complete_keeps t w st).2.2 .tb (by decide)
    rw [hcomplete, wr_tb, wr_tb, wr_tb, wr_tb, setSite_tb]

/-! ### Sets that are sent -/

/-- A set on one side, twice, back to back (R190). -/
def twice (side : Option (Fin 4)) (w : WarpSet) : List Msg := [.warp side (checked w.body), .warp side (checked w.body)]

theorem sendTwice_sends (s : State) (side : Option (Fin 4)) (w : WarpSet) : s.sendTwice side w = { s with out := s.out ++ twice side w } := by
  simp [State.sendTwice, State.send, twice]

/-- A set goes down every running output, and nothing else changes. -/
theorem sendDown_sends (s : State) (w : WarpSet) :
    ∃ out, s.sendDown w = { s with out := out } ∧ ∀ n ∈ s.outsRunning, twice (some n) w <:+: out := by
  have hfold : ∀ (l : List (Fin 4)) (t : State), ∃ out, l.foldl (fun t n => t.sendTwice (some n) w) t = { t with out := out } ∧
      t.out <+: out ∧ ∀ n ∈ l, twice (some n) w <:+: out := by
    intro l
    induction l with
    | nil => exact fun t => ⟨t.out, rfl, List.prefix_rfl, nofun⟩
    | cons n l ih =>
      intro t
      obtain ⟨out, heq, hpre, hrest⟩ := ih (t.sendTwice (some n) w)
      rw [sendTwice_sends] at hpre
      refine ⟨out, by rw [List.foldl_cons, heq, sendTwice_sends], (List.prefix_append _ _).trans hpre, fun m hm => ?_⟩
      obtain rfl | hm := List.mem_cons.mp hm
      · exact (List.suffix_append _ _).isInfix.trans hpre.isInfix
      · exact hrest m hm
  obtain ⟨out, heq, -, hsent⟩ := hfold s.outsRunning s
  exact ⟨out, heq, hsent⟩

/-- A follower sends the ABORT of a group toward the master (R97). -/
theorem groupAbort_sends (s : State) (g : Nat) (h : s.role = 2) : twice none ⟨4, g, s.tb.txSeq, s.time⟩ <:+: (s.groupAbort g).out := by
  unfold State.groupAbort
  rw [if_neg (by simp [h]), if_pos (by simp [h])]
  dsimp only [State.newSet, State.sendUp]
  rw [sendTwice_sends]
  exact (List.suffix_append _ _).isInfix

/-! ### The member of a group -/

theorem member_spec (s : State) (g i : Nat) (h : s.member g = some i) : g ≠ 0 ∧ i < 12 ∧ s.rd .siteLockstep i = g := by
  unfold State.member at h
  split at h
  · exact absurd h nofun
  · next hg =>
    have hfound := List.find?_some h
    simp only [Bool.and_eq_true, beq_iff_eq] at hfound
    exact ⟨by simpa using hg, (mem_upto i 12).mp (List.mem_of_find?_eq_some h), hfound.2⟩

theorem siteLockstep_not_eventKey (i : SiteNo) : ¬ eventKey (Obj.siteLockstep.key i) :=
  not_eventKey _ (by revert i; decide) (by revert i; decide)
theorem role_not_abortKey : ¬ abortKey Obj.warpRole.key := not_abortKey _ (by decide) (by decide) (.inl (by decide))
theorem role_not_eventKey : ¬ eventKey Obj.warpRole.key := not_eventKey _ (by decide) (by decide)

/-- A running or paused member tells its group that it aborts (R97). -/
theorem abortFormed_tells (s : State) (i g : Nat) (a : AbortBy) (hst : s.siteSt i = .running ∨ s.siteSt i = .paused)
    (hrole : s.role = 2) (hmember : s.member g = some i) (hown : a.quiet = false ∧ a.warp = false) :
    twice none ⟨4, g, s.tb.txSeq, s.time⟩ <:+: (s.abortFormed i a).out := by
  obtain ⟨hg, hi, hlock⟩ := member_spec s g i hmember
  set cut := (s.cutBundles (s.bundlesOf i)).2
  have hspares : Spares abortParts s cut := spares_cutBundles s _
  have hlock' : cut.rd .siteLockstep i = g := by
    rw [spares_rd hspares _ _ _ (siteLockstep_not_abortKey i hi) (siteLockstep_not_eventKey ⟨i, hi⟩), hlock]
  have hrole' : (cut.cancelGroup g).role = 2 := (spares_rd hspares _ _ _ role_not_abortKey role_not_eventKey).trans hrole
  have hsent := groupAbort_sends (cut.cancelGroup g) g hrole'
  rw [show (cut.cancelGroup g).tb.txSeq = cut.tb.txSeq from rfl, cutBundles_tb,
    show (cut.cancelGroup g).time = cut.time from rfl, (hspares.keeps.2.2 .time (by decide)).1] at hsent
  have htells : tellsGroup cut i a = (cut.cancelGroup g).groupAbort g := by
    rw [tellsGroup, hlock', if_neg (by simpa using hg), if_neg (by simp [hown])]
  have hafter : Spares abortParts (tellsGroup cut i a) (s.abortFormed i a) := by
    rw [abortFormed_runs s i a hst]
    exact spares_trans (spares_trans (spares_trans (spares_stopSite _ i) (spares_setSite _ i _)) (spares_closeRows _ _)) (spares_setRing _ _ _)
  rw [htells] at hafter
  exact hsent.trans hafter.out.isInfix

/-- A member that misses an event tells its group, and is aborted where it runs (R97, R199). -/
theorem memberMissed_tells (s : State) (i g time at' : Nat) (hrole : s.role = 2) (hmember : s.member g = some i)
    (hst : s.siteSt i = .running ∨ s.siteSt i = .ready) :
    twice none ⟨4, g, s.tb.txSeq, s.time⟩ <:+: (s.memberMissed i g time at').out ∧
      (s.siteSt i = .running → AbortsWith i 0x0805 (s.memberMissed i g time at')) := by
  set told := s.raise 0x0805 1 i g time
  obtain hrun | hready := hst
  · have heq : s.memberMissed i g time at' = told.abortSite i 0x0805 false (some at') := if_pos (by rw [hrun]; rfl)
    rw [heq]
    exact ⟨abortFormed_tells told i g _ (.inl hrun) hrole hmember ⟨rfl, rfl⟩, fun _ => abortSite_running told i _ _ _ hrun⟩
  · set idle := told.abortSite i 0x0805 false (some at') with hidle
    have heq : s.memberMissed i g time at' = (idle.cancelGroup g).groupAbort g := if_neg (by rw [hready]; decide)
    have hspares : Spares abortParts told idle := spares_abortSite _ _ _ _ _
    have htb : idle.tb = s.tb := by
      rw [hidle, State.abortSite, abortFormed_idle told i _ (.inl hready), abortIdle_tb, wr_tb, armAborted_tb, raise_tb]
    have hrole' : (idle.cancelGroup g).role = 2 := (spares_rd hspares _ _ _ role_not_abortKey role_not_eventKey).trans hrole
    have hsent := groupAbort_sends (idle.cancelGroup g) g hrole'
    rw [show (idle.cancelGroup g).tb.txSeq = idle.tb.txSeq from rfl, htb,
      show (idle.cancelGroup g).time = idle.time from rfl, (hspares.keeps.2.2 .time (by decide)).1] at hsent
    rw [heq]
    exact ⟨hsent, fun hrun => absurd (hrun.symm.trans hready) (by decide)⟩

theorem ended_infix (s t : State) (l : List Msg) (h : l <:+: t.out) : l <:+: (s.keepFixed t.deliver).out :=
  h.trans (ended_out s t).isInfix

theorem bnds_keeps (s : State) (bnds : Store Bundle) : Keeps [.bnds] s { s with bnds := bnds } :=
  ⟨rfl, rfl, fun p hp => by cases p <;> simp_all [Part.same]⟩

/-- A SYNC resets units of bundles alone (R191). -/
theorem syncUnits_changes (s : State) (t : Nat) : ∃ bnds, s.syncUnits t = { s with bnds := bnds } := by
  let P : State → Prop := fun u => ∃ bnds, u = { s with bnds := bnds }
  have hset (u : State) (b : Nat) (f : Bundle → Bundle) (hu : P u) : P (u.setBnd b f) := by
    obtain ⟨bnds, rfl⟩ := hu
    exact ⟨_, rfl⟩
  refine each_keeps P _ _ (fun b u _ hu => ?_) s ⟨s.bnds, rfl⟩
  refine each_keeps P _ _ (fun wd v _ hv => ?_) _ ?_
  · split
    · unfold State.clearAcc State.setOsc
      exact hset v b _ hv
    · exact hv
  · split
    · exact hset u b _ hu
    · exact hu

end Sys2Proof.Laws

namespace Sys2Proof.Proofs
open Sys2Proof.Machine Sys2Proof.Safety Sys2Proof.Laws

/-! ### Sets from Warp-in -/

/-- A set from Warp-in that is acted on: remembered, with what has been sent (R190). -/
def heard (s : State) (w : WarpSet) (out : List Msg) : State :=
  { s.setLink 0 (fun l => { l with last := some w }) with out := out }

theorem heard_keeps (s : State) (w : WarpSet) (out : List Msg) : Keeps [.tb] s (heard s w out) := tbPart_keeps s _ out

theorem heard_last (s : State) (w : WarpSet) (out : List Msg) : ((heard s w out).link 0).last = some w := by
  have h := link_setLink s 0 0 (fun l => { l with last := some w })
  rw [if_pos rfl] at h
  exact congrArg WarpLink.last h

/-- A set from Warp-in with a good check byte that is no duplicate goes down every running output. -/
theorem passed_down (s : State) (w : WarpSet) : ∃ out, (∀ n ∈ s.outsRunning, twice (some n) w <:+: out) ∧
    (({ s with out := [] } : State).setLink 0 (fun l => { l with last := some w })).sendDown w = heard s w out := by
  obtain ⟨out, heq, hsent⟩ := sendDown_sends (({ s with out := [] } : State).setLink 0 (fun l => { l with last := some w })) w
  exact ⟨out, hsent, heq⟩

theorem eventIn_heard (s : State) (w : WarpSet) (act : State → State) (halive : s.alive = true) (hrole : s.role = 2)
    (hlocked : (s.link 0).locked = true) (hlast : (s.link 0).last ≠ some w) :
    ∃ out, (∀ n ∈ s.outsRunning, twice (some n) w <:+: out) ∧
      run (eventIn none w (crc8 w.body) act) s = .next (s.keepFixed (act (heard s w out)).deliver) := by
  obtain ⟨out, hsent, heq⟩ := passed_down s w
  refine ⟨out, hsent, run_next _ s _ ?_⟩
  have hruns : ¬ (!s.alive || s.role == 0) = true := by simp [halive, hrole]
  have hhears : ¬ (s.role != 2 || !(s.link 0).locked) = true := by simp [hrole, hlocked]
  unfold eventIn
  refine (if_neg hruns).trans ((if_neg hhears).trans ((if_neg (by simp)).trans ((if_neg ?_).trans (congrArg act heq))))
  exact fun h => hlast (eq_of_beq h)

theorem sync_heard (seq : Byte) (time : BitVec 64) (s : State) (halive : s.alive = true) (hrole : s.role = 2)
    (hlocked : (s.link 0).locked = true) (w : WarpSet) (hw : w = ⟨1, 0, seq.toNat, time.toNat⟩) (hlast : (s.link 0).last ≠ some w) :
    ∃ t, exec (.warpSync none ⟨seq, crc8 w.body⟩ time) s = .next t ∧ Keeps [.bnds, .tb] s t ∧
      (∀ n ∈ s.outsRunning, [Msg.warp (some n) (checked w.body), .warp (some n) (checked w.body)] <:+: t.out) ∧
      (t.link 0).last = some w ∧
      t.tb.sched = (if s.time ≤ time.toNat then s.tb.sched ++ [{ type := 1, group := 0, time := time.toNat }] else s.tb.sched) := by
  subst hw
  obtain ⟨out, hsent, hrun⟩ := eventIn_heard s _ (fun s => if time.toNat < s.time then (s.syncUnits time.toNat).raise 0x0806 0 0 0 time.toNat
    else s.schedule 1 0 time.toNat) halive hrole hlocked hlast
  have hkeeps := heard_keeps s ⟨1, 0, seq.toNat, time.toNat⟩ out
  have hheard := heard_last s ⟨1, 0, seq.toNat, time.toNat⟩ out
  set u := heard s ⟨1, 0, seq.toNat, time.toNat⟩ out
  by_cases hlate : time.toNat < s.time
  · obtain ⟨bnds, hsync⟩ := syncUnits_changes u time.toNat
    have hact : (if time.toNat < u.time then (u.syncUnits time.toNat).raise 0x0806 0 0 0 time.toNat else u.schedule 1 0 time.toNat)
        = ({ u with bnds := bnds } : State).raise 0x0806 0 0 0 time.toNat := by rw [← hsync]; exact if_pos hlate
    rw [hact] at hrun
    refine ⟨_, hrun, ended_keeps _ _ _ ?_, fun n hn => ended_infix _ _ _ (hsent n hn), ?_, ?_⟩
    · exact keeps_then [.tb] [.bnds] _ _ _ _ hkeeps (keeps_then [.bnds] [] _ _ _ _ (bnds_keeps u bnds) (raise_keeps _ _ _ _ _ _ _ _)
        (by decide) (by decide)) (by decide) (by decide)
    · rw [ended_link]
      exact hheard
    · rw [ended_tb, if_neg (by omega)]
      rfl
  · have hact : (if time.toNat < u.time then (u.syncUnits time.toNat).raise 0x0806 0 0 0 time.toNat else u.schedule 1 0 time.toNat)
        = u.schedule 1 0 time.toNat := if_neg hlate
    rw [hact] at hrun
    refine ⟨_, hrun, ended_keeps _ _ _ ?_, fun n hn => ended_infix _ _ _ (hsent n hn), ?_, ?_⟩
    · exact keeps_then [.tb] [.tb] _ _ _ _ hkeeps (tb_keeps _ _) (by decide) (by decide)
    · rw [ended_link]
      exact hheard
    · rw [ended_tb, if_pos (by omega)]
      rfl

/-- A START or PAUSE set whose count has not passed waits for it. -/
theorem lockstep_waits (s : State) (type g seq time : Nat) (halive : s.alive = true) (hrole : s.role = 2)
    (hlocked : (s.link 0).locked = true) (hlast : (s.link 0).last ≠ some ⟨type, g, seq, time⟩) (hdue : s.time ≤ time) :
    ∃ t, run (eventIn none ⟨type, g, seq, time⟩ (crc8 (WarpSet.body ⟨type, g, seq, time⟩)) (lockstepIn type g time)) s = .next t ∧
      Keeps [.tb] s t ∧ t.tb.sched = s.tb.sched ++ [{ type := type, group := g, time := time }] ∧
      ∀ n ∈ s.outsRunning, twice (some n) ⟨type, g, seq, time⟩ <:+: t.out := by
  obtain ⟨out, hsent, hrun⟩ := eventIn_heard s _ (lockstepIn type g time) halive hrole hlocked hlast
  have hkeeps := heard_keeps s ⟨type, g, seq, time⟩ out
  set u := heard s ⟨type, g, seq, time⟩ out
  have hact : lockstepIn type g time u = u.schedule type g time := if_neg (Nat.not_lt.mpr hdue)
  rw [hact] at hrun
  refine ⟨_, hrun, ended_keeps _ _ _ (Keeps_trans _ _ _ _ hkeeps (tb_keeps _ _)), ?_, fun n hn => ended_infix _ _ _ (hsent n hn)⟩
  rw [ended_tb]
  rfl

/-- A START or PAUSE set that comes too late is missed by its member. -/
theorem lockstep_missed (s : State) (type g seq time : Nat) (halive : s.alive = true) (hrole : s.role = 2)
    (hlocked : (s.link 0).locked = true) (hlast : (s.link 0).last ≠ some ⟨type, g, seq, time⟩) (i : Nat) (hlate : time < s.time)
    (hmember : s.member g = some i) (hst : s.siteSt i = .running ∨ s.siteSt i = .ready) :
    ∃ t, run (eventIn none ⟨type, g, seq, time⟩ (crc8 (WarpSet.body ⟨type, g, seq, time⟩)) (lockstepIn type g time)) s = .next t ∧
      twice none ⟨4, g, s.tb.txSeq, s.time⟩ <:+: t.out ∧ (s.siteSt i = .running → AbortsWith i 0x0805 t) := by
  obtain ⟨out, -, hrun⟩ := eventIn_heard s _ (lockstepIn type g time) halive hrole hlocked hlast
  set u := heard s ⟨type, g, seq, time⟩ out
  have hact : lockstepIn type g time u = u.memberMissed i g time u.time := by
    refine (if_pos hlate).trans ?_
    rw [State.lockstepMissed, show u.member g = some i from hmember]
  rw [hact] at hrun
  obtain ⟨htells, haborts⟩ := memberMissed_tells u i g time u.time hrole hmember hst
  exact ⟨_, hrun, ended_infix _ _ _ htells, fun h => ended_abortsWith _ _ _ _ (haborts h)⟩

theorem freed_out (s : State) : (freed s).out = s.out := by
  unfold freed
  dsimp only
  split <;> rfl

theorem freed_abortable (s : State) (h : Abortable s) : Abortable (freed s) := by
  obtain ⟨-, -, hdev, halive⟩ := freed_same s
  obtain ⟨h1, h2, h3⟩ := h
  exact ⟨halive.trans h1, by rw [hdev, h2], by rw [hdev, h3]⟩

theorem hold_heard (seq : Byte) (time : BitVec 64) (s : State) (halive : s.alive = true) (hrole : s.role = 2)
    (hlocked : (s.link 0).locked = true) (w : WarpSet) (hw : w = ⟨5, 0, seq.toNat, time.toNat⟩) (hlast : (s.link 0).last ≠ some w) :
    ∃ t, exec (.warpHold none ⟨seq, crc8 w.body⟩ time) s = .next t ∧
      t.tb.state = (if s.rootPresent then 6 else s.tb.state) ∧ t.tb.relock = false ∧ t.mem = s.mem ∧
      (∀ n ∈ s.outsRunning, [Msg.warp (some n) (checked w.body), .warp (some n) (checked w.body)] <:+: t.out) ∧
      (Abortable s → RunningAbort 0x0802 s t) := by
  subst hw
  obtain ⟨out, hsent, hrun⟩ := eventIn_heard s _ (fun s => (s.raise 0x0802).enterFree 0x0802) halive hrole hlocked hlast
  rw [enterFree_eq] at hrun
  set u := (heard s ⟨5, 0, seq.toNat, time.toNat⟩ out).raise 0x0802
  have htb := abortDevice_tb (freed u) 0x0802 false false false
  have hmem : ((freed u).abortDevice 0x0802 false false false).memory = s.memory := by
    rw [abortDevice_memory, freed]
    dsimp only
    split <;> rfl
  obtain ⟨hstate, hrelock⟩ := freed_tb u
  refine ⟨_, hrun, ?_, ?_, ended_mem _ _ hmem, fun n hn => ended_infix _ _ _ ?_, fun h i hi hst => ended_abortsWith _ _ _ _ ?_⟩
  · rw [ended_tb, steady_state htb, hstate]
    rfl
  · rw [ended_tb]
    exact (congrArg Timebase.relock htb).trans hrelock
  · have hout := abortDevice_out (freed u) 0x0802 false false false
    rw [freed_out] at hout
    exact (hsent n hn).trans hout.isInfix
  · refine abortDevice_running _ _ _ _ _ (freed_abortable u h) i hi ?_
    rw [State.siteSt, State.site, (freed_same u).2.1]
    exact hst

theorem actOnWarpAbort_prefix (s : State) (g : Nat) : s.out <+: (s.actOnWarpAbort g).out := by
  unfold State.actOnWarpAbort
  split
  · exact abortDevice_out (s.raise 0x0403 0 0 0) _ _ _ _
  · dsimp only
    split
    · exact List.prefix_rfl
    · next i _ => exact (spares_abortSite ((s.cancelGroup g).raise 0x0403 1 i g) i _ _ _).out

/-- What an ABORT set from Warp-in that is acted on leads to. -/
theorem abort_heard (seq group : Byte) (time : BitVec 64) (s : State) (halive : s.alive = true) (hrole : s.role = 2)
    (hlocked : (s.link 0).locked = true) (w : WarpSet) (hw : w = ⟨4, group.toNat, seq.toNat, time.toNat⟩)
    (hlast : (s.link 0).last ≠ some w) :
    ∃ t, exec (.warpAbort none ⟨seq, crc8 w.body⟩ group time) s = .next t ∧ t.mem = s.mem ∧
      (∀ n ∈ s.outsRunning, [Msg.warp (some n) (checked w.body), .warp (some n) (checked w.body)] <:+: t.out) ∧
      (group = 0 → Abortable s → RunningAbort 0x0403 s t) ∧
      (∀ i, s.member group.toNat = some i → s.siteSt i = .running → AbortsWith i 0x0403 t) := by
  obtain ⟨out, hsent, heq⟩ := passed_down s w
  set u := heard s w out
  have hact : warpAbortIn none w (crc8 w.body) { s with out := [] } = u.actOnWarpAbort w.group := by
    have hhears : ¬ (!s.alive || s.role == 0 || !(s.role == 2 && (s.link 0).locked)) = true := by simp [halive, hrole, hlocked]
    refine (if_neg hhears).trans ((if_neg (by simp)).trans ((if_neg ?_).trans ((if_neg (by simp)).trans ?_)))
    · exact fun h => hlast (eq_of_beq h)
    · exact congrArg (·.actOnWarpAbort w.group) heq
  have hrun := run_next (warpAbortIn none w (crc8 w.body)) s _ hact
  have hmem : (u.actOnWarpAbort w.group).memory = s.memory := actOnWarpAbort_memory u w.group
  have hout : u.out <+: (u.actOnWarpAbort w.group).out := actOnWarpAbort_prefix u w.group
  subst hw
  refine ⟨_, hrun, ended_mem _ _ hmem, fun n hn => ended_infix _ _ _ ((hsent n hn).trans hout.isInfix), fun hzero h i hi hst => ?_,
    fun i hmember hst => ?_⟩
  · subst hzero
    have habort : u.actOnWarpAbort 0 = (u.raise 0x0403 0 0 0).abortDevice 0x0403 false true true := if_pos rfl
    have hrunning := abortDevice_running (u.raise 0x0403 0 0 0) 0x0403 false true true h i hi hst
    exact ended_abortsWith _ _ _ _ (habort ▸ hrunning)
  · have habort : u.actOnWarpAbort group.toNat = ((u.cancelGroup group.toNat).raise 0x0403 1 i group.toNat).abortSite i 0x0403 true := by
      refine (if_neg (by simpa using (member_spec s _ _ hmember).1)).trans ?_
      dsimp only
      rw [show (u.cancelGroup group.toNat).member group.toNat = some i from hmember]
    have hrunning := abortSite_running ((u.cancelGroup group.toNat).raise 0x0403 1 i group.toNat) i 0x0403 true none hst
    exact ended_abortsWith _ _ _ _ (habort ▸ hrunning)

/-- An ABORT set from below goes up (R96). -/
theorem abort_from_below (seq group : Byte) (time : BitVec 64) (s : State) (halive : s.alive = true) (hrole : s.role = 2)
    (w : WarpSet) (hw : w = ⟨4, group.toNat, seq.toNat, time.toNat⟩) (n : Fin 4) (hruns : s.outRuns n = true)
    (hlast : (s.link (n.val + 1)).last ≠ some w) :
    ∃ t, exec (.warpAbort (some n) ⟨seq, crc8 w.body⟩ group time) s = .next t ∧ Keeps [.tb] s t ∧
      [Msg.warp none (checked w.body), .warp none (checked w.body)] <:+: t.out := by
  set u := (({ s with out := [] } : State).setLink (n.val + 1) (fun l => { l with last := some w })).sendUp w with hu
  have hact : warpAbortIn (some n) w (crc8 w.body) { s with out := [] } = u := by
    have hhears : ¬ (!s.alive || s.role == 0 || !s.outRuns n) = true := by simp [halive, hrole, hruns]
    refine (if_neg hhears).trans ((if_neg (by simp)).trans ((if_neg ?_).trans (if_pos ?_)))
    · exact fun h => hlast (eq_of_beq h)
    · exact beq_iff_eq.mpr hrole
  have hrun := run_next (warpAbortIn (some n) w (crc8 w.body)) s _ hact
  rw [hu, State.sendUp, sendTwice_sends] at hrun
  subst hw
  exact ⟨_, hrun, ended_keeps _ _ _ (tbPart_keeps s _ _), ended_infix _ _ _ (List.suffix_append _ _).isInfix⟩

/-- A duplicate of the last set is ignored, and a set with a bad check byte is counted (R190, R191). -/
theorem abort_not_heard (seq group : Byte) (time : BitVec 64) (s : State) (halive : s.alive = true) (hrole : s.role = 2)
    (hlocked : (s.link 0).locked = true) (w : WarpSet) (hw : w = ⟨4, group.toNat, seq.toNat, time.toNat⟩) :
    ((s.link 0).last = some w →
      ∃ t, exec (.warpAbort none ⟨seq, crc8 w.body⟩ group time) s = .next t ∧ Keeps [] s t) ∧
    (∀ crc, crc ≠ crc8 w.body →
      ∃ t, exec (.warpAbort none ⟨seq, crc⟩ group time) s = .next t ∧ Keeps [.tb] s t ∧ t.tb = (s.linkError 0).tb) := by
  have hhears : ¬ (!s.alive || s.role == 0 || !(s.role == 2 && (s.link 0).locked)) = true := by simp [halive, hrole, hlocked]
  refine ⟨fun hlast => ?_, fun crc hcrc => ?_⟩
  · have hact : warpAbortIn none w (crc8 w.body) { s with out := [] } = { s with out := [] } :=
      (if_neg hhears).trans ((if_neg (by simp)).trans (if_pos (beq_iff_eq.mpr hlast)))
    subst hw
    exact ⟨_, run_next (warpAbortIn none _ _) s _ hact, ended_effect_keeps (Keeps_refl _ _)⟩
  · have hact : warpAbortIn none w crc { s with out := [] } = ({ s with out := [] } : State).linkError 0 :=
      (if_neg hhears).trans (if_pos (by simpa using Ne.symm hcrc))
    subst hw
    refine ⟨_, run_next (warpAbortIn none _ crc) s _ hact, ended_keeps _ _ _ (tbPart_keeps s _ _), ?_⟩
    rw [ended_tb]
    rfl

/-! ### A step that begins well leaves the time base -/

theorem takeSequence_tb (s : State) (i number : Nat) : (s.takeSequence i number none).tb = s.tb := by
  unfold State.takeSequence
  dsimp only
  refine (?_ : State.tb (if number == 1 || number == 8 then s.releaseReset i else s) = s.tb)
  split
  · exact ofUnported State.tb _ _ (releaseReset_unported s i) fun _ => rfl
  · rfl

theorem takeSequence_stepRec (s : State) (i number : Nat) : (s.takeSequence i number none).stepRec i = s.stepRec i := by
  have hreset (u : State) : (u.releaseReset i).stepRec i = u.stepRec i :=
    ofUnported (·.stepRec i) _ _ (releaseReset_unported u i) fun _ => rfl
  have hsched (u : State) (f : Scheduler → Scheduler) : (u.setSched i f).stepRec i = u.stepRec i := by
    simp [State.stepRec, State.run', State.setSched]
  unfold State.takeSequence
  rw [hsched]
  split
  · exact hreset s
  · rfl

theorem takeSequence_training (s : State) (i number : Nat) : ((s.takeSequence i number none).sched i).training
    = some { number := number, txn := none, todo := if number == 0x80 then [] else (s.stepRec i).builtIn number } := by
  simp [State.takeSequence, State.sched, State.setSched]

/-- A sequence of a step that begins well starts and finds its first word, so that no fault reaches the time base. -/
theorem startTraining_tb (s : State) (i : Nat) (h : beginsWell (s.stepRec i)) :
    (s.startTraining i (s.stepRec i).init none).tb = s.tb := by
  unfold State.startTraining
  dsimp only
  rw [takeSequence_training]
  dsimp only
  split
  · next hucode =>
    have hinit : (s.stepRec i).init = 0x80 := by simpa using hucode
    obtain ⟨hlen, hword⟩ := h hinit
    unfold State.reach
    simp only [takeSequence_stepRec, hinit]
    rw [if_pos (by simpa [hlen] using hword)]
    exact takeSequence_tb s i 0x80
  · exact takeSequence_tb _ _ _

theorem opened_tb (s : State) (i k t : Nat) : (opened s i k t).tb = s.tb := by
  have hentered : (entered s i k).tb = s.tb := each_same State.tb _ readied (fun _ _ => rfl) s
  unfold opened
  split <;> exact hentered

/-- A step that has begun, with its lanes, before its INIT sequence. -/
def lanesBegun (s : State) (i k t : Nat) : State :=
  ((opened s i k t).each ((opened s i k t).dutPortsOf i) stepLane).wr .siteStepNow k i

/-- A step that has begun, with its lanes and pins, before its INIT sequence. -/
def pinsBegun (s : State) (i k t : Nat) : State :=
  if k == 1 && ((s.run' i).stepRec k).isMemory
  then ((lanesBegun s i k t).pinsIdle i (lanesBegun s i k t).now).setSched i (fun c => { c with clocked := (lanesBegun s i k t).now })
  else lanesBegun s i k t

theorem beginStep_eq (s : State) (i k t : Nat) : s.beginStep i k t =
    if ((s.run' i).stepRec k).isMemory && ((s.run' i).stepRec k).init != 0
    then (pinsBegun s i k t).startTraining i ((s.run' i).stepRec k).init none else pinsBegun s i k t := by
  have hmember : (entered s i k).isMember i = s.isMember i := isMember_of_dict _ _ i (entered_dict s i k)
  have hopened : (if k == 1 || (entered s i k).isMember i
      || (((s.run' i).stepRec k).isMemory && ((s.run' i).stepRec k).init != 0) then (entered s i k).startsAt i t else entered s i k)
      = opened s i k t := by rw [hmember]; rfl
  unfold pinsBegun lanesBegun
  rw [← hopened]
  rfl

theorem lanesBegun_tb (s : State) (i k t : Nat) : (lanesBegun s i k t).tb = s.tb :=
  (each_same State.tb _ stepLane (fun _ _ => rfl) _).trans (opened_tb s i k t)

theorem pinsBegun_tb (s : State) (i k t : Nat) : (pinsBegun s i k t).tb = s.tb := by
  have hpins (u : State) (n : Nat) : (u.pinsIdle i n).tb = u.tb := ofUnported State.tb _ _ (pinsIdle_unported u i n) fun _ => rfl
  unfold pinsBegun
  split
  · exact (hpins _ _).trans (lanesBegun_tb s i k t)
  · exact lanesBegun_tb s i k t

theorem pinsBegun_stepRec (s : State) (i k t : Nat) : (pinsBegun s i k t).stepRec i = (s.run' i).stepRec k := by
  have hlanes : progress (lanesBegun s i k t) i = progress ((opened s i k t).wr .siteStepNow k i) i :=
    wr_progress _ _ i _ _ _ _ (progress_of_unported _ _ i (by simp))
  have hpins : progress (pinsBegun s i k t) i = progress ((opened s i k t).wr .siteStepNow k i) i := by
    unfold pinsBegun
    split
    · exact (setSched_progress _ i _).trans ((progress_of_unported _ _ i (by simp)).trans hlanes)
    · exact hlanes
  rw [State.stepRec, progress_run _ _ i hpins]
  exact (wr_stepRec _ _ _ _ _ _).trans (opened_stepRec s i k t)

theorem beginStep_tb (s : State) (i k t : Nat) (h : beginsWell ((s.run' i).stepRec k)) : (s.beginStep i k t).tb = s.tb := by
  have hrec := pinsBegun_stepRec s i k t
  rw [beginStep_eq]
  split
  · have hstart := startTraining_tb (pinsBegun s i k t) i (by rwa [hrec])
    rw [hrec] at hstart
    exact hstart.trans (pinsBegun_tb s i k t)
  · exact pinsBegun_tb s i k t

/-! ### An event whose point has come -/

/-- The one scheduled event has acted. -/
def unscheduled (e : Sched) (t : State) : State := { t with tb := { t.tb with sched := t.tb.sched.erase e } }

theorem warpEventDue_one (e : Sched) (s : State) (h : s.tb.sched = [e]) :
    warpEventDue s = if (s.actEvent e).1 then unscheduled e (s.actEvent e).2 else s := by
  unfold warpEventDue
  rw [h, List.foldl_cons, List.foldl_nil]
  exact if_pos (by simp [h])

theorem eventDue_next (e : Sched) (s : State) (halive : s.alive = true) (h : s.tb.sched = [e]) :
    exec .warpEventDue s = .next (s.keepFixed
      (if (({ s with out := [] } : State).actEvent e).1 then unscheduled e (({ s with out := [] } : State).actEvent e).2
        else { s with out := [] }).deliver) :=
  run_next (fun s => s.onlyIf s.alive warpEventDue) s _ ((onlyIf_pos _ _ _ halive).trans (warpEventDue_one e _ h))

/-- An event that acts is scheduled no more. -/
theorem eventDue_acts (e : Sched) (s u : State) (halive : s.alive = true) (h : s.tb.sched = [e])
    (hact : ({ s with out := [] } : State).actEvent e = (true, u)) :
    exec .warpEventDue s = .next (s.keepFixed (unscheduled e u).deliver) := by
  rw [eventDue_next e s halive h, hact]
  rfl

/-- An event that is not due changes nothing. -/
theorem eventDue_waits (e : Sched) (s : State) (halive : s.alive = true) (h : s.tb.sched = [e])
    (hact : ({ s with out := [] } : State).actEvent e = (false, { s with out := [] })) :
    ∃ t, exec .warpEventDue s = .next t ∧ Keeps [] s t := by
  rw [eventDue_next e s halive h, hact]
  exact ⟨_, rfl, ended_effect_keeps (Keeps_refl _ _)⟩

theorem unscheduled_sched (e : Sched) (s u : State) (h : s.tb.sched = [e]) (htb : u.tb = s.tb) :
    (s.keepFixed (unscheduled e u).deliver).tb.sched = [] := by
  rw [ended_tb, unscheduled, htb, h]
  simp

/-- An event of a group whose member is there acts on it at its coincidence point. -/
theorem actEvent_member (e : Sched) (s : State) (i : Nat) (htype : e.type ≠ 1) (hmember : s.member e.group = some i) :
    s.actEvent e = if s.coincidenceAt (s.lead i) e.time ≤ s.time
      then (true, s.memberEvent e i (s.coincidenceAt (s.lead i) e.time)) else (false, s) := by
  unfold State.actEvent
  rw [if_neg (by simpa using htype), hmember]

theorem sync_due (e : Sched) (s : State) (halive : s.alive = true) (h : s.tb.sched = [e]) (htype : e.type = 1) (hdue : e.time ≤ s.time) :
    ∃ t, exec .warpEventDue s = .next t ∧ t.tb.sched = [] ∧ Keeps [.bnds, .tb] s t := by
  obtain ⟨bnds, hsync⟩ := syncUnits_changes { s with out := [] } e.time
  have hact : ({ s with out := [] } : State).actEvent e = (true, { s with out := [], bnds := bnds }) := by
    unfold State.actEvent
    rw [if_pos (by simp [htype]), hsync]
    exact if_pos hdue
  refine ⟨_, eventDue_acts e s _ halive h hact, unscheduled_sched e s _ h rfl, ended_effect_keeps ?_⟩
  exact keeps_then [.bnds] [.tb] _ _ _ _ (bnds_keeps _ _) (tb_keeps _ _) (by decide) (by decide)

/-- A SYNC that is not due waits. -/
theorem sync_waits (e : Sched) (s : State) (halive : s.alive = true) (h : s.tb.sched = [e]) (htype : e.type = 1) (hdue : s.time < e.time) :
    ∃ t, exec .warpEventDue s = .next t ∧ Keeps [] s t := by
  refine eventDue_waits e s halive h ?_
  unfold State.actEvent
  rw [if_pos (by simp [htype])]
  exact if_neg (Nat.not_le.mpr hdue)

/-- An event of a group that is not due waits. -/
theorem member_waits (e : Sched) (i : Nat) (s : State) (halive : s.alive = true) (h : s.tb.sched = [e]) (htype : e.type ≠ 1)
    (hmember : s.member e.group = some i) (hdue : s.time < s.coincidenceAt (s.lead i) e.time) :
    ∃ t, exec .warpEventDue s = .next t ∧ Keeps [] s t :=
  eventDue_waits e s halive h ((actEvent_member e { s with out := [] } i htype hmember).trans (if_neg (Nat.not_le.mpr hdue)))

/-- An event of a group acts on its member at the coincidence point. -/
theorem member_acts (e : Sched) (i : Nat) (s : State) (halive : s.alive = true) (h : s.tb.sched = [e]) (htype : e.type ≠ 1)
    (hmember : s.member e.group = some i) (hdue : s.coincidenceAt (s.lead i) e.time ≤ s.time) :
    exec .warpEventDue s = .next (s.keepFixed (unscheduled e
      (({ s with out := [] } : State).memberEvent e i (s.coincidenceAt (s.lead i) e.time))).deliver) :=
  eventDue_acts e s _ halive h ((actEvent_member e { s with out := [] } i htype hmember).trans (if_pos hdue))

theorem memberEvent_starts (s : State) (e : Sched) (i point : Nat) (htype : e.type = 2) (hst : s.siteSt i = .armed) :
    s.memberEvent e i point = (running s i).beginStep i 1 point := by
  unfold State.memberEvent
  rw [htype, hst]
  exact startRun_eq s i point

/-- A paused site that runs again 2,048 ticks after a coincidence point (R215). -/
def resumed (now point : Nat) (x : Site) : Site :=
  { x with
    st := .running, resuming := false, pausing := false, pauseBoundary := false, resumeAt := some (point + 2048)
    run := { x.run with
      boundary := false, paused := x.run.paused + (now - x.pausedAt)
      nextCycle := (point + 2048) * stepsPerTick, wordOrigin := (point + 2048) * stepsPerTick, wordCount := 0, wordTaken := 0 } }

theorem memberEvent_resumes (s : State) (e : Sched) (i point : Nat) (htype : e.type = 2) (hst : s.siteSt i = .paused) :
    s.memberEvent e i point = s.setSite i (resumed s.time point) := by
  unfold State.memberEvent
  rw [htype, hst]
  rfl

theorem memberEvent_pauses (s : State) (e : Sched) (i point : Nat) (htype : e.type = 3) (hst : s.siteSt i = .running) :
    s.memberEvent e i point = s.setSite i (fun t => { t with pausing := true }) := by
  unfold State.memberEvent
  rw [htype, hst]
  rfl

theorem running_tb (s : State) (i : Nat) : (running s i).tb = s.tb :=
  ofUnported State.tb s (loosed s i) (by simp [loosed]) fun _ => rfl

/-- A START takes its ARMED member to step 1. -/
theorem start_due (e : Sched) (i : Nat) (s : State) (halive : s.alive = true) (h : s.tb.sched = [e]) (htype : e.type = 2)
    (hmember : s.member e.group = some i) (hdue : s.coincidenceAt (s.lead i) e.time ≤ s.time) (hst : s.siteSt i = .armed)
    (hwell : beginsWell ((s.run' i).stepRec 1)) :
    ∃ t, exec .warpEventDue s = .next t ∧ t.tb.sched = [] ∧ t.siteSt i = .running ∧ (t.run' i).step = 1 ∧
      (t.run' i).cycle0 = s.coincidenceAt (s.lead i) e.time + 2048 ∧ t.mem = s.mem := by
  have hexec := member_acts e i s halive h (by omega) hmember hdue
  rw [memberEvent_starts { s with out := [] } e i _ htype hst] at hexec
  set point := s.coincidenceAt (s.lead i) e.time
  have hrun : (running { s with out := [] } i).run' i = s.run' i := running_run _ _
  have htb : (running { s with out := [] } i).tb = s.tb := running_tb _ _
  have hrunning : (running { s with out := [] } i).siteSt i = .running := running_siteSt _ _
  have hmem : ((running { s with out := [] } i).beginStep i 1 point).memory = s.memory := by simp [running, loosed]
  generalize running { s with out := [] } i = u at hexec hrun htb hrunning hmem
  have hwell' : beginsWell ((u.run' i).stepRec 1) := by rwa [hrun]
  obtain ⟨hbegunSt, -, hstep, -, -⟩ := beginStep_leaves u i 1 point (by decide) hwell'
  obtain ⟨-, -, hcycle0⟩ := (beginStep_start u i 1 point hwell').1 (by simp [knowsStart])
  have hbegunTb := (beginStep_tb u i 1 point hwell').trans htb
  generalize u.beginStep i 1 point = v at hexec hmem hbegunSt hstep hcycle0 hbegunTb
  have hrun' : (s.keepFixed (unscheduled e v).deliver).run' i = v.run' i := congrArg Site.run (by rw [keepFixed_site, deliver_site]; rfl)
  refine ⟨_, hexec, unscheduled_sched e s v h hbegunTb, ?_, by rw [hrun', hstep], by rw [hrun', hcycle0], ended_mem _ _ hmem⟩
  rw [keepFixed_siteSt, deliver_siteSt]
  exact hbegunSt.trans hrunning

theorem ended_site (s t : State) (i : Nat) : (s.keepFixed t.deliver).site i = t.site i := by rw [keepFixed_site, deliver_site]

/-- An event that changes its member alone is scheduled no more and leaves the other sites. -/
theorem member_changes (e : Sched) (i : Nat) (s : State) (f : Site → Site) (halive : s.alive = true) (h : s.tb.sched = [e])
    (htype : e.type ≠ 1) (hmember : s.member e.group = some i) (hdue : s.coincidenceAt (s.lead i) e.time ≤ s.time)
    (hact : ({ s with out := [] } : State).memberEvent e i (s.coincidenceAt (s.lead i) e.time) = ({ s with out := [] } : State).setSite i f) :
    ∃ t, exec .warpEventDue s = .next t ∧ t.tb.sched = [] ∧ t.site i = f (s.site i) ∧ OnlySite i [.tb] s t := by
  have hexec := member_acts e i s halive h htype hmember hdue
  rw [hact] at hexec
  set u := ({ s with out := [] } : State).setSite i f
  have hsite (j : Nat) : u.site j = if j = i then f (s.site i) else s.site j := site_setSite _ _ _ _
  refine ⟨_, hexec, unscheduled_sched e s u h rfl, ?_, fun j hj => ?_, ended_effect_keeps ?_⟩
  · rw [ended_site]
    exact (hsite i).trans (if_pos rfl)
  · rw [ended_site]
    exact (hsite j).trans (if_neg hj)
  · exact keeps_then [.sites] [.tb] _ _ _ _ (setSite_keeps _ _ _) (tb_keeps _ _) (by decide) (by decide)

/-- A START takes its PAUSED member to RUNNING. -/
theorem resume_due (e : Sched) (i : Nat) (s : State) (halive : s.alive = true) (h : s.tb.sched = [e]) (htype : e.type = 2)
    (hmember : s.member e.group = some i) (hdue : s.coincidenceAt (s.lead i) e.time ≤ s.time) (hst : s.siteSt i = .paused) :
    ∃ t, exec .warpEventDue s = .next t ∧ t.tb.sched = [] ∧ t.siteSt i = .running ∧
      (t.site i).resumeAt = some (s.coincidenceAt (s.lead i) e.time + 2048) ∧ OnlySite i [.tb] s t := by
  obtain ⟨t, hexec, hsched, hsite, honly⟩ := member_changes e i s _ halive h (by omega) hmember hdue
    (memberEvent_resumes { s with out := [] } e i _ htype hst)
  exact ⟨t, hexec, hsched, congrArg Site.st hsite, congrArg Site.resumeAt hsite, honly⟩

/-- A PAUSE asks its RUNNING member to pause. -/
theorem pause_due (e : Sched) (i : Nat) (s : State) (halive : s.alive = true) (h : s.tb.sched = [e]) (htype : e.type = 3)
    (hmember : s.member e.group = some i) (hdue : s.coincidenceAt (s.lead i) e.time ≤ s.time) (hst : s.siteSt i = .running) :
    ∃ t, exec .warpEventDue s = .next t ∧ t.tb.sched = [] ∧ OnlySite i [.tb] s t ∧
      t.site i = { s.site i with pausing := true } := by
  obtain ⟨t, hexec, hsched, hsite, honly⟩ := member_changes e i s _ halive h (by omega) hmember hdue
    (memberEvent_pauses { s with out := [] } e i _ htype hst)
  exact ⟨t, hexec, hsched, honly, hsite⟩

/-- Settles O31: the sets that arrive, then the events whose point has come. -/
theorem warpEvents : Obligations.WarpEvents := by
  unfold Obligations.WarpEvents
  refine ⟨fun seq group time s halive hrole hlocked => ⟨sync_heard seq time s halive hrole hlocked, ?_, ?_,
    hold_heard seq time s halive hrole hlocked, fun w hw => ⟨abort_heard seq group time s halive hrole hlocked w hw,
      abort_from_below seq group time s halive hrole w hw, abort_not_heard seq group time s halive hrole hlocked w hw⟩⟩,
    fun e i s halive h => ⟨sync_due e s halive h, fun htype hmember hdue => ⟨start_due e i s halive h htype hmember hdue,
      resume_due e i s halive h htype hmember hdue⟩, pause_due e i s halive h, sync_waits e s halive h, member_waits e i s halive h⟩⟩
  · rintro w rfl hlast
    refine ⟨lockstep_waits s 2 group.toNat seq.toNat time.toNat halive hrole hlocked hlast, ?_⟩
    rintro i u hlate hmember hst rfl
    exact lockstep_missed s 2 group.toNat seq.toNat time.toNat halive hrole hlocked hlast i hlate hmember hst
  · rintro w rfl hlast
    refine ⟨lockstep_waits s 3 group.toNat seq.toNat time.toNat halive hrole hlocked hlast, ?_⟩
    rintro i u hlate hmember hst rfl
    exact lockstep_missed s 3 group.toNat seq.toNat time.toNat halive hrole hlocked hlast i hlate hmember hst

end Sys2Proof.Proofs
end

section
/-! Events of the analogue units: the end of a blank, limits at a pin, a wave DAC's underrun, and the outputs of the
measurement chain (R113, R117, R118, R124, R132, R146, R158, R161 to R170, R544). -/
namespace Sys2Proof.Laws
open Sys2Proof.Machine Sys2Proof.Safety

/-! ### A command that changes one port or one bundle -/

theorem ended_port (s t : State) (p : Nat) : (s.keepFixed t.deliver).port p = t.port p := deliver_port t p
theorem ended_bnd (s t : State) (b : Nat) : (s.keepFixed t.deliver).bnd b = t.bnd b := deliver_bnd t b
theorem ended_reg (s t : State) (o : Obj) (u k : Nat) (he : ¬ eventKey (o.key u k)) :
    (s.keepFixed t.deliver).reg o u k = t.reg o u k := deliver_reg t o u k he

theorem ended_onlyBnd {b : Nat} {but : List Part} {s t : State} (hothers : ∀ c, c ≠ b → t.bnd c = s.bnd c)
    (hkeeps : Keeps (.bnds :: but) { s with out := [] } t) : OnlyBnd b but s (s.keepFixed t.deliver) :=
  ⟨fun c hc => (ended_bnd s t c).trans (hothers c hc), ended_effect_keeps hkeeps⟩

/-- A command whose condition holds and that changes one port. -/
theorem run_setPort (p : Nat) (c : State → Bool) (f : Port → Port) (s : State) (hc : c { s with out := [] } = true) :
    ∃ t, run (fun s => s.onlyIf (c s) (fun s => s.setPort p f)) s = .next t ∧ OnlyPort p [] s t ∧ t.port p = f (s.port p) := by
  have hport (q : Nat) : (({ s with out := [] } : State).setPort p f).port q = if q = p then f (s.port p) else s.port q :=
    port_setPort _ _ _ _
  refine ⟨_, run_next _ _ _ (onlyIf_pos _ _ _ hc), ⟨fun q hq => ?_, ended_effect_keeps (setPort_keeps _ _ _)⟩, ?_⟩
  · rw [ended_port, hport, if_neg hq]
  · rw [ended_port, hport, if_pos rfl]

/-- A command whose condition holds and that changes one bundle. -/
theorem run_setBnd (b : Nat) (c : State → Bool) (f : Bundle → Bundle) (s : State) (hc : c { s with out := [] } = true) :
    ∃ t, run (fun s => s.onlyIf (c s) (fun s => s.setBnd b f)) s = .next t ∧ OnlyBnd b [] s t ∧ t.bnd b = f (s.bnd b) := by
  have hbnd (d : Nat) : (({ s with out := [] } : State).setBnd b f).bnd d = if d = b then f (s.bnd b) else s.bnd d :=
    bnd_setBnd _ _ _ _
  refine ⟨_, run_next _ _ _ (onlyIf_pos _ _ _ hc), ended_onlyBnd (fun d hd => ?_) (setBnd_keeps _ _ _), ?_⟩
  · rw [hbnd, if_neg hd]
  · rw [ended_bnd, hbnd, if_pos rfl]

/-! ### PORT_STATUS, bit by bit (R544) -/

theorem portStatus_eq (s : State) (p : Nat) : s.portStatus p =
    (s.port p).fe.pmuLimit.toNat + 2 * (s.port p).fe.drvLimit.toNat + 4 * (s.port p).cal.substituted.toNat
      + 8 * (s.portFailed p).toNat + 16 * (s.port p).cal.held.toNat + 256 * (s.port p).fe.pmuSeen.toNat
      + 512 * (s.port p).fe.drvSeen.toNat + 1024 * (s.port p).fe.testFail.toNat := by
  have hbit (c : Bool) (n : Nat) : (if c then 2 ^ n else 0) = 2 ^ n * c.toNat := by cases c <;> simp
  simp only [State.portStatus, hbit]
  omega

theorem portStatus_bits (s : State) (p : Nat) :
    s.portStatus p % 2 = (s.port p).fe.pmuLimit.toNat ∧ s.portStatus p / 2 % 2 = (s.port p).fe.drvLimit.toNat ∧
      s.portStatus p / 2 ^ 8 % 2 = (s.port p).fe.pmuSeen.toNat ∧ s.portStatus p / 2 ^ 9 % 2 = (s.port p).fe.drvSeen.toNat := by
  have hpmu := (s.port p).fe.pmuLimit.toNat_le
  have hdrv := (s.port p).fe.drvLimit.toNat_le
  have hsub := (s.port p).cal.substituted.toNat_le
  have hfailed := (s.portFailed p).toNat_le
  have hheld := (s.port p).cal.held.toNat_le
  have hpmuSeen := (s.port p).fe.pmuSeen.toNat_le
  have hdrvSeen := (s.port p).fe.drvSeen.toNat_le
  rw [portStatus_eq]
  omega

/-! ### What a swap of the banks leaves of a chain (R167) -/

/-- A bundle but for which coefficient bank its chain uses and will use. -/
def unswapped (x : Bundle) : Bundle :=
  { x with meas := { x.meas with active := false, fade := none, queued := none, instant := none } }

/-- Nothing differs but which bank a bundle's chain uses and will use. -/
structure SwapsOnly (b : Nat) (s t : State) : Prop where
  keeps : Keeps [.bnds] s t
  dict : t.dict = s.dict
  others : ∀ c, c ≠ b → t.bnd c = s.bnd c
  own : unswapped (t.bnd b) = unswapped (s.bnd b)

theorem swapsOnly_refl (b : Nat) (s : State) : SwapsOnly b s s := ⟨Keeps_refl _ _, rfl, fun _ _ => rfl, rfl⟩

theorem swapsOnly_trans {b : Nat} {s t u : State} (h : SwapsOnly b s t) (h' : SwapsOnly b t u) : SwapsOnly b s u :=
  ⟨Keeps_trans _ _ _ _ h.keeps h'.keeps, h'.dict.trans h.dict, fun c hc => (h'.others c hc).trans (h.others c hc),
    h'.own.trans h.own⟩

theorem swapsOnly_setBnd (b : Nat) (s : State) (f : Bundle → Bundle) (h : unswapped (f (s.bnd b)) = unswapped (s.bnd b)) :
    SwapsOnly b s (s.setBnd b f) :=
  ⟨setBnd_keeps _ _ _, rfl, fun c hc => by rw [bnd_setBnd, if_neg hc], by rw [bnd_setBnd, if_pos rfl, h]⟩

theorem measSwap_swapsOnly (s : State) (b : Nat) (target : Bool) (len : Nat) (afterReset : Bool) :
    SwapsOnly b s (s.measSwap b target len afterReset) := by
  unfold State.measSwap
  extract_lets bypassed
  refine swapsOnly_setBnd b s _ ?_
  dsimp only
  split_ifs <;> rfl

theorem measAdvance_swapsOnly (s : State) (b : Nat) : SwapsOnly b s (s.measAdvance b) := by
  unfold State.measAdvance
  extract_lets m
  split
  · exact swapsOnly_refl b s
  · split
    · exact swapsOnly_setBnd b s _ rfl
    · have hended (f : Fade) : SwapsOnly b s
          (s.setBnd b (fun x => { x with meas := { m with fade := none, active := f.target, queued := none } })) :=
        swapsOnly_setBnd b s _ rfl
      dsimp only
      split
      · exact swapsOnly_trans (hended _) (measSwap_swapsOnly _ _ _ _ _)
      · exact hended _

/-- With the FIR bypassed a swap takes place at the next output. -/
def instantSwap (b : Nat) (s : State) : State :=
  match (s.bnd b).meas.instant with
  | some t => s.setBnd b (fun x => { x with meas := { x.meas with active := t, instant := none } })
  | none => s

theorem instantSwap_swapsOnly (b : Nat) (s : State) : SwapsOnly b s (instantSwap b s) := by
  unfold instantSwap
  split
  · exact swapsOnly_setBnd b s _ rfl
  · exact swapsOnly_refl b s

/-! ### An output of the chain (R161 to R170) -/

/-- A bundle whose chain has formed one more output of `need` sinc outputs. -/
def sincUsed (need : Nat) (hist : List Rat) (x : Bundle) : Bundle :=
  { x with meas := { x.meas with hist := hist, sincN := x.meas.sincN + need, outN := x.meas.outN + 1
                                 waiting := x.meas.waiting.drop need } }

/-- A bundle whose ring has taken one more record. -/
def ringTook (w : Word) (x : Bundle) : Bundle :=
  { x with meas := { x.meas with
      writeCount := (x.meas.writeCount + 1) % 2 ^ 32
      ring := Store.put 0 (((x.meas.writeCount + 1) % 2 ^ 32 + 1023) % 1024) w x.meas.ring } }

theorem unswapped_output (w : Word) (need : Nat) (hist : List Rat) (x : Bundle) :
    unswapped (ringTook w (sincUsed need hist x)) = ringTook w (sincUsed need hist (unswapped x)) := rfl

theorem setBnd_ringTook (s : State) (b n : Nat) (w : Word) (hn : n = ((s.bnd b).meas.writeCount + 1) % 2 ^ 32) :
    s.setBnd b (fun x => { x with meas := { x.meas with
      writeCount := n, ring := Store.put 0 ((n + 1023) % 1024) w x.meas.ring } }) = s.setBnd b (ringTook w) := by
  subst hn
  rfl

theorem measRecord_eq (s : State) (b : Nat) (valid outside bank fading : Bool) (code : Int) :
    ∃ v m, s.measRecord b valid outside bank fading code
      = ((s.wr .bndMeasLast v b).send m).setBnd b (ringTook (Word.of v)) := by
  unfold State.measRecord
  extract_lets m n bit rec' u
  have hbnd : u.bnd b = s.bnd b := (send_bnd _ _ _).trans (wr_bnd _ _ _ _ _ _)
  exact ⟨rec', _, setBnd_ringTook u b n _ (by rw [hbnd])⟩

/-- An output: the swap that is due, the sinc outputs used, the record, and the next point of a fade. -/
theorem measOutputEffect_eq (b : Nat) (s : State) (h : s.sincNeeded b ≤ (s.bnd b).meas.waiting.length) :
    ∃ hist valid outside bank fading code, measOutputEffect b s =
      ((((instantSwap b s).setBnd b (sincUsed (s.sincNeeded b) hist)).measRecord b valid outside bank fading code).measAdvance b) :=
  ⟨_, _, _, _, _, _, if_neg (Nat.not_lt.2 h)⟩

theorem measOutputEffect_waits (b : Nat) (s : State) (h : (s.bnd b).meas.waiting.length < s.sincNeeded b) :
    measOutputEffect b s = s := if_pos h

/-- What an output leaves: a result word v, shown in BND_MEAS_LAST and recorded in the ring, and the sinc outputs used. -/
theorem measOutputEffect_adds (b : Nat) (s : State) (h : s.sincNeeded b ≤ (s.bnd b).meas.waiting.length) :
    ∃ v hist, (measOutputEffect b s).dict = (s.wr .bndMeasLast v b).dict ∧
      (∀ c, c ≠ b → (measOutputEffect b s).bnd c = s.bnd c) ∧ Keeps [.bnds, .regs] s (measOutputEffect b s) ∧
      unswapped ((measOutputEffect b s).bnd b) = ringTook (Word.of v) (sincUsed (s.sincNeeded b) hist (unswapped (s.bnd b))) := by
  obtain ⟨hist, valid, outside, bank, fading, code, heq⟩ := measOutputEffect_eq b s h
  obtain ⟨v, m, hrecord⟩ := measRecord_eq ((instantSwap b s).setBnd b (sincUsed (s.sincNeeded b) hist)) b valid outside bank fading code
  have hfirst := instantSwap_swapsOnly b s
  have hlast := measAdvance_swapsOnly
    (((((instantSwap b s).setBnd b (sincUsed (s.sincNeeded b) hist)).wr .bndMeasLast v b).send m).setBnd b (ringTook (Word.of v))) b
  rw [heq, hrecord]
  refine ⟨v, hist, ?_, fun c hc => ?_, ?_, ?_⟩
  · rw [hlast.dict]
    simp [State.wr, State.setReg, hfirst.dict]
  · rw [hlast.others c hc]
    simp [hc, hfirst.others c hc]
  · have hused := keeps_then [.bnds] [.bnds] [.bnds] _ _ _ hfirst.keeps (setBnd_keeps _ b (sincUsed (s.sincNeeded b) hist))
      (by decide) (by decide)
    have hshown := keeps_then [.bnds] [.regs] [.bnds, .regs] _ _ _ hused (wr_keeps _ .bndMeasLast v b 0) (by decide) (by decide)
    have hsent := keeps_then _ [] [.bnds, .regs] _ _ _ hshown (send_keeps _ m) (by decide) (by decide)
    have hput := keeps_then _ [.bnds] [.bnds, .regs] _ _ _ hsent (setBnd_keeps _ b (ringTook (Word.of v))) (by decide) (by decide)
    exact keeps_then _ [.bnds] [.bnds, .regs] _ _ _ hput hlast.keeps (by decide) (by decide)
  · rw [hlast.own, ← hfirst.own, ← unswapped_output]
    simp

theorem measLast_not_eventKey (b : BundleNo) : ¬ eventKey (Obj.bndMeasLast.key b) :=
  not_eventKey _ (by revert b; decide) (by revert b; decide)

end Sys2Proof.Laws

namespace Sys2Proof.Proofs
open Sys2Proof.Machine Sys2Proof.Safety Sys2Proof.Laws

/-! ### The front end -/

theorem span_blank_ends (p : PortNo) (s : State) (dac : Fin 10)
    (h : s.passed (Store.get 0 dac.val (s.port p).fe.blankAt) (5 * ticksPerUs) = true) :
    ∃ t, exec (.spanBlankEnd p dac) s = .next t ∧ OnlyPort p [] s t ∧
      t.port p = { s.port p with fe := { (s.port p).fe with blanks := (s.port p).fe.blanks.filter (· != dac) } } :=
  run_setPort p (fun s => s.passed (Store.get 0 dac.val (s.port p).fe.blankAt) (5 * ticksPerUs)) _ s h

theorem pmu_limit_seen (p : PortNo) (s : State) (dut : Option PinDrive) (hpmu : (s.enables p).pmu = true)
    (hlimit : (s.portSettled p dut).limited = true) :
    ∃ t, exec (.pmuLimitReached ⟨p, dut⟩) s = .next t ∧ OnlyPort p [] s t ∧
      t.port p = { s.port p with fe := { (s.port p).fe with pmuLimit := true, pmuSeen := true } } ∧
      t.portStatus p % 2 = 1 ∧ t.portStatus p / 2 ^ 8 % 2 = 1 := by
  obtain ⟨t, hexec, honly, hport⟩ := run_setPort p (fun s => (s.enables p).pmu && (s.portSettled p dut).limited)
    (fun q => { q with fe := { q.fe with pmuLimit := true, pmuSeen := true } }) s (Bool.and_eq_true_iff.2 ⟨hpmu, hlimit⟩)
  obtain ⟨hflag, -, hsticky, -⟩ := portStatus_bits t p
  exact ⟨t, hexec, honly, hport, by rw [hflag, hport]; rfl, by rw [hsticky, hport]; rfl⟩

theorem driver_limit_seen (p : PortNo) (s : State) (dut : Option PinDrive)
    (hacts : (s.acting p).drive = true ∨ (s.acting p).term = true) (hlimit : (s.portSettled p dut).limited = true) :
    ∃ t, exec (.drvLimitReached ⟨p, dut⟩) s = .next t ∧ OnlyPort p [] s t ∧
      t.port p = { s.port p with fe := { (s.port p).fe with drvLimit := true, drvSeen := true } } ∧
      t.portStatus p / 2 % 2 = 1 ∧ t.portStatus p / 2 ^ 9 % 2 = 1 := by
  obtain ⟨t, hexec, honly, hport⟩ := run_setPort p
    (fun s => ((s.acting p).drive || (s.acting p).term) && (s.portSettled p dut).limited)
    (fun q => { q with fe := { q.fe with drvLimit := true, drvSeen := true } }) s
    (Bool.and_eq_true_iff.2 ⟨Bool.or_eq_true_iff.2 hacts, hlimit⟩)
  obtain ⟨-, hflag, -, hsticky⟩ := portStatus_bits t p
  exact ⟨t, hexec, honly, hport, by rw [hflag, hport]; rfl, by rw [hsticky, hport]; rfl⟩

/-! ### The pool -/

theorem pool_blank_ends (b : BundleNo) (s : State) (cell : Fin 16)
    (h : s.passed (Store.get 0 cell.val (s.bnd b).pool.blankAt) (5 * ticksPerUs) = true) :
    ∃ t, exec (.poolBlankEnd b cell) s = .next t ∧ OnlyBnd b [] s t ∧
      t.bnd b = { s.bnd b with pool := { (s.bnd b).pool with blanks := (s.bnd b).pool.blanks.filter (· != cell) } } :=
  run_setBnd b (fun s => s.passed (Store.get 0 cell.val (s.bnd b).pool.blankAt) (5 * ticksPerUs)) _ s h

/-- A bundle with wave DAC wd in underrun. -/
def starved (wd : Nat) (x : Bundle) : Bundle :=
  { x with pool := if wd == 0 then { x.pool with wd0 := { x.pool.wd0 with underrun := true } }
      else { x.pool with wd1 := { x.pool.wd1 with underrun := true } } }

theorem stream_underruns (b : BundleNo) (s : State) (wd : Fin 2) (hmode : s.cellMode b (10 + wd.val) = 2)
    (hempty : (s.osc b wd.val).fifo = []) :
    ∃ t, exec (.streamUnderrun b wd) s = .next t ∧ OnlyBnd b [] s t ∧ (t.bnd b).meas = (s.bnd b).meas ∧
      t.osc b wd.val = { s.osc b wd.val with underrun := true } ∧ t.osc b (1 - wd.val) = s.osc b (1 - wd.val) := by
  obtain ⟨t, hexec, honly, hbnd⟩ := run_setBnd b (fun s => s.cellMode b (10 + wd.val) == 2 && (s.osc b wd.val).fifo.isEmpty)
    (starved wd) s (Bool.and_eq_true_iff.2 ⟨beq_iff_eq.2 hmode, List.isEmpty_iff.2 hempty⟩)
  refine ⟨t, hexec, honly, by rw [hbnd]; rfl, ?_⟩
  match wd with
  | 0 | 1 => exact ⟨by rw [State.osc, hbnd]; rfl, by rw [State.osc, hbnd]; rfl⟩

/-! ### The measurement chain -/

theorem meas_completes (b : BundleNo) (s : State) (h : s.sincNeeded b ≤ (s.bnd b).meas.waiting.length) :
    ∃ t, exec (.measOutput b ()) s = .next t ∧ OnlyBnd b [.regs] s t ∧ RegsBut [Obj.bndMeasLast.key b] s t ∧
      (t.bnd b).meas.writeCount = ((s.bnd b).meas.writeCount + 1) % 2 ^ 32 ∧
      (t.bnd b).meas.outN = (s.bnd b).meas.outN + 1 ∧
      (t.bnd b).meas.waiting = (s.bnd b).meas.waiting.drop (s.sincNeeded b) ∧
      t.reg .bndMeasLast b = Store.get 0 (((t.bnd b).meas.writeCount + 1023) % 1024) (t.bnd b).meas.ring ∧
      (t.bnd b).pool = (s.bnd b).pool := by
  obtain ⟨v, hist, hdict, hothers, hkeeps, hown⟩ := measOutputEffect_adds b { s with out := [] } h
  set u := measOutputEffect b { s with out := [] }
  have hcount : (u.bnd b).meas.writeCount = ((s.bnd b).meas.writeCount + 1) % 2 ^ 32 := congrArg (·.meas.writeCount) hown
  have hring : (u.bnd b).meas.ring = Store.put 0 (((u.bnd b).meas.writeCount + 1023) % 1024) (Word.of v) (s.bnd b).meas.ring := by
    rw [hcount]
    exact congrArg (·.meas.ring) hown
  have hlast : u.reg .bndMeasLast b = Word.of v := by
    rw [State.reg, hdict]
    exact reg_wr_same s .bndMeasLast v b 0
  refine ⟨_, run_next (measOutputEffect b) s u rfl, ended_onlyBnd hothers hkeeps, fun key d hkey he => ?_, ?_⟩
  · rw [show Store.get d key (s.keepFixed u.deliver).dict.regs = _ from deliver_get u key d he, hdict]
    exact get_setReg s _ _ _ _ _ _ (by simpa using hkey)
  · rw [ended_bnd, ended_reg _ _ _ _ _ (measLast_not_eventKey b), hlast, hring, Store_get_put, if_pos rfl]
    exact ⟨hcount, congrArg (·.meas.outN) hown, congrArg (·.meas.waiting) hown, rfl, congrArg (·.pool) hown⟩

theorem meas_waits (b : BundleNo) (s : State) (h : (s.bnd b).meas.waiting.length < s.sincNeeded b) :
    ∃ t, exec (.measOutput b ()) s = .next t ∧ t.bnd b = s.bnd b ∧ OnlyBnd b [] s t :=
  ⟨_, run_next (measOutputEffect b) s _ (measOutputEffect_waits b _ h), ended_bnd _ _ _,
    ended_onlyBnd (fun _ _ => rfl) (Keeps_refl _ _)⟩

/-- Settles O24: each row of the front end, the pool and the measurement chain has the effect that its lemma above describes. -/
theorem analogueEvents : Obligations.AnalogueEvents := by
  unfold Obligations.AnalogueEvents
  exact ⟨fun p s => ⟨span_blank_ends p s, pmu_limit_seen p s, driver_limit_seen p s⟩,
    fun b s => ⟨pool_blank_ends b s, stream_underruns b s, meas_completes b s, meas_waits b s⟩⟩

end Sys2Proof.Proofs
end

section
/-! Accepted writes that are answered at once: the reply goes out, and what the command leaves is what the effect of the
write leaves (R27, R71, R485 to R487). -/
namespace Sys2Proof.Laws
open Sys2Proof.Machine Sys2Proof.Safety

/-! ### What a frame says of a unit -/

theorem keeps_bnd {l : List Part} {s t : State} (h : Keeps l s t) (hl : .bnds ∉ l) (b : Nat) : t.bnd b = s.bnd b := by
  rw [State.bnd, h.2.2 .bnds hl, State.bnd]
theorem keeps_port {l : List Part} {s t : State} (h : Keeps l s t) (hl : .ports ∉ l) (p : Nat) : t.port p = s.port p := by
  rw [State.port, h.2.2 .ports hl, State.port]
theorem keeps_reg {l : List Part} {s t : State} (h : Keeps l s t) (hl : .regs ∉ l) (o : Obj) (u k : Nat)
    (he : ¬ eventKey (o.key u k)) : t.reg o u k = s.reg o u k := h.2.2 .regs hl _ _ he
theorem keeps_dom {l : List Part} {s t : State} (h : Keeps l s t) (hl : .doms ∉ l) (o : Obj) (u k off n : Nat) :
    t.dom o u k off n = s.dom o u k off n := by
  rw [State.dom, h.2.2 .doms hl, State.dom]

theorem keeps_linkOf {l : List Part} {s t : State} (h : Keeps l s t) (hl : .bnds ∉ l) (b c n : Nat) :
    t.linkOf b c n = s.linkOf b c n := by
  rw [State.linkOf, keeps_bnd h hl, State.linkOf]

@[simp] theorem received_ij (rq : Rq) (s : State) : (received rq s).ij = s.ij := by
  obtain ⟨src, seq, cfg⟩ := rq
  cases src <;> simp [received, hears_eq]
@[simp] theorem received_bnd (rq : Rq) (s : State) (b : Nat) : (received rq s).bnd b = s.bnd b :=
  keeps_bnd (received_keeps rq s) (by decide) b
@[simp] theorem received_port (rq : Rq) (s : State) (p : Nat) : (received rq s).port p = s.port p :=
  keeps_port (received_keeps rq s) (by decide) p
@[simp] theorem received_reg (rq : Rq) (s : State) (o : Obj) (u k : Nat) : (received rq s).reg o u k = s.reg o u k := by
  simp [State.reg]

theorem dropTransfer_keeps (src : Src) (s : State) : Keeps [.ctl] s (dropTransfer src s) :=
  ⟨rfl, rfl, fun p hp => by cases p <;> simp_all [Part.same, dropTransfer]⟩

/-! ### The end of the command -/

/-- A command whose effect is answered OK: its reply is sent, and nothing but answering follows the effect. -/
theorem answered_ends (rq : Rq) (service : Nat) (a : Addr) (blk : Option (Nat × Nat)) (f : State → State) (l : List Part)
    (s e : State) (hf : f { s with out := [] } = answerNow rq service a blk (some .ok, e)) (hk : Keeps l s e)
    (hij : e.ij = s.ij) :
    ∃ t, run f s = .next t ∧
      (isHost rq.src = true ∨ s.ij.txDrop = 0 →
        Msg.reply rq.src rq.seq service a true true Status.ok.code blk [] ∈ t.out) ∧
      Keeps (l ++ answerParts) s t ∧ Keeps answerParts e t := by
  have ⟨hpending, hfuses, _⟩ := hk
  have hfixed (u : State) : s.keepFixed u = e.keepFixed u := by rw [State.keepFixed, ← hpending, ← hfuses, State.keepFixed]
  have hafter : Keeps answerParts e (s.keepFixed (e.reply rq service a .ok [] blk).deliver) := by
    rw [hfixed]
    exact answered_keeps _ _ _ _ _ _ _ _ _ (Keeps_refl _ _) (fun _ hp => hp)
  refine ⟨_, run_next f s _ hf, fun hs => ended_sent s (e.reply rq service a .ok [] blk) _ ?_, ?_, hafter⟩
  · exact reply_sends e rq service a .ok [] blk (by rwa [hij])
  · exact keeps_then _ _ _ _ _ _ hk hafter (by simp) (by simp)

/-- A command is what its effect does once nothing is sent yet. -/
theorem run_congr (f g : State → State) (s : State) (h : f { s with out := [] } = g { s with out := [] }) :
    run f s = run g s := by
  rw [run, h, run]

theorem rd_emptied (s : State) (o : Obj) (u k : Nat) : ({ s with out := [] } : State).rd o u k = s.rd o u k := rfl

/-! ### A block transfer -/

/-- The front checks look at the value of a request for commands and for ownership alone. -/
theorem frontCheck_value (s : State) (src : Src) (a : Addr) (o : Obj) (u k : Nat) (f : Form) (v : Nat)
    (hcommand : o ≠ .siteCommand) (howner : o ≠ .controlOwner) :
    s.frontCheck src a (.base o u k) { f with v := v } = s.frontCheck src a (.base o u k) f := by
  have hv (w : Nat) : (Named.base o u k).isAbort w = (Named.base o u k).is .abort := by simp [Named.isAbort, Named.is, hcommand]
  have his : (Named.base o u k).is .controlOwner = false := by simpa [Named.is] using howner
  have hlocked (w : Nat) : s.lockedOut src (.base o u k) w = s.lockedOut src (.base o u k) 0 := by
    simp [State.lockedOut, his]
  simp only [State.frontCheck, hv, hlocked v, hlocked f.v, lengthCheck]

theorem settle_of_ne (s : State) (w : Put) (x : Extra) (h : w.o ≠ .devCommand) : s.settle w x = (x, s) := by
  unfold State.settle
  split
  · next ho => exact absurd ho h
  · rfl

/-- The objects of blocks with checks and an effect of their own: none has a service rule of its own. -/
theorem dom_plain (o : Obj) (hdom : o.row.type = .dom) :
    o ≠ .abort ∧ o ≠ .groupCommit ∧ o ≠ .controlOwner ∧ o ≠ .siteCommand ∧ o ≠ .devCommand := by
  refine ⟨?_, ?_, ?_, ?_, ?_⟩ <;> rintro rfl <;> exact absurd hdom (by decide)

theorem blockTo_accepted (rq : Rq) (o : Obj) (u off : Nat) (data : List Byte) (s : State) (h : AcceptedBlock rq o u off data s)
    (ht : target (o.addr u) = .entry o u 0) (hdom : o.row.type = .dom) (hacc : o.row.acc ≠ .rwg) :
    blockTo rq o u off data { s with out := [] } = answerNow rq svcBlockWrite (o.addr u) (some (off, data.length))
      (putEffect rq svcBlockWrite (o.addr u) { o := o, u := u, off := off, data := data } {}
        (dropTransfer rq.src (received rq s))) := by
  obtain ⟨harr, hfront, hpre, hclosed, hlater⟩ := h
  obtain ⟨habort, hcommit, howner, hsite, hdev⟩ := dom_plain o hdom
  have hn := named_of_target (dropTransfer rq.src (received rq s)) (o.addr u) o u 0 ht
  dsimp only at hfront hclosed hlater hpre
  rw [frontCheck_value _ _ _ _ _ _ { write := true, block := true, len := data.length, off := off, total := data.length }
    (leNat data) hsite howner] at hfront
  rw [blockTo, arrives_received _ _ _ _ _ _ harr, writeBlock, hn]
  have hsettle := settle_of_ne (dropTransfer rq.src (received rq s)) { o := o, u := u, off := off, data := data } {} hdev
  simp [hfront, serveNamed, howner, hsite, hpre, hclosed, servePut, hsettle, hlater, hacc]

/-! ### What an effect on one bundle leaves -/

/-- A change of one bundle and of the parts listed; injection of faults goes on as before. -/
structure BndEffect (b : Nat) (l : List Part) (s t : State) : Prop where
  only : OnlyBnd b l s t
  ij : t.ij = s.ij

theorem bndEffect_refl (b : Nat) (l : List Part) (s : State) : BndEffect b l s s := ⟨⟨fun _ _ => rfl, Keeps_refl _ _⟩, rfl⟩
theorem bndEffect_trans {b : Nat} {l : List Part} {s t u : State} (h : BndEffect b l s t) (h' : BndEffect b l t u) :
    BndEffect b l s u :=
  ⟨⟨fun c hc => (h'.only.1 c hc).trans (h.only.1 c hc), Keeps_trans _ _ _ _ h.only.2 h'.only.2⟩, h'.ij.trans h.ij⟩
theorem bndEffect_setBnd (b : Nat) (l : List Part) (s : State) (f : Bundle → Bundle) : BndEffect b l s (s.setBnd b f) :=
  ⟨⟨fun c hc => by rw [bnd_setBnd, if_neg hc], Keeps_mono _ _ _ _ (setBnd_keeps s b f) (by simp)⟩, rfl⟩
theorem bndEffect_wr (b : Nat) (s : State) (o : Obj) (v u k : Nat) : BndEffect b [.regs] s (s.wr o v u k) :=
  ⟨⟨fun _ _ => rfl, Keeps_mono _ _ _ _ (wr_keeps s o v u k) (by simp)⟩, rfl⟩
theorem setDom_keeps (s : State) (o : Obj) (u k off : Nat) (data : List Byte) : Keeps [.doms] s (s.setDom o u k off data) :=
  ⟨rfl, rfl, fun p hp => by cases p <;> simp_all [Part.same]⟩
theorem bndEffect_setDom (b : Nat) (s : State) (o : Obj) (u k off : Nat) (data : List Byte) :
    BndEffect b [.doms] s (s.setDom o u k off data) :=
  ⟨⟨fun _ _ => rfl, Keeps_mono _ _ _ _ (setDom_keeps s o u k off data) (by simp)⟩, rfl⟩

/-- A frame of one bundle, where the states before and after it are followed by frames of no bundle. -/
theorem onlyBnd_between {b : Nat} {l m n : List Part} {r s e t : State} (hbefore : Keeps m s r) (heffect : OnlyBnd b l r e)
    (hafter : Keeps n e t) (hm : .bnds ∉ m) (hn : .bnds ∉ n) : OnlyBnd b (l ++ (m ++ n)) s t := by
  obtain ⟨hothers, hkeeps⟩ := heffect
  refine ⟨fun c hc => ?_, ?_⟩
  · rw [keeps_bnd hafter hn, hothers c hc, keeps_bnd hbefore hm]
  · have hfirst := keeps_then _ _ (.bnds :: (l ++ (m ++ n))) _ _ _ hbefore hkeeps (by grind) (by grind)
    exact keeps_then _ _ _ _ _ _ hfirst hafter (fun _ hp => hp) (by grind)

/-! ### Accepted writes to a bundle's pool and measurement chain -/

/-- The words of a bundle's pool and measurement chain. -/
def chainWords : List Obj := [.bndPoolLink, .bndMeasConfig, .bndMeasControl]
/-- The blocks of a bundle's pool and measurement chain. -/
def chainBlocks : List Obj := [.bndPoolCells, .bndPoolWave, .bndMeasCoef]

theorem target_chain (o : Obj) (h : o ∈ chainWords ++ chainBlocks) (b : BundleNo) : target (o.addr b) = .entry o b 0 :=
  (by decide : ∀ o ∈ chainWords ++ chainBlocks, ∀ b : BundleNo, target (o.addr b) = .entry o b 0) o h b

theorem chainWord_not_eventKey (o : Obj) (h : o ∈ chainWords) (b : BundleNo) : ¬ eventKey (o.key b) :=
  not_eventKey _ ((by decide : ∀ o ∈ chainWords, ∀ b : BundleNo, o.key b < Obj.portEventCount.key) o h b)
    ((by decide : ∀ o ∈ chainWords, ∀ b : BundleNo, o.key b ∉ [Obj.devLogLastCode.key, Obj.devEvtMasked.key,
      Obj.devEvtHostWritten.key, Obj.devEvtHostLost.key, Obj.devLogLost.key, Obj.devIjLastEvent.key]) o h b)

theorem chainWord_direct (o : Obj) (h : o ∈ chainWords) (v : Nat) : Direct o v := by
  simp only [chainWords, List.mem_cons, List.not_mem_nil, or_false] at h
  obtain rfl | rfl | rfl := h <;> exact ⟨by decide, by decide, by decide, by decide, nofun⟩

theorem chainWord_size (o : Obj) (h : o ∈ chainWords) : o.row.size = 4 ∧ o ≠ .devCommand :=
  (by decide : ∀ o ∈ chainWords, o.row.size = 4 ∧ o ≠ .devCommand) o h
theorem chainBlock_row (o : Obj) (h : o ∈ chainBlocks) : o.row.type = .dom ∧ o.row.acc ≠ .rwg :=
  (by decide : ∀ o ∈ chainBlocks, o.row.type = .dom ∧ o.row.acc ≠ .rwg) o h

/-- An accepted write of a word whose effect changes one bundle. -/
theorem chainWord_written (rq : Rq) (o : Obj) (b : BundleNo) (v : Nat) (s e : State) (l : List Part) (ho : o ∈ chainWords)
    (h : Accepted rq o b 0 v {} s) (hv : v < 2 ^ 32)
    (hput : putEffect rq svcWrite (o.addr b) (putOf o b 0 v) {} (received rq s) = (some .ok, e))
    (heffect : BndEffect b l (received rq s) e) :
    ∃ t, run (writeTo rq o b 0 v) s = .next t ∧ Replied rq svcWrite (o.addr b) .ok s t ∧ OnlyBnd b (l ++ answerParts) s t ∧
      Keeps answerParts e t := by
  obtain ⟨hsize, hdev⟩ := chainWord_size o ho
  have hf := writeTo_accepted rq o b 0 v {} s h (target_chain o (List.mem_append_left _ ho) b) (chainWord_direct o ho v)
    (by rw [hsize]; exact hv) (settle_of_ne _ _ _ hdev)
  rw [hput] at hf
  obtain ⟨t, ht, hreply, -, hafter⟩ := answered_ends rq svcWrite (o.addr b) none (writeTo rq o b 0 v) (.bnds :: l) s e hf
    (Keeps_trans _ _ _ _ (Keeps_mono _ _ _ _ (received_keeps rq s) (by simp)) heffect.only.2)
    (heffect.ij.trans (received_ij rq s))
  exact ⟨t, ht, hreply, onlyBnd_between (received_keeps rq s) heffect.only hafter (by decide) (by decide), hafter⟩

/-- An accepted block transfer whose effect changes one bundle. -/
theorem chainBlock_written (rq : Rq) (o : Obj) (b : BundleNo) (off : Nat) (data : List Byte) (s e : State) (l : List Part)
    (ho : o ∈ chainBlocks) (h : AcceptedBlock rq o b off data s)
    (hput : putEffect rq svcBlockWrite (o.addr b) { o := o, u := b, off := off, data := data } {}
      (dropTransfer rq.src (received rq s)) = (some .ok, e))
    (heffect : BndEffect b l (dropTransfer rq.src (received rq s)) e) :
    ∃ t, run (blockTo rq o b off data) s = .next t ∧ RepliedBlock rq (o.addr b) off data.length .ok s t ∧
      OnlyBnd b (l ++ .ctl :: answerParts) s t ∧ Keeps answerParts e t := by
  obtain ⟨hdom, hacc⟩ := chainBlock_row o ho
  have hf := blockTo_accepted rq o b off data s h (target_chain o (List.mem_append_right _ ho) b) hdom hacc
  rw [hput] at hf
  have hbefore : Keeps [.ctl] s (dropTransfer rq.src (received rq s)) :=
    keeps_then _ _ _ _ _ _ (received_keeps rq s) (dropTransfer_keeps _ _) (by decide) (by decide)
  obtain ⟨t, ht, hreply, -, hafter⟩ := answered_ends rq svcBlockWrite (o.addr b) _ (blockTo rq o b off data)
    (.ctl :: .bnds :: l) s e hf
    (keeps_then _ _ _ _ _ _ hbefore heffect.only.2 (by simp) (by simp)) (heffect.ij.trans (received_ij rq s))
  exact ⟨t, ht, hreply, onlyBnd_between hbefore heffect.only hafter (by decide) (by decide), hafter⟩

end Sys2Proof.Laws
end

section
/-! What the effects of writes to the front end, the pool and the measurement chain leave (R146 to R149, R157, R163, R166,
R167, R175, R544). -/
namespace Sys2Proof.Laws
open Sys2Proof.Machine Sys2Proof.Safety

/-! ### PORT_STATUS_CLEAR (R544) -/

theorem portStatus_congr (s t : State) (p : Nat) (hport : ∀ q, t.port q = s.port q) (hbnd : ∀ b, t.bnd b = s.bnd b) :
    t.portStatus p = s.portStatus p := by
  rw [portStatus_eq, portStatus_eq]
  simp only [State.portFailed, hport, hbnd]

/-- Clearing the sticky bits leaves the present conditions, in the low byte. -/
theorem clearSticky_portStatus (p : Nat) (s : State) : (clearSticky p s).portStatus p = s.portStatus p % 2 ^ 8 := by
  have hpmu := (s.port p).fe.pmuLimit.toNat_le
  have hdrv := (s.port p).fe.drvLimit.toNat_le
  have hsub := (s.port p).cal.substituted.toNat_le
  have hfailed := (s.portFailed p).toNat_le
  have hheld := (s.port p).cal.held.toNat_le
  rw [portStatus_eq, portStatus_eq]
  simp only [clearSticky, State.portFailed, port_setPort, setPort_bnd, if_pos, Bool.toNat_false] at hfailed ⊢
  omega

theorem target_portStatusClear (p : PortNo) : target (Obj.portStatusClear.addr p) = .entry .portStatusClear p 0 := by
  revert p; decide

/-! ### BND_POOL_CELLS and BND_POOL_LINK (R146 to R149) -/

theorem poolCellsEffect_bndEffect (b off : Nat) (data : List Byte) (s : State) :
    BndEffect b [.doms] s (poolCellsEffect b off data s) := by
  unfold poolCellsEffect
  extract_lets changed moved held
  exact bndEffect_trans (bndEffect_setDom b s .bndPoolCells b 0 off data) (bndEffect_setBnd b _ held _)

theorem poolCellsEffect_dom (b off : Nat) (data : List Byte) (s : State) :
    (poolCellsEffect b off data s).dom .bndPoolCells b 0 off data.length = data := dom_setDom_same s .bndPoolCells b 0 off data

theorem linkWord_lt (close : Bool) {node cell terminal : Nat} (hnode : node < 64) (hcell : cell < 16) (hterminal : terminal < 8) :
    linkWord close node cell terminal < 2 ^ 32 := by
  cases close <;> simp [linkWord] <;> omega

theorem linkReq_linkWord (close : Bool) {node cell terminal : Nat} (hnode : node < 64) (hcell : cell < 16)
    (hterminal : terminal < 8) : linkReq (linkWord close node cell terminal) = ⟨close, terminal, cell, node⟩ := by
  have hclose : (linkWord close node cell terminal).testBit 24 = close := by
    rw [Nat.testBit_eq_decide_div_mod_eq]
    cases close <;> simp [linkWord] <;> omega
  simp only [linkReq, hclose, LinkReq.mk.injEq, true_and]
  cases close <;> simp [linkWord] <;> omega

theorem poolLinkEffect_bndEffect (b v : Nat) (s : State) : BndEffect b [.regs] s (poolLinkEffect b v s) := by
  unfold poolLinkEffect
  extract_lets r held
  exact bndEffect_trans (bndEffect_wr b s .bndPoolLink v b 0) (bndEffect_setBnd b _ held _)

/-- A link request sets the link of its terminal, and no other. -/
theorem poolLinkEffect_linkOf (b v : Nat) (s : State) (c n : Nat) : (poolLinkEffect b v s).linkOf b c n =
    if 8 * c + n = 8 * (linkReq v).cell + (linkReq v).terminal then (if (linkReq v).close then (linkReq v).node else 0x3F)
    else s.linkOf b c n := by
  simp only [poolLinkEffect, State.linkOf, bnd_setBnd, wr_bnd, if_pos, Store_get_put]

theorem putEffect_poolLink (rq : Rq) (a : Addr) (b v : Nat) (s : State) (hv : v < 2 ^ 32) :
    putEffect rq svcWrite a (putOf .bndPoolLink b 0 v) {} s = (some .ok, poolLinkEffect b v s) :=
  congrArg (fun w => (some Status.ok, poolLinkEffect b w s)) (putOf_v .bndPoolLink b 0 v hv)

/-! ### BND_POOL_WAVE (R156, R157) -/

/-- A byte of a bundle's wave registers. -/
def waveByte (s : State) (b i : Nat) : Byte :=
  Store.get Obj.bndPoolWave.domDflt (Obj.bndPoolWave.domKey b 0 i) s.dict.doms

theorem dom_one_wave (s : State) (b i : Nat) : s.dom .bndPoolWave b 0 i 1 = [waveByte s b i] := rfl

theorem waveByte_setDom (s : State) (b off i : Nat) (data : List Byte) :
    waveByte (s.setDom .bndPoolWave b 0 off data) b i =
      if off ≤ i ∧ i < off + data.length then data.getD (i - off) Obj.bndPoolWave.domDflt else waveByte s b i := by
  simp only [waveByte, State.setDom, Store_get_puts, Obj.domKey]
  congr 1
  · simp only [eq_iff_iff]; omega
  · congr 1; omega

/-- CTRL of a wave DAC is byte 12 of its registers (R156). -/
theorem wave_ctrl (s : State) (b wd : Nat) : (s.wave b wd).ctrl = (waveByte s b (16 * wd + 12)).toNat := by
  have hbyte : ((s.dom .bndPoolWave b 0 (16 * wd) 16).drop 12).take 1 = [waveByte s b (16 * wd + 12)] := by
    simp [State.dom, Store.gets, waveByte, Obj.domKey, Nat.add_assoc]
  simp [State.wave, waveRegs, hbyte, leNat]

theorem setOsc_bndEffect (s : State) (b wd : Nat) (l : List Part) (f : WaveOsc → WaveOsc) : BndEffect b l s (s.setOsc b wd f) :=
  bndEffect_setBnd b l s _
theorem clearAcc_bndEffect (s : State) (b wd t : Nat) (l : List Part) : BndEffect b l s (s.clearAcc b wd t) := by
  unfold State.clearAcc
  extract_lets e
  exact setOsc_bndEffect s b wd l _

/-- What a write of its registers does to a wave DAC: ACC_CLEAR reads 0, the underrun is over, and ACC_CLEAR clears ACC. -/
def waveTold (b wd : Nat) (s : State) : State :=
  let ended := (s.setDom .bndPoolWave b 0 (16 * wd + 12) [BitVec.ofNat 8 ((s.wave b wd).ctrl / 2 * 2)]).setOsc b wd
    (fun o => { o with underrun := false })
  if (s.wave b wd).ctrl % 2 == 1 then ended.clearAcc b wd (ended.time + 1) else ended

/-- A wave DAC that the bytes written touch is told. -/
def waveIfTold (b off n wd : Nat) (s : State) : State :=
  if !(decide (off < 16 * wd + 16) && decide (16 * wd < off + n)) then s else waveTold b wd s

theorem poolWaveEffect_eq (b off : Nat) (data : List Byte) (s : State) : poolWaveEffect b off data s =
    waveIfTold b off data.length 1 (waveIfTold b off data.length 0 (s.setDom .bndPoolWave b 0 off data)) := rfl

theorem waveTold_bndEffect (b wd : Nat) (s : State) : BndEffect b [.doms] s (waveTold b wd s) := by
  unfold waveTold
  extract_lets ended
  have hended : BndEffect b [.doms] s ended := bndEffect_trans (bndEffect_setDom _ _ _ _ _ _ _) (setOsc_bndEffect _ b wd _ _)
  split
  · exact bndEffect_trans hended (clearAcc_bndEffect _ _ _ _ _)
  · exact hended

theorem waveIfTold_bndEffect (b off n wd : Nat) (s : State) : BndEffect b [.doms] s (waveIfTold b off n wd s) := by
  unfold waveIfTold
  split
  · exact bndEffect_refl _ _ _
  · exact waveTold_bndEffect _ _ _

theorem poolWaveEffect_bndEffect (b off : Nat) (data : List Byte) (s : State) :
    BndEffect b [.doms] s (poolWaveEffect b off data s) := by
  rw [poolWaveEffect_eq]
  exact bndEffect_trans (bndEffect_trans (bndEffect_setDom _ _ _ _ _ _ _) (waveIfTold_bndEffect _ _ _ _ _))
    (waveIfTold_bndEffect _ _ _ _ _)

theorem waveTold_byte (b wd i : Nat) (s : State) : waveByte (waveTold b wd s) b i =
    if i = 16 * wd + 12 then BitVec.ofNat 8 ((waveByte s b i).toNat / 2 * 2) else waveByte s b i := by
  have hdoms : waveByte (waveTold b wd s) b i =
      waveByte (s.setDom .bndPoolWave b 0 (16 * wd + 12) [BitVec.ofNat 8 ((s.wave b wd).ctrl / 2 * 2)]) b i := by
    unfold waveTold
    extract_lets
    split <;> rfl
  rw [hdoms, waveByte_setDom, wave_ctrl]
  by_cases hi : i = 16 * wd + 12
  · subst hi
    simp
  · rw [if_neg (by simp only [List.length_singleton]; omega), if_neg hi]

theorem waveIfTold_byte (b off n wd i : Nat) (s : State) : waveByte (waveIfTold b off n wd s) b i =
    if (off < 16 * wd + 16 ∧ 16 * wd < off + n) ∧ i = 16 * wd + 12 then BitVec.ofNat 8 ((waveByte s b i).toNat / 2 * 2)
    else waveByte s b i := by
  unfold waveIfTold
  by_cases htouched : off < 16 * wd + 16 ∧ 16 * wd < off + n
  · rw [if_neg (by simpa using htouched), waveTold_byte]
    simp only [htouched, true_and]
  · rw [if_pos (by simp only [Bool.not_eq_true', Bool.and_eq_false_iff, decide_eq_false_iff_not]; omega),
      if_neg (fun h => htouched h.1)]

/-- Wave registers read as written, but that ACC_CLEAR reads 0 (R157). -/
theorem poolWaveEffect_byte (b off k : Nat) (data : List Byte) (x : Byte) (s : State) (hx : data[k]? = some x) :
    waveByte (poolWaveEffect b off data s) b (off + k)
      = if off + k = 12 ∨ off + k = 28 then BitVec.ofNat 8 (x.toNat / 2 * 2) else x := by
  have hk : k < data.length := (List.getElem?_eq_some_iff.1 hx).1
  have hwritten : waveByte (s.setDom .bndPoolWave b 0 off data) b (off + k) = x := by
    rw [waveByte_setDom, if_pos (by omega)]
    simp [List.getD, hx]
  rw [poolWaveEffect_eq, waveIfTold_byte, waveIfTold_byte, hwritten]
  by_cases hfirst : off + k = 12
  · rw [if_neg (by omega), if_pos (by omega), if_pos (.inl hfirst)]
  · by_cases hsecond : off + k = 28
    · rw [if_pos (by omega), if_neg (by omega), if_pos (.inr hsecond)]
    · rw [if_neg (by omega), if_neg (by omega), if_neg (by omega)]

/-! ### BND_MEAS_CONFIG and BND_MEAS_CONTROL (R163, R167, R175) -/

theorem syncReset_bndEffect (s : State) (b edge : Nat) (l : List Part) : BndEffect b l s (s.syncReset b edge) :=
  bndEffect_setBnd _ _ _ _

theorem syncReset_meas (s : State) (b edge : Nat) : ((s.syncReset b edge).bnd b).meas.syncTime = edge ∧
    ((s.syncReset b edge).bnd b).meas.outN = 0 ∧ ((s.syncReset b edge).bnd b).meas.fade = none := by
  simp [State.syncReset]

theorem measConfigEffect_bndEffect (b v : Nat) (s : State) : BndEffect b [.regs] s (measConfigEffect b v s) :=
  bndEffect_trans (bndEffect_wr b s .bndMeasConfig v b 0) (syncReset_bndEffect _ _ _ _)

theorem putEffect_measConfig (rq : Rq) (a : Addr) (b v : Nat) (s : State) (hv : v < 2 ^ 32) :
    putEffect rq svcWrite a (putOf .bndMeasConfig b 0 v) {} s = (some .ok, measConfigEffect b v s) :=
  congrArg (fun w => (some Status.ok, measConfigEffect b w s)) (putOf_v .bndMeasConfig b 0 v hv)
theorem putEffect_measControl (rq : Rq) (a : Addr) (b v : Nat) (s : State) (hv : v < 2 ^ 32) :
    putEffect rq svcWrite a (putOf .bndMeasControl b 0 v) {} s = (some .ok, measControlEffect b v s) :=
  congrArg (fun w => (some Status.ok, measControlEffect b w s)) (putOf_v .bndMeasControl b 0 v hv)

/-- A word of BND_MEAS_CONTROL from INPUT, COMMAND, and TARGET_BANK with FADE_LEN (R167, R175). -/
def controlWord (input command rest : Nat) : Nat := input * 2 ^ 16 + command * 2 ^ 12 + rest

/-- The chain has got a new INPUT, TARGET_BANK and FADE_LEN, and a synchronising reset where the input changes or one is
asked for. -/
def controlled (b input command rest : Nat) (s : State) : State :=
  let told := s.wr .bndMeasControl (controlWord input 0 rest) b
  if input ≠ (s.reg .bndMeasControl b).fld 16 6 ∨ command = 1 then told.syncReset b (nextMod s.time) else told

section
variable {input command rest : Nat} (hinput : input < 64) (hcommand : command < 4) (hrest : rest < 1024)
include hinput hcommand hrest

theorem controlWord_lt : controlWord input command rest < 2 ^ 32 := by
  unfold controlWord; omega

theorem controlWord_fields : controlWord input command rest / 2 ^ 16 % 64 = input ∧
    controlWord input command rest / 2 ^ 12 % 4 = command ∧ controlWord input command rest % 1024 = rest := by
  unfold controlWord; omega

theorem measControlKept_controlWord : measControlKept (controlWord input command rest) = controlWord input 0 rest := by
  unfold measControlKept controlWord; omega

/-- A write of BND_MEAS_CONTROL: what stays of the word, the reset, and a SWAP last. -/
theorem measControlEffect_controlWord (b : Nat) (s : State) : measControlEffect b (controlWord input command rest) s =
    if command = 2 then (controlled b input command rest s).measSwap b (rest.testBit 9) (rest % 512)
      (decide (input ≠ (s.reg .bndMeasControl b).fld 16 6 ∨ command = 1))
    else controlled b input command rest s := by
  obtain ⟨hfirst, hsecond, hlast⟩ := controlWord_fields hinput hcommand hrest
  have hbit : (controlWord input command rest).testBit 9 = rest.testBit 9 := by
    have := Nat.testBit_mod_two_pow (controlWord input command rest) 10 9
    rw [show controlWord input command rest % 2 ^ 10 = rest from hlast] at this
    simpa using this.symm
  have hlen : controlWord input command rest % 512 = rest % 512 := by
    unfold controlWord; omega
  have hreset : (input != (s.reg .bndMeasControl b).fld 16 6 || command == 1)
      = decide (input ≠ (s.reg .bndMeasControl b).fld 16 6 ∨ command = 1) := by
    simp [bne, Bool.beq_eq_decide_eq]
  unfold measControlEffect
  simp only [hfirst, hsecond, hbit, hlen, measControlKept_controlWord hinput hcommand hrest, hreset, controlled,
    decide_eq_true_eq, beq_iff_eq]
  rfl

end

theorem controlled_bndEffect (b input command rest : Nat) (s : State) :
    BndEffect b [.regs] s (controlled b input command rest s) := by
  have htold := bndEffect_wr b s .bndMeasControl (controlWord input 0 rest) b 0
  unfold controlled
  extract_lets told
  split
  · exact bndEffect_trans htold (syncReset_bndEffect _ _ _ _)
  · exact htold

/-- With the input as it stands and no reset asked for, only the word changes. -/
theorem controlled_kept (b input command rest : Nat) (s : State) (hinput : input = (s.reg .bndMeasControl b).fld 16 6)
    (hcommand : command ≠ 1) : controlled b input command rest s = s.wr .bndMeasControl (controlWord input 0 rest) b :=
  if_neg (by simp [← hinput, hcommand])

theorem controlled_rd {b input rest : Nat} (command : Nat) (s : State) (hinput : input < 64) (hrest : rest < 1024) :
    (controlled b input command rest s).rd .bndMeasControl b = controlWord input 0 rest := by
  have hwr : (s.wr .bndMeasControl (controlWord input 0 rest) b).rd .bndMeasControl b = controlWord input 0 rest := by
    rw [rd_wr_same, Nat.mod_eq_of_lt (Nat.lt_trans (controlWord_lt hinput (by decide) hrest) (by decide))]
  unfold controlled
  extract_lets told
  split <;> exact hwr

theorem controlled_syncTime (b input command rest : Nat) (s : State) :
    ((controlled b input command rest s).bnd b).meas.syncTime =
      if input ≠ (s.reg .bndMeasControl b).fld 16 6 ∨ command = 1 then nextMod s.time else (s.bnd b).meas.syncTime := by
  unfold controlled
  extract_lets told
  split
  · exact (syncReset_meas told b (nextMod s.time)).1
  · rfl

theorem measSwap_bndEffect (s : State) (b : Nat) (target : Bool) (len : Nat) (afterReset : Bool) (l : List Part) :
    BndEffect b l s (s.measSwap b target len afterReset) := by
  unfold State.measSwap
  extract_lets bypassed
  exact bndEffect_setBnd b l s _

/-- A chain after a SWAP: it queues behind a fade, waits for the next output where the FIR is bypassed, and otherwise begins
a fade (R167). -/
def swapping (s : State) (b : Nat) (target : Bool) (len : Nat) : Meas :=
  if (s.bnd b).meas.fade.isSome then { (s.bnd b).meas with queued := some (target, len) }
  else if (s.measPreset b).sinc5 = false ∨ s.measScs b = true then { (s.bnd b).meas with instant := some target }
  else if target = (s.bnd b).meas.active then (s.bnd b).meas
  else { (s.bnd b).meas with fade := some ⟨0, len, target⟩ }

theorem measSwap_meas (s : State) (b : Nat) (target : Bool) (len : Nat) :
    ((s.measSwap b target len false).bnd b).meas = swapping s b target len := by
  simp [State.measSwap, swapping]

/-- What a SWAP does depends on the chain and on BND_MEAS_CONFIG. -/
theorem swapping_congr (s t : State) (b : Nat) (target : Bool) (len : Nat) (hbnd : t.bnd b = s.bnd b)
    (hreg : t.reg .bndMeasConfig b = s.reg .bndMeasConfig b) : swapping t b target len = swapping s b target len := by
  simp only [swapping, State.measPreset, State.measScs, hbnd, hreg]

theorem measConfig_key_ne (b : Nat) : Obj.bndMeasConfig.key b ≠ Obj.bndMeasControl.key b := by
  simp [Obj.key, Obj.index, Obj.row]

/-! ### BND_MEAS_COEF (R166) -/

theorem length_coefBytes (s : State) (b off n : Nat) (h : off + n ≤ 512) : (s.coefBytes b off n).length = n := by
  simp [State.coefBytes, State.coefBytes.leBytes', upto, List.length_flatMap]
  omega

/-- Four bytes that lie within those written are read from them. -/
theorem coefAfter_within (s : State) (b off k : Nat) (data : List Byte) (hk : k < 128) (hfirst : off ≤ 4 * k)
    (hlast : 4 * k + 4 ≤ off + data.length) :
    ((s.coefAfter b off data).drop (4 * k)).take 4 = (data.drop (4 * k - off)).take 4 := by
  have hbefore := length_coefBytes s b 0 off (by omega)
  rw [State.coefAfter, List.append_assoc, List.drop_append, List.drop_of_length_le (by omega), List.nil_append, hbefore,
    List.drop_append_of_le_length (by omega), List.take_append_of_le_length (by rw [List.length_drop]; omega)]

/-- Taps stored one after another, each under its number. -/
theorem get_foldl_putTap (tap : Nat → BitVec 32) (l : List Nat) (taps : Store (Option (BitVec 32))) (k : Nat) :
    Store.get none k (l.foldl (fun m i => Store.put none i (some (tap i)) m) taps) =
      if k ∈ l then some (tap k) else Store.get none k taps := by
  induction l generalizing taps with
  | nil => simp
  | cons i l ih =>
    rw [List.foldl_cons, ih, Store_get_put]
    by_cases hl : k ∈ l
    · simp [hl]
    · by_cases hi : k = i <;> simp [hl, hi]

theorem measCoefEffect_bndEffect (b off : Nat) (data : List Byte) (s : State) :
    BndEffect b [] s (measCoefEffect b off data s) := by
  unfold measCoefEffect
  extract_lets touched
  exact bndEffect_setBnd b _ s _

/-- A block write replaces the taps that it touches (R166). -/
theorem measCoefEffect_tap (b off : Nat) (data : List Byte) (s : State) (k : Nat) (hk : k < 128) :
    Store.get none k ((measCoefEffect b off data s).bnd b).meas.taps =
      if off < 4 * k + 4 ∧ 4 * k < off + data.length
      then some (BitVec.ofNat 32 (leNat (((s.coefAfter b off data).drop (4 * k)).take 4)))
      else Store.get none k (s.bnd b).meas.taps := by
  have hnumbered (tap : Nat → BitVec 32) (l : List Nat) : (l.map tap).zip l = l.map (fun i => (tap i, i)) := by
    simpa using List.zip_map' (f := tap) (g := id) (l := l)
  simp only [measCoefEffect, bnd_setBnd, if_pos, tapsOf, hnumbered, List.filter_map, List.foldl_map]
  rw [get_foldl_putTap]
  simp [mem_upto, hk]

end Sys2Proof.Laws

namespace Sys2Proof.Proofs
open Sys2Proof.Machine Sys2Proof.Safety Sys2Proof.Laws

/-! ### The front end -/

theorem sticky_cleared (rq : Rq) (s : State) (p : PortNo) (v : Byte) (h : Accepted rq .portStatusClear p 0 v.toNat {} s) :
    ∃ t, exec (.portStatusClear rq p v) s = .next t ∧ Replied rq svcWrite (Obj.portStatusClear.addr p) .ok s t ∧
      t.portStatus p / 2 ^ 8 = 0 ∧ t.portStatus p % 2 ^ 8 = s.portStatus p % 2 ^ 8 ∧ OnlyPort p answerParts s t := by
  have hf := writeTo_accepted rq .portStatusClear p 0 v.toNat {} s h (target_portStatusClear p)
    ⟨by decide, by decide, by decide, by decide, nofun⟩ v.isLt rfl
  obtain ⟨t, ht, hreply, hkeeps, hafter⟩ := answered_ends rq svcWrite (Obj.portStatusClear.addr p) none
    (writeTo rq .portStatusClear p 0 v.toNat) [.ports] s (clearSticky p (received rq s)) hf
    (keeps_then _ _ _ _ _ _ (received_keeps rq s) (setPort_keeps _ _ _) (by decide) (by decide)) (received_ij rq s)
  have hport (q : Nat) := keeps_port hafter (by decide) q
  have hstatus : t.portStatus p = s.portStatus p % 2 ^ 8 := by
    rw [portStatus_congr _ t p hport (keeps_bnd hafter (by decide)), clearSticky_portStatus,
      portStatus_congr s _ p (received_port rq s) (received_bnd rq s)]
  refine ⟨t, ht, hreply, by omega, by omega, fun q hq => ?_, hkeeps⟩
  rw [hport, clearSticky, port_setPort, if_neg hq, received_port]

/-! ### The pool -/

theorem pool_cells_written (rq : Rq) (b : BundleNo) (s : State) (off : Nat) (data : List Byte)
    (h : AcceptedBlock rq .bndPoolCells b off data s) :
    ∃ t, exec (.poolCellsWrite rq b off data) s = .next t ∧
      RepliedBlock rq (Obj.bndPoolCells.addr b) off data.length .ok s t ∧
      t.dom .bndPoolCells b 0 off data.length = data ∧ OnlyBnd b (.doms :: .ctl :: answerParts) s t := by
  obtain ⟨t, ht, hreply, honly, hafter⟩ := chainBlock_written rq .bndPoolCells b off data s _ [.doms] (by decide) h rfl
    (poolCellsEffect_bndEffect b off data _)
  exact ⟨t, ht, hreply, by rw [keeps_dom hafter (by decide), poolCellsEffect_dom], honly⟩

theorem pool_link_written (rq : Rq) (b : BundleNo) (s : State) (close : Bool) (node : Nat) (hnode : node < 64) (cell : Fin 16)
    (terminal : Fin 8) (h : Accepted rq .bndPoolLink b 0 (linkWord close node cell terminal) {} s) :
    ∃ t, run (writeTo rq .bndPoolLink b 0 (linkWord close node cell terminal)) s = .next t ∧
      Replied rq svcWrite (Obj.bndPoolLink.addr b) .ok s t ∧
      t.linkOf b cell terminal = (if close then node else 0x3F) ∧
      (∀ c n : Nat, 8 * c + n ≠ 8 * cell.val + terminal.val → t.linkOf b c n = s.linkOf b c n) ∧
      OnlyBnd b (.regs :: answerParts) s t := by
  have hv := linkWord_lt close hnode cell.isLt terminal.isLt
  obtain ⟨t, ht, hreply, honly, hafter⟩ := chainWord_written rq .bndPoolLink b _ s _ [.regs] (by decide) h hv
    (putEffect_poolLink _ _ _ _ _ hv) (poolLinkEffect_bndEffect _ _ _)
  have hlink (c n : Nat) := (keeps_linkOf hafter (by decide) b c n).trans (poolLinkEffect_linkOf b _ (received rq s) c n)
  simp only [linkReq_linkWord close hnode cell.isLt terminal.isLt] at hlink
  refine ⟨t, ht, hreply, by rw [hlink, if_pos rfl], fun c n hne => ?_, honly⟩
  rw [hlink, if_neg hne, keeps_linkOf (received_keeps rq s) (by decide)]

theorem pool_wave_written (rq : Rq) (b : BundleNo) (s : State) (off : Nat) (data : List Byte)
    (h : AcceptedBlock rq .bndPoolWave b off data s) :
    ∃ t, exec (.poolWaveWrite rq b off data) s = .next t ∧
      RepliedBlock rq (Obj.bndPoolWave.addr b) off data.length .ok s t ∧
      (∀ k x, data[k]? = some x → t.dom .bndPoolWave b 0 (off + k) 1
        = [if off + k = 12 ∨ off + k = 28 then BitVec.ofNat 8 (x.toNat / 2 * 2) else x]) ∧
      OnlyBnd b (.doms :: .ctl :: answerParts) s t := by
  obtain ⟨t, ht, hreply, honly, hafter⟩ := chainBlock_written rq .bndPoolWave b off data s _ [.doms] (by decide) h rfl
    (poolWaveEffect_bndEffect b off data _)
  refine ⟨t, ht, hreply, fun k x hx => ?_, honly⟩
  rw [keeps_dom hafter (by decide), dom_one_wave, poolWaveEffect_byte b off k data x _ hx]

/-! ### The measurement chain -/

theorem meas_configured (rq : Rq) (b : BundleNo) (s : State) (v : BitVec 32) (h : Accepted rq .bndMeasConfig b 0 v.toNat {} s) :
    ∃ t, exec (.measConfigWrite rq b v) s = .next t ∧ Replied rq svcWrite (Obj.bndMeasConfig.addr b) .ok s t ∧
      t.rd .bndMeasConfig b = v.toNat ∧ (t.bnd b).meas.syncTime = nextMod s.time ∧ (t.bnd b).meas.outN = 0 ∧
      (t.bnd b).meas.fade = none ∧ RegsBut [Obj.bndMeasConfig.key b] s t ∧ OnlyBnd b (.regs :: answerParts) s t := by
  obtain ⟨t, ht, hreply, honly, hafter⟩ := chainWord_written rq .bndMeasConfig b v.toNat s _ [.regs] (by decide) h v.isLt
    (putEffect_measConfig _ _ _ _ _ v.isLt) (measConfigEffect_bndEffect _ _ _)
  have hregs (key : Nat) (d : Word) (he : ¬ eventKey key) := hafter.2.2 .regs (by decide) key d he
  obtain ⟨hsync, hout, hfade⟩ := syncReset_meas ((received rq s).wr .bndMeasConfig v.toNat b) b (nextMod (received rq s).time)
  refine ⟨t, ht, hreply, ?_, ?_, ?_, ?_, fun key d hkey he => ?_, honly⟩
  · rw [State.rd, keeps_reg hafter (by decide) _ _ _ (chainWord_not_eventKey _ (by decide) b)]
    exact (rd_wr_same _ .bndMeasConfig v.toNat b 0).trans (Nat.mod_eq_of_lt (Nat.lt_trans v.isLt (by decide)))
  · rw [keeps_bnd hafter (by decide), measConfigEffect, hsync, received_time]
  · rw [keeps_bnd hafter (by decide), measConfigEffect, hout]
  · rw [keeps_bnd hafter (by decide), measConfigEffect, hfade]
  · rw [hregs key d he, ← received_dict rq s]
    exact get_setReg _ _ _ _ _ _ _ (by simpa using hkey)

/-- An accepted write of BND_MEAS_CONTROL that is no SWAP. -/
theorem meas_controlled (rq : Rq) (b : BundleNo) (s : State) (input command rest : Nat) (hinput : input < 64)
    (hcommand : command < 2) (hrest : rest < 1024) (h : Accepted rq .bndMeasControl b 0 (controlWord input command rest) {} s) :
    ∃ t, run (writeTo rq .bndMeasControl b 0 (controlWord input command rest)) s = .next t ∧
      Replied rq svcWrite (Obj.bndMeasControl.addr b) .ok s t ∧ t.rd .bndMeasControl b = controlWord input 0 rest ∧
      (t.bnd b).meas.syncTime = (if input ≠ (s.reg .bndMeasControl b).fld 16 6 ∨ command = 1 then nextMod s.time
        else (s.bnd b).meas.syncTime) ∧
      OnlyBnd b (.regs :: answerParts) s t := by
  have hv := controlWord_lt hinput (Nat.lt_trans hcommand (by decide)) hrest
  have hput := putEffect_measControl rq (Obj.bndMeasControl.addr b) b _ (received rq s) hv
  rw [measControlEffect_controlWord hinput (by omega) hrest, if_neg (by omega)] at hput
  obtain ⟨t, ht, hreply, honly, hafter⟩ := chainWord_written rq .bndMeasControl b _ s _ [.regs] (by decide) h hv hput
    (controlled_bndEffect _ _ _ _ _)
  refine ⟨t, ht, hreply, ?_, ?_, honly⟩
  · rw [State.rd, keeps_reg hafter (by decide) _ _ _ (chainWord_not_eventKey _ (by decide) b)]
    exact controlled_rd command _ hinput hrest
  · rw [keeps_bnd hafter (by decide), controlled_syncTime, received_reg, received_bnd, received_time]

theorem exec_measInputSelect (rq : Rq) (b : BundleNo) (input : BitVec 6) (s : State) : exec (.measInputSelect rq b input) s =
    run (writeTo rq .bndMeasControl b 0 (input.toNat * 2 ^ 16 + bits (s.rd .bndMeasControl b) 0 10)) s := by
  change execMeasInputSelect rq b input s = _
  unfold execMeasInputSelect
  exact run_congr _ _ s (by rw [rd_emptied])
theorem exec_sync (rq : Rq) (b : BundleNo) (s : State) : exec (.sync rq b) s =
    run (writeTo rq .bndMeasControl b 0 (measControlKept (s.rd .bndMeasControl b) + 2 ^ 12)) s := by
  change execSync rq b s = _
  unfold execSync
  exact run_congr _ _ s (by rw [rd_emptied])
theorem exec_swap (rq : Rq) (b : BundleNo) (target : Bool) (len : BitVec 9) (s : State) : exec (.swap rq b target len) s =
    run (writeTo rq .bndMeasControl b 0
      (bits (s.rd .bndMeasControl b) 16 6 * 2 ^ 16 + 2 ^ 13 + (if target then 2 ^ 9 else 0) + len.toNat)) s := by
  change execSwap rq b target len s = _
  unfold execSwap
  exact run_congr _ _ s (by rw [rd_emptied])

theorem meas_input_selected (rq : Rq) (b : BundleNo) (s : State) (input : BitVec 6)
    (h : Accepted rq .bndMeasControl b 0 (input.toNat * 2 ^ 16 + bits (s.rd .bndMeasControl b) 0 10) {} s) :
    ∃ t, exec (.measInputSelect rq b input) s = .next t ∧ Replied rq svcWrite (Obj.bndMeasControl.addr b) .ok s t ∧
      (t.reg .bndMeasControl b).fld 16 6 = input.toNat ∧
      bits (t.rd .bndMeasControl b) 0 10 = bits (s.rd .bndMeasControl b) 0 10 ∧
      (t.bnd b).meas.syncTime
        = (if (s.reg .bndMeasControl b).fld 16 6 = input.toNat then (s.bnd b).meas.syncTime else nextMod s.time) ∧
      OnlyBnd b (.regs :: answerParts) s t := by
  have hinput := input.isLt
  have hrest : bits (s.rd .bndMeasControl b) 0 10 < 1024 := Nat.mod_lt _ (by decide)
  have hword : input.toNat * 2 ^ 16 + bits (s.rd .bndMeasControl b) 0 10
      = controlWord input.toNat 0 (bits (s.rd .bndMeasControl b) 0 10) := by
    simp [controlWord]
  rw [exec_measInputSelect, hword]
  rw [hword] at h
  obtain ⟨t, ht, hreply, hrd, hsync, honly⟩ := meas_controlled rq b s _ 0 _ hinput (by decide) hrest h
  obtain ⟨hfirst, -, hlast⟩ := controlWord_fields hinput (command := 0) (by decide) hrest
  refine ⟨t, ht, hreply, ?_, ?_, ?_, honly⟩
  · rw [Word.fld, Nat.shiftRight_eq_div_pow, ← hfirst]
    exact congrArg (· / 2 ^ 16 % 64) hrd
  · have hlow (w : Nat) : bits w 0 10 = w % 1024 := by simp [bits]
    rw [hrd, hlow (controlWord _ _ _), hlast]
  · rw [hsync]
    by_cases hsame : (s.reg .bndMeasControl b).fld 16 6 = input.toNat
    · rw [if_pos hsame, if_neg (by simp [hsame])]
    · rw [if_neg hsame, if_pos (.inl (Ne.symm hsame))]

theorem meas_synchronised (rq : Rq) (b : BundleNo) (s : State)
    (h : Accepted rq .bndMeasControl b 0 (measControlKept (s.rd .bndMeasControl b) + 2 ^ 12) {} s) :
    ∃ t, exec (.sync rq b) s = .next t ∧ Replied rq svcWrite (Obj.bndMeasControl.addr b) .ok s t ∧
      t.rd .bndMeasControl b = measControlKept (s.rd .bndMeasControl b) ∧
      (t.bnd b).meas.syncTime = nextMod s.time ∧ OnlyBnd b (.regs :: answerParts) s t := by
  have hword : measControlKept (s.rd .bndMeasControl b) + 2 ^ 12
      = controlWord (s.rd .bndMeasControl b / 2 ^ 16 % 64) 1 (s.rd .bndMeasControl b % 1024) := by
    unfold measControlKept controlWord
    omega
  rw [exec_sync, hword]
  rw [hword] at h
  obtain ⟨t, ht, hreply, hrd, hsync, honly⟩ := meas_controlled rq b s _ 1 _ (Nat.mod_lt _ (by decide)) (by decide)
    (Nat.mod_lt _ (by decide)) h
  exact ⟨t, ht, hreply, by rw [hrd, measControlKept, controlWord, Nat.zero_mul, Nat.add_zero],
    by rw [hsync, if_pos (.inr rfl)], honly⟩

/-- An accepted SWAP that leaves the input as it stands. -/
theorem meas_bank_swapped (rq : Rq) (b : BundleNo) (s : State) (input rest : Nat)
    (hsame : input = (s.reg .bndMeasControl b).fld 16 6) (hrest : rest < 1024)
    (h : Accepted rq .bndMeasControl b 0 (controlWord input 2 rest) {} s) :
    ∃ t, run (writeTo rq .bndMeasControl b 0 (controlWord input 2 rest)) s = .next t ∧
      Replied rq svcWrite (Obj.bndMeasControl.addr b) .ok s t ∧
      (t.bnd b).meas = swapping s b (rest.testBit 9) (rest % 512) ∧ OnlyBnd b (.regs :: answerParts) s t := by
  have hinput : input < 64 := hsame ▸ Nat.mod_lt _ (by decide)
  have hv := controlWord_lt hinput (command := 2) (by decide) hrest
  have hkept := controlled_kept b input 2 rest (received rq s) (by rw [received_reg, hsame]) (by decide)
  have hput := putEffect_measControl rq (Obj.bndMeasControl.addr b) b _ (received rq s) hv
  rw [measControlEffect_controlWord hinput (by decide) hrest, if_pos rfl, hkept, received_reg,
    decide_eq_false (by simp [← hsame])] at hput
  obtain ⟨t, ht, hreply, honly, hafter⟩ := chainWord_written rq .bndMeasControl b _ s _ [.regs] (by decide) h hv hput
    (bndEffect_trans (bndEffect_wr _ _ _ _ _ _) (measSwap_bndEffect _ _ _ _ _ _))
  refine ⟨t, ht, hreply, ?_, honly⟩
  rw [keeps_bnd hafter (by decide), measSwap_meas]
  refine swapping_congr _ _ _ _ _ ?_ ?_
  · rw [wr_bnd, received_bnd]
  · rw [reg_wr_ne _ _ _ _ _ _ _ _ (measConfig_key_ne b), received_reg]

theorem meas_swapped (rq : Rq) (b : BundleNo) (s : State) (target : Bool) (len : BitVec 9)
    (h : Accepted rq .bndMeasControl b 0
      (bits (s.rd .bndMeasControl b) 16 6 * 2 ^ 16 + 2 ^ 13 + (if target then 2 ^ 9 else 0) + len.toNat) {} s) :
    ∃ t, exec (.swap rq b target len) s = .next t ∧ Replied rq svcWrite (Obj.bndMeasControl.addr b) .ok s t ∧
      (t.bnd b).meas = swapping s b target len.toNat ∧ OnlyBnd b (.regs :: answerParts) s t := by
  have hlen := len.isLt
  obtain ⟨rest, hrest⟩ : ∃ rest, rest = (if target then 2 ^ 9 else 0) + len.toNat := ⟨_, rfl⟩
  have hlt : rest < 1024 := by rw [hrest]; split <;> omega
  have hmod : rest % 512 = len.toNat := by rw [hrest]; split <;> omega
  have hbit : rest.testBit 9 = target := by
    rw [Nat.testBit_eq_decide_div_mod_eq, hrest]
    cases target <;> simp <;> omega
  have hword : bits (s.rd .bndMeasControl b) 16 6 * 2 ^ 16 + 2 ^ 13 + (if target then 2 ^ 9 else 0) + len.toNat
      = controlWord (bits (s.rd .bndMeasControl b) 16 6) 2 rest := by
    rw [hrest, controlWord]
    omega
  have hsame : bits (s.rd .bndMeasControl b) 16 6 = (s.reg .bndMeasControl b).fld 16 6 := by
    rw [Word.fld, Nat.shiftRight_eq_div_pow, bits, State.rd]
  rw [exec_swap, hword]
  rw [hword] at h
  obtain ⟨t, ht, hreply, hmeas, honly⟩ := meas_bank_swapped rq b s _ rest hsame hlt h
  exact ⟨t, ht, hreply, by rw [hmeas, hbit, hmod], honly⟩

theorem meas_coefs_written (rq : Rq) (b : BundleNo) (s : State) (off : Nat) (data : List Byte)
    (h : AcceptedBlock rq .bndMeasCoef b off data s) :
    ∃ t, exec (.measCoefWrite rq b off data) s = .next t ∧
      RepliedBlock rq (Obj.bndMeasCoef.addr b) off data.length .ok s t ∧
      (∀ k, k < 128 → 4 * k + 4 ≤ off ∨ off + data.length ≤ 4 * k →
        Store.get none k (t.bnd b).meas.taps = Store.get none k (s.bnd b).meas.taps) ∧
      (∀ k, k < 128 → off ≤ 4 * k → 4 * k + 4 ≤ off + data.length →
        Store.get none k (t.bnd b).meas.taps
          = some (BitVec.ofNat 32 (leNat ((data.drop (4 * k - off)).take 4)))) ∧
      OnlyBnd b (.ctl :: answerParts) s t := by
  obtain ⟨t, ht, hreply, honly, hafter⟩ := chainBlock_written rq .bndMeasCoef b off data s _ [] (by decide) h rfl
    (measCoefEffect_bndEffect b off data _)
  have htap (k : Nat) (hk : k < 128) : Store.get none k (t.bnd b).meas.taps = _ :=
    (congrArg (fun x => Store.get none k x.meas.taps) (keeps_bnd hafter (by decide) b)).trans
      (measCoefEffect_tap b off data _ k hk)
  refine ⟨t, ht, hreply, fun k hk hout => ?_, fun k hk hfirst hlast => ?_, honly⟩
  · rw [htap k hk, if_neg (by omega)]
    exact congrArg (fun x => Store.get none k x.meas.taps) (received_bnd rq s b)
  · rw [htap k hk, if_pos (by omega), coefAfter_within _ _ _ _ _ hk hfirst hlast]

/-- Settles O48: each accepted write has the effect that its lemma above describes. -/
theorem analogueWrites : Obligations.AnalogueWrites := by
  unfold Obligations.AnalogueWrites
  exact fun rq b s => ⟨sticky_cleared rq s, pool_cells_written rq b s,
    fun node cell terminal => ⟨pool_link_written rq b s true node.toNat node.isLt cell terminal,
      pool_link_written rq b s false 0 (by decide) cell terminal⟩,
    pool_wave_written rq b s, meas_configured rq b s, meas_input_selected rq b s, meas_synchronised rq b s,
    meas_swapped rq b s, meas_coefs_written rq b s⟩

end Sys2Proof.Proofs
end

section
/-! Accepted writes to the timebase (R180, R185, R197, R198, R206): each is answered at once but the LINE ratio, which waits. -/
namespace Sys2Proof.Laws
open Sys2Proof.Machine Sys2Proof.Safety

/-! ### What receiving a request leaves of the timebase -/

@[simp] theorem received_tb (rq : Rq) (s : State) : (received rq s).tb = s.tb := (received_keeps rq s).2.2 .tb (by decide)
@[simp] theorem received_role (rq : Rq) (s : State) : (received rq s).role = s.role := received_rd rq s _ _ _
@[simp] theorem received_devState (rq : Rq) (s : State) : (received rq s).devState = s.devState := by
  obtain ⟨src, seq, cfg⟩ := rq
  cases src with
  | host slot => rfl
  | mgt addr port => simp only [received, hears_eq]; rfl
@[simp] theorem received_outsRunning (rq : Rq) (s : State) : (received rq s).outsRunning = s.outsRunning := by
  obtain ⟨src, seq, cfg⟩ := rq
  cases src with
  | host slot => rfl
  | mgt addr port => simp only [received, hears_eq]; rfl

/-! ### Accepted writes that are answered at once -/

/-- The timebase's entries whose writes have an effect of their own and are answered at once. -/
def timebaseObjs : List Obj := [.warpRole, .devEventSend, .devWarpChar]

theorem target_timebase (o : Obj) (h : o ∈ timebaseObjs) : target o.addr = .entry o 0 0 :=
  (by decide : ∀ o ∈ timebaseObjs, target o.addr = .entry o 0 0) o h
theorem timebase_direct (o : Obj) (h : o ∈ timebaseObjs) (v : Nat) : Direct o v ∧ o ≠ .devCommand := by
  simp only [timebaseObjs, List.mem_cons, List.not_mem_nil, or_false] at h
  obtain rfl | rfl | rfl := h <;> exact ⟨⟨by decide, by decide, by decide, by decide, nofun⟩, by decide⟩

/-- What an effect has sent stays in front of the answer. -/
theorem answered_prefix (rq : Rq) (service : Nat) (a : Addr) (blk : Option (Nat × Nat)) (f : State → State) (s e t : State)
    (hf : f { s with out := [] } = answerNow rq service a blk (some .ok, e)) (ht : run f s = .next t) : e.out <+: t.out := by
  obtain rfl := Host.Outcome.next.inj ((run_next f s _ hf).symm.trans ht)
  exact (replyAll_prefix _ _ _ _ _).trans (ended_out s _)

/-- An accepted write to the timebase whose effect is answered OK. -/
theorem timebase_written (rq : Rq) (o : Obj) (v : Nat) (l : List Part) (s e : State) (ho : o ∈ timebaseObjs)
    (h : Accepted rq o 0 0 v {} s) (hv : v < 256 ^ o.row.size)
    (hput : putEffect rq svcWrite o.addr (putOf o 0 0 v) {} (received rq s) = (some .ok, e)) (hk : Keeps l (received rq s) e)
    (hij : e.ij = s.ij) :
    ∃ t, run (writeTo rq o 0 0 v) s = .next t ∧ Replied rq svcWrite o.addr .ok s t ∧ Keeps (l ++ answerParts) s t ∧
      Keeps answerParts e t ∧ e.out <+: t.out := by
  obtain ⟨hdirect, hdev⟩ := timebase_direct o ho v
  have hf := writeTo_accepted rq o 0 0 v {} s h (target_timebase o ho) hdirect hv (settle_of_ne _ _ _ hdev)
  rw [hput] at hf
  obtain ⟨t, ht, hreply, hkeeps, hafter⟩ := answered_ends rq svcWrite o.addr none (writeTo rq o 0 0 v) l s e hf
    (Keeps_trans _ _ _ _ (Keeps_mono _ _ _ _ (received_keeps rq s) (by simp)) hk) hij
  exact ⟨t, ht, hreply, hkeeps, hafter, answered_prefix _ _ _ _ _ _ _ _ hf ht⟩

/-! ### WARP_ROLE (R180) -/

theorem putEffect_warpRole (rq : Rq) (a : Addr) (v : Nat) (s : State) (hv : v < 256) :
    putEffect rq svcWrite a (putOf .warpRole 0 0 v) {} s = (some .ok, warpRoleEffect v s) :=
  congrArg (fun v => (some Status.ok, warpRoleEffect v s)) (putOf_v .warpRole 0 0 v hv)

/-- ROOT goes on free while it is pulled in to TBREF, with TIME kept (R180, R203). -/
def pulledIn (s : State) : State := ({ s with tb := { s.tb with state := 2, synth := 2, started := true } } : State).countLoss

/-- Acquisition begins anew, with TIME stopped (R180). -/
def acquires (v : Nat) (s : State) : State :=
  { s with tb := { s.tb with state := if v == 2 then 3 else 0, synth := 1, sched := [] }, timeRuns := false }

theorem warpRoleEffect_same (s : State) : warpRoleEffect s.role s = s := if_pos (beq_self_eq_true _)

theorem warpRoleEffect_new (v : Nat) (s : State) (h : v ≠ s.role) : warpRoleEffect v s =
    if s.devState = 7 ∧ s.cfg.loaded = true then pulledIn (s.clearWarpIn.wr .warpRole v)
    else acquires v (s.clearWarpIn.wr .warpRole v) := by
  refine (if_neg (by simpa using h)).trans ?_
  by_cases hheld : s.devState = 7 ∧ s.cfg.loaded = true
  · rw [if_pos hheld]
    exact if_pos (by simpa using hheld)
  · rw [if_neg hheld]
    exact if_neg (by simpa using hheld)

theorem pulledIn_keeps (s : State) : Keeps [.regs, .tb] s (pulledIn s) :=
  keeps_then [.tb] [.regs] _ _ _ _ (tb_keeps s _) (wr_keeps _ _ _ _ _) (by decide) (by decide)
theorem pulledIn_role (s : State) : (pulledIn s).role = s.role := rd_wr_ne _ .devSynthLossCount .warpRole _ 0 0 0 0 (by decide)
theorem acquires_keeps (v : Nat) (s : State) : Keeps [.time, .tb] s (acquires v s) :=
  ⟨rfl, rfl, fun p hp => by cases p <;> simp_all [Part.same, acquires]⟩
theorem clearWarpIn_keeps (s : State) : Keeps [.tb] s s.clearWarpIn := tb_keeps s _

/-- A new role is the role, and ROOT is where the re-acquisition begins. -/
theorem warpRoleEffect_leaves (v : Nat) (s : State) (hv : v < 256) :
    (warpRoleEffect v s).role = v ∧
    (warpRoleEffect v s).tb.state
      = (if v = s.role then s.tb.state else if s.devState = 7 ∧ s.cfg.loaded = true then 2 else if v = 2 then 3 else 0) ∧
    Keeps [.time, .regs, .tb] s (warpRoleEffect v s) ∧ (warpRoleEffect v s).ij = s.ij := by
  by_cases hsame : v = s.role
  · subst hsame
    rw [warpRoleEffect_same, if_pos rfl]
    exact ⟨rfl, rfl, Keeps_refl _ _, rfl⟩
  · have hrole : (s.clearWarpIn.wr .warpRole v).role = v :=
      (rd_wr_same _ _ _ _ _).trans (Nat.mod_eq_of_lt (Nat.lt_trans hv (by decide)))
    have hcleared : Keeps [.tb, .regs] s (s.clearWarpIn.wr .warpRole v) :=
      keeps_then [.tb] [.regs] _ _ _ _ (clearWarpIn_keeps s) (wr_keeps _ _ _ _ _) (by decide) (by decide)
    have hij : (s.clearWarpIn.wr .warpRole v).ij = s.ij := rfl
    rw [warpRoleEffect_new v s hsame, if_neg hsame]
    generalize s.clearWarpIn.wr .warpRole v = cleared at hrole hcleared hij
    split
    · exact ⟨(pulledIn_role cleared).trans hrole, rfl, keeps_then _ _ _ _ _ _ hcleared (pulledIn_keeps _) (by decide) (by decide), hij⟩
    · refine ⟨hrole, ?_, keeps_then _ _ _ _ _ _ hcleared (acquires_keeps v _) (by decide) (by decide), hij⟩
      simp [acquires]

/-! ### DEV_LINE_RATIO (R185) -/

theorem putEffect_lineRatio (rq : Rq) (a : Addr) (b : BundleNo) (v : Nat) (s : State) (hv : v < 2 ^ 64) :
    putEffect rq svcWrite a (putOf .devLineRatio 0 b v) {} s = (none, (lineEffect b v s).openService rq svcWrite a (.line b)) := by
  have hb : Fin.ofNat 12 b.val = b := Fin.ext (Nat.mod_eq_of_lt b.isLt)
  refine Eq.trans (congrArg (fun v => (none, (lineEffect b v s).openService rq svcWrite a (.line (Fin.ofNat 12 b.val))))
    (putOf_v .devLineRatio 0 b v hv)) ?_
  rw [hb]

theorem target_lineRatio (b : BundleNo) : target (Obj.devLineRatio.addr 0 b) = .entry .devLineRatio 0 b := by revert b; decide

/-! ### DEV_EVENT_SEND (R190, R191, R198, R206) -/

theorem putEffect_eventSend (rq : Rq) (a : Addr) (v : Nat) (s : State) (hv : v < 65536) :
    putEffect rq svcWrite a (putOf .devEventSend 0 0 v) {} s = (some .ok, eventSendEffect v s) :=
  congrArg (fun v => (some Status.ok, eventSendEffect v s)) (putOf_v .devEventSend 0 0 v hv)

/-- The set that a master sends for an event: HOLD bears the present TIME, the others DEV_EVENT_TIME (R189, R198). -/
def eventSet (s : State) (type group : Nat) : WarpSet :=
  if type = 5 then ⟨5, 0, s.tb.txSeq, s.time⟩ else ⟨type, group, s.tb.txSeq, s.rd .devEventTime⟩

/-- What the master schedules for itself: every event but HOLD. -/
def eventWaits (s : State) (type group : Nat) : List Sched :=
  if type = 5 then [] else [{ type := type, group := group, time := s.rd .devEventTime }]

/-- A set of this device's own has its next SEQ and goes down every running output; nothing else changes. -/
theorem announce_sends (s : State) (type group time : Nat) :
    ∃ out, s.announce type group time = { s with tb := { s.tb with txSeq := (s.tb.txSeq + 1) % 256 }, out := out } ∧
      ∀ n ∈ s.outsRunning, twice (some n) ⟨type, group, s.tb.txSeq, time⟩ <:+: out :=
  sendDown_sends (s.newSet type group time).2 ⟨type, group, s.tb.txSeq, time⟩

theorem eventSendEffect_sends (type group : Nat) (s : State) (hgroup : group < 256) :
    ∃ out, eventSendEffect (type * 2 ^ 12 + group) s = { s with
        tb := { s.tb with txSeq := (s.tb.txSeq + 1) % 256, sched := s.tb.sched ++ eventWaits s type group }, out := out } ∧
      ∀ n ∈ s.outsRunning, twice (some n) (eventSet s type group) <:+: out := by
  have htype : (type * 2 ^ 12 + group) / 2 ^ 12 = type := by omega
  have hg : (type * 2 ^ 12 + group) % 256 = group := by omega
  simp only [eventSendEffect, htype, hg, eventWaits, eventSet]
  by_cases hhold : type = 5
  · obtain ⟨out, heq, hsent⟩ := announce_sends s 5 0 s.time
    refine ⟨out, ?_, by simpa [hhold] using hsent⟩
    rw [if_pos (by simp [hhold]), heq, if_pos hhold, List.append_nil]
  · obtain ⟨out, heq, hsent⟩ := announce_sends s type group (s.rd .devEventTime)
    refine ⟨out, ?_, by simpa [hhold] using hsent⟩
    rw [if_neg (by simp [hhold]), heq, if_neg hhold]
    rfl

/-! ### DEV_WARP_CHAR (R197; log 146) -/

theorem putEffect_warpChar (rq : Rq) (a : Addr) (v : Nat) (s : State) (hv : v < 256) :
    putEffect rq svcWrite a (putOf .devWarpChar 0 0 v) {} s = (some .ok, warpCharEffect v s) :=
  congrArg (fun v => (some Status.ok, warpCharEffect v s)) (putOf_v .devWarpChar 0 0 v hv)

theorem warpCharResult_not_eventKey : ¬ eventKey Obj.devWarpCharResult.key := not_eventKey _ (by decide) (by decide)

theorem warpCharEffect_keeps (v : Nat) (s : State) : Keeps [.regs, .tb] s (warpCharEffect v s) :=
  keeps_then [.regs] [.tb] _ _ _ _ (wr_keeps s .devWarpCharResult 0 0 0) (tb_keeps _ _) (by decide) (by decide)

end Sys2Proof.Laws

namespace Sys2Proof.Proofs
open Sys2Proof.Machine Sys2Proof.Safety Sys2Proof.Laws

theorem role_written (rq : Rq) (s : State) (v : Byte) (h : Accepted rq .warpRole 0 0 v.toNat {} s) :
    ∃ t, exec (.warpRoleWrite rq v) s = .next t ∧ Replied rq svcWrite Obj.warpRole.addr .ok s t ∧ t.role = v.toNat ∧
      t.tb.state = (if v.toNat = s.role then s.tb.state
        else if s.devState = 7 ∧ s.cfg.loaded = true then 2 else if v = 2 then 3 else 0) ∧
      (v.toNat = s.role → Keeps answerParts s t) ∧ Keeps (.time :: .regs :: .tb :: answerParts) s t := by
  have hv2 : v.toNat = 2 ↔ v = 2 := by simp [BitVec.toNat_eq]
  obtain ⟨hrole, hstate, hkeeps, hij⟩ := warpRoleEffect_leaves v.toNat (received rq s) v.isLt
  simp only [received_role, received_tb, received_devState, received_cfg, hv2] at hstate
  obtain ⟨t, ht, hreply, hframe, hafter, -⟩ := timebase_written rq .warpRole v.toNat _ s _ (by decide) h v.isLt
    (putEffect_warpRole _ _ _ _ v.isLt) hkeeps (hij.trans (received_ij rq s))
  refine ⟨t, ht, hreply, ?_, ?_, fun hsame => ?_, hframe⟩
  · rw [State.role, State.rd, keeps_reg hafter (by decide) _ _ _ role_not_eventKey]
    exact hrole
  · rw [hafter.2.2 .tb (by decide), hstate]
  · rw [hsame, ← received_role rq s, warpRoleEffect_same] at hafter
    exact keeps_then _ _ _ _ _ _ (received_keeps rq s) hafter (by simp) (fun _ hp => hp)

theorem line_waits (rq : Rq) (s : State) (b : BundleNo) (v : BitVec 64) (h : Accepted rq .devLineRatio 0 b v.toNat {} s) :
    ∃ t, exec (.lineRatioWrite rq b v) s = .next t ∧
      t.bnd b = { s.bnd b with lineNext := some (v.toNat % 2 ^ 32) } ∧ OnlyBnd b [.ctl] s t ∧
      t.ctl.services = s.ctl.services ++
        [{ rq := rq, service := svcWrite, addr := Obj.devLineRatio.addr 0 b, waits := .line b, since := s.elapsed }] := by
  have hf := writeTo_accepted rq .devLineRatio 0 b v.toNat {} s h (target_lineRatio b)
    ⟨by decide, by decide, by decide, by decide, nofun⟩ v.isLt rfl
  rw [putEffect_lineRatio _ _ _ _ _ v.isLt] at hf
  have hkeeps : Keeps [.bnds, .ctl] s ((lineEffect b v.toNat (received rq s)).openService rq svcWrite
      (Obj.devLineRatio.addr 0 b) (.line b)) :=
    keeps_then [.bnds] [.ctl] _ _ _ _ (Keeps_trans _ _ _ _ (Keeps_mono _ _ _ _ (received_keeps rq s) (by simp)) (setBnd_keeps _ _ _))
      (openService_keeps _ _ _ _ _) (by decide) (by decide)
  refine ⟨_, run_next (writeTo rq .devLineRatio 0 b v.toNat) s _ hf, ?_, ⟨fun c hc => ?_, ended_keeps _ _ _ hkeeps⟩, ?_⟩
  · rw [ended_bnd]
    change ((received rq s).setBnd b (fun x => { x with lineNext := some (v.toNat % 2 ^ 32) })).bnd b = _
    simp
  · rw [ended_bnd]
    change ((received rq s).setBnd b (fun x => { x with lineNext := some (v.toNat % 2 ^ 32) })).bnd c = _
    simp [hc]
  · rw [ended_services]
    simp [answerNow, lineEffect, State.openService]

/-- A master's event goes down, and every one but HOLD waits for its count. -/
theorem event_sent (rq : Rq) (s : State) (type : Nat) (group : Byte) (htype : type < 16)
    (h : Accepted rq .devEventSend 0 0 (type * 2 ^ 12 + group.toNat) {} s) :
    ∃ t, run (sendEvent rq type group.toNat) s = .next t ∧ Replied rq svcWrite Obj.devEventSend.addr .ok s t ∧
      t.tb.sched = s.tb.sched ++ eventWaits s type group.toNat ∧
      (∀ n ∈ s.outsRunning, twice (some n) (eventSet s type group.toNat) <:+: t.out) ∧ Keeps (.tb :: answerParts) s t := by
  have hgroup : group.toNat < 256 := group.isLt
  have hv : type * 2 ^ 12 + group.toNat < 65536 := by omega
  obtain ⟨out, heq, hsent⟩ := eventSendEffect_sends type group.toNat (received rq s) hgroup
  have hput := putEffect_eventSend rq Obj.devEventSend.addr _ (received rq s) hv
  rw [heq] at hput
  obtain ⟨t, ht, hreply, hframe, hafter, hout⟩ := timebase_written rq .devEventSend _ [.tb] s _ (by decide) h hv hput
    (tbPart_keeps _ _ _) (received_ij rq s)
  have hset : eventSet (received rq s) type group.toNat = eventSet s type group.toNat := by simp [eventSet]
  have hwaits : eventWaits (received rq s) type group.toNat = eventWaits s type group.toNat := by simp [eventWaits]
  rw [received_outsRunning, hset] at hsent
  refine ⟨t, ht, hreply, ?_, fun n hn => (hsent n hn).trans hout.isInfix, hframe⟩
  rw [hafter.2.2 .tb (by decide), hwaits, received_tb]

/-- A SYNC, START or PAUSE of the master waits for DEV_EVENT_TIME. -/
theorem event_scheduled (rq : Rq) (s : State) (type : Nat) (group : Byte) (htype : type < 16) (hhold : type ≠ 5)
    (h : Accepted rq .devEventSend 0 0 (type * 2 ^ 12 + group.toNat) {} s) :
    ∃ t, run (sendEvent rq type group.toNat) s = .next t ∧ Replied rq svcWrite Obj.devEventSend.addr .ok s t ∧
      t.tb.sched = s.tb.sched ++ [{ type := type, group := group.toNat, time := s.rd .devEventTime }] ∧
      (∀ w, w = WarpSet.body ⟨type, group.toNat, s.tb.txSeq, s.rd .devEventTime⟩ → ∀ n ∈ s.outsRunning,
        [Msg.warp (some n) (checked w), .warp (some n) (checked w)] <:+: t.out) ∧
      Keeps (.tb :: answerParts) s t := by
  obtain ⟨t, ht, hreply, hsched, hsent, hkeeps⟩ := event_sent rq s type group htype h
  rw [eventWaits, if_neg hhold] at hsched
  rw [eventSet, if_neg hhold] at hsent
  exact ⟨t, ht, hreply, hsched, by rintro w rfl; exact hsent, hkeeps⟩

theorem char_begins (rq : Rq) (s : State) (v : Byte) (h : Accepted rq .devWarpChar 0 0 v.toNat {} s) :
    ∃ t, exec (.warpChar rq v) s = .next t ∧ Replied rq svcWrite Obj.devWarpChar.addr .ok s t ∧
      t.rd .devWarpCharResult = 0 ∧ t.tb = { s.tb with charOut := some (Fin.ofNat 4 v.toNat), charSince := s.elapsed } ∧
      RegsBut [Obj.devWarpCharResult.key] s t ∧ Keeps (.regs :: .tb :: answerParts) s t := by
  obtain ⟨t, ht, hreply, hframe, hafter, -⟩ := timebase_written rq .devWarpChar v.toNat _ s _ (by decide) h v.isLt
    (putEffect_warpChar _ _ _ _ v.isLt) (warpCharEffect_keeps _ _) (received_ij rq s)
  refine ⟨t, ht, hreply, ?_, ?_, fun key d hkey he => ?_, hframe⟩
  · rw [State.rd, keeps_reg hafter (by decide) _ _ _ warpCharResult_not_eventKey]
    exact rd_wr_same (received rq s) .devWarpCharResult 0 0 0
  · rw [hafter.2.2 .tb (by decide)]
    simp [warpCharEffect]
  · rw [hafter.2.2 .regs (by decide) key d he, ← received_dict rq s]
    exact get_setReg _ _ _ _ _ _ _ (by simpa using hkey)

/-- Settles O49: each accepted write has the effect that its lemma above describes. -/
theorem timebaseWrites : Obligations.TimebaseWrites := by
  unfold Obligations.TimebaseWrites
  refine fun rq s => ⟨role_written rq s, line_waits rq s, fun group => ⟨event_scheduled rq s 1 group (by decide) (by decide),
    event_scheduled rq s 2 group (by decide) (by decide), event_scheduled rq s 3 group (by decide) (by decide), fun h => ?_⟩,
    char_begins rq s⟩
  obtain ⟨t, ht, hreply, hsched, hsent, hkeeps⟩ := event_sent rq s 5 group (by decide) h
  exact ⟨t, ht, hreply, hsched.trans (List.append_nil _), by rintro w rfl; exact hsent, hkeeps⟩

end Sys2Proof.Proofs
end

section
/-! A LINE ratio that settles, time code and echo sets, and the fixture measurement (R185, R186, R189, R194, R195, R197,
R207). -/
namespace Sys2Proof.Laws
open Sys2Proof.Machine Sys2Proof.Safety

/-! ### Writing a key again -/

theorem Store_del_place {α : Type} (k : Nat) (v : α) (l : Store α) : Store.del k (Store.place k v l) = Store.del k l := by
  induction l with
  | nil => simp [Store.place, Store.del]
  | cons e l ih =>
    obtain ⟨i, w⟩ := e
    simp only [Store.place]
    split
    · simp [Store.del]
    · simp [Store.del, ih]

theorem Store_del_del {α : Type} (k : Nat) (l : Store α) : Store.del k (Store.del k l) = Store.del k l := by
  induction l with
  | nil => rfl
  | cons e l ih =>
    obtain ⟨i, w⟩ := e
    by_cases h : i = k <;> simp [Store.del, h, ih]

theorem Store_del_put {α : Type} [DecidableEq α] (d : α) (k : Nat) (v : α) (l : Store α) :
    Store.del k (Store.put d k v l) = Store.del k l := by
  unfold Store.put
  split
  · exact Store_del_del k l
  · rw [Store.ins, Store_del_place, Store_del_del]

theorem Store_put_eq {α : Type} [DecidableEq α] (d : α) (k : Nat) (v : α) (l : Store α) :
    Store.put d k v l = if v = d then Store.del k l else Store.place k v (Store.del k l) := rfl

/-- Of two writes of a key the later one counts. -/
theorem Store_put_put {α : Type} [DecidableEq α] (d : α) (k : Nat) (v w : α) (l : Store α) :
    Store.put d k w (Store.put d k v l) = Store.put d k w l := by
  rw [Store_put_eq d k w (Store.put d k v l), Store_del_put, ← Store_put_eq]

theorem link_setLink_same (s : State) (i : Nat) (f : WarpLink → WarpLink) : (s.setLink i f).link i = f (s.link i) :=
  (link_setLink s i i f).trans (if_pos rfl)

/-- Two changes of a link, one after the other. -/
theorem setLink_setLink (s : State) (i : Nat) (f g : WarpLink → WarpLink) :
    (s.setLink i f).setLink i g = s.setLink i (fun l => g (f l)) := by
  rw [State.setLink, link_setLink_same]
  simp only [State.setLink, Store_put_put]

theorem setLink_keeps (s : State) (i : Nat) (f : WarpLink → WarpLink) : Keeps [.tb] s (s.setLink i f) := tb_keeps s _
theorem timeTb_keeps (s : State) (time : Nat) (x : Timebase) : Keeps [.time, .tb] s { s with time := time, tb := x } :=
  ⟨rfl, rfl, fun p hp => by cases p <;> simp_all [Part.same]⟩

end Sys2Proof.Laws

namespace Sys2Proof.Proofs
open Sys2Proof.Machine Sys2Proof.Safety Sys2Proof.Laws

/-! ### LINE (R185, R186) -/

/-- A LINE in force, before its write is answered. -/
def lineInForce (b : BundleNo) (pq : Nat) (s : State) : State :=
  (s.setBnd b (fun x => { x with lineNext := none })).wr .devLineRatio (lineWord pq) 0 b

theorem lineSettled_eq (b : BundleNo) (pq : Nat) (s : State) (h : (s.bnd b).lineNext = some pq) :
    lineSettled b s = (lineInForce b pq s).complete (.line b) .ok := by
  rw [lineSettled, h]
  rfl

theorem lineInForce_keeps (b : BundleNo) (pq : Nat) (s : State) : Keeps [.regs, .bnds] s (lineInForce b pq s) :=
  keeps_then [.bnds] [.regs] _ _ _ _ (setBnd_keeps _ _ _) (wr_keeps _ _ _ _ _) (by decide) (by decide)

theorem lineInForce_bnd (b : BundleNo) (pq : Nat) (s : State) (c : Nat) :
    (lineInForce b pq s).bnd c = if c = b then { s.bnd b with lineNext := none } else s.bnd c := by
  rw [lineInForce, wr_bnd, bnd_setBnd]

theorem lineRatio_not_eventKey (b : BundleNo) : ¬ eventKey (Obj.devLineRatio.key 0 b) :=
  not_eventKey _ (by revert b; decide) (by revert b; decide)

/-- The new LINE is in force and its write is answered. -/
theorem line_settles (s : State) (b : BundleNo) (pq : Nat) (h : (s.bnd b).lineNext = some pq) :
    ∃ t, exec (.lineSettled b) s = .next t ∧ (t.bnd b).lineNext = none ∧
      t.reg .devLineRatio 0 b = Word.of (lineWord pq) ∧
      t.ctl.services = s.ctl.services.filter (fun o => o.waits != .line b) ∧
      RegsBut [Obj.devLineRatio.key 0 b] s t ∧ (∀ c, c ≠ b.val → t.bnd c = s.bnd c) ∧
      Keeps [.regs, .bnds, .ctl, .replies, .slots] s t := by
  set e := lineInForce b pq { s with out := [] }
  have hcomplete := complete_keeps e (.line b) .ok
  have hbnd (c : Nat) : (s.keepFixed (e.complete (.line b) .ok).deliver).bnd c =
      if c = b then { s.bnd b with lineNext := none } else s.bnd c := by
    rw [ended_bnd, keeps_bnd hcomplete (by decide)]
    exact lineInForce_bnd b pq _ c
  refine ⟨_, run_next (lineSettled b) s _ (lineSettled_eq b pq _ h), ?_, ?_, ?_, fun key d hkey he => ?_, fun c hc => ?_, ?_⟩
  · rw [hbnd, if_pos rfl]
  · rw [ended_reg _ _ _ _ _ (lineRatio_not_eventKey b), keeps_reg hcomplete (by decide) _ _ _ (lineRatio_not_eventKey b)]
    exact reg_wr_same _ _ _ _ _
  · rw [ended_services, complete_services]
    rfl
  · exact (deliver_get _ key d he).trans ((hcomplete.2.2 .regs (by decide) key d he).trans
      (get_setReg _ _ _ _ _ _ _ (by simpa using hkey)))
  · rw [hbnd, if_neg hc]
  · exact ended_effect_keeps (keeps_then _ _ _ _ _ _ (lineInForce_keeps b pq _) hcomplete (by decide) (by decide))

/-! ### Time codes (R189, R190, R194, R195) -/

/-- What a good set does that arrives at t2: it says what it says of the parent, and in LINK_LOCKED and ALIGNED it counts for
the alignment (R189, R194, R195). -/
def codeHeard (c : TimeCode) (t2 : Nat) (s : State) : State :=
  if s.tb.state = 4 ∨ s.tb.state = 5 then timeCodeGood c t2 (timeCodeFlags c s) else timeCodeFlags c s

section
variable (data : List Byte) (sub : BitVec 15) (s : State) (halive : s.alive = true) (hrole : s.role = 2)
  (hlocked : (s.link 0).locked = true)
include halive hrole hlocked

theorem warpTimeCode_bad (h : checkedOf 16 data = none) : warpTimeCode data sub s =
    s.setLink 0 (fun l => { l with errors := min (l.errors + 1) 0xFFFF, bad := l.bad + 1 }) := by
  rw [warpTimeCode, onlyIf_pos _ _ _ (by simp [halive, hrole, hlocked]), h]
  exact setLink_setLink s 0 _ _

theorem warpTimeCode_good (l : List Byte) (h : checkedOf 16 data = some l) :
    warpTimeCode data sub s = codeHeard (timeCodeOf l) (s.now + sub.toNat) s := by
  have hst : (timeCodeFlags (timeCodeOf l) s).tb.state = s.tb.state := rfl
  rw [warpTimeCode, onlyIf_pos _ _ _ (by simp [halive, hrole, hlocked]), h]
  simp only [codeHeard, hst, Bool.or_eq_true, beq_iff_eq]
  rfl

end

/-- A set with a bad CRC is counted, and nothing else changes. -/
theorem bad_code_counted (s : State) (data : List Byte) (sub : BitVec 15) (halive : s.alive = true) (hrole : s.role = 2)
    (hlocked : (s.link 0).locked = true) (hbad : checkedOf 16 data = none) :
    ∃ t, exec (.warpTimeCode ⟨data, sub⟩) s = .next t ∧ Keeps [.tb] s t ∧
      t.tb = (s.setLink 0 (fun l => { l with errors := min (l.errors + 1) 0xFFFF, bad := l.bad + 1 })).tb := by
  have heq := warpTimeCode_bad data sub { s with out := [] } halive hrole hlocked hbad
  exact ⟨_, run_next (warpTimeCode data sub) s _ heq, ended_effect_keeps (setLink_keeps _ _ _), ended_tb _ _⟩

/-- The arrival of a good set is kept for its echo (R194). -/
def echoKept (seq t2 : Nat) (s : State) : State := { s with tb := { s.tb with echoes := s.tb.echoes ++ [(seq, t2)] } }

/-- The DN delay in vernier steps that a set with LOOP gives, where its echo was turned round in `turn` steps (R194;
log 146). -/
def dnSteps (loop turn : Nat) (s : State) : Int :=
  roundDiv ((loop : Int) - turn + stepsOfFs (signed 32 (s.rd .devWarpAsym))) 2

/-- The offset of a set that arrives at t2 (R194). -/
def codeOffset (c : TimeCode) (t2 turn : Nat) (s : State) : Int :=
  ((t2 : Int) - (c.time * stepsPerTick : Nat)) - dnSteps c.loop turn s

/-- The correction of TIME: whole in LINK_LOCKED, one step at a time in ALIGNED (R194, R195). -/
def codeMove (c : TimeCode) (t2 turn : Nat) (s : State) : Int :=
  if s.tb.state = 5 then clampInt (-1) 1 (-codeOffset c t2 turn s) else -codeOffset c t2 turn s

/-- A set whose LOOP allows a correction (R194, R195). -/
def corrected (c : TimeCode) (t2 turn : Nat) (s : State) : State :=
  let moved := (echoKept c.seq t2 s).stepTime (codeMove c t2 turn s)
  { moved with tb := { moved.tb with
      delay := fsOfSteps (dnSteps c.loop turn s)
      offsets := (codeOffset c t2 turn s + codeMove c t2 turn s) :: moved.tb.offsets.take 63 } }

/-- What a good set leaves in LINK_LOCKED and ALIGNED, but for the time at which Warp-in was heard. -/
def codeTaken (c : TimeCode) (t2 : Nat) (s : State) : State :=
  match s.tb.turns.find? (fun e => e.1 == c.loopSeq) with
  | none => echoKept c.seq t2 s
  | some e => corrected c t2 e.2 s

theorem timeCodeGood_eq (c : TimeCode) (t2 : Nat) (s : State) : timeCodeGood c t2 s =
    (codeTaken c t2 s).setLink 0 (fun l => { l with heard := (codeTaken c t2 s).time }) := by
  have hmove (turn : Nat) : (if s.tb.state == 5 then clampInt (-1) 1 (-codeOffset c t2 turn s) else -codeOffset c t2 turn s)
      = codeMove c t2 turn s := by simp [codeMove]
  unfold timeCodeGood codeTaken
  cases s.tb.turns.find? (fun e => e.1 == c.loopSeq) with
  | none => rfl
  | some e =>
    dsimp only
    rw [corrected, ← hmove]
    rfl

theorem codeTaken_leaves (c : TimeCode) (t2 : Nat) (s : State) : Keeps [.time, .tb] s (codeTaken c t2 s) ∧
    (codeTaken c t2 s).tb.state = s.tb.state ∧ (codeTaken c t2 s).tb.links = s.tb.links := by
  unfold codeTaken
  split
  · exact ⟨Keeps_mono _ _ _ _ (tb_keeps s _) (by simp), rfl, rfl⟩
  · exact ⟨timeTb_keeps s _ _, rfl, rfl⟩

theorem timeCodeFlags_link (c : TimeCode) (s : State) : (timeCodeFlags c s).link 0 = { s.link 0 with
    masterHoldover := c.flags.testBit 7, peerAligned := c.flags.testBit 6, peerDepth := c.flags % 16,
    depthExceeded := decide (3 ≤ c.flags % 16), bad := 0, heard := s.time } :=
  link_setLink_same s 0 (fun l => { l with
    masterHoldover := c.flags.testBit 7, peerAligned := c.flags.testBit 6, peerDepth := c.flags % 16,
    depthExceeded := decide (3 ≤ c.flags % 16), bad := 0, heard := s.time })

theorem timeCodeFlags_keeps (c : TimeCode) (s : State) : Keeps [.tb] s (timeCodeFlags c s) := setLink_keeps _ _ _

/-- Of Warp-in the alignment changes but the time at which it was heard. -/
theorem timeCodeGood_link (c : TimeCode) (t2 : Nat) (s : State) :
    (timeCodeGood c t2 s).link 0 = { s.link 0 with heard := (codeTaken c t2 s).time } := by
  obtain ⟨-, -, hlinks⟩ := codeTaken_leaves c t2 s
  have hlink : (codeTaken c t2 s).link 0 = s.link 0 := by rw [State.link, hlinks, State.link]
  rw [timeCodeGood_eq, link_setLink_same, hlink]

/-- A good set shows what it says of the parent, and ROOT stays in its state. -/
theorem codeHeard_leaves (c : TimeCode) (t2 : Nat) (s : State) :
    Keeps [.time, .tb] s (codeHeard c t2 s) ∧ (codeHeard c t2 s).tb.state = s.tb.state ∧
      ((codeHeard c t2 s).link 0).peerDepth = c.flags % 16 ∧ ((codeHeard c t2 s).link 0).peerAligned = c.flags.testBit 6 ∧
      ((codeHeard c t2 s).link 0).masterHoldover = c.flags.testBit 7 ∧ ((codeHeard c t2 s).link 0).bad = 0 := by
  have hflags : Keeps [.time, .tb] s (timeCodeFlags c s) := Keeps_mono _ _ _ _ (timeCodeFlags_keeps c s) (by simp)
  unfold codeHeard
  split
  · obtain ⟨hkeeps, hstate, -⟩ := codeTaken_leaves c t2 (timeCodeFlags c s)
    rw [timeCodeGood_link, timeCodeFlags_link, timeCodeGood_eq]
    exact ⟨Keeps_trans _ _ _ _ hflags (Keeps_trans _ _ _ _ hkeeps (Keeps_mono _ _ _ _ (setLink_keeps _ _ _) (by simp))),
      hstate, rfl, rfl, rfl, rfl⟩
  · rw [timeCodeFlags_link]
    exact ⟨hflags, rfl, rfl, rfl, rfl, rfl⟩

/-- A set with no LOOP for a set that was echoed moves no time; its arrival waits for the echo. -/
theorem codeHeard_unechoed (c : TimeCode) (t2 : Nat) (s : State) (h : s.tb.turns.find? (fun e => e.1 == c.loopSeq) = none) :
    (codeHeard c t2 s).time = s.time ∧
      (s.tb.state = 4 ∨ s.tb.state = 5 → (codeHeard c t2 s).tb.echoes = s.tb.echoes ++ [(c.seq, t2)]) := by
  have htaken : codeTaken c t2 (timeCodeFlags c s) = echoKept c.seq t2 (timeCodeFlags c s) := by
    rw [codeTaken, show (timeCodeFlags c s).tb.turns = s.tb.turns from rfl, h]
  unfold codeHeard
  split
  · rw [timeCodeGood_eq, htaken]
    exact ⟨rfl, fun _ => rfl⟩
  · next hst => exact ⟨rfl, fun h => absurd h hst⟩

/-- A set with a LOOP gives the DN delay, and in LINK_LOCKED it leaves an offset of 0. -/
theorem codeHeard_corrects (c : TimeCode) (t2 : Nat) (s : State) (e : Nat × Nat)
    (h : s.tb.turns.find? (fun e => e.1 == c.loopSeq) = some e) (hst : s.tb.state = 4) :
    (codeHeard c t2 s).tb.offsets = 0 :: s.tb.offsets.take 63 ∧
      (codeHeard c t2 s).tb.delay
        = fsOfSteps (roundDiv ((c.loop : Int) - e.2 + stepsOfFs (signed 32 (s.rd .devWarpAsym))) 2) := by
  have htaken : codeTaken c t2 (timeCodeFlags c s) = corrected c t2 e.2 (timeCodeFlags c s) := by
    rw [codeTaken, show (timeCodeFlags c s).tb.turns = s.tb.turns from rfl, h]
  have hmove : codeMove c t2 e.2 (timeCodeFlags c s) = -codeOffset c t2 e.2 (timeCodeFlags c s) :=
    if_neg (by rw [show (timeCodeFlags c s).tb.state = s.tb.state from rfl, hst]; decide)
  have hoffset : codeOffset c t2 e.2 (timeCodeFlags c s) + codeMove c t2 e.2 (timeCodeFlags c s) = 0 := by rw [hmove]; omega
  rw [codeHeard, if_pos (.inl hst), timeCodeGood_eq, htaken]
  refine ⟨?_, rfl⟩
  exact congrArg (· :: s.tb.offsets.take 63) hoffset

/-- A good set at a follower whose Warp-in is locked. -/
theorem good_code_heard (s : State) (data : List Byte) (sub : BitVec 15) (halive : s.alive = true) (hrole : s.role = 2)
    (hlocked : (s.link 0).locked = true) (l : List Byte) (c : TimeCode) (hgood : checkedOf 16 data = some l) (hc : c = timeCodeOf l) :
    ∃ t, exec (.warpTimeCode ⟨data, sub⟩) s = .next t ∧ Keeps [.time, .tb] s t ∧ t.tb.state = s.tb.state ∧
      (t.link 0).peerDepth = c.flags % 16 ∧ (t.link 0).peerAligned = c.flags.testBit 6 ∧
      (t.link 0).masterHoldover = c.flags.testBit 7 ∧ (t.link 0).bad = 0 ∧
      (s.tb.turns.find? (fun e => e.1 == c.loopSeq) = none → t.time = s.time ∧
        (s.tb.state = 4 ∨ s.tb.state = 5 → t.tb.echoes = s.tb.echoes ++ [(c.seq, s.now + sub.toNat)])) ∧
      (∀ e : Nat × Nat, s.tb.turns.find? (fun e => e.1 == c.loopSeq) = some e → s.tb.state = 4 →
        t.tb.offsets = 0 :: s.tb.offsets.take 63 ∧
        t.tb.delay = fsOfSteps (roundDiv ((c.loop : Int) - e.2 + stepsOfFs (signed 32 (s.rd .devWarpAsym))) 2)) := by
  have heq := warpTimeCode_good data sub { s with out := [] } halive hrole hlocked l hgood
  rw [← hc] at heq
  obtain ⟨hkeeps, hparent⟩ := codeHeard_leaves c (s.now + sub.toNat) { s with out := [] }
  refine ⟨_, run_next (warpTimeCode data sub) s _ heq, ended_effect_keeps hkeeps, ?_⟩
  rw [ended_tb, ended_link, ended_time]
  obtain ⟨hstate, hdepth, haligned, hholdover, hbad⟩ := hparent
  exact ⟨hstate, hdepth, haligned, hholdover, hbad, codeHeard_unechoed c _ { s with out := [] },
    codeHeard_corrects c _ { s with out := [] }⟩

/-! ### Echoes (R194) -/

/-- What a good echo set shows of the child of a Warp-out. -/
def childHeard (out : Fin 4) (flags : Nat) (s : State) : State :=
  s.setLink (out.val + 1) (fun l => { l with
    signal := true, locked := true, lost := false, heard := s.time, peerAligned := flags.testBit 6, peerDepth := flags % 16 })

/-- The LOOP of later sets at a Warp-out, from an echo that arrives at t4. -/
def loopFormed (out : Fin 4) (seq t4 : Nat) (s : State) : State :=
  match s.tb.codes.find? (fun e => e.1 == seq) with
  | none => s
  | some (_, t1) => { s with tb := { s.tb with
      loops := s.tb.loops.filter (fun e => e.1 != out.val) ++ [(out.val, (seq, t4 - t1 * stepsPerTick))] } }

theorem warpEchoIn_bad (out : Fin 4) (data : List Byte) (sub : BitVec 15) (s : State) (hruns : s.outRuns out = true)
    (h : checkedOf 3 data = none) : warpEchoIn out data sub s = s.linkError (out.val + 1) := by
  rw [warpEchoIn, onlyIf_pos _ _ _ hruns, h]

theorem warpEchoIn_good (out : Fin 4) (data : List Byte) (sub : BitVec 15) (s : State) (hruns : s.outRuns out = true)
    (l : List Byte) (h : checkedOf 3 data = some l) : warpEchoIn out data sub s =
      loopFormed out (leNat (l.take 1)) (s.now + sub.toNat) (childHeard out (leNat (l.drop 1)) s) := by
  rw [warpEchoIn, onlyIf_pos _ _ _ hruns, h]
  rfl

theorem loopFormed_leaves (out : Fin 4) (seq t4 : Nat) (s : State) :
    Keeps [.tb] s (loopFormed out seq t4 s) ∧ (loopFormed out seq t4 s).tb.links = s.tb.links := by
  unfold loopFormed
  split
  · exact ⟨Keeps_refl _ _, rfl⟩
  · exact ⟨tb_keeps s _, rfl⟩

theorem loopFormed_loops (out : Fin 4) (seq t4 : Nat) (s : State) (e : Nat × Nat)
    (h : s.tb.codes.find? (fun e => e.1 == seq) = some e) :
    (out.val, (seq, t4 - e.2 * stepsPerTick)) ∈ (loopFormed out seq t4 s).tb.loops := by
  rw [loopFormed, h]
  exact List.mem_append_right _ (List.mem_singleton.mpr rfl)

theorem bad_echo_counted (s : State) (out : Fin 4) (seq flags check : Byte) (sub : BitVec 15) (hruns : s.outRuns out = true)
    (hbad : checkedOf 3 [seq, flags, check] = none) :
    ∃ t, exec (.warpEcho out seq flags check sub) s = .next t ∧ Keeps [.tb] s t ∧ t.tb = (s.linkError (out.val + 1)).tb := by
  have heq := warpEchoIn_bad out [seq, flags, check] sub { s with out := [] } hruns hbad
  exact ⟨_, run_next (warpEchoIn out [seq, flags, check] sub) s _ heq, ended_effect_keeps (setLink_keeps _ _ _), ended_tb _ _⟩

theorem good_echo_heard (s : State) (out : Fin 4) (seq flags check : Byte) (sub : BitVec 15) (hruns : s.outRuns out = true)
    (l : List Byte) (hgood : checkedOf 3 [seq, flags, check] = some l) :
    ∃ t, exec (.warpEcho out seq flags check sub) s = .next t ∧ Keeps [.tb] s t ∧
      (t.link (out.val + 1)).locked = true ∧ (t.link (out.val + 1)).lost = false ∧
      (t.link (out.val + 1)).peerAligned = (leNat (l.drop 1)).testBit 6 ∧
      (∀ e : Nat × Nat, s.tb.codes.find? (fun e => e.1 == leNat (l.take 1)) = some e →
        (out.val, (leNat (l.take 1), s.now + sub.toNat - e.2 * stepsPerTick)) ∈ t.tb.loops) := by
  have heq := warpEchoIn_good out [seq, flags, check] sub { s with out := [] } hruns l hgood
  set child := childHeard out (leNat (l.drop 1)) { s with out := [] }
  obtain ⟨hkeeps, hlinks⟩ := loopFormed_leaves out (leNat (l.take 1)) (s.now + sub.toNat) child
  have hlink : (loopFormed out (leNat (l.take 1)) (s.now + sub.toNat) child).link (out.val + 1) = child.link (out.val + 1) := by
    rw [State.link, hlinks, State.link]
  refine ⟨_, run_next (warpEchoIn out [seq, flags, check] sub) s _ heq,
    ended_effect_keeps (Keeps_trans _ _ _ _ (setLink_keeps _ _ _) hkeeps), ?_⟩
  rw [ended_link, ended_tb]
  have hshown := hlink.trans (link_setLink_same { s with out := [] } (out.val + 1) (fun l' => { l' with
    signal := true, locked := true, lost := false, heard := s.time, peerAligned := (leNat (l.drop 1)).testBit 6,
    peerDepth := leNat (l.drop 1) % 16 }))
  exact ⟨congrArg WarpLink.locked hshown, congrArg WarpLink.lost hshown, congrArg WarpLink.peerAligned hshown,
    fun e he => loopFormed_loops out _ _ child e he⟩

/-! ### The fixture measurement (R197) -/

/-- A fixture measurement that has ended with a delay in its result. -/
def charEnded (result : Nat) (s : State) : State := { s.wr .devWarpCharResult result with tb := { s.tb with charOut := none } }

theorem charEnded_keeps (result : Nat) (s : State) : Keeps [.regs, .tb] s (charEnded result s) :=
  keeps_then [.regs] [.tb] _ _ _ _ (wr_keeps s .devWarpCharResult result 0 0) (tb_keeps _ _) (by decide) (by decide)

theorem char_ends (s : State) (delay : Option (BitVec 32)) (hruns : s.tb.charOut.isSome = true)
    (hwaited : delay = none → s.tb.charSince + 10 * ticksPerMs ≤ s.elapsed) :
    ∃ t, exec (.warpCharDone delay) s = .next t ∧ t.rd .devWarpCharResult = (delay.map (·.toNat)).getD 0xFFFFFFFF ∧
      t.tb = { s.tb with charOut := none } ∧ RegsBut [Obj.devWarpCharResult.key] s t ∧ Keeps [.regs, .tb] s t := by
  set result := (delay.map (·.toNat)).getD 0xFFFFFFFF with hresult
  have hlt : result < 2 ^ 64 := by
    rw [hresult]
    cases delay with
    | none => decide
    | some d => exact Nat.lt_trans d.isLt (by decide)
  have hgate : (s.tb.charOut.isSome && (delay.isSome || s.charTimedOut)) = true := by
    cases delay with
    | none => simpa [hruns, State.charTimedOut, State.passed] using hwaited rfl
    | some d => simp [hruns]
  refine ⟨_, run_next (fun s => s.onlyIf (s.tb.charOut.isSome && (delay.isSome || s.charTimedOut)) (charEnded result)) s _
    (onlyIf_pos { s with out := [] } _ _ hgate), ?_, ended_tb _ _, fun key d hkey he => ?_, ended_effect_keeps (charEnded_keeps _ _)⟩
  · rw [ended_rd _ _ _ _ _ warpCharResult_not_eventKey]
    exact (rd_wr_same { s with out := [] } .devWarpCharResult result 0 0).trans (Nat.mod_eq_of_lt hlt)
  · exact (deliver_get _ key d he).trans (get_setReg { s with out := [] } .devWarpCharResult _ 0 0 _ _ (by simpa using hkey))

/-- Settles O30: LINE, the sets of both directions and the fixture measurement each have the effect that their lemma above
describes. -/
theorem lineAndLoop : Obligations.LineAndLoop := by
  unfold Obligations.LineAndLoop
  exact fun s => ⟨line_settles s, fun data sub halive hrole hlocked => ⟨bad_code_counted s data sub halive hrole hlocked,
    good_code_heard s data sub halive hrole hlocked⟩, fun out seq flags check sub hruns =>
    ⟨bad_echo_counted s out seq flags check sub hruns, good_echo_heard s out seq flags check sub hruns⟩, char_ends s⟩

end Sys2Proof.Proofs
end

section
/-! The statement about internal injections and self-tests is refuted in a state that holds an event which is still to be
delivered. -/
namespace Sys2Proof.Proofs
open Sys2Proof.Machine Sys2Proof.Safety Sys2Proof.Laws

/-- An UNLOCKED window of 60 s has passed, an injection watches for the next event, and a TIMEBASE event is undelivered. -/
def watchedExpiry : State :=
  { State.reset with
    elapsed := 60 * ticksPerSecond, ij := { state := 1, watch := true }
    evt := { State.reset.evt with now := [{ code := 0x0804 }] } }

/-- Refutes O42: its clause of the window's expiry says that the injector differs in its state alone, but the command ends
with the delivery of every event that is held, and the record of an event ends the watch (R531, R541). No step leaves an
event undelivered, so the counterexample is a state that no step reaches; the statement does not exclude it. -/
theorem not_injectionAndTest : ¬ Obligations.InjectionAndTest := by
  unfold Obligations.InjectionAndTest
  intro h
  obtain ⟨-, hexpiry, -⟩ := h watchedExpiry
  obtain ⟨t, hexec, hij, -⟩ := hexpiry rfl (by decide)
  have hwatched : t.ij.watch = true := by rw [hij]; rfl
  obtain rfl := Host.Outcome.next.inj hexec
  exact absurd hwatched (by decide)

end Sys2Proof.Proofs
end

section
/-! What a cycle of a site's stream leaves as it is beside what it drives and compares: the cycles that wait, the start of the
next one, and the memory channels' state (R211 to R216, R222, R231, R232, R331 to R347). -/
namespace Sys2Proof.Laws
open Sys2Proof.Machine Sys2Proof.Safety

/-! ### Nothing moves a stream on -/

/-- A run but for the cycle in progress, the strobes that are still to come and the boundary mark. -/
def Run.stream (r : Run) : Run := { r with current := none, beats := [], boundary := false }

/-- Where a site's stream stands: the site's state, and its run. -/
def pace (s : State) (i : Nat) : SiteSt × Run := (s.siteSt i, Run.stream (s.run' i))

/-- The parts that a cycle's start may change. -/
def cycleParts : List Part := [.free, .regs, .doms, .sites, .bnds, .ports, .ctxs, .mem, .chans]

/-- The first key of the ports' registers. -/
def portKeys : Nat := 0x4000 * 256

/-- No stream of a site moves on, no memory channel is judged anew, and of the registers below the ports' only those that count
requests to GDDR7 differ. -/
structure KeepsPace (s t : State) : Prop where
  frame : Keeps cycleParts s t
  paced : ∀ i, pace t i = pace s i
  chan : ∀ c, Chan.judged (t.chan c) = Chan.judged (s.chan c)
  regs : ∀ key d, key < portKeys → key ∉ memKeys → ¬ eventKey key →
    Store.get d key t.dict.regs = Store.get d key s.dict.regs

theorem keepsPace_refl (s : State) : KeepsPace s s :=
  ⟨Keeps_refl _ _, fun _ => rfl, fun _ => rfl, fun _ _ _ _ _ => rfl⟩

theorem keepsPace_trans {s t u : State} (h : KeepsPace s t) (h' : KeepsPace t u) : KeepsPace s u :=
  ⟨Keeps_trans _ _ _ _ h.frame h'.frame, fun i => (h'.paced i).trans (h.paced i), fun c => (h'.chan c).trans (h.chan c),
   fun key d hlow hmem hev => (h'.regs key d hlow hmem hev).trans (h.regs key d hlow hmem hev)⟩

theorem pace_of_sites {s t : State} (h : t.sites = s.sites) (i : Nat) : pace t i = pace s i := by
  rw [pace, State.siteSt, State.run', site_of_sites s t h]
  rfl

/-- A change of parts that hold no site, no register and no memory channel. -/
theorem keepsPace_of {l : List Part} {s t : State} (h : Keeps l s t) (hl : l ⊆ cycleParts)
    (hno : Part.sites ∉ l ∧ Part.regs ∉ l ∧ Part.chans ∉ l) : KeepsPace s t := by
  obtain ⟨hsites, hregs, hchans⟩ := hno
  refine ⟨Keeps_mono _ _ _ _ h (fun _ hp => hl hp), pace_of_sites (h.2.2 .sites hsites), fun c => ?_,
    fun key d _ _ hev => h.2.2 .regs hregs key d hev⟩
  rw [State.chan, h.2.2 .chans hchans, State.chan]

theorem keepsPace_foldl {α : Type} (l : List α) (f : State → α → State) (s : State) (h : ∀ t x, KeepsPace t (f t x)) :
    KeepsPace s (l.foldl f s) := by
  induction l generalizing s with
  | nil => exact keepsPace_refl s
  | cons x l ih => exact keepsPace_trans (h s x) (ih _)

theorem keepsPace_foldl_snd {α β : Type} (l : List α) (f : β × State → α → β × State) (e : β × State)
    (h : ∀ e x, KeepsPace e.2 (f e x).2) : KeepsPace e.2 (l.foldl f e).2 := by
  induction l generalizing e with
  | nil => exact keepsPace_refl e.2
  | cons x l ih => exact keepsPace_trans (h e x) (ih _)

theorem keepsPace_each (l : List Nat) (f : Nat → State → State) (s : State) (h : ∀ i t, KeepsPace t (f i t)) :
    KeepsPace s (s.each l f) := keepsPace_foldl l _ s (fun t i => h i t)

/-- Either of two states that a condition chooses. -/
theorem keepsPace_ite {c : Prop} [Decidable c] {s t u : State} (h : KeepsPace s t) (h' : KeepsPace s u) :
    KeepsPace s (if c then t else u) := by split <;> assumption
theorem keepsPace_ite_snd {α : Type} {c : Prop} [Decidable c] {s : State} {x y : α × State} (h : KeepsPace s x.2)
    (h' : KeepsPace s y.2) : KeepsPace s (if c then x else y).2 := by split <;> assumption

theorem keepsPace_calm {s t : State} (h : Calm s t) : KeepsPace s t :=
  ⟨Keeps_mono _ _ _ _ h.frame (by decide), pace_of_sites (h.frame.2.2 .sites (by decide)), h.chan,
   fun key d _ hmem hev => h.regs key d hmem hev⟩

theorem keepsPace_free (s : State) (n : Nat) : KeepsPace s (s.free n).2 :=
  keepsPace_of (onlyFree_keeps _ _ (free_onlyFree s n)) (by decide) (by decide)
theorem keepsPace_setPort (s : State) (p : Nat) (f : Port → Port) : KeepsPace s (s.setPort p f) :=
  keepsPace_of (setPort_keeps s p f) (by decide) (by decide)
theorem keepsPace_setCtx (s : State) (c : Nat) (f : Context → Context) : KeepsPace s (s.setCtx c f) :=
  keepsPace_of (setCtx_keeps s c f) (by decide) (by decide)
theorem keepsPace_setCap (s : State) (b : Nat) (f : Capture → Capture) : KeepsPace s (s.setCap b f) :=
  keepsPace_of (setBnd_keeps s b _) (by decide) (by decide)
theorem keepsPace_raise (s : State) (code kind unit arg0 arg1 : Nat) (ext : List Byte) (rim : Bool) :
    KeepsPace s (s.raise code kind unit arg0 arg1 ext rim) :=
  keepsPace_of (raise_keeps s code kind unit arg0 arg1 ext rim) (by decide) (by decide)

/-- A change of a site that leaves its stream where it stands. -/
theorem keepsPace_setSite (s : State) (i : Nat) (f : Site → Site)
    (h : ((f (s.site i)).st, Run.stream (f (s.site i)).run) = ((s.site i).st, Run.stream (s.site i).run)) :
    KeepsPace s (s.setSite i f) := by
  refine ⟨Keeps_mono _ _ _ _ (setSite_keeps s i f) (by decide), fun j => ?_, fun _ => rfl, fun _ _ _ _ _ => rfl⟩
  rw [pace, State.siteSt, State.run', site_setSite]
  split
  · next hj => rw [hj, h]; rfl
  · rfl
theorem keepsPace_setRun (s : State) (i : Nat) (f : Run → Run) (h : Run.stream (f (s.run' i)) = Run.stream (s.run' i)) :
    KeepsPace s (s.setRun i f) := keepsPace_setSite s i _ (Prod.ext rfl h)
theorem keepsPace_setRing (s : State) (i : Nat) (f : Ring → Ring) : KeepsPace s (s.setRing i f) := keepsPace_setSite s i _ rfl

/-- A write of a register of a port. -/
theorem keepsPace_wr (s : State) (o : Obj) (v p : Nat) (h : portKeys ≤ o.key p) : KeepsPace s (s.wr o v p) :=
  ⟨Keeps_mono _ _ _ _ (wr_keeps s o v p 0) (by decide), fun _ => rfl, fun _ => rfl,
   fun _ _ hlow _ _ => get_setReg _ _ _ _ _ _ _ (by omega)⟩

/-- The registers of a port lie above every other unit's (R42). -/
theorem portKeys_le (o : Obj) (p : Nat) (h : o.row.space = .port) : portKeys ≤ o.key p := by
  rw [Obj.key, Obj.index, h, portKeys, Space.base]
  omega

/-! ### The channels -/

theorem keepsPace_quiet {s t : State} (h : KeepsPace s t) (hq : ChansQuiet s) : ChansQuiet t := by
  intro c hc
  obtain ⟨hbad, hrate⟩ := hq c hc
  have hrecent : (t.chan c).recent = (s.chan c).recent := congrArg (·.2.2.1) (h.chan c)
  have hrecentBad : (t.chan c).recentBad = (s.chan c).recentBad := congrArg (·.2.2.2) (h.chan c)
  have hthr : t.rd .devMemLaneThreshold = s.rd .devMemLaneThreshold :=
    rd_of_regs s t _ _ _ (h.regs _ _ (by decide) (by decide) laneThreshold_not_eventKey)
  refine ⟨hrecentBad ▸ hbad, fun l hl => ?_⟩
  rw [Chan.laneRate, hrecent, hthr]
  exact hrate l hl

/-! ### What a site's stream is made of -/

theorem keepsPace_siteSt {s t : State} (h : KeepsPace s t) (i : Nat) : t.siteSt i = s.siteSt i := congrArg Prod.fst (h.paced i)
theorem keepsPace_stream {s t : State} (h : KeepsPace s t) (i : Nat) : Run.stream (t.run' i) = Run.stream (s.run' i) :=
  congrArg Prod.snd (h.paced i)
/-- What a run tells beside the cycle in progress, the strobes to come and the boundary mark. -/
theorem keepsPace_run {α : Type} (g : Run → α) (hg : ∀ r, g (Run.stream r) = g r) {s t : State} (h : KeepsPace s t)
    (i : Nat) : g (t.run' i) = g (s.run' i) := by rw [← hg, keepsPace_stream h i, hg]
theorem keepsPace_stepRec {s t : State} (h : KeepsPace s t) (i : Nat) : t.stepRec i = s.stepRec i :=
  keepsPace_run (fun r => r.stepRec r.step) (fun _ => rfl) h i

/-! ### The cycle before, and the codes of the next one (R231, R232, R287) -/

theorem cycleCompletes_keepsPace (s : State) (p tset : Nat) (parked : Bool) (stop : Nat) :
    KeepsPace s (s.cycleCompletes p tset parked stop) :=
  keepsPace_trans (keepsPace_wr _ _ _ _ (portKeys_le .portEdgeStatus p rfl))
    (keepsPace_wr _ _ _ _ (portKeys_le .portCycleCount p rfl))

theorem completeCycle_keepsPace (s : State) (i t : Nat) : KeepsPace s (s.completeCycle i t) := by
  unfold State.completeCycle
  split
  · exact keepsPace_refl s
  · split
    · exact keepsPace_refl s
    · exact keepsPace_trans (keepsPace_each _ _ _ (fun p u => cycleCompletes_keepsPace u _ _ _ _)) (keepsPace_setSite _ _ _ rfl)

/-- Granules of vectors whose stored check bytes are those of the data change counts alone, and a granule that cannot be taken
leaves free values (R287). -/
theorem vectorOf_keepsPace (s : State) (r : StepRec) (n : Nat) (h : Checked s) : KeepsPace s (s.vectorOf r n).2 := by
  obtain ⟨hcalm, -⟩ := readGranules_calm s h ((r.vecBase + 96 * n) / 32) 3
  unfold State.vectorOf
  refine keepsPace_trans (keepsPace_calm hcalm) (keepsPace_foldl_snd _ _ (([] : List Byte), _) (fun e g => ?_))
  dsimp only
  split
  · exact keepsPace_refl _
  · exact keepsPace_trans (keepsPace_trans (keepsPace_free _ 64) (keepsPace_free _ 64))
      (keepsPace_trans (keepsPace_free _ 64) (keepsPace_free _ 64))

/-! ### What a cycle drives (R220, R221, R225, R357, R366) -/

theorem putTrims_keepsPace (s : State) (p : Nat) (n : InForce) : KeepsPace s (s.putTrims p n) :=
  keepsPace_ite (keepsPace_trans (keepsPace_setPort _ _ _) (keepsPace_raise _ _ _ _ _ _ _ _)) (keepsPace_setPort _ _ _)

theorem atBoundary_keepsPace (s : State) (i : Nat) : KeepsPace s (s.atBoundary i) := by
  refine keepsPace_ite (keepsPace_refl s) (keepsPace_trans (keepsPace_each _ _ _ (fun p t => ?_)) (keepsPace_setSite _ _ _ rfl))
  split
  · exact putTrims_keepsPace t p _
  · exact keepsPace_refl t

theorem formatMapped_keepsPace (s : State) (p tset : Nat) (c : CycleCode) (start : Nat) :
    KeepsPace s (s.formatMapped p tset c start) := by
  unfold State.formatMapped
  exact keepsPace_trans (keepsPace_setPort _ _ _) (keepsPace_setPort _ _ _)
theorem formatParked_keepsPace (s : State) (p start : Nat) : KeepsPace s (s.formatParked p start) := by
  unfold State.formatParked
  exact keepsPace_setPort _ _ _

theorem formatAll_keepsPace (s : State) (i : Nat) (c : Cycle) (codes : List (Nat × Nat × Nat)) (start : Nat) :
    KeepsPace s (s.formatAll i c codes start) := by
  refine keepsPace_each _ _ _ (fun p t => ?_)
  split
  · exact formatMapped_keepsPace _ _ _ _ _
  · exact formatParked_keepsPace _ _ _

theorem strobeAll_keepsPace (s : State) (i : Nat) (c : Cycle) (codes : List (Nat × Nat × Nat)) (start : Nat)
    (obs : List PortObs) : KeepsPace s (s.strobeAll i c codes start obs) := by
  unfold State.strobeAll
  exact keepsPace_setRun _ _ _ rfl

/-! ### What strobes see (R122, R222, R331, R334) -/

theorem stateAt_keepsPace (s : State) (p format t : Nat) (dut : Option PinDrive) : KeepsPace s (s.stateAt p format t dut).2 := by
  unfold State.stateAt
  dsimp only
  split
  · exact keepsPace_refl s
  · exact keepsPace_free s 8

theorem windowStates_keepsPace (s : State) (it : StrobeItem) (l : List (Nat × Option PinDrive)) :
    KeepsPace s (s.windowStates it l).2 := by
  induction l generalizing s with
  | nil => exact keepsPace_refl s
  | cons e rest ih =>
    simp only [State.windowStates]
    refine keepsPace_trans (keepsPace_trans (stateAt_keepsPace s it.port it.format e.1 e.2) ?_) (ih _)
    exact keepsPace_ite_snd (keepsPace_free _ 1) (keepsPace_refl _)

theorem seen_keepsPace (s : State) (it : StrobeItem) : KeepsPace s (s.seen it).2 := by
  have hfirst := stateAt_keepsPace s it.port it.format it.s0 it.obs.s0
  unfold State.seen
  dsimp only
  split
  · exact keepsPace_trans hfirst (stateAt_keepsPace _ _ _ _ _)
  · split
    · exact keepsPace_trans hfirst (windowStates_keepsPace _ _ _)
    · exact hfirst

/-! ### Raw capture (R347) -/

theorem rawState_keepsPace (s : State) (p format v : Nat) : KeepsPace s (s.rawState p format v).2 := by
  unfold State.rawState
  split
  · exact keepsPace_refl s
  · split
    · exact keepsPace_refl s
    · exact keepsPace_free s 2

theorem rawField_keepsPace (s : State) (p format : Nat) (v : Option Nat) : KeepsPace s (s.rawField p format v).2 := by
  unfold State.rawField
  split
  · split
    · exact rawState_keepsPace _ _ _ _
    · exact keepsPace_refl s
  · exact keepsPace_refl s

theorem rawByte_keepsPace (s : State) (i p v : Nat) : KeepsPace s (s.rawByte i p v) := by
  unfold State.rawByte
  dsimp only
  split
  · exact keepsPace_refl s
  · refine keepsPace_ite (keepsPace_refl s) ?_
    have hstored (a : Nat) : KeepsPace s
        { s with mem := Store.put 0 a (BitVec.ofNat 8 v) s.mem, memChk := Store.del (a / 32) s.memChk } :=
      keepsPace_of (l := [.mem]) ⟨rfl, rfl, fun p hp => by cases p <;> simp_all [Part.same]⟩ (by decide) (by decide)
    have hcounted {t : State} (f : Port → Port) (h : KeepsPace s t) : KeepsPace s (t.setPort p f) :=
      keepsPace_trans h (keepsPace_setPort _ _ _)
    split
    · exact keepsPace_trans (hcounted _ (keepsPace_ite (hstored _) (keepsPace_refl s))) (keepsPace_setRing _ _ _)
    · exact hcounted _ (keepsPace_ite (hstored _) (keepsPace_refl s))

theorem rawCycle_keepsPace (s : State) (i : Nat) (it : StrobeItem) (o : Seen) : KeepsPace s (s.rawCycle i it o) := by
  unfold State.rawCycle
  dsimp only
  refine keepsPace_ite (keepsPace_refl s) ?_
  exact keepsPace_trans (keepsPace_trans (rawField_keepsPace _ _ _ _) (rawField_keepsPace _ _ _ _)) (rawByte_keepsPace _ _ _ _)

/-! ### What failing beats count and record (R335, R336, R339, R344, R346, R349) -/

theorem capture_keepsPace (s : State) (i b : Nat) (r : Record) : KeepsPace s (s.capture i b r) :=
  keepsPace_trans (keepsPace_setCap _ _ _)
    (keepsPace_ite (keepsPace_setCap _ _ _) (keepsPace_trans (keepsPace_setCap _ _ _) (keepsPace_setRing _ _ _)))

theorem tallyFail_keepsPace (s : State) (g : Governs) : KeepsPace s (s.tallyFail g) :=
  keepsPace_ite (keepsPace_refl s) (keepsPace_setCap _ _ _)

theorem emitRow_keepsPace (s : State) (i cid : Nat) (a : RowAcc) (cont : Bool) : KeepsPace s (s.emitRow i cid a cont) :=
  keepsPace_trans (keepsPace_setCap _ _ _) (capture_keepsPace _ _ _ _)

theorem closeRow_keepsPace (s : State) (i cid : Nat) : KeepsPace s (s.closeRow i cid) := by
  unfold State.closeRow
  split
  · exact keepsPace_refl s
  · exact keepsPace_trans (emitRow_keepsPace _ _ _ _ _) (keepsPace_setCtx _ _ _)

theorem rowBeat_keepsPace (s : State) (i : Nat) (g : Governs) (time sub : Nat) : KeepsPace s (s.rowBeat i g time sub) := by
  unfold State.rowBeat
  extract_lets t a put
  have hclosed : KeepsPace s t := by
    unfold t
    split
    · exact keepsPace_ite (keepsPace_refl s) (closeRow_keepsPace _ _ _)
    · exact keepsPace_refl s
  have hput {u : State} (b : RowAcc) (h : KeepsPace s u) : KeepsPace s (put u b) := keepsPace_trans h (keepsPace_setCtx _ _ _)
  split
  · exact hput _ hclosed
  · split <;> exact hput _ hclosed
  · split
    · exact hput _ hclosed
    · exact hput _ (keepsPace_trans hclosed (emitRow_keepsPace _ _ _ _ _))

theorem portFails_keepsPace (s : State) (b : Beat) (g : Governs) : KeepsPace s (s.portFails b g) := by
  refine keepsPace_each _ _ _ (fun p t => ?_)
  have hcount : KeepsPace t (if g.mode ≤ 2 then t.bump .portFailCount p else t) :=
    keepsPace_ite (keepsPace_wr _ _ _ _ (portKeys_le .portFailCount p rfl)) (keepsPace_refl t)
  exact keepsPace_ite (keepsPace_trans hcount (keepsPace_of (setDom_keeps _ _ _ _ _ _) (by decide) (by decide))) hcount

theorem failBeats_keepsPace (s : State) (i : Nat) (g : Governs) (beats : List Beat) : KeepsPace s (s.failBeats i g beats) := by
  unfold State.failBeats
  extract_lets failing flagged tallied counted
  have hflagged : KeepsPace s flagged := keepsPace_ite (keepsPace_setCtx _ _ _) (keepsPace_refl s)
  have htallied : KeepsPace s tallied := keepsPace_trans hflagged (keepsPace_ite (tallyFail_keepsPace _ _) (keepsPace_refl _))
  have hcounted : KeepsPace s counted := keepsPace_trans htallied (keepsPace_foldl _ _ _ (fun t x => portFails_keepsPace t x g))
  cases failing with
  | nil => exact keepsPace_refl s
  | cons b rest =>
    dsimp only
    split
    · exact keepsPace_trans hcounted (keepsPace_foldl _ _ _ (fun t x => capture_keepsPace _ _ _ _))
    · exact keepsPace_trans hcounted (keepsPace_ite (rowBeat_keepsPace _ _ _ _ _) (keepsPace_refl _))
    · exact hcounted

/-! ### What has come by an instant (R222, R231 to R338) -/

theorem settleBeat_keepsPace (s : State) (i : Nat) (x : CycleBeat) : KeepsPace s (s.settleBeat i x) := by
  unfold State.settleBeat
  dsimp only
  refine keepsPace_trans (keepsPace_trans ?_ (failBeats_keepsPace _ _ _ _)) (keepsPace_foldl _ _ _ (fun t p => ?_))
  · exact keepsPace_foldl_snd x.items _ (([] : List (StrobeItem × Seen)), s) (fun e it => seen_keepsPace _ _)
  · split
    · exact rawCycle_keepsPace _ _ _ _
    · exact keepsPace_refl t

theorem settleSite_keepsPace (s : State) (i t : Nat) : KeepsPace s (s.settleSite i t) := by
  unfold State.settleSite
  extract_lets done struck passed
  have hstruck : KeepsPace s struck := keepsPace_foldl _ _ _ (fun u x => settleBeat_keepsPace u i x)
  have hpassed : KeepsPace s passed :=
    keepsPace_trans (keepsPace_trans hstruck (keepsPace_setSite _ _ _ rfl)) (completeCycle_keepsPace _ _ _)
  exact keepsPace_trans hpassed (keepsPace_each _ _ _ (fun p u => keepsPace_ite (keepsPace_refl u) (keepsPace_setPort _ _ _)))

end Sys2Proof.Laws
end

section
/-! A cycle that is due is taken from the formatter's queue and driven (R211, R213, R214). -/
namespace Sys2Proof.Proofs
open Sys2Proof.Machine Sys2Proof.Safety Sys2Proof.Laws

/-- The stored vector of a cycle, where its columns take one (R287). -/
def cycleVector (s : State) (i : Nat) (c : Cycle) : List Byte × State :=
  match c.vec with
  | some n => s.vectorOf (s.stepRec i) n
  | none => ([], s)

theorem cycleVector_keepsPace (s : State) (i : Nat) (c : Cycle) (h : Checked s) : KeepsPace s (cycleVector s i c).2 := by
  unfold cycleVector
  split
  · exact vectorOf_keepsPace s _ _ h
  · exact keepsPace_refl s

/-- A cycle leaves the queue: it is the one in progress, and the next begins a period later (R211). -/
def tookCycle (s : State) (i start period : Nat) (c : Cycle) (rest : List Cycle) (codes : List (Nat × Nat × Nat)) : State :=
  s.setRun i (fun x => { x with
    cycles := rest, cycling := true, nextCycle := start + period, boundary := false,
    current := some { tset := c.tset, mapped := codes.map (·.2.1), stop := start + period },
    codes := codes.foldl (fun st e => Store.put 0 e.1 e.2.2 st) x.codes })

/-- What a cycle that has left the queue drives, and the strobes that it is to have. -/
def droveCycle (s : State) (i start : Nat) (c : Cycle) (codes : List (Nat × Nat × Nat)) (obs : List PortObs) : State :=
  ((if c.boundary then s.atBoundary i else s).formatAll i c codes start).strobeAll i c codes start obs

theorem droveCycle_keepsPace (s : State) (i start : Nat) (c : Cycle) (codes : List (Nat × Nat × Nat)) (obs : List PortObs) :
    KeepsPace s (droveCycle s i start c codes obs) :=
  keepsPace_trans (keepsPace_ite (atBoundary_keepsPace s i) (keepsPace_refl s))
    (keepsPace_trans (formatAll_keepsPace _ _ _ _ _) (strobeAll_keepsPace _ _ _ _ _ _))

/-- A cycle that nothing stops is taken and driven. -/
theorem driveCycle_runs (s u : State) (i : Nat) (c : Cycle) (rest : List Cycle) (obs : List PortObs) (bytes : List Byte)
    (hvec : cycleVector s i c = (bytes, u)) (hgo : u.cycleStops i c (u.cycleCodes i c (leNat bytes)) = none) :
    s.driveCycle i c rest obs =
      droveCycle (tookCycle u i (s.run' i).nextCycle (u.tset ((s.stepRec i).mappedPorts.headD 0) c.tset).period c rest
        (u.cycleCodes i c (leNat bytes))) i (s.run' i).nextCycle c (u.cycleCodes i c (leNat bytes)) obs := by
  have hdrive : s.driveCycle i c rest obs =
      match cycleVector s i c with
      | (bytes, u) =>
        let codes := u.cycleCodes i c (leNat bytes)
        match u.cycleStops i c codes with
        | some (cause, port) => u.siteCause i cause port (some ((s.run' i).nextCycle / stepsPerTick))
        | none => droveCycle (tookCycle u i (s.run' i).nextCycle (u.tset ((s.stepRec i).mappedPorts.headD 0) c.tset).period c rest
            codes) i (s.run' i).nextCycle c codes obs := rfl
  rw [hdrive, hvec]
  dsimp only
  rw [hgo]

theorem tookCycle_run (s : State) (i start period : Nat) (c : Cycle) (rest : List Cycle) (codes : List (Nat × Nat × Nat)) :
    ((tookCycle s i start period c rest codes).run' i).cycles = rest ∧
      ((tookCycle s i start period c rest codes).run' i).cycling = true ∧
      ((tookCycle s i start period c rest codes).run' i).nextCycle = start + period ∧
      (tookCycle s i start period c rest codes).siteSt i = s.siteSt i := by
  simp [tookCycle, State.setRun, State.run', State.siteSt]

theorem tookCycle_quiet (s : State) (i start period : Nat) (c : Cycle) (rest : List Cycle) (codes : List (Nat × Nat × Nat))
    (h : ChansQuiet s) : ChansQuiet (tookCycle s i start period c rest codes) := h

/-- A cycle of a site is due: its step runs, has begun and has a stream of cycles, and the start has come (R211, R212). -/
structure CycleDue (i : Nat) (s : State) : Prop where
  step : s.stepping i = true
  begun : (s.run' i).begun = true
  stream : (s.stepRec i).hasCycles = true
  come : (s.run' i).nextCycle / stepsPerTick ≤ s.time

theorem cycleDue_guard {i : Nat} {s : State} (h : CycleDue i s) : (s.stepping i && (s.run' i).begun && (s.stepRec i).hasCycles
    && decide ((s.run' i).nextCycle / stepsPerTick ≤ s.time)) = true := by
  obtain ⟨hstep, hbegun, hstream, hcome⟩ := h
  simp [hstep, hbegun, hstream, hcome]

/-- Where the next cycle is due, CYCLE_START completes the cycle before and drives the oldest of the queue. -/
theorem cycleStart_due (i : Nat) (obs : List PortObs) (s : State) (c : Cycle) (rest : List Cycle) (hdue : CycleDue i s)
    (hqueue : (s.run' i).cycles = c :: rest) :
    cycleStart i obs s = ((s.completeCycle i (s.run' i).nextCycle).driveCycle i c rest obs).settleSite i
      (s.completeCycle i (s.run' i).nextCycle).now := by
  have hcycles := (keepsPace_run (·.cycles) (fun _ => rfl) (completeCycle_keepsPace s i (s.run' i).nextCycle) i).trans hqueue
  unfold cycleStart
  rw [onlyIf_pos _ _ _ (cycleDue_guard hdue)]
  dsimp only
  rw [hcycles]

theorem exec_cycleStart (site : SiteNo) (obs : List PortObs) (s : State) :
    exec (.cycleStart site obs) s = memRun (cycleStart site.val obs) s := rfl

/-- A due cycle is taken once: what goes before moves no stream and forms the cycle's codes, and what follows moves none either. -/
theorem cycleStart_takes (i : Nat) (obs : List PortObs) (s u : State) (c : Cycle) (rest : List Cycle) (bytes : List Byte)
    (hdue : CycleDue i s) (hqueue : (s.run' i).cycles = c :: rest)
    (hvec : cycleVector (s.completeCycle i (s.run' i).nextCycle) i c = (bytes, u))
    (hgo : u.cycleStops i c (u.cycleCodes i c (leNat bytes)) = none) (hs : Checked s) :
    KeepsPace s u ∧
      KeepsPace (tookCycle u i (s.run' i).nextCycle (u.tset ((s.stepRec i).mappedPorts.headD 0) c.tset).period c rest
        (u.cycleCodes i c (leNat bytes))) (cycleStart i obs s) := by
  have hdone := completeCycle_keepsPace s i (s.run' i).nextCycle
  constructor
  · have hread := cycleVector_keepsPace _ i c (checked_of_memory s _ (completeCycle_memory s i (s.run' i).nextCycle) hs)
    rw [hvec] at hread
    exact keepsPace_trans hdone hread
  · rw [cycleStart_due i obs s c rest hdue hqueue, driveCycle_runs _ u i c rest obs bytes hvec hgo,
      keepsPace_run (·.nextCycle) (fun _ => rfl) hdone i, keepsPace_stepRec hdone i]
    exact keepsPace_trans (droveCycle_keepsPace _ _ _ _ _ _) (settleSite_keepsPace _ _ _)

theorem stepping_running (s : State) (i : Nat) (h : s.stepping i = true) : s.siteSt i = .running := by
  simp only [State.stepping, Bool.and_eq_true, beq_iff_eq] at h
  exact h.1.1

/-- Settles O7: a cycle's start moves the stream of its site on once, when the cycle leaves the queue; what comes before and after
it moves no stream and leaves the channels quiet. -/
theorem cycleStarts : Obligations.CycleStarts := by
  unfold Obligations.CycleStarts
  intro site obs s v u c rest bytes hstep hbegun hhas hdue hqueue hv hvec hgo hhealthy
  obtain ⟨hquiet, hchecked⟩ := hhealthy
  have hread : cycleVector v site c = (bytes, u) := by
    rw [cycleVector, hv, keepsPace_stepRec (completeCycle_keepsPace _ _ _)]
    exact hv ▸ hvec
  obtain ⟨hformed, hafter⟩ := cycleStart_takes site obs { s with out := [] } u c rest bytes
    ⟨hstep, hbegun, hhas, hdue⟩ hqueue (hv ▸ hread) hgo hchecked
  set after := cycleStart site obs { s with out := [] }
  obtain ⟨hcycles, hcycling, hnext, hst⟩ := tookCycle_run u site (s.run' site).nextCycle
    (u.tset ((s.stepRec site).mappedPorts.headD 0) c.tset).period c rest (u.cycleCodes site c (leNat bytes))
  have hcalm : ChansQuiet after := keepsPace_quiet hafter (tookCycle_quiet _ _ _ _ _ _ _ (keepsPace_quiet hformed hquiet))
  have hended : (s.keepFixed after.deliver).run' site = after.run' site := by
    rw [State.run', ended_site, State.run']
  have hframe : Keeps cycleParts ({ s with out := [] } : State) after :=
    Keeps_trans _ _ _ _ (Keeps_trans _ _ _ _ hformed.frame (Keeps_mono _ _ _ _ (setSite_keeps u site _) (by decide))) hafter.frame
  refine ⟨_, (exec_cycleStart site obs s).trans (memRun_next _ s after rfl hcalm), ?_, ?_, ?_, ?_, ended_effect_keeps hframe⟩
  · rw [hended]
    exact (keepsPace_run (·.cycles) (fun _ => rfl) hafter site).trans hcycles
  · rw [hended]
    exact (keepsPace_run (·.cycling) (fun _ => rfl) hafter site).trans hcycling
  · rw [hended]
    exact (keepsPace_run (·.nextCycle) (fun _ => rfl) hafter site).trans hnext
  · rw [keepFixed_siteSt, deliver_siteSt]
    exact (keepsPace_siteSt hafter site).trans (hst.trans ((keepsPace_siteSt hformed site).trans (stepping_running s site hstep)))

end Sys2Proof.Proofs
end

section
/-! Queues and symbol streams that run empty (R91, R214, R242, R480): the abort of a site with an earlier trigger instant, and
that the health of the memory channels moves no site that is aborting. -/
namespace Sys2Proof.Laws
open Sys2Proof.Machine Sys2Proof.Safety

/-! ### A site that aborts, with its trigger instant -/

/-- A site is ABORTING with a cause and a trigger instant. -/
def AbortsAt (i cause time : Nat) (t : State) : Prop :=
  AbortsWith i cause t ∧ (t.site i).abort.map (·.time) = some time

theorem abortsAt_of_phase {i cause time : Nat} {s t : State} (h : t.phase i = s.phase i) (hs : AbortsAt i cause time s) :
    AbortsAt i cause time t := by
  obtain ⟨hst, habort⟩ := Prod.mk.inj h
  unfold AbortsAt AbortsWith State.siteSt at hs ⊢
  rwa [hst, habort]

/-- A command whose effect stops a site and writes no GDDR7. -/
theorem run_abortsAt {i cause time : Nat} (f : State → State) (s : State) (h : AbortsAt i cause time (f { s with out := [] }))
    (hmem : (f { s with out := [] }).memory = s.memory) :
    ∃ t, run f s = .next t ∧ AbortsAt i cause time t ∧ t.mem = s.mem :=
  ⟨_, rfl, abortsAt_of_phase (by rw [State.phase, keepFixed_site, deliver_site, State.phase]) h, ended_mem s _ hmem⟩

theorem recorded_abortsAt (s : State) (i time : Nat) (a : AbortBy) (h : a.at' = some time) :
    AbortsAt i a.cause time (recorded s i a) := by
  unfold AbortsAt AbortsWith State.siteSt recorded
  rw [site_setSite, if_pos rfl, h]
  exact ⟨⟨rfl, rfl⟩, rfl⟩

/-- A site that runs and is aborted for a cause of its step has the trigger instant that is given (R91, R214, R242). -/
theorem siteCause_abortsAt (s : State) (i code port time : Nat) (h : s.siteSt i = .running) :
    AbortsAt i code time (s.siteCause i code port (some time)) := by
  unfold State.siteCause State.abortSite
  generalize hby : ({ cause := code, warp := false, at' := some time, scope := some (1, i) } : AbortBy) = a
  have hat : a.at' = some time := by rw [← hby]
  have hcause : a.cause = code := by rw [← hby]
  rw [abortFormed_runs (s.raise code 1 i port (s.stepNow i)) i a (.inl h), ← hcause]
  exact abortsAt_of_phase (standing_phase _ _ ((setRing_standing _ _ _).trans (closeRows_standing _ _)) i)
    (recorded_abortsAt _ i time a hat)

/-! ### The health of the channels (R480) -/

/-- Isolating a channel aborts the sites that depend on it, but none that is aborting. -/
theorem isolateChan_aborting (s : State) (c cause i : Nat) (h : s.siteSt i = .aborting) :
    (s.isolateChan c cause).phase i = s.phase i := by
  refine each_keeps (fun t => t.phase i = s.phase i) (upto 12) _ (fun j t _ ht => ?_) _ rfl
  have hst : t.siteSt i = .aborting := (congrArg Prod.fst ht).trans h
  split
  · next hhit =>
    have hne : i ≠ j := by
      rintro rfl
      simp [hst, SiteSt.active] at hhit
    exact ((abortSite_moves t j 0x1403 false none).1 i (by simpa using hne)).trans ht
  · exact ht

theorem chanHealth_aborting (s : State) (c i : Nat) (h : s.siteSt i = .aborting) : (s.chanHealth c).phase i = s.phase i := by
  unfold State.chanHealth
  dsimp only
  split
  · split
    · exact isolateChan_aborting s c 3 i h
    · split <;> rfl
  · split
    · exact isolateChan_aborting s c 3 i h
    · split
      · exact isolateChan_aborting s c 2 i h
      · rfl
  · rfl

theorem memHealth_aborting (s : State) (i : Nat) (h : s.siteSt i = .aborting) : s.memHealth.phase i = s.phase i :=
  each_keeps (fun t => t.phase i = s.phase i) (upto 12) _
    (fun c t _ ht => (chanHealth_aborting t c i ((congrArg Prod.fst ht).trans h)).trans ht) s rfl

/-! ### What a site's contexts still supply (R215, R277) -/

theorem suppliesNoMore_congr (s t : State) (i : Nat) (hctxs : t.ctxs = s.ctxs)
    (hbundles : t.rd .siteBundles i = s.rd .siteBundles i) : t.suppliesNoMore i = s.suppliesNoMore i := by
  simp only [State.suppliesNoMore, State.siteCtxs, State.bundlesOf, State.ctx, hctxs, hbundles]

/-- Completing a cycle writes registers of its ports and changes its site (R231, R232). -/
theorem completeCycle_keeps (s : State) (i t : Nat) : Keeps [.regs, .sites] s (s.completeCycle i t) := by
  unfold State.completeCycle
  split
  · exact Keeps_refl _ _
  · split
    · exact Keeps_refl _ _
    · refine keeps_then [.regs] [.sites] _ _ _ _ (each_keeps_of _ _ _ _ (fun p u => ?_)) (setSite_keeps _ i _) (by simp) (by simp)
      exact Keeps_trans _ _ _ _ (wr_keeps _ _ _ _ _) (wr_keeps _ _ _ _ _)

theorem completeCycle_suppliesNoMore (s : State) (i : SiteNo) (t : Nat) :
    (s.completeCycle i t).suppliesNoMore i = s.suppliesNoMore i := by
  refine suppliesNoMore_congr _ _ _ ((completeCycle_keeps s i t).2.2 .ctxs (by decide)) (rd_of_regs _ _ _ _ _ ?_)
  exact (completeCycle_keepsPace s i t).regs _ _ (by revert i; decide) (by revert i; decide) (siteBundles_not_eventKey i)

end Sys2Proof.Laws

namespace Sys2Proof.Proofs
open Sys2Proof.Machine Sys2Proof.Safety Sys2Proof.Laws

/-! ### The formatter's queue (R214) -/

/-- A due cycle that finds the queue empty before the step has ended stops the site. -/
theorem cycleStart_starved (i : SiteNo) (obs : List PortObs) (s : State) (hdue : CycleDue i s)
    (hqueue : (s.run' i).cycles = []) (hmore : s.suppliesNoMore i = false) :
    cycleStart i obs s = (s.completeCycle i (s.run' i).nextCycle).siteCause i 0x0C01 0xFFFF
      (some ((s.run' i).nextCycle / stepsPerTick)) := by
  have hempty := (keepsPace_run (·.cycles) (fun _ => rfl) (completeCycle_keepsPace s i (s.run' i).nextCycle) i).trans hqueue
  unfold cycleStart
  rw [onlyIf_pos _ _ _ (cycleDue_guard hdue)]
  dsimp only
  rw [hempty]
  exact if_neg (by rw [completeCycle_suppliesNoMore, hmore]; decide)

theorem starved_abortsAt (i : SiteNo) (obs : List PortObs) (s : State) (hdue : CycleDue i s)
    (hqueue : (s.run' i).cycles = []) (hmore : s.suppliesNoMore i = false) :
    AbortsAt i 0x0C01 ((s.run' i).nextCycle / stepsPerTick) (cycleStart i obs s).memHealth ∧
      (cycleStart i obs s).memHealth.memory = s.memory := by
  rw [cycleStart_starved i obs s hdue hqueue hmore]
  have hrun : (s.completeCycle i (s.run' i).nextCycle).siteSt i = .running :=
    (keepsPace_siteSt (completeCycle_keepsPace _ _ _) i).trans (stepping_running s i hdue.step)
  have habort := siteCause_abortsAt _ i 0x0C01 0xFFFF ((s.run' i).nextCycle / stepsPerTick) hrun
  exact ⟨abortsAt_of_phase (memHealth_aborting _ i habort.1.1) habort, by simp⟩

/-! ### Symbol streams (R242, R404) -/

theorem symbolUnderrun_due (s : State) (i q t : Nat) (hfirst : s.firstMissing i = some (q, t)) (hdue : t ≤ s.now) :
    s.symbolUnderrun i = s.siteCause i 0x0C05 q (some (t / stepsPerTick)) := by
  unfold State.symbolUnderrun
  rw [hfirst]
  exact onlyIf_pos _ _ _ (by simpa using hdue)

section
variable {p i : Nat} {s : State} (hlive : s.laneLive p = true) (hp : p < 96) (hsite : s.siteOfPort p = some i)
  (hlane : (s.lanesOf i).contains p = true) (hstep : s.stepping i = true)
include hlive hp hsite hlane hstep

/-- TX_UNDERRUN at a live lane of a site whose step runs. -/
theorem txUnderrun_lane : txUnderrun p s =
    if (s.ser p).txSource == 2 && (s.lane p).txFifo.isEmpty && decide ((s.lane p).tx.bits.length < (s.ser p).wordBits) then
      s.setLane p (fun l => { l with txUnderrun := true })
    else s.onlyIf ((s.ser p).txSource == 0 && (s.run' i).begun && (s.run' i).words.isEmpty && !s.suppliesNoMore i)
      (fun s => s.symbolUnderrun i) := by
  unfold txUnderrun
  rw [onlyIf_pos _ _ _ (by simp [hlive, hp])]
  dsimp only
  rw [hsite]
  exact onlyIf_pos _ _ _ (by rw [hlane, hstep]; rfl)

/-- Without symbols for a lane of the GENERATOR source, while a context can still supply words, the site stops (R242). -/
theorem txUnderrun_generator (q t : Nat) (hbegun : (s.run' i).begun = true) (hsrc : (s.ser p).txSource = 0)
    (hwords : (s.run' i).words = []) (hmore : s.suppliesNoMore i = false) (hfirst : s.firstMissing i = some (q, t))
    (hdue : t ≤ s.now) :
    AbortsAt i 0x0C05 (t / stepsPerTick) (txUnderrun p s) ∧ (txUnderrun p s).memory = s.memory := by
  rw [txUnderrun_lane hlive hp hsite hlane hstep, if_neg (by simp [hsrc]),
    onlyIf_pos _ _ _ (by simp [hsrc, hbegun, hwords, hmore]), symbolUnderrun_due s i q t hfirst hdue]
  exact ⟨siteCause_abortsAt s i 0x0C05 q _ (stepping_running s i hstep), siteCause_memory _ _ _ _ _⟩

/-- A lane of the FABRIC source without the bits of a WORD cycle says so, and the site runs on (R242, R404). -/
theorem txUnderrun_fabric (hsrc : (s.ser p).txSource = 2) (hfifo : (s.lane p).txFifo = [])
    (hbits : (s.lane p).tx.bits.length < (s.ser p).wordBits) :
    txUnderrun p s = s.setLane p (fun l => { l with txUnderrun := true }) := by
  rw [txUnderrun_lane hlive hp hsite hlane hstep, if_pos (by simp [hsrc, hfifo, hbits])]

end

theorem exec_txUnderrun (p : PortNo) (s : State) : exec (.txUnderrun p) s = run (txUnderrun p.val) s := rfl

/-- Settles O8: the queue and the GENERATOR source stop the site at the instant that is missed, the FABRIC source sets a flag. -/
theorem queueStarved : Obligations.QueueStarved := by
  unfold Obligations.QueueStarved
  intro site obs p s hstep hbegun
  refine ⟨fun hhas hdue hqueue hmore => ?_, fun q t0 hlive hp hsrc hsite hlane hwords hmore hfirst hdue => ?_,
    fun hlive hp hsrc hsite hlane hfifo hbits => ?_⟩
  · obtain ⟨habort, hmem⟩ := starved_abortsAt site obs { s with out := [] } ⟨hstep, hbegun, hhas, hdue⟩ hqueue hmore
    obtain ⟨t, hexec, ⟨hcause, htime⟩, hmem⟩ := run_abortsAt (fun u => (cycleStart site obs u).memHealth) s habort hmem
    exact ⟨t, (exec_cycleStart site obs s).trans hexec, hcause, htime, hmem⟩
  · obtain ⟨habort, hmem⟩ := txUnderrun_generator (s := { s with out := [] }) hlive hp hsite hlane hstep q t0 hbegun
      hsrc hwords hmore hfirst hdue
    obtain ⟨t, hexec, ⟨hcause, htime⟩, hmem⟩ := run_abortsAt (txUnderrun p) s habort hmem
    exact ⟨t, (exec_txUnderrun p s).trans hexec, hcause, htime, hmem⟩
  · have heq := txUnderrun_fabric (s := { s with out := [] }) hlive hp hsite hlane hstep hsrc hfifo hbits
    obtain ⟨t, hexec, hport⟩ :=
      run_setPort p (fun _ => true) (fun x => { x with lane := { x.lane with txUnderrun := true } }) s rfl
    exact ⟨t, (exec_txUnderrun p s).trans ((run_congr _ _ s heq).trans hexec), hport⟩

end Sys2Proof.Proofs
end

section
/-! Calibration cycles (R358 to R380, O17). Each phase is one lemma about what its effect leaves; beside the phase,
    the engine moves points, figures and trims (`Aside`), which touches no cycle and no port's role. -/
namespace Sys2Proof.Laws
open Sys2Proof.Machine Sys2Proof.Safety

/-! ### What the engine does beside the phases of a cycle (R355, R364 to R373) -/

/-- How a port stands toward its bye-stake: held, replaced, substituted or FAILED, or under internal stimulus. -/
def Port.role (x : Port) : Bool × Bool × Bool × Bool × Bool :=
  (x.cal.held, x.cal.replaced, x.cal.substituted, x.cal.failed, x.cal.internalStim)

/-- The parts of the state in which the engine keeps points, figures and trims. -/
def pointParts : List Part := [.free, .regs, .ports, .cal, .ledger]

/-- Points, figures and trims change, in the parts listed; no port's role does, nor a register below the ports'. -/
structure Aside (l : List Part) (s t : State) : Prop where
  frame : Keeps l s t
  role : ∀ p, Port.role (t.port p) = Port.role (s.port p)
  regs : ∀ key d, key < portKeys → ¬ eventKey key → Store.get d key t.dict.regs = Store.get d key s.dict.regs

theorem aside_refl (l : List Part) (s : State) : Aside l s s := ⟨Keeps_refl _ _, fun _ => rfl, fun _ _ _ _ => rfl⟩

theorem aside_then {l m n : List Part} {s t u : State} (h : Aside l s t) (h' : Aside m t u) (hl : l ⊆ n) (hm : m ⊆ n) :
    Aside n s u :=
  ⟨keeps_then _ _ _ _ _ _ h.frame h'.frame hl hm, fun p => (h'.role p).trans (h.role p),
   fun key d hlow hev => (h'.regs key d hlow hev).trans (h.regs key d hlow hev)⟩

theorem aside_trans {l : List Part} {s t u : State} (h : Aside l s t) (h' : Aside l t u) : Aside l s u :=
  aside_then h h' (fun _ hp => hp) (fun _ hp => hp)

theorem aside_ite {l : List Part} {c : Prop} [Decidable c] {s t u : State} (h : Aside l s t) (h' : Aside l s u) :
    Aside l s (if c then t else u) := by split <;> assumption

/-- A change of parts that hold no port and no register. -/
theorem aside_of {l : List Part} {s t : State} (h : Keeps l s t) (hno : Part.ports ∉ l ∧ Part.regs ∉ l) : Aside l s t :=
  ⟨h, fun p => by rw [keeps_port h hno.1], fun key d _ hev => h.2.2 .regs hno.2 key d hev⟩

theorem aside_setPort (s : State) (p : Nat) (f : Port → Port) (h : Port.role (f (s.port p)) = Port.role (s.port p)) :
    Aside [.ports] s (s.setPort p f) := by
  refine ⟨setPort_keeps s p f, fun q => ?_, fun _ _ _ _ => rfl⟩
  rw [port_setPort]
  split
  · next hq => rw [hq, h]
  · rfl

theorem aside_wr (s : State) (o : Obj) (v p : Nat) (h : o.row.space = .port) : Aside [.regs] s (s.wr o v p) :=
  ⟨wr_keeps s o v p 0, fun _ => rfl, fun _ _ hlow _ => get_setReg _ _ _ _ _ _ _ (by have := portKeys_le o p h; omega)⟩

theorem aside_raise (s : State) (code kind unit arg0 arg1 : Nat) (ext : List Byte) (rim : Bool) :
    Aside [] s (s.raise code kind unit arg0 arg1 ext rim) := aside_of (raise_keeps s code kind unit arg0 arg1 ext rim) (by decide)

theorem aside_bnd {l : List Part} {s t : State} (h : Aside l s t) (hl : l ⊆ pointParts) (b : Nat) : t.bnd b = s.bnd b :=
  keeps_bnd h.frame (fun hb => absurd (hl hb) (by decide)) b

theorem aside_rd {l : List Part} {s t : State} (h : Aside l s t) (o : Obj) (u k : Nat) (hlow : o.key u k < portKeys)
    (hev : ¬ eventKey (o.key u k)) : t.rd o u k = s.rd o u k := rd_of_regs s t o u k (h.regs _ _ hlow hev)

theorem aside_held {l : List Part} {s t : State} (h : Aside l s t) (p : Nat) : (t.port p).cal.held = (s.port p).cal.held :=
  congrArg (·.1) (h.role p)
theorem aside_replaced {l : List Part} {s t : State} (h : Aside l s t) (p : Nat) :
    (t.port p).cal.replaced = (s.port p).cal.replaced := congrArg (·.2.1) (h.role p)
theorem aside_substituted {l : List Part} {s t : State} (h : Aside l s t) (p : Nat) :
    (t.port p).cal.substituted = (s.port p).cal.substituted := congrArg (·.2.2.1) (h.role p)
theorem aside_failed {l : List Part} {s t : State} (h : Aside l s t) (p : Nat) :
    (t.port p).cal.failed = (s.port p).cal.failed := congrArg (·.2.2.2.1) (h.role p)
theorem aside_internalStim {l : List Part} {s t : State} (h : Aside l s t) (p : Nat) :
    (t.port p).cal.internalStim = (s.port p).cal.internalStim := congrArg (·.2.2.2.2) (h.role p)

theorem putTrims_aside (s : State) (p : Nat) (n : InForce) : Aside [.ports] s (s.putTrims p n) := by
  have hput := aside_setPort s p (fun q => { q with cal := { q.cal with inForce := n, next := none } }) rfl
  exact aside_ite (aside_then hput (aside_raise _ _ _ _ _ _ _ _) (fun _ h => h) (by simp)) hput

theorem recompute_aside (s : State) (p : Nat) : Aside [.ports] s (s.recompute p) := by
  unfold State.recompute
  split
  · exact aside_refl _ s
  · exact aside_ite (aside_refl _ s) (aside_ite (aside_setPort s p _ rfl) (putTrims_aside s p _))

theorem joinReceiver_aside (s : State) (b : Nat) : Aside [.ports] s (s.joinReceiver b) := by
  unfold State.joinReceiver State.setLane
  exact aside_setPort s _ _ rfl

theorem reevaluate_aside (s : State) (p : Nat) : Aside [.ports] s (s.reevaluate p) := by
  unfold State.reevaluate
  exact aside_setPort s p _ rfl

theorem handOver_aside (s : State) (key : Nat) (v : CalSet) : Aside [.cal, .ledger] s (s.handOver key v) :=
  aside_ite (aside_of ⟨rfl, rfl, fun p hp => by cases p <;> simp_all [Part.same]⟩ (by decide))
    (aside_of ⟨rfl, rfl, fun p hp => by cases p <;> simp_all [Part.same]⟩ (by decide))

theorem handSet_aside (s : State) (p c : Nat) : Aside [.cal, .ledger] s (s.handSet p c) := handOver_aside s _ _

theorem handSets_aside (s : State) (p : Nat) : Aside [.cal, .ledger] s (s.handSets p) :=
  each_keeps (Aside _ s) (upto 4) _ (fun c t _ ht => aside_trans ht (handSet_aside t p c)) s (aside_refl _ s)

theorem free_aside (s : State) (n : Nat) : Aside [.free] s (s.free n).2 := aside_of (onlyFree_keeps _ _ (free_onlyFree s n)) (by decide)

theorem grade_aside (s : State) (p : Nat) (t : ListenStats) : Aside [.free] s (s.grade p t).2 := by
  unfold State.grade
  dsimp only
  split
  · exact free_aside s 8
  · exact aside_refl _ s

theorem pointTemp_aside (s : State) (b : Nat) : Aside [.free] s (s.pointTemp b).2 := by
  unfold State.pointTemp
  split
  · exact aside_refl _ s
  · exact free_aside s 16

theorem calPart_aside (s : State) (x : CalEngine) : Aside [.cal] s { s with cal := x } :=
  aside_of ⟨rfl, rfl, fun p hp => by cases p <;> simp_all [Part.same]⟩ (by decide)

/-- A listen's figures become a port's. -/
theorem takeListen_aside (s : State) (p : Nat) (t : ListenStats) : Aside [.free, .ports] s (s.takeListen p t) := by
  unfold State.takeListen
  exact aside_then (grade_aside s p t) (aside_setPort _ p _ rfl) (by decide) (by decide)

/-- A point is formed. -/
theorem formPoint_aside (s : State) (p c : Nat) (f : CalFinds) (live internal : Bool) :
    Aside [.free, .regs, .ports, .cal] s (s.formPoint p c f live internal) := by
  have hfigures := aside_trans (pointTemp_aside s (bundleOfPort p)) (grade_aside (s.pointTemp (bundleOfPort p)).2 p f.stats)
  have hpoint (x y : CalEngine) {t : State} (h : Aside [.free] s t) : Aside [.free, .cal] s { { t with cal := x } with cal := y } :=
    aside_then h (calPart_aside t y) (by decide) (by decide)
  unfold State.formPoint
  dsimp only
  refine aside_then (l := [.free, .cal, .ports, .regs]) ?_ (recompute_aside _ p) (by decide) (by decide)
  refine aside_then (l := [.free, .cal, .ports]) ?_ (aside_then (aside_wr _ .portCalCount _ p rfl) (aside_wr _ .portCalLast _ p rfl)
    (fun _ h => h) (fun _ h => h)) (by decide) (by decide)
  exact aside_then (hpoint _ _ hfigures) (aside_setPort _ p _ rfl) (by decide) (by decide)

/-! ### Ports, enables and the cycle in progress -/

theorem bundleOfPort_portOfSlot (b : BundleNo) (slot : Nat) : bundleOfPort (portOfSlot b slot) = b := by
  have hb := b.isLt
  unfold bundleOfPort portOfSlot
  split_ifs <;> omega

theorem setCycle_keeps (s : State) (b : Nat) (f : CalCycle → CalCycle) : Keeps [.bnds] s (s.setCycle b f) := setBnd_keeps s b _
theorem setCycle_cycle {s : State} {b : Nat} {c : CalCycle} (f : CalCycle → CalCycle) (h : (s.bnd b).cal.cycle = some c) :
    ((s.setCycle b f).bnd b).cal.cycle = some (f c) := by
  rw [State.setCycle, bnd_setBnd, if_pos rfl, h]
  rfl
@[simp] theorem setCycle_port (s : State) (b p : Nat) (f : CalCycle → CalCycle) : (s.setCycle b f).port p = s.port p := setBnd_port _ _ _ _
@[simp] theorem setCycle_rd (s : State) (b : Nat) (f : CalCycle → CalCycle) (o : Obj) (u k : Nat) :
    (s.setCycle b f).rd o u k = s.rd o u k := setBnd_rd _ _ _ _ _ _

theorem hold_keeps (s : State) (p : Nat) (v : Bool) : Keeps [.ports] s (s.hold p v) := setPort_keeps s p _
@[simp] theorem hold_bnd (s : State) (p b : Nat) (v : Bool) : (s.hold p v).bnd b = s.bnd b := setPort_bnd _ _ _ _
@[simp] theorem hold_port (s : State) (p q : Nat) (v : Bool) : (s.hold p v).port q =
    if q = p then { s.port p with cal := { (s.port p).cal with held := v } } else s.port q := port_setPort _ _ _ _

theorem foldl_wr_keeps (v : State → Obj → Nat) (u : Nat) (l : List Obj) (s : State) :
    Keeps [.regs] s (l.foldl (fun t o => t.wr o (v t o) u) s) := by
  induction l generalizing s with
  | nil => exact Keeps_refl _ s
  | cons o l ih => exact Keeps_trans _ _ _ _ (wr_keeps s o _ u 0) (ih _)

theorem clearEnables_keeps (s : State) (p : Nat) : Keeps [.regs, .ports] s (s.clearEnables p) := by
  unfold State.clearEnables
  exact keeps_then _ _ _ _ _ _ (foldl_wr_keeps (fun _ _ => 0) p _ s) (setPort_keeps _ p _) (by decide) (by decide)

theorem passEnables_keeps (s : State) (p : Nat) : Keeps [.regs, .ports] s (s.passEnables p) := by
  unfold State.passEnables
  exact keeps_then _ _ _ _ _ _ (foldl_wr_keeps (fun t o => t.rd o p) _ _ s) (clearEnables_keeps _ p) (by decide) (by decide)

theorem passEnables_off (s : State) (p : Nat) : ((s.passEnables p).enables p).none = true := clearEnables_none _ p

/-- A port without enables is without them where no register has changed. -/
theorem keeps_off {l : List Part} {s t : State} (h : Keeps l s t) (hl : .regs ∉ l) {p : Nat} (hp : (s.enables p).none = true) :
    (t.enables p).none = true := by
  rw [enables_none_iff] at hp ⊢
  intro e he
  rw [rd_of_regs s t e p 0 (h.2.2 .regs hl _ _ (enable_not_eventKey e he p))]
  exact hp e he

/-! ### Triggers (R355) -/

theorem merges_past {s : State} {p : Nat} {c : CalCycle} (h : (s.bnd (bundleOfPort p)).cal.cycle = some c) (hc : 2 < c.phase) :
    s.merges p = none := by
  unfold State.merges
  dsimp only
  rw [h]
  exact Option.filter_eq_none_iff.2 (by simp [hc])

/-- A trigger that merges with no cycle is pending at its port, and changes nothing else. -/
theorem trigger_aside {s : State} {p : Nat} (k : Fin 6) (h : s.merges p = none) : Aside [.ports] s (s.trigger p k) := by
  have hcode := aside_setPort s p (fun q => { q with cal := { q.cal with trigger := k.val } }) rfl
  have hmerges : (s.setPort p (fun q => { q with cal := { q.cal with trigger := k.val } })).merges p = none := h
  unfold State.trigger
  dsimp only
  rw [hmerges]
  exact aside_ite (aside_refl _ s) (aside_trans hcode (aside_setPort _ p _ rfl))

theorem qualityTrigger_aside {s : State} {p : Nat} (h : s.merges p = none) : Aside [.ports] s (s.qualityTrigger p) :=
  aside_ite (trigger_aside _ h) (aside_refl _ s)

/-! ### The end of a cycle (R378 to R382) -/

theorem finishCycle_eq {s : State} {b : Nat} {c : CalCycle} (result : Nat) (h : (s.bnd b).cal.cycle = some c) :
    s.finishCycle b result = ((s.hold (portOfSlot b c.slot) false).hold (96 + b) false).setBnd b
      (fun t => { t with cal := { t.cal with cycle := none, lastResult := result } }) := by
  unfold State.finishCycle
  rw [h]

/-- A change of two ports and of a bundle. -/
theorem letGo_keeps (s : State) (p q b : Nat) (f g : Port → Port) (h : Bundle → Bundle) :
    Keeps [.bnds, .ports] s (((s.setPort p f).setPort q g).setBnd b h) :=
  keeps_then [.ports] _ _ _ _ _ (Keeps_trans _ _ _ _ (setPort_keeps s p f) (setPort_keeps _ q g)) (setBnd_keeps _ b h)
    (by decide) (by decide)

theorem finishCycle_keeps (s : State) (b result : Nat) : Keeps [.bnds, .ports] s (s.finishCycle b result) := by
  unfold State.finishCycle State.hold
  split
  · exact Keeps_refl _ s
  · exact letGo_keeps _ _ _ _ _ _ _

/-- The cycle has ended with a result. -/
def EndsWith (b result : Nat) (t : State) : Prop := (t.bnd b).cal.cycle = none ∧ (t.bnd b).cal.lastResult = result

theorem endsWith_keeps {b result : Nat} {l : List Part} {s t : State} (h : Keeps l s t) (hl : .bnds ∉ l) (hs : EndsWith b result s) :
    EndsWith b result t := by
  unfold EndsWith at hs ⊢
  rwa [keeps_bnd h hl]

theorem finishCycle_ends {s : State} {b : Nat} {c : CalCycle} (result : Nat) (h : (s.bnd b).cal.cycle = some c) :
    EndsWith b result (s.finishCycle b result) := by
  unfold EndsWith
  rw [finishCycle_eq result h, bnd_setBnd, if_pos rfl]
  exact ⟨rfl, rfl⟩

/-- The port of the cycle and the bye-stake are let go; no port is replaced anew. -/
theorem finishCycle_lets_go {s : State} {b : Nat} {c : CalCycle} (result : Nat) (h : (s.bnd b).cal.cycle = some c) :
    ((s.finishCycle b result).port (portOfSlot b c.slot)).cal.held = false ∧
      ((s.finishCycle b result).port (96 + b)).cal.held = false ∧
      ∀ p, ((s.finishCycle b result).port p).cal.replaced = (s.port p).cal.replaced := by
  rw [finishCycle_eq result h]
  refine ⟨?_, ?_, fun p => ?_⟩
  all_goals
    simp only [setBnd_port, hold_port]
    split_ifs <;> simp_all

theorem endSurvey_keeps (s : State) (b : Nat) : Keeps [.bnds, .ports] s (s.endSurvey b) := by
  unfold State.endSurvey
  split
  · exact Keeps_refl _ s
  · exact letGo_keeps _ _ _ _ _ _ _

theorem endCycle_keeps (s : State) (b result : Nat) : Keeps [.bnds, .ports] s (s.endCycle b result) := by
  unfold State.endCycle
  split
  · exact endSurvey_keeps s b
  · exact letGo_keeps _ _ _ _ _ _ _

theorem endCycle_ends {s : State} {b : Nat} {c : CalCycle} (result : Nat) (h : (s.bnd b).cal.cycle = some c) :
    EndsWith b result (s.endCycle b result) := by
  unfold EndsWith State.endCycle
  rw [h]
  dsimp only
  rw [bnd_setBnd, if_pos rfl]
  exact ⟨rfl, rfl⟩

/-- A bye-stake that fails ends its cycle, FAILED. -/
def byeDown (b : Nat) (s : State) : State :=
  (s.endCycle b 6).setBnd b (fun t => { t with cal := { t.cal with byeFailed := true, survey := none, lastResult := 6 } })

theorem failBye_rest (s : State) (b : Nat) : Keeps [.regs, .ports, .cal, .ledger] (byeDown b s) (s.failBye b) := by
  unfold State.failBye
  extract_lets bye slot ended down emptied handed raised
  have hraised : Keeps [.ports, .cal, .ledger] down raised :=
    keeps_then _ _ _ _ _ _ (keeps_then _ _ [.ports, .cal, .ledger] _ _ _ (setPort_keeps down bye _) (handSets_aside emptied bye).frame
      (by decide) (by decide)) (raise_keeps handed _ _ _ _ _ _ _) (by decide) (by decide)
  clear_value slot
  split
  · exact Keeps_mono _ _ _ _ hraised (by simp)
  · have hcleared : Keeps [.regs, .ports, .cal, .ledger] down (raised.clearEnables bye) :=
      keeps_then _ _ _ _ _ _ hraised (clearEnables_keeps raised bye) (by decide) (by decide)
    refine keeps_then [.regs, .ports, .cal, .ledger] _ _ _ _ _ ?_ (handSets_aside _ _).frame (by decide) (by decide)
    exact keeps_then _ _ _ _ _ _ hcleared (setPort_keeps _ _ _) (by decide) (by decide)

theorem failBye_fails {s : State} {b : Nat} {c : CalCycle} (h : (s.bnd b).cal.cycle = some c) :
    EndsWith b 6 (s.failBye b) ∧ ((s.failBye b).bnd b).cal.byeFailed = true ∧
      Keeps [.regs, .bnds, .ports, .cal, .ledger] s (s.failBye b) := by
  have hrest := failBye_rest s b
  have hdown : EndsWith b 6 (byeDown b s) ∧ ((byeDown b s).bnd b).cal.byeFailed = true := by
    unfold EndsWith byeDown
    rw [bnd_setBnd, if_pos rfl]
    exact ⟨⟨(endCycle_ends 6 h).1, rfl⟩, rfl⟩
  have hkeeps : Keeps [.bnds, .ports] s (byeDown b s) :=
    keeps_then _ _ _ _ _ _ (endCycle_keeps s b 6) (setBnd_keeps _ b _) (by decide) (by decide)
  refine ⟨endsWith_keeps hrest (by decide) hdown.1, ?_, keeps_then _ _ _ _ _ _ hkeeps hrest (by decide) (by decide)⟩
  rw [keeps_bnd hrest (by decide)]
  exact hdown.2

/-- A port that its bye-stake replaces for good. -/
theorem substitute_replaces (s : State) (p : Nat) : ((s.substitute p).port p).cal.substituted = true ∧
    ((s.substitute p).port p).cal.replaced = true ∧ Keeps [.ports, .cal, .ledger] s (s.substitute p) := by
  unfold State.substitute
  extract_lets put
  have hport : put.port p = { s.port p with cal := { (s.port p).cal with
      substituted := true, replaced := true, pending := [], request := 0 } } := (port_setPort _ _ _ _).trans (if_pos rfl)
  have hrest := aside_then (handSets_aside put p) (aside_raise _ 0x2004 3 p (96 + bundleOfPort p) 0 [] false)
    (fun _ h => h) (by simp)
  refine ⟨?_, ?_, keeps_then _ _ _ _ _ _ (setPort_keeps s p _) hrest.frame (by decide) (by decide)⟩
  · rw [aside_substituted hrest, hport]
  · rw [aside_replaced hrest, hport]

/-- A port that fails for good. -/
theorem failPort_fails (s : State) (p item : Nat) : ((s.failPort p item).port p).cal.failed = true ∧
    ((s.failPort p item).enables p).none = true ∧ Keeps [.regs, .ports, .cal, .ledger] s (s.failPort p item) := by
  unfold State.failPort
  extract_lets put
  have hput : Keeps [.ports] (s.clearEnables p) put := setPort_keeps _ p _
  have hrest := aside_then (handSets_aside put p) (aside_raise _ 0x2005 3 p item 0 [] false) (fun _ h => h) (by simp)
  have hcleared : Keeps [.regs, .ports] s put := keeps_then _ _ _ _ _ _ (clearEnables_keeps s p) hput (by decide) (by decide)
  refine ⟨?_, ?_, keeps_then _ _ _ _ _ _ hcleared hrest.frame (by decide) (by decide)⟩
  · rw [aside_failed hrest, show put = _ from rfl, port_setPort, if_pos rfl]
  · exact keeps_off hrest.frame (by decide) (keeps_off hput (by decide) (clearEnables_none s p))

end Sys2Proof.Laws

namespace Sys2Proof.Proofs
open Sys2Proof.Machine Sys2Proof.Safety Sys2Proof.Laws

/-! ### Prepare (R358, R380) -/

/-- The bye-stake has its point: it enters its set and is handed to the Rim. -/
def prepared (b : Nat) (c : CalCycle) (f : CalFinds) (s : State) : State :=
  ((s.formPoint (96 + b) (s.rateClass (portOfSlot b c.slot)) f false false).setPort (96 + b) (fun q => { q with cal :=
    { q.cal with pending := q.cal.pending.filter (fun t => t != trigTemperature && t != trigNoSet) } })).handSet (96 + b)
      (s.rateClass (portOfSlot b c.slot))

theorem prepared_aside (b : Nat) (c : CalCycle) (f : CalFinds) (s : State) : Aside pointParts s (prepared b c f s) := by
  have hpoint := formPoint_aside s (96 + b) (s.rateClass (portOfSlot b c.slot)) f false false
  exact aside_then (l := [.free, .regs, .ports, .cal]) (aside_then hpoint (aside_setPort _ (96 + b) _ rfl) (fun _ h => h) (by decide))
    (handSet_aside _ _ _) (by decide) (by decide)

theorem calHold_not_eventKey : ¬ eventKey Obj.devCalHold.key := not_eventKey _ (by decide) (by decide)

theorem calFallbacks_not_eventKey : ¬ eventKey Obj.devCalFallbacks.key := not_eventKey _ (by decide) (by decide)
theorem calCycles_not_eventKey : ¬ eventKey Obj.devCalCycles.key := not_eventKey _ (by decide) (by decide)

/-- A point of a port is formed and the cycle is counted. -/
def pointCounted (p : Nat) (f : CalFinds) (live internal : Bool) (s : State) : State :=
  (s.formPoint p (s.rateClass p) f live internal).bump .devCalCycles

theorem pointCounted_leaves (p : Nat) (f : CalFinds) (live internal : Bool) (s : State) :
    (pointCounted p f live internal s).rd .devCalCycles = min (s.rd .devCalCycles + 1) 0xFFFFFFFF ∧
      (∀ d, (pointCounted p f live internal s).bnd d = s.bnd d) ∧
      Keeps [.free, .regs, .ports, .cal] s (pointCounted p f live internal s) := by
  have hpoint := formPoint_aside s p (s.rateClass p) f live internal
  refine ⟨?_, fun d => aside_bnd hpoint (by decide) d, keeps_then _ _ _ _ _ _ hpoint.frame (wr_keeps _ _ _ _ _) (by decide) (by decide)⟩
  rw [pointCounted, rd_bump _ _ _ _ _ (by decide), aside_rd hpoint _ _ _ (by decide) calCycles_not_eventKey]
  rfl

/-- The trims of a port that has returned are those at the bundle's temperature (R366). -/
def trimsTaken (b p : Nat) (s : State) : State :=
  match (s.bnd b).cal.temp with
  | some t => s.putTrims p (s.computeTrims p t)
  | none => s

theorem trimsTaken_aside (b p : Nat) (s : State) : Aside [.ports] s (trimsTaken b p s) := by
  unfold trimsTaken
  split
  · exact putTrims_aside s p _
  · exact aside_refl _ s

section
variable {b : Nat} {c : CalCycle} {s : State} (h : (s.bnd b).cal.cycle = some c)
include h

theorem calPrepareDone_passes {f : CalFinds} (hphase : c.phase = 1) (hready : c.ready = false) (hpass : calPasses f = true) :
    calPrepareDone b f s = if s.rd .devCalHold = 1 then (prepared b c f s).setCycle b (fun c => { c with ready := true })
      else (prepared b c f s).beginListen b := by
  have hhold : (prepared b c f s).rd .devCalHold = s.rd .devCalHold :=
    aside_rd (prepared_aside b c f s) _ _ _ (by decide) calHold_not_eventKey
  unfold calPrepareDone
  rw [h]
  dsimp only
  rw [if_pos (by simp [hphase, hready]), if_pos hpass, ← hhold]
  exact if_congr beq_iff_eq rfl rfl

theorem calPrepareDone_fails {f : CalFinds} (hphase : c.phase = 1) (hready : c.ready = false) (hfail : calPasses f = false) :
    calPrepareDone b f s = s.failBye b := by
  unfold calPrepareDone
  rw [h]
  dsimp only
  rw [if_pos (by simp [hphase, hready]), if_neg (by simp [hfail])]

/-- Listen begins: the cycle is in its phase since now, and its port is held. -/
theorem beginListen_begins : ((s.beginListen b).bnd b).cal.cycle = some { c with phase := 2, ready := false, since := s.time } ∧
    ((s.beginListen b).port (portOfSlot b c.slot)).cal.held = true ∧ Keeps [.bnds, .ports] s (s.beginListen b) := by
  unfold State.beginListen
  rw [h]
  dsimp only
  generalize hu : (s.setCycle b (fun c => { c with phase := 2, ready := false, since := s.time })).hold (portOfSlot b c.slot) true = u
  have hrest : Aside [.ports] u ((u.joinReceiver b).recompute (96 + b)) := aside_trans (joinReceiver_aside u b) (recompute_aside _ _)
  refine ⟨?_, ?_, keeps_then [.bnds, .ports] _ _ _ u _ ?_ hrest.frame (fun _ h => h) (by decide)⟩
  · rw [aside_bnd hrest (by decide), ← hu, hold_bnd]
    exact setCycle_cycle _ h
  · rw [aside_held hrest, ← hu, hold_port, if_pos rfl]
  · rw [← hu]
    exact keeps_then _ _ _ _ _ _ (setCycle_keeps s b _) (hold_keeps _ _ _) (by decide) (by decide)

/-- Prepare finds a point: Listen begins, or waits for DEV_CAL_HOLD. -/
theorem prepare_passes {f : CalFinds} (hphase : c.phase = 1) (hready : c.ready = false) (hpass : calPasses f = true) :
    (s.rd .devCalHold ≠ 1 →
      ((calPrepareDone b f s).bnd b).cal.cycle = some { c with phase := 2, ready := false, since := s.time } ∧
        ((calPrepareDone b f s).port (portOfSlot b c.slot)).cal.held = true) ∧
      (s.rd .devCalHold = 1 → ((calPrepareDone b f s).bnd b).cal.cycle = some { c with ready := true }) ∧
      Keeps [.free, .regs, .bnds, .ports, .cal, .ledger] s (calPrepareDone b f s) := by
  have haside := prepared_aside b c f s
  have hcycle : ((prepared b c f s).bnd b).cal.cycle = some c := by rw [aside_bnd haside (fun _ h => h), h]
  have htime : (prepared b c f s).time = s.time := (haside.frame.2.2 .time (by decide)).1
  obtain ⟨hlisten, hheld, hkeeps⟩ := beginListen_begins hcycle
  rw [calPrepareDone_passes h hphase hready hpass]
  refine ⟨fun hhold => ?_, fun hhold => ?_, ?_⟩
  · rw [if_neg hhold, ← htime]
    exact ⟨hlisten, hheld⟩
  · rw [if_pos hhold]
    exact setCycle_cycle _ hcycle
  · split
    · exact keeps_then _ _ _ _ _ _ haside.frame (setCycle_keeps _ b _) (by decide) (by decide)
    · exact keeps_then _ _ _ _ _ _ haside.frame hkeeps (by decide) (by decide)

/-! ### Listen and takeover (R256, R358, R359, R363) -/

/-- A listen falls back to internal stimulus, and is counted. -/
theorem fallBack_falls (p transitions : Nat) :
    ((s.fallBack b p transitions).bnd b).cal.cycle = some { c with phase := 3, internal := true, stats := none } ∧
      ((s.fallBack b p transitions).port p).cal.internalStim = true ∧
      (s.fallBack b p transitions).rd .devCalFallbacks = min (s.rd .devCalFallbacks + 1) 0xFFFFFFFF ∧
      Keeps [.regs, .bnds, .ports] s (s.fallBack b p transitions) := by
  unfold State.fallBack
  extract_lets marked told
  have htold : told.bnd b = s.bnd b := rfl
  refine ⟨setCycle_cycle _ (by rw [htold, h]), ?_, ?_, ?_⟩
  · rw [setCycle_port, show told.port p = marked.port p from rfl, show marked.port p = _ from port_setPort _ _ _ _, if_pos rfl]
  · exact rd_bump marked .devCalFallbacks 0 0 1 (by decide)
  · have hmarked : Keeps [.ports] s marked := setPort_keeps s p _
    have hcounted : Keeps [.regs, .ports] s (marked.bump .devCalFallbacks) :=
      keeps_then _ _ _ _ _ _ hmarked (wr_keeps marked _ _ _ _) (by decide) (by decide)
    have hraised : Keeps [.regs, .ports] s told :=
      keeps_then _ _ _ _ _ _ hcounted (raise_keeps _ _ _ _ _ _ _ _) (by decide) (by decide)
    exact keeps_then _ _ _ _ _ _ hraised (setCycle_keeps told b _) (by decide) (by decide)

theorem calListenDone_sparse {st : ListenStats} (hphase : c.phase = 2) (hsince : c.since + ticks200us ≤ s.time)
    (hsparse : listenSparse st = true) : calListenDone b st s = s.fallBack b (portOfSlot b c.slot) st.transitions := by
  unfold calListenDone
  rw [h]
  dsimp only
  rw [if_pos (by simp [hphase, hsince]), if_pos hsparse]

theorem calListenLimit_reached {transitions : Nat} (hphase : c.phase = 2)
    (hsince : c.since + s.rd .devCalListenLimit * ticks1ms ≤ s.time) :
    calListenLimit b transitions s = s.fallBack b (portOfSlot b c.slot) transitions := by
  unfold calListenLimit
  rw [h]
  dsimp only
  exact if_pos (by simp [hphase, hsince])

/-- The takeover at a boundary: the bye-stake serves the pin. -/
theorem calTakeover_takes (hphase : c.phase = 3) (hhold : s.rd .devCalHold = 0) (hnow : s.boundaryNow b c.internal = true) :
    ((calTakeover b s).bnd b).cal.cycle = some { c with phase := 4 } ∧
      ((calTakeover b s).port (portOfSlot b c.slot)).cal.replaced = true ∧ Keeps [.bnds, .ports] s (calTakeover b s) := by
  unfold calTakeover
  rw [h]
  dsimp only
  rw [if_pos (by simp [hphase, hhold, hnow])]
  generalize hu : s.setPort (portOfSlot b c.slot) (fun q => { q with cal := { q.cal with replaced := true } }) = u
  have hbnd : u.bnd b = s.bnd b := by rw [← hu, setPort_bnd]
  have hkeeps : Keeps [.ports] s u := hu ▸ setPort_keeps s _ _
  refine ⟨setCycle_cycle _ (by rw [hbnd, h]), ?_, keeps_then _ _ _ _ _ _ hkeeps (setCycle_keeps u b _) (by decide) (by decide)⟩
  rw [setCycle_port, ← hu, port_setPort, if_pos rfl]

/-! ### Rejoin (R358) -/

theorem calRejoinDone_rejoins (hphase : c.phase = 5) (hsince : c.since + ticks20us ≤ s.time)
    (hlocked : s.rejoined b (portOfSlot b c.slot) = true) : calRejoinDone b s = s.setCycle b (fun c => { c with phase := 6 }) := by
  unfold calRejoinDone
  rw [h]
  dsimp only
  exact if_pos (by simp [hphase, hsince, hlocked])

/-! ### Calibrate (R361, R364, R377) -/

theorem calCalibrateDone_live {f : CalFinds} (hphase : c.phase = 4) :
    calCalibrateDone b f s = s.liveCalibrated b (portOfSlot b c.slot) c f := by
  unfold calCalibrateDone
  rw [h]
  dsimp only
  exact if_pos (by simp [hphase])

theorem calCalibrateDone_offline {f : CalFinds} (hphase : c.phase = 7) :
    calCalibrateDone b f s = s.offlineCalibrated b (portOfSlot b c.slot) c f := by
  unfold calCalibrateDone
  rw [h]
  dsimp only
  rw [if_neg (by simp [hphase]), if_pos (by simp [hphase])]

/-- A live calibration that passes: Rejoin begins, and the cycle is counted. -/
theorem liveCalibrated_passes {f : CalFinds} (p : Nat) (hpass : calPasses f = true) :
    ((s.liveCalibrated b p c f).bnd b).cal.cycle = some { c with phase := 5, since := s.time } ∧
      (s.liveCalibrated b p c f).rd .devCalCycles = min (s.rd .devCalCycles + 1) 0xFFFFFFFF ∧
      Keeps [.free, .regs, .bnds, .ports, .cal] s (s.liveCalibrated b p c f) := by
  obtain ⟨hcount, hbnd, hkeeps⟩ := pointCounted_leaves p f (!c.internal) c.internal s
  have htime : (pointCounted p f (!c.internal) c.internal s).time = s.time := (hkeeps.2.2 .time (by decide)).1
  unfold State.liveCalibrated
  rw [if_pos hpass]
  extract_lets u
  have hu : u = pointCounted p f (!c.internal) c.internal s := rfl
  have hrest := joinReceiver_aside (u.setCycle b (fun c => { c with phase := 5, since := u.time })) b
  rw [← hu] at hcount hbnd hkeeps htime
  refine ⟨?_, ?_, ?_⟩
  · rw [aside_bnd hrest (by decide), ← htime]
    exact setCycle_cycle _ (by rw [hbnd, h])
  · rw [aside_rd hrest _ _ _ (by decide) calCycles_not_eventKey, setCycle_rd, hcount]
  · refine keeps_then [.free, .regs, .bnds, .ports, .cal] _ _ _ _ _ ?_ hrest.frame (fun _ h => h) (by decide)
    exact keeps_then _ _ _ _ _ _ hkeeps (setCycle_keeps u b _) (by decide) (by decide)

/-- An offline calibration that passes: its sets are handed to the Rim, and the cycle ends with DONE. -/
theorem offlineCalibrated_passes {f : CalFinds} (hpass : calPasses f = true) :
    let t := s.offlineCalibrated b (portOfSlot b c.slot) c f
    EndsWith b 1 t ∧ (t.port (portOfSlot b c.slot)).cal.held = false ∧
      t.rd .devCalCycles = min (s.rd .devCalCycles + 1) 0xFFFFFFFF ∧
      Keeps [.free, .regs, .bnds, .ports, .cal, .ledger] s t := by
  generalize hp : portOfSlot b c.slot = p
  obtain ⟨hcount, hbnd, hkeeps⟩ := pointCounted_leaves p f false false s
  unfold State.offlineCalibrated
  rw [if_pos hpass]
  extract_lets u v t
  have hu : u = pointCounted p f false false s := rfl
  rw [← hu] at hcount hbnd hkeeps
  have hhanded : Aside [.cal, .ledger] u v := aside_ite (handSets_aside u p) (handSet_aside u p _)
  have hcycle : (v.bnd b).cal.cycle = some c := by rw [aside_bnd hhanded (by decide), hbnd, h]
  have hlast := reevaluate_aside (v.finishCycle b 1) p
  have hfinish := finishCycle_keeps v b 1
  obtain ⟨hlet, -, -⟩ := finishCycle_lets_go 1 hcycle
  refine ⟨endsWith_keeps hlast.frame (by decide) (finishCycle_ends 1 hcycle), ?_, ?_, ?_⟩
  · rw [show t = _ from rfl, aside_held hlast, ← hp, hlet]
  · rw [show t = _ from rfl, aside_rd hlast _ _ _ (by decide) calCycles_not_eventKey,
      rd_of_regs _ _ _ _ _ (hfinish.2.2 .regs (by decide) _ _ calCycles_not_eventKey),
      aside_rd hhanded _ _ _ (by decide) calCycles_not_eventKey, hcount]
  · have hv : Keeps pointParts s v := keeps_then _ _ _ _ _ _ hkeeps hhanded.frame (by decide) (by decide)
    have hended : Keeps [.free, .regs, .bnds, .ports, .cal, .ledger] s (v.finishCycle b 1) :=
      keeps_then _ _ _ _ _ _ hv hfinish (by decide) (by decide)
    exact keeps_then _ _ _ _ _ _ hended hlast.frame (fun _ h => h) (by decide)

/-! ### Return (R358, R366, R373) -/

/-- The port has its pin back, and the cycle has ended. -/
def returned (b : Nat) (c : CalCycle) (s : State) : State :=
  (s.setPort (portOfSlot b c.slot) (fun q => { q with cal := { q.cal with replaced := false } })).finishCycle b c.result

theorem calReturn_eq (hphase : c.phase = 6) (hnow : s.boundaryNow b false = true) :
    calReturn b s = ((trimsTaken b (portOfSlot b c.slot) (returned b c s)).handSet (portOfSlot b c.slot)
      ((trimsTaken b (portOfSlot b c.slot) (returned b c s)).rateClass (portOfSlot b c.slot))).reevaluate (portOfSlot b c.slot) := by
  unfold calReturn
  rw [h]
  exact if_pos (by simp [hphase, hnow])

theorem calReturn_rest (hphase : c.phase = 6) (hnow : s.boundaryNow b false = true) :
    Aside [.ports, .cal, .ledger] (returned b c s) (calReturn b s) := by
  rw [calReturn_eq h hphase hnow]
  generalize portOfSlot b c.slot = p
  generalize returned b c s = u
  have htaken := trimsTaken_aside b p u
  generalize trimsTaken b p u = v at htaken
  have hhanded : Aside [.ports, .cal, .ledger] u (v.handSet p (v.rateClass p)) :=
    aside_then htaken (handSet_aside v p _) (by decide) (by decide)
  exact aside_then hhanded (reevaluate_aside _ p) (fun _ h => h) (by decide)

theorem calReturn_returns (hphase : c.phase = 6) (hnow : s.boundaryNow b false = true) :
    EndsWith b c.result (calReturn b s) ∧ ((calReturn b s).port (portOfSlot b c.slot)).cal.replaced = false ∧
      ((calReturn b s).port (portOfSlot b c.slot)).cal.held = false ∧
      ((calReturn b s).port (96 + b)).cal.held = false ∧ Keeps [.bnds, .ports, .cal, .ledger] s (calReturn b s) := by
  have hrest := calReturn_rest h hphase hnow
  generalize hu : s.setPort (portOfSlot b c.slot) (fun q => { q with cal := { q.cal with replaced := false } }) = u
  have hreturned : returned b c s = u.finishCycle b c.result := by rw [returned, hu]
  have hkeeps : Keeps [.ports] s u := hu ▸ setPort_keeps s _ _
  have hcycle : (u.bnd b).cal.cycle = some c := by rw [keeps_bnd hkeeps (by decide), h]
  obtain ⟨hport, hbye, hreplaced⟩ := finishCycle_lets_go c.result hcycle
  rw [hreturned] at hrest
  refine ⟨endsWith_keeps hrest.frame (by decide) (finishCycle_ends _ hcycle), ?_, ?_, ?_, ?_⟩
  · rw [aside_replaced hrest, hreplaced, ← hu, port_setPort, if_pos rfl]
  · rw [aside_held hrest, hport]
  · rw [aside_held hrest, hbye]
  · have hended : Keeps [.bnds, .ports] s (u.finishCycle b c.result) :=
      keeps_then _ _ _ _ _ _ hkeeps (finishCycle_keeps u b _) (by decide) (fun _ h => h)
    exact keeps_then _ _ _ _ _ _ hended hrest.frame (by decide) (by decide)

/-! ### Calibrations that find no point (R378, R380) -/

/-- A live calibration that finds none: the bye-stake keeps the pin for good, under the port's enables. -/
theorem liveCalibrated_fails {f : CalFinds} (p : Nat) (hfail : calPasses f = false) :
    EndsWith b 4 (s.liveCalibrated b p c f) ∧ ((s.liveCalibrated b p c f).port p).cal.substituted = true ∧
      ((s.liveCalibrated b p c f).port p).cal.replaced = true ∧ ((s.liveCalibrated b p c f).enables p).none = true ∧
      Keeps [.regs, .bnds, .ports, .cal, .ledger] s (s.liveCalibrated b p c f) := by
  have heq : s.liveCalibrated b p c f = ((s.finishCycle b 4).passEnables p).substitute p := by
    unfold State.liveCalibrated
    rw [if_neg (by simp [hfail])]
  have hpass := passEnables_keeps (s.finishCycle b 4) p
  have hpassed : Keeps [.regs, .bnds, .ports] s ((s.finishCycle b 4).passEnables p) :=
    keeps_then _ _ _ _ _ _ (finishCycle_keeps s b 4) hpass (by decide) (by decide)
  have hended : EndsWith b 4 ((s.finishCycle b 4).passEnables p) := endsWith_keeps hpass (by decide) (finishCycle_ends 4 h)
  have hoff := passEnables_off (s.finishCycle b 4) p
  rw [heq]
  generalize (s.finishCycle b 4).passEnables p = u at hpassed hended hoff
  obtain ⟨hsub, hrep, hkeeps⟩ := substitute_replaces u p
  exact ⟨endsWith_keeps hkeeps (by decide) hended, hsub, hrep, keeps_off hkeeps (by decide) hoff,
    keeps_then _ _ _ _ _ _ hpassed hkeeps (by decide) (by decide)⟩

omit h in
/-- A port that is in no live cycle fails: its bye-stake takes its place, or it is FAILED. -/
theorem failOffline_fails (p item : Nat) (hb : bundleOfPort p = b) (hcycle : (s.bnd b).cal.cycle = none) :
    let t := s.failOffline p item
    (EndsWith b 4 t ∧ (t.port p).cal.substituted = true ∨ EndsWith b 5 t ∧ (t.port p).cal.failed = true) ∧
      (t.enables p).none = true ∧ Keeps [.regs, .bnds, .ports, .cal, .ledger] s t := by
  subst hb
  unfold State.failOffline
  extract_lets b sub u t
  have ht : t = u.setBnd b (fun x => { x with cal := { x.cal with lastResult := if sub then 4 else 5 } }) := rfl
  have hlast : Keeps [.bnds] u t := setBnd_keeps u b _
  have hends (hu : u.bnd b = s.bnd b) : EndsWith b (if sub then 4 else 5) t := by
    unfold EndsWith
    rw [ht, bnd_setBnd, if_pos rfl, hu]
    exact ⟨hcycle, rfl⟩
  have hport : t.port p = u.port p := keeps_port hlast (by decide) p
  rw [hport]
  suffices hu : (sub = true ∧ (u.port p).cal.substituted = true ∨ sub = false ∧ (u.port p).cal.failed = true) ∧
      (u.enables p).none = true ∧ Keeps [.regs, .ports, .cal, .ledger] s u by
    obtain ⟨hfate, hoff, hkeeps⟩ := hu
    have hended := hends (keeps_bnd hkeeps (by decide) b)
    refine ⟨?_, keeps_off hlast (by decide) hoff, keeps_then _ _ _ _ _ _ hkeeps hlast (by decide) (by decide)⟩
    refine hfate.imp (fun ⟨hsub, hport⟩ => ?_) (fun ⟨hsub, hport⟩ => ?_)
    · rw [hsub] at hended
      exact ⟨hended, hport⟩
    · rw [hsub] at hended
      exact ⟨hended, hport⟩
  by_cases hsub : sub = true
  · have hu : u = (s.clearEnables p).substitute p := if_pos hsub
    obtain ⟨hport, -, hkeeps⟩ := substitute_replaces (s.clearEnables p) p
    rw [hu]
    exact ⟨.inl ⟨hsub, hport⟩, keeps_off hkeeps (by decide) (clearEnables_none s p),
      keeps_then _ _ _ _ _ _ (clearEnables_keeps s p) hkeeps (by decide) (by decide)⟩
  · have hu : u = s.failPort p item := if_neg hsub
    obtain ⟨hport, hoff, hkeeps⟩ := failPort_fails s p item
    rw [hu]
    exact ⟨.inr ⟨by simpa using hsub, hport⟩, hoff, hkeeps⟩

/-- An offline calibration of a DUT port that finds none. -/
theorem offlineCalibrated_fails {f : CalFinds} (p : Nat) (hb : bundleOfPort p = b) (hp : p < 96) (hfail : calPasses f = false) :
    let t := s.offlineCalibrated b p c f
    (EndsWith b 4 t ∧ (t.port p).cal.substituted = true ∨ EndsWith b 5 t ∧ (t.port p).cal.failed = true) ∧
      (t.enables p).none = true ∧ Keeps [.regs, .bnds, .ports, .cal, .ledger] s t := by
  unfold State.offlineCalibrated
  rw [if_neg (by simp [hfail]), if_pos hp]
  obtain ⟨hfate, hoff, hkeeps⟩ := failOffline_fails p 0 hb (finishCycle_ends 5 h).1
  exact ⟨hfate, hoff, keeps_then _ _ _ _ _ _ (finishCycle_keeps s b 5) hkeeps (by decide) (fun _ h => h)⟩

omit h in
theorem offlineCalibrated_failsBye {f : CalFinds} (p : Nat) (hp : ¬ p < 96) (hfail : calPasses f = false) :
    s.offlineCalibrated b p c f = s.failBye b := by
  unfold State.offlineCalibrated
  rw [if_neg (by simp [hfail]), if_neg hp]

end

/-! ### A listen that is complete (R256, R358) -/

theorem calListenDone_completes {b : BundleNo} {c : CalCycle} {s : State} {st : ListenStats} (h : (s.bnd b).cal.cycle = some c)
    (hphase : c.phase = 2) (hsince : c.since + ticks200us ≤ s.time) (hdense : listenSparse st = false)
    (hcomplete : listenComplete st = true) (hconverged : s.byeConverged b (portOfSlot b c.slot) = true) :
    ((calListenDone b st s).bnd b).cal.cycle = some { c with phase := 3, stats := some st } ∧
      Keeps [.free, .bnds, .ports] s (calListenDone b st s) := by
  have hb := bundleOfPort_portOfSlot b c.slot
  generalize hp : portOfSlot b c.slot = p at hconverged hb
  unfold calListenDone
  rw [h]
  dsimp only
  rw [if_pos (by simp [hphase, hsince]), if_neg (by simp [hdense]), hp, if_pos (by simp [hcomplete, hconverged])]
  generalize hu : (s.takeListen p st).setPort p (fun q => { q with cal := { q.cal with lowDensity := false, internalStim := false } }) = u
  have hlistened : Keeps [.free, .ports] s u :=
    hu ▸ keeps_then _ _ _ _ _ _ (takeListen_aside s p st).frame (setPort_keeps _ p _) (by decide) (by decide)
  have hcycle : ((u.setCycle b (fun c => { c with phase := 3, stats := some st })).bnd b).cal.cycle
      = some { c with phase := 3, stats := some st } := setCycle_cycle _ (by rw [keeps_bnd hlistened (by decide), h])
  have hlast := qualityTrigger_aside (merges_past (p := p) (by rw [hb]; exact hcycle) (Nat.lt_succ_self 2))
  refine ⟨by rw [aside_bnd hlast (by decide), hcycle], ?_⟩
  have hpassed : Keeps [.free, .bnds, .ports] s (u.setCycle b (fun c => { c with phase := 3, stats := some st })) :=
    keeps_then _ _ _ _ _ _ hlistened (setCycle_keeps u b _) (by decide) (by decide)
  exact keeps_then _ _ _ _ _ _ hpassed hlast.frame (fun _ h => h) (by decide)

/-! ### The rows of a cycle -/

theorem exec_calPrepareDone (b : BundleNo) (f : CalFinds) (s : State) : exec (.calPrepareDone b f) s = run (calPrepareDone b f) s := rfl
theorem exec_calListenDone (b : BundleNo) (st : ListenStats) (s : State) :
    exec (.calListenDone b st) s = run (calListenDone b st) s := rfl
theorem exec_calListenLimit (b : BundleNo) (n : Nat) (s : State) : exec (.calListenLimit b n) s = run (calListenLimit b n) s := rfl
theorem exec_calTakeover (b : BundleNo) (s : State) : exec (.calTakeover b) s = run (calTakeover b) s := rfl
theorem exec_calCalibrateDone (b : BundleNo) (f : CalFinds) (s : State) :
    exec (.calCalibrateDone b f) s = run (calCalibrateDone b f) s := rfl
theorem exec_calRejoinDone (b : BundleNo) (s : State) : exec (.calRejoinDone b) s = run (calRejoinDone b) s := rfl
theorem exec_calReturn (b : BundleNo) (s : State) : exec (.calReturn b) s = run (calReturn b) s := rfl

/-- A command ends: its bundles, ports and enables, and the parts that it keeps, are those of its effect. -/
theorem run_ends (f : State → State) (s e : State) (he : f { s with out := [] } = e) :
    ∃ t, run f s = .next t ∧ (∀ b, t.bnd b = e.bnd b) ∧ (∀ p, t.port p = e.port p) ∧
      (∀ o : Obj, ¬ eventKey o.key → t.rd o = e.rd o) ∧ (∀ p, (e.enables p).none = true → (t.enables p).none = true) ∧
      ∀ l, Keeps l { s with out := [] } e → Keeps l s t :=
  ⟨_, run_next f s e he, ended_bnd s e, ended_port s e, fun o => ended_rd s e o 0 0, ended_off s e, fun _ => ended_effect_keeps⟩

section
variable {b : BundleNo} {c : CalCycle} {s : State} (h : (s.bnd b).cal.cycle = some c)
include h

theorem prepare_row {f : CalFinds} (hphase : c.phase = 1) (hready : c.ready = false) :
    (calPasses f = true → s.rd .devCalHold ≠ 1 →
      ∃ t, exec (.calPrepareDone b f) s = .next t ∧
        (t.bnd b).cal.cycle = some { c with phase := 2, ready := false, since := s.time } ∧
        (t.port (portOfSlot b c.slot)).cal.held = true ∧ Keeps [.free, .regs, .bnds, .ports, .cal, .ledger] s t) ∧
    (calPasses f = true → s.rd .devCalHold = 1 →
      ∃ t, exec (.calPrepareDone b f) s = .next t ∧ (t.bnd b).cal.cycle = some { c with ready := true } ∧
        Keeps [.free, .regs, .bnds, .ports, .cal, .ledger] s t) ∧
    (calPasses f = false →
      ∃ t, exec (.calPrepareDone b f) s = .next t ∧ (t.bnd b).cal.cycle = none ∧ (t.bnd b).cal.byeFailed = true ∧
        (t.bnd b).cal.lastResult = 6 ∧ Keeps [.regs, .bnds, .ports, .cal, .ledger] s t) := by
  obtain ⟨t, hexec, hbnd, hport, -, -, hkeeps⟩ := run_ends (calPrepareDone b f) s _ rfl
  rw [exec_calPrepareDone]
  have hpasses := prepare_passes (s := { s with out := [] }) h (f := f) hphase hready
  refine ⟨fun hpass hhold => ?_, fun hpass hhold => ?_, fun hfail => ?_⟩
  · obtain ⟨hlisten, -, hframe⟩ := hpasses hpass
    obtain ⟨hcycle, hheld⟩ := hlisten hhold
    exact ⟨t, hexec, by rw [hbnd, hcycle], by rw [hport, hheld], hkeeps _ hframe⟩
  · obtain ⟨-, hwait, hframe⟩ := hpasses hpass
    exact ⟨t, hexec, by rw [hbnd, hwait hhold], hkeeps _ hframe⟩
  · obtain ⟨⟨hcycle, hlast⟩, hbye, hframe⟩ := failBye_fails (s := { s with out := [] }) h
    rw [← calPrepareDone_fails (s := { s with out := [] }) h hphase hready hfail] at hcycle hlast hbye hframe
    exact ⟨t, hexec, by rw [hbnd, hcycle], by rw [hbnd, hbye], by rw [hbnd, hlast], hkeeps _ hframe⟩

/-- A row whose effect is a fall back to internal stimulus. -/
theorem fallBack_row (f : State → State) (transitions : Nat)
    (hf : f { s with out := [] } = ({ s with out := [] } : State).fallBack b (portOfSlot b c.slot) transitions) :
    ∃ t, run f s = .next t ∧ (t.bnd b).cal.cycle = some { c with phase := 3, internal := true, stats := none } ∧
      (t.port (portOfSlot b c.slot)).cal.internalStim = true ∧
      t.rd .devCalFallbacks = min (s.rd .devCalFallbacks + 1) 0xFFFFFFFF ∧ Keeps [.regs, .bnds, .ports] s t := by
  obtain ⟨t, hexec, hbnd, hport, hrd, -, hkeeps⟩ := run_ends f s _ hf
  obtain ⟨hcycle, hstim, hcount, hframe⟩ := fallBack_falls (s := { s with out := [] }) h (portOfSlot b c.slot) transitions
  exact ⟨t, hexec, by rw [hbnd, hcycle], by rw [hport, hstim], by rw [hrd _ calFallbacks_not_eventKey, hcount]; rfl, hkeeps _ hframe⟩

theorem listen_row {st : ListenStats} (hphase : c.phase = 2) (hsince : c.since + ticks200us ≤ s.time) :
    (listenSparse st = false → listenComplete st = true → s.byeConverged b (portOfSlot b c.slot) = true →
      ∃ t, exec (.calListenDone b st) s = .next t ∧
        (t.bnd b).cal.cycle = some { c with phase := 3, stats := some st } ∧ Keeps [.free, .bnds, .ports] s t) ∧
    (listenSparse st = true →
      ∃ t, exec (.calListenDone b st) s = .next t ∧
        (t.bnd b).cal.cycle = some { c with phase := 3, internal := true, stats := none } ∧
        (t.port (portOfSlot b c.slot)).cal.internalStim = true ∧
        t.rd .devCalFallbacks = min (s.rd .devCalFallbacks + 1) 0xFFFFFFFF ∧ Keeps [.regs, .bnds, .ports] s t) := by
  rw [exec_calListenDone]
  refine ⟨fun hdense hcomplete hconverged => ?_, fun hsparse => ?_⟩
  · obtain ⟨t, hexec, hbnd, -, -, -, hkeeps⟩ := run_ends (calListenDone b st) s _ rfl
    obtain ⟨hcycle, hframe⟩ := calListenDone_completes (s := { s with out := [] }) h hphase hsince hdense hcomplete hconverged
    exact ⟨t, hexec, by rw [hbnd, hcycle], hkeeps _ hframe⟩
  · exact fallBack_row h (calListenDone b st) st.transitions
      (calListenDone_sparse (s := { s with out := [] }) h hphase hsince hsparse)

theorem calibrate_row {f : CalFinds} (hpass : calPasses f = true) :
    (c.phase = 4 → ∃ t, exec (.calCalibrateDone b f) s = .next t ∧
      (t.bnd b).cal.cycle = some { c with phase := 5, since := s.time } ∧
      t.rd .devCalCycles = min (s.rd .devCalCycles + 1) 0xFFFFFFFF ∧ Keeps [.free, .regs, .bnds, .ports, .cal] s t) ∧
    (c.phase = 7 → ∃ t, exec (.calCalibrateDone b f) s = .next t ∧ (t.bnd b).cal.cycle = none ∧
      (t.bnd b).cal.lastResult = 1 ∧ (t.port (portOfSlot b c.slot)).cal.held = false ∧
      t.rd .devCalCycles = min (s.rd .devCalCycles + 1) 0xFFFFFFFF ∧
      Keeps [.free, .regs, .bnds, .ports, .cal, .ledger] s t) := by
  rw [exec_calCalibrateDone]
  refine ⟨fun hphase => ?_, fun hphase => ?_⟩
  · obtain ⟨t, hexec, hbnd, -, hrd, -, hkeeps⟩ :=
      run_ends (calCalibrateDone b f) s _ (calCalibrateDone_live (s := { s with out := [] }) h hphase)
    obtain ⟨hcycle, hcount, hframe⟩ := liveCalibrated_passes (s := { s with out := [] }) h (portOfSlot b c.slot) hpass
    exact ⟨t, hexec, by rw [hbnd, hcycle], by rw [hrd _ calCycles_not_eventKey, hcount]; rfl, hkeeps _ hframe⟩
  · obtain ⟨t, hexec, hbnd, hport, hrd, -, hkeeps⟩ :=
      run_ends (calCalibrateDone b f) s _ (calCalibrateDone_offline (s := { s with out := [] }) h hphase)
    obtain ⟨⟨hcycle, hlast⟩, hheld, hcount, hframe⟩ := offlineCalibrated_passes (s := { s with out := [] }) h hpass
    exact ⟨t, hexec, by rw [hbnd, hcycle], by rw [hbnd, hlast], by rw [hport, hheld],
      by rw [hrd _ calCycles_not_eventKey, hcount]; rfl, hkeeps _ hframe⟩

theorem takeover_row (hphase : c.phase = 3) (hhold : s.rd .devCalHold = 0) (hnow : s.boundaryNow b c.internal = true) :
    ∃ t, exec (.calTakeover b) s = .next t ∧ (t.bnd b).cal.cycle = some { c with phase := 4 } ∧
      (t.port (portOfSlot b c.slot)).cal.replaced = true ∧ Keeps [.bnds, .ports] s t := by
  obtain ⟨t, hexec, hbnd, hport, -, -, hkeeps⟩ := run_ends (calTakeover b) s _ rfl
  obtain ⟨hcycle, hreplaced, hframe⟩ := calTakeover_takes (s := { s with out := [] }) h hphase hhold hnow
  exact ⟨t, hexec, by rw [hbnd, hcycle], by rw [hport, hreplaced], hkeeps _ hframe⟩

theorem rejoin_row (hphase : c.phase = 5) (hsince : c.since + ticks20us ≤ s.time)
    (hlocked : s.rejoined b (portOfSlot b c.slot) = true) :
    ∃ t, exec (.calRejoinDone b) s = .next t ∧ (t.bnd b).cal.cycle = some { c with phase := 6 } ∧ OnlyBnd b [] s t := by
  obtain ⟨t, hexec, hbnd, -, -, -, hkeeps⟩ :=
    run_ends (calRejoinDone b) s _ (calRejoinDone_rejoins (s := { s with out := [] }) h hphase hsince hlocked)
  refine ⟨t, hexec, ?_, fun d hd => ?_, hkeeps _ (setCycle_keeps _ _ _)⟩
  · rw [hbnd]
    exact setCycle_cycle (s := { s with out := [] }) _ h
  · rw [hbnd, State.setCycle, bnd_setBnd, if_neg hd]
    rfl

theorem return_row (hphase : c.phase = 6) (hnow : s.boundaryNow b false = true) :
    ∃ t, exec (.calReturn b) s = .next t ∧ (t.bnd b).cal.cycle = none ∧ (t.bnd b).cal.lastResult = c.result ∧
      (t.port (portOfSlot b c.slot)).cal.replaced = false ∧ (t.port (portOfSlot b c.slot)).cal.held = false ∧
      (t.port (96 + b)).cal.held = false ∧ Keeps [.bnds, .ports, .cal, .ledger] s t := by
  obtain ⟨t, hexec, hbnd, hport, -, -, hkeeps⟩ := run_ends (calReturn b) s _ rfl
  obtain ⟨⟨hcycle, hlast⟩, hreplaced, hheld, hbye, hframe⟩ := calReturn_returns (s := { s with out := [] }) h hphase hnow
  exact ⟨t, hexec, by rw [hbnd, hcycle], by rw [hbnd, hlast], by rw [hport, hreplaced], by rw [hport, hheld], by rw [hport, hbye],
    hkeeps _ hframe⟩

theorem live_fails_row {f : CalFinds} (hfail : calPasses f = false) (hphase : c.phase = 4) (hslot : c.slot < 8) :
    ∃ t, exec (.calCalibrateDone b f) s = .next t ∧ (t.bnd b).cal.cycle = none ∧ (t.bnd b).cal.lastResult = 4 ∧
      (t.port (8 * b + c.slot)).cal.substituted = true ∧ (t.port (8 * b + c.slot)).cal.replaced = true ∧
      (t.enables (8 * b + c.slot)).none = true ∧ Keeps [.regs, .bnds, .ports, .cal, .ledger] s t := by
  have hp : portOfSlot b c.slot = 8 * b + c.slot := if_pos hslot
  obtain ⟨t, hexec, hbnd, hport, -, hoff, hkeeps⟩ :=
    run_ends (calCalibrateDone b f) s _ (calCalibrateDone_live (s := { s with out := [] }) h hphase)
  obtain ⟨⟨hcycle, hlast⟩, hsub, hreplaced, hnone, hframe⟩ :=
    liveCalibrated_fails (s := { s with out := [] }) h (portOfSlot b c.slot) hfail
  rw [exec_calCalibrateDone, ← hp]
  exact ⟨t, hexec, by rw [hbnd, hcycle], by rw [hbnd, hlast], by rw [hport, hsub], by rw [hport, hreplaced], hoff _ hnone,
    hkeeps _ hframe⟩

theorem offline_fails_row {f : CalFinds} (hfail : calPasses f = false) (hphase : c.phase = 7) (hslot : c.slot < 8) :
    ∃ t, exec (.calCalibrateDone b f) s = .next t ∧ (t.bnd b).cal.cycle = none ∧
      ((t.bnd b).cal.lastResult = 4 ∧ (t.port (8 * b + c.slot)).cal.substituted = true ∨
        (t.bnd b).cal.lastResult = 5 ∧ (t.port (8 * b + c.slot)).cal.failed = true) ∧
      (t.enables (8 * b + c.slot)).none = true ∧ Keeps [.regs, .bnds, .ports, .cal, .ledger] s t := by
  have hp : portOfSlot b c.slot = 8 * b + c.slot := if_pos hslot
  have hlow : portOfSlot b c.slot < 96 := by
    have hb := b.isLt
    omega
  obtain ⟨t, hexec, hbnd, hport, -, hoff, hkeeps⟩ :=
    run_ends (calCalibrateDone b f) s _ (calCalibrateDone_offline (s := { s with out := [] }) h hphase)
  obtain ⟨hfate, hnone, hframe⟩ := offlineCalibrated_fails (s := { s with out := [] }) h (portOfSlot b c.slot)
    (bundleOfPort_portOfSlot b c.slot) hlow hfail
  rw [exec_calCalibrateDone, ← hp]
  refine ⟨t, hexec, ?_, ?_, hoff _ hnone, hkeeps _ hframe⟩
  · rw [hbnd]
    exact hfate.elim (·.1.1) (·.1.1)
  · rw [hbnd, hport]
    exact hfate.imp (fun ⟨⟨_, hlast⟩, hsub⟩ => ⟨hlast, hsub⟩) (fun ⟨⟨_, hlast⟩, hsub⟩ => ⟨hlast, hsub⟩)

theorem bye_fails_row {f : CalFinds} (hfail : calPasses f = false) (hphase : c.phase = 7) (hslot : 8 ≤ c.slot) :
    ∃ t, exec (.calCalibrateDone b f) s = .next t ∧ (t.bnd b).cal.cycle = none ∧ (t.bnd b).cal.lastResult = 6 ∧
      (t.bnd b).cal.byeFailed = true ∧ Keeps [.regs, .bnds, .ports, .cal, .ledger] s t := by
  have hhigh : ¬ portOfSlot b c.slot < 96 := by
    rw [portOfSlot, if_neg (by omega)]
    omega
  obtain ⟨t, hexec, hbnd, -, -, -, hkeeps⟩ := run_ends (calCalibrateDone b f) s _
    ((calCalibrateDone_offline (s := { s with out := [] }) h hphase).trans (offlineCalibrated_failsBye _ hhigh hfail))
  obtain ⟨⟨hcycle, hlast⟩, hbye, hframe⟩ := failBye_fails (s := { s with out := [] }) h
  exact ⟨t, hexec, by rw [hbnd, hcycle], by rw [hbnd, hlast], by rw [hbnd, hbye], hkeeps _ hframe⟩

end

/-- Settles O17, phase by phase: each row has the effect that its lemma above describes. -/
theorem calCycleAdvances : Obligations.CalCycleAdvances := by
  unfold Obligations.CalCycleAdvances
  refine ⟨?_, fun b c f s h hfail => ⟨live_fails_row h hfail, offline_fails_row h hfail, bye_fails_row h hfail⟩⟩
  rintro b c p s h rfl
  exact ⟨fun f => prepare_row h, fun st => listen_row h,
    fun n hphase hsince => fallBack_row h (calListenLimit b n) n (calListenLimit_reached (s := { s with out := [] }) h hphase hsince),
    takeover_row h, fun f => calibrate_row h, rejoin_row h, return_row h⟩

end Sys2Proof.Proofs
end

section
/-! Lock, loss of lock, alignment, the elastic buffer and deskew of a lane (R246 to R249, R256, R265, O22). Each event is a
    change of lanes and, where the site is asked, its abort; a loss of lock stays counted through that abort. -/
namespace Sys2Proof.Laws
open Sys2Proof.Machine Sys2Proof.Safety

/-! ### A change of one lane -/

theorem lane_setLane (s : State) (p q : Nat) (f : Lane → Lane) :
    (s.setLane p f).lane q = if q = p then f (s.lane p) else s.lane q := by
  rw [State.lane, State.setLane, port_setPort]
  split <;> rfl

theorem setLane_keeps (s : State) (p : Nat) (f : Lane → Lane) : Keeps [.ports] s (s.setLane p f) := setPort_keeps _ _ _

/-- Which port's settings a front end runs under does not depend on a lane (R256). -/
theorem feOf_setLane (s : State) (p q : Nat) (f : Lane → Lane) : (s.setLane p f).feOf q = s.feOf q := by
  have hcal (k : Nat) : ((s.setLane p f).port k).cal = (s.port k).cal := by
    rw [State.setLane, port_setPort]
    split
    · next h => rw [h]
    · rfl
  have hsub (b : Nat) : (s.setLane p f).subSlot b = s.subSlot b := by
    simp only [State.subSlot, hcal]
  simp only [State.feOf, hsub]
  rfl

/-- A command whose effect on a state is a change of one lane. -/
theorem run_lane (p : Nat) (f : State → State) (g : Lane → Lane) (s : State)
    (h : f { s with out := [] } = ({ s with out := [] } : State).setLane p g) :
    ∃ t, run f s = .next t ∧ OnlyPort p [] s t ∧ t.lane p = g (s.lane p) := by
  obtain ⟨t, hexec, hframe, hport⟩ := run_setPort p (fun _ => true) (fun x => { x with lane := g x.lane }) s rfl
  exact ⟨t, (run_congr f _ s h).trans hexec, hframe, congrArg (·.lane) hport⟩

/-! ### An operation for each lane of a list -/

section
variable (l : List Nat) (f : Lane → Lane) (s : State)

theorem eachLane_keeps : Keeps [.ports] s (s.each l (fun q t => t.setLane q f)) :=
  each_keeps_of _ _ _ _ (fun q t => setLane_keeps t q f)

/-- What every lane has after the operation, a lane of the list has in the end. -/
theorem eachLane_all (P : Lane → Prop) (hf : ∀ x, P (f x)) (q : Nat) (hq : q ∈ l) :
    P ((s.each l (fun q t => t.setLane q f)).lane q) := by
  refine each_reaches (fun t => P (t.lane q)) l _ q hq (fun t => ?_) (fun j t ht => ?_) s
  · rw [lane_setLane, if_pos rfl]
    exact hf _
  · rw [lane_setLane]
    split
    · exact hf _
    · exact ht

/-- A field that the operation leaves. -/
theorem eachLane_same {α : Type} (g : Lane → α) (hf : ∀ x, g (f x) = g x) (q : Nat) :
    g ((s.each l (fun q t => t.setLane q f)).lane q) = g (s.lane q) := by
  refine each_same (fun t => g (t.lane q)) l _ (fun j t => ?_) s
  rw [lane_setLane]
  split
  · next h => rw [hf, h]
  · rfl

end

/-! ### Deskew: each lane by its own amount (R248) -/

/-- Each lane of a list is deskewed by the amount that stands beside it. -/
def deskewed (s : State) (l : List (Nat × Nat)) : State := l.foldl (fun t e => t.setLane e.1 (fun x => { x with deskew := e.2 })) s

theorem deskewed_keeps (l : List (Nat × Nat)) (s : State) : Keeps [.ports] s (deskewed s l) := by
  induction l generalizing s with
  | nil => exact Keeps_refl _ _
  | cons e l ih => exact Keeps_trans _ _ _ _ (setLane_keeps s e.1 _) (ih _)

theorem deskewed_marker (l : List (Nat × Nat)) (s : State) (q : Nat) :
    ((deskewed s l).lane q).markerAligned = (s.lane q).markerAligned := by
  induction l generalizing s with
  | nil => rfl
  | cons e l ih =>
    refine (ih _).trans ?_
    rw [lane_setLane]
    split
    · next h => rw [h]
    · rfl

/-- A lane that no entry names keeps its deskew; one that is named has that of an entry which names it. -/
theorem deskewed_lane (l : List (Nat × Nat)) (s : State) (q : Nat) :
    (∃ e ∈ l, e.1 = q ∧ ((deskewed s l).lane q).deskew = e.2) ∨
      (∀ e ∈ l, e.1 ≠ q) ∧ ((deskewed s l).lane q).deskew = (s.lane q).deskew := by
  induction l generalizing s with
  | nil => exact .inr ⟨by simp, rfl⟩
  | cons e l ih =>
    obtain ⟨d, hd, hq, hdeskew⟩ | ⟨hnone, hdeskew⟩ := ih (s.setLane e.1 (fun x => { x with deskew := e.2 }))
    · exact .inl ⟨d, List.mem_cons_of_mem _ hd, hq, hdeskew⟩
    · rw [lane_setLane] at hdeskew
      by_cases h : q = e.1
      · rw [if_pos h] at hdeskew
        exact .inl ⟨e, List.mem_cons_self, h.symm, hdeskew⟩
      · rw [if_neg h] at hdeskew
        exact .inr ⟨List.forall_mem_cons.mpr ⟨fun he => h he.symm, hnone⟩, hdeskew⟩

theorem deskewed_named {l : List (Nat × Nat)} (s : State) {q : Nat} (h : ∃ e ∈ l, e.1 = q) :
    ∃ e ∈ l, e.1 = q ∧ ((deskewed s l).lane q).deskew = e.2 :=
  (deskewed_lane l s q).resolve_right (fun hnone => h.elim fun e he => hnone.1 e he.1 he.2)

/-! ### Losses of lock are counted on through an abort (R249, R258) -/

/-- No lane counts another loss of lock. -/
def LossesKept (s t : State) : Prop := ∀ p, (t.lane p).lockLosses = (s.lane p).lockLosses

theorem lossesKept_trans {s t u : State} (h : LossesKept s t) (h' : LossesKept t u) : LossesKept s u :=
  fun p => (h' p).trans (h p)

theorem lossesKept_of_ports {s t : State} (h : t.ports = s.ports) : LossesKept s t :=
  fun p => by rw [State.lane, State.port, h, State.lane, State.port]

theorem lossesKept_setPort (s : State) (q : Nat) (f : Port → Port)
    (hf : ∀ x, (f x).lane.lockLosses = x.lane.lockLosses := by exact fun _ => rfl) : LossesKept s (s.setPort q f) := fun p => by
  rw [State.lane, port_setPort]
  split
  · next h => rw [hf, h, State.lane]
  · rfl

theorem lossesKept_setBnd (s : State) (b : Nat) (f : Bundle → Bundle) : LossesKept s (s.setBnd b f) := fun _ => rfl

theorem lossesKept_each (l : List Nat) (f : Nat → State → State) (h : ∀ i t, LossesKept t (f i t)) (s : State) :
    LossesKept s (s.each l f) :=
  each_keeps (LossesKept s) l f (fun i t _ ht => lossesKept_trans ht (h i t)) s (fun _ => rfl)

theorem clearEnables_losses (s : State) (p : Nat) : LossesKept s (s.clearEnables p) :=
  lossesKept_trans (t := enableObjs.foldl (fun t o => t.wr o 0 p) s)
    (lossesKept_of_ports (List.foldlRecOn (motive := fun t : State => t.ports = s.ports) _ _ rfl (fun _ ht _ _ => ht)))
    (lossesKept_setPort _ p _)

theorem cutPort_losses (s : State) (p : Nat) : LossesKept s (s.cutPort p) := by
  unfold State.cutPort cutLane
  exact lossesKept_trans (lossesKept_trans (lossesKept_trans (clearEnables_losses s p) (lossesKept_setBnd _ _ _))
    (lossesKept_setPort _ _ _)) (lossesKept_setPort _ _ _)

theorem endSurvey_losses (s : State) (b : Nat) : LossesKept s (s.endSurvey b) := by
  unfold State.endSurvey
  split
  · exact fun _ => rfl
  · exact lossesKept_trans (lossesKept_trans (lossesKept_setPort _ _ _) (lossesKept_setPort _ _ _)) (lossesKept_setBnd _ _ _)

theorem endCycle_losses (s : State) (b result : Nat) : LossesKept s (s.endCycle b result) := by
  unfold State.endCycle
  split
  · exact endSurvey_losses s b
  · exact lossesKept_trans (lossesKept_trans (lossesKept_setPort _ _ _) (lossesKept_setPort _ _ _)) (lossesKept_setBnd _ _ _)

theorem cutBundles_losses (s : State) (bs : List Nat) : LossesKept s (s.cutBundles bs).2 := by
  induction bs generalizing s with
  | nil => exact fun _ => rfl
  | cons b bs ih =>
    rw [cutBundles_cons]
    exact lossesKept_trans (lossesKept_trans (lossesKept_trans
      (lossesKept_setBnd s b (fun x => { x with cal := { x.cal with survey := none } }))
      (endCycle_losses _ b 2)) (lossesKept_each _ _ (fun p t => cutPort_losses t p) _)) (ih _)

theorem groupAbort_ports (s : State) (g : Nat) : (s.groupAbort g).ports = s.ports := by
  unfold State.groupAbort
  split
  · exact List.foldlRecOn (motive := fun t : State => t.ports = s.ports) _ _ rfl (fun t ht _ _ => ht)
  · split <;> rfl

theorem tellsGroup_ports (s : State) (i : Nat) (a : AbortBy) : (tellsGroup s i a).ports = s.ports := by
  unfold tellsGroup
  split
  · rfl
  · split
    · rfl
    · exact groupAbort_ports _ _

theorem stopSite_ports (s : State) (i : Nat) : (s.stopSite i).ports = s.ports := by
  unfold State.stopSite
  extract_lets aborted stopped lead injects
  calc (injects.setBnd lead _).ports = aborted.ports := rfl
    _ = s.ports := each_same State.ports _ (fun c t => t.setCtx c _) (fun _ _ => rfl) s

theorem capture_ports (s : State) (i b : Nat) (r : Record) : (s.capture i b r).ports = s.ports := by
  unfold State.capture
  dsimp only
  split <;> rfl

theorem closeRows_ports (s : State) (i : Nat) : (s.closeRows i).ports = s.ports := by
  refine List.foldlRecOn (motive := fun t : State => t.ports = s.ports) _ _ rfl (fun t ht c _ => ?_)
  refine Eq.trans ?_ ht
  unfold State.closeRow
  split
  · rfl
  · exact capture_ports _ _ _ _

/-- The abort of a site that runs or is paused counts no loss of lock. -/
theorem abortFormed_losses (s : State) (i : Nat) (a : AbortBy) (h : s.siteSt i = .running ∨ s.siteSt i = .paused) :
    LossesKept s (s.abortFormed i a) := by
  rw [abortFormed_runs s i a h]
  refine lossesKept_trans (cutBundles_losses s (s.bundlesOf i)) (lossesKept_of_ports ?_)
  rw [State.setRing, setSite_ports, closeRows_ports, recorded, setSite_ports, halted, stopSite_ports, tellsGroup_ports]

/-! ### A lane's fault aborts its site (R246 to R249) -/

theorem siteCause_aborts (s : State) (i code port : Nat) (h : s.siteSt i = .running ∨ s.siteSt i = .paused) :
    AbortsWith i code (s.siteCause i code port) := by
  obtain ⟨hst, habort⟩ := abortFormed_phase (s.raise code 1 i port (s.stepNow i)) i
    { cause := code, warp := false, scope := some (1, i) } h
  exact ⟨hst, (Option.map_map Prod.fst (fun r : AbortRec => (r.cause, r.pin)) _).symm.trans (congrArg (Option.map Prod.fst) habort)⟩

theorem siteCause_losses (s : State) (i code port : Nat) (h : s.siteSt i = .running ∨ s.siteSt i = .paused) :
    LossesKept s (s.siteCause i code port) :=
  lossesKept_trans (lossesKept_of_ports (t := s.raise code 1 i port (s.stepNow i)) rfl) (abortFormed_losses _ _ _ h)

/-- A command whose effect ends in an abort of a site, and writes no GDDR7. -/
theorem run_siteCause {u : State} (f : State → State) (s : State) {i code port : Nat}
    (hf : f { s with out := [] } = u.siteCause i code port) (h : u.siteSt i = .running ∨ u.siteSt i = .paused)
    (hmem : u.memory = s.memory) :
    ∃ t, run f s = .next t ∧ AbortsWith i code t ∧ LossesKept u t ∧ t.mem = s.mem := by
  refine ⟨_, run_next f s _ hf, ended_abortsWith _ _ _ _ (siteCause_aborts u i code port h), fun p => ?_,
    ended_mem _ _ (by rw [siteCause_memory, hmem])⟩
  rw [State.lane, ended_port]
  exact siteCause_losses u i code port h p

end Sys2Proof.Laws

namespace Sys2Proof.Proofs
open Sys2Proof.Machine Sys2Proof.Safety Sys2Proof.Laws

theorem exec_laneLockAcquired (p : PortNo) (s : State) : exec (.laneLockAcquired p) s = run (laneLock p) s := rfl
theorem exec_laneLockLoss (p : PortNo) (s : State) : exec (.laneLockLoss p) s = run (laneLoss p) s := rfl
theorem exec_markerAligned (p : PortNo) (s : State) : exec (.markerAligned p) s = execMarkerAligned p s := rfl
theorem exec_laneElastic (p : PortNo) (full : Bool) (s : State) :
    exec (.laneElastic p full) s = run (laneElastic p full) s := rfl
theorem exec_laneDeskew (p : PortNo) (arrivals : List (PortNo × Nat)) (s : State) :
    exec (.laneDeskew p arrivals) s = run (laneDeskew p arrivals) s := rfl

section
variable {p : PortNo} {s : State} (hlive : s.laneLive p = true)
include hlive

/-! ### Lock and markers -/

theorem lock_row :
    ∃ t, exec (.laneLockAcquired p) s = .next t ∧ OnlyPort p [] s t ∧
      t.lane p = { s.lane p with signal := true, locked := true, everLocked := true, fill :=
        if (s.ser (s.feOf p)).rxClk != 0 && (s.ser (s.feOf p)).rxSink != 2 && !(s.lane p).everLocked then 512
        else (s.lane p).fill } :=
  run_lane p (laneLock p) _ s (onlyIf_pos _ _ _ hlive)

theorem marker_row (hlocked : (s.lane p).locked = true) (hpcs : (s.ser (s.feOf p)).pcs ≠ 0) :
    ∃ t, exec (.markerAligned p) s = .next t ∧ OnlyPort p [] s t ∧
      t.lane p = { s.lane p with markerAligned := true, rx := { (s.lane p).rx with bits := [] } } := by
  have hcond : (s.laneLive p && (s.lane p).locked && (s.ser (s.feOf p)).pcs != 0) = true := by
    rw [hlive, hlocked, bne_iff_ne.mpr hpcs]
    rfl
  rw [exec_markerAligned, execMarkerAligned]
  exact run_lane p _ (fun l => { l with markerAligned := true, rx := { l.rx with bits := [] } }) s (onlyIf_pos _ _ _ hcond)

/-! ### Loss of lock -/

/-- The lane has lost lock, and the event is raised; its site has not yet been asked. -/
def lockLost (p : Nat) (s : State) : State :=
  (s.setLane p (·.unlocked (min ((s.lane p).lockLosses + 1) 0xFFFF))).raise 0x0C09 3 p (min ((s.lane p).lockLosses + 1) 0xFFFF)

omit hlive in
theorem lockLost_frame (p : Nat) (s : State) : OnlyPort p [] s (lockLost p s) :=
  ⟨fun q hq => by rw [lockLost, raise_port, State.setLane, port_setPort, if_neg hq],
    keeps_then _ _ _ _ _ _ (setLane_keeps s p _) (raise_keeps _ _ _ _ _ _ _ _) (by decide) (by decide)⟩

omit hlive in
theorem lockLost_lane (p : Nat) (s : State) :
    (lockLost p s).lane p = (s.lane p).unlocked (min ((s.lane p).lockLosses + 1) 0xFFFF) := by
  rw [lockLost, State.lane, raise_port, ← State.lane, lane_setLane, if_pos rfl]

omit hlive in
theorem feOf_lockLost (p : Nat) (s : State) : (lockLost p s).feOf p = s.feOf p := by
  rw [← feOf_setLane s p p (·.unlocked (min ((s.lane p).lockLosses + 1) 0xFFFF))]
  rfl

/-- What asks the site after a loss is LOSS_ABORT of the settings that the lane runs under. -/
theorem laneLoss_eq (hlocked : (s.lane p).locked = true) (hever : (s.lane p).everLocked = true) :
    laneLoss p s = match s.siteOfPort p with
      | some i => if (s.ser (s.feOf p)).lossAbort then (lockLost p s).siteCause i 0x0C07 p else lockLost p s
      | none => lockLost p s := by
  have hcond : (s.laneLive p && (s.lane p).locked && (s.lane p).everLocked) = true := by rw [hlive, hlocked, hever]; rfl
  rw [← feOf_lockLost p s, laneLoss, onlyIf_pos _ _ _ hcond]
  rfl

theorem loss_row (hlocked : (s.lane p).locked = true) (hever : (s.lane p).everLocked = true)
    (hask : (s.ser (s.feOf p)).lossAbort = false) :
    ∃ t, exec (.laneLockLoss p) s = .next t ∧ OnlyPort p [] s t ∧
      t.lane p = (s.lane p).unlocked (min ((s.lane p).lockLosses + 1) 0xFFFF) := by
  have hlost : laneLoss p { s with out := [] } = lockLost p { s with out := [] } := by
    rw [laneLoss_eq (s := { s with out := [] }) hlive hlocked hever]
    split
    · exact if_neg (Bool.eq_false_iff.mp hask)
    · rfl
  obtain ⟨hothers, hkeeps⟩ := lockLost_frame p { s with out := [] }
  refine ⟨_, run_next (laneLoss p) s _ hlost, ⟨fun q hq => (ended_port _ _ _).trans (hothers q hq), ended_effect_keeps hkeeps⟩, ?_⟩
  rw [State.lane, ended_port]
  exact lockLost_lane p { s with out := [] }

theorem loss_abort_row {i : Nat} (hlocked : (s.lane p).locked = true) (hever : (s.lane p).everLocked = true)
    (hask : (s.ser (s.feOf p)).lossAbort = true) (hsite : s.siteOfPort p = some i)
    (hst : s.siteSt i = .running ∨ s.siteSt i = .paused) :
    ∃ t, exec (.laneLockLoss p) s = .next t ∧ AbortsWith i 0x0C07 t ∧
      (t.lane p).lockLosses = min ((s.lane p).lockLosses + 1) 0xFFFF ∧ t.mem = s.mem := by
  have hlost : laneLoss p { s with out := [] } = (lockLost p { s with out := [] }).siteCause i 0x0C07 p := by
    rw [laneLoss_eq (s := { s with out := [] }) hlive hlocked hever, show ({ s with out := [] } : State).siteOfPort p = some i from hsite]
    exact if_pos hask
  obtain ⟨t, hexec, haborts, hlosses, hmem⟩ := run_siteCause (laneLoss p) s hlost hst rfl
  refine ⟨t, hexec, haborts, ?_, hmem⟩
  rw [hlosses, lockLost_lane]
  rfl

/-! ### The elastic buffer -/

/-- The elastic buffer has emptied or filled, and the site aborts for it. -/
theorem laneElastic_aborts {i : Nat} (full : Bool) (hclk : (s.ser p).rxClk ≠ 0) (hsink : (s.ser p).rxSink ≠ 2)
    (hever : (s.lane p).everLocked = true) (hsite : s.siteOfPort p = some i) :
    laneElastic p full s = (s.setLane p (fun l => { l with fill := if full then 1024 else 0 })).siteCause i 0x0C06 p := by
  have hcond : (s.laneLive p && (s.ser p).buffered && (s.lane p).everLocked) = true := by
    rw [hlive, hever, SerConfig.buffered, bne_iff_ne.mpr hclk, bne_iff_ne.mpr hsink]
    rfl
  have hkept : (s.setLane p (fun l => { l with fill := if full then 1024 else 0 })).siteOfPort p = some i := hsite
  rw [laneElastic, onlyIf_pos _ _ _ hcond]
  dsimp only
  rw [hkept]

theorem elastic_row {i : Nat} (full : Bool) (hclk : (s.ser p).rxClk ≠ 0) (hsink : (s.ser p).rxSink ≠ 2)
    (hever : (s.lane p).everLocked = true) (hsite : s.siteOfPort p = some i)
    (hst : s.siteSt i = .running ∨ s.siteSt i = .paused) :
    ∃ t, exec (.laneElastic p full) s = .next t ∧ AbortsWith i 0x0C06 t ∧ t.mem = s.mem := by
  obtain ⟨t, hexec, haborts, -, hmem⟩ := run_siteCause (laneElastic p full) s
    (laneElastic_aborts (s := { s with out := [] }) hlive full hclk hsink hever hsite) hst rfl
  exact ⟨t, hexec, haborts, hmem⟩

end

/-! ### Deskew of a group -/

/-- The lanes of a group and by how much each is deskewed, where the last has the marker at a symbol (R248). -/
def skewsOf (group : List Nat) (latest : Nat) (arrivals : List (PortNo × Nat)) : List (Nat × Nat) :=
  (arrivals.filter (fun e => group.contains e.1.val)).map (fun e => (e.1.val, latest - e.2))

theorem mem_skewsOf {group : List Nat} {latest : Nat} {arrivals : List (PortNo × Nat)} {d : Nat × Nat} :
    d ∈ skewsOf group latest arrivals ↔ ∃ e ∈ arrivals, e.1.val ∈ group ∧ (e.1.val, latest - e.2) = d := by
  simp only [skewsOf, List.mem_map, List.mem_filter, List.contains_iff_mem, and_assoc]

/-- A lane whose group's skew is too large, and one whose group is aligned. -/
def Lane.skewed (l : Lane) : Lane := { l with deskewFail := true, groupAligned := false }
def Lane.grouped (l : Lane) : Lane := { l with groupAligned := true, deskewFail := false }

def groupSkewed (group : List Nat) (s : State) : State := s.each group (fun q t => t.setLane q Lane.skewed)
def groupAligned (group : List Nat) (s : State) : State := s.each group (fun q t => t.setLane q Lane.grouped)

section
variable {p : PortNo} {s : State} {arrivals : List (PortNo × Nat)} {group : List Nat} {latest : Nat}

/-- Every lane of the group of a lane that is deskewed has received the marker, the last at a symbol. -/
structure GroupMarked (p : PortNo) (s : State) (arrivals : List (PortNo × Nat)) (group : List Nat) (latest : Nat) : Prop where
  live : s.laneLive p = true
  grouped : (s.ser p).group ≠ 0
  sink : (s.ser p).rxSink = 1 ∨ (s.ser p).rxSink = 3
  pcs : (s.ser p).pcs ≠ 0
  members : group = s.groupPorts (s.ser p).group
  all : ∀ q ∈ group, ∃ e ∈ arrivals, e.1.val = q
  last : latest = ((arrivals.filter (fun e => group.contains e.1.val)).map (·.2)).foldl max 0

/-- What LANE_DESKEW does where every lane of the group has received the marker. -/
theorem laneDeskew_eq (h : GroupMarked p s arrivals group latest) :
    laneDeskew p arrivals s =
      if (skewsOf group latest arrivals).any (fun e => decide (512 < e.2)) then
        match (groupSkewed group s).siteOfPort p with
        | some i => if group.any (fun q => ((groupSkewed group s).ser q).lossAbort) then (groupSkewed group s).siteCause i 0x0C08 p
          else groupSkewed group s
        | none => groupSkewed group s
      else if group.all (fun q => ((deskewed s (skewsOf group latest arrivals)).lane q).markerAligned) then
        groupAligned group (deskewed s (skewsOf group latest arrivals))
      else deskewed s (skewsOf group latest arrivals) := by
  obtain ⟨hlive, hgroup, hsink, hpcs, hg, hall, hlatest⟩ := h
  have hmarked : group.all (fun q => (arrivals.filter (fun e => group.contains e.1.val)).any (fun e => e.1.val == q)) = true := by
    rw [List.all_eq_true]
    intro q hq
    obtain ⟨e, he, heq⟩ := hall q hq
    rw [List.any_eq_true]
    exact ⟨e, List.mem_filter.mpr ⟨he, by simpa [heq] using hq⟩, by simpa using heq⟩
  have hcond : (s.laneLive p && (s.ser p).group != 0 && ((s.ser p).rxSink == 1 || (s.ser p).rxSink == 3) && (s.ser p).pcs != 0
      && group.all (fun q => (arrivals.filter (fun e => group.contains e.1.val)).any (fun e => e.1.val == q))) = true := by
    rw [hlive, hmarked, bne_iff_ne.mpr hgroup, bne_iff_ne.mpr hpcs]
    simpa using hsink
  subst hg hlatest
  rw [laneDeskew, onlyIf_pos _ _ _ hcond]
  rfl

theorem skews_within (h : ∀ e ∈ arrivals, e.1.val ∈ group → latest ≤ e.2 + 512) :
    (skewsOf group latest arrivals).any (fun e => decide (512 < e.2)) = false := by
  rw [List.any_eq_false]
  intro d hd
  obtain ⟨e, he, hmem, rfl⟩ := mem_skewsOf.mp hd
  have hle := h e he hmem
  simp only [decide_eq_true_eq]
  omega

theorem skews_beyond (h : ∃ e ∈ arrivals, e.1.val ∈ group ∧ e.2 + 512 < latest) :
    (skewsOf group latest arrivals).any (fun e => decide (512 < e.2)) = true := by
  obtain ⟨e, he, hmem, hlt⟩ := h
  rw [List.any_eq_true]
  exact ⟨_, mem_skewsOf.mpr ⟨e, he, hmem, rfl⟩, decide_eq_true (by omega)⟩

theorem laneDeskew_aligns (h : GroupMarked p s arrivals group latest)
    (hwithin : ∀ e ∈ arrivals, e.1.val ∈ group → latest ≤ e.2 + 512)
    (hmarked : group.all (fun q => (s.lane q).markerAligned) = true) :
    laneDeskew p arrivals s = groupAligned group (deskewed s (skewsOf group latest arrivals)) := by
  rw [laneDeskew_eq h, if_neg (Bool.eq_false_iff.mp (skews_within hwithin))]
  simp only [deskewed_marker]
  exact if_pos hmarked

/-- A skew that is too large asks the site where a lane of the group has LOSS_ABORT. -/
theorem laneDeskew_fails (h : GroupMarked p s arrivals group latest)
    (hbeyond : ∃ e ∈ arrivals, e.1.val ∈ group ∧ e.2 + 512 < latest) :
    laneDeskew p arrivals s = match s.siteOfPort p with
      | some i => if group.any (fun q => (s.ser q).lossAbort) then (groupSkewed group s).siteCause i 0x0C08 p
        else groupSkewed group s
      | none => groupSkewed group s := by
  have hser (q : Nat) : (groupSkewed group s).ser q = s.ser q := each_same (fun u => u.ser q) group (fun q t => t.setLane q Lane.skewed) (fun _ _ => rfl) s
  have hsite : (groupSkewed group s).siteOfPort p = s.siteOfPort p := each_same (fun u => u.siteOfPort p) group (fun q t => t.setLane q Lane.skewed) (fun _ _ => rfl) s
  rw [laneDeskew_eq h, if_pos (skews_beyond hbeyond), hsite]
  simp only [hser]

/-- A command whose effect changes lanes only. -/
theorem run_lanes (f : State → State) (s u : State) (hf : f { s with out := [] } = u) (hkeeps : Keeps [.ports] { s with out := [] } u) :
    ∃ t, run f s = .next t ∧ Keeps [.ports] s t ∧ ∀ q, t.lane q = u.lane q :=
  ⟨_, run_next f s _ hf, ended_effect_keeps hkeeps, fun q => by rw [State.lane, ended_port, State.lane]⟩

theorem aligned_lane {q : Nat} (s : State) (hq : q ∈ group) (hall : ∀ q ∈ group, ∃ e ∈ arrivals, e.1.val = q) :
    let u := groupAligned group (deskewed s (skewsOf group latest arrivals))
    (u.lane q).groupAligned = true ∧ (u.lane q).deskewFail = false ∧
      ∃ e ∈ arrivals, e.1.val = q ∧ (u.lane q).deskew = latest - e.2 := by
  intro u
  obtain ⟨haligned, hfail⟩ := eachLane_all group Lane.grouped (deskewed s (skewsOf group latest arrivals))
    (fun l => l.groupAligned = true ∧ l.deskewFail = false) (fun _ => ⟨rfl, rfl⟩) q hq
  have hsame : (u.lane q).deskew = ((deskewed s (skewsOf group latest arrivals)).lane q).deskew :=
    eachLane_same group Lane.grouped _ (·.deskew) (fun _ => rfl) q
  have hnamed : ∃ d ∈ skewsOf group latest arrivals, d.1 = q := by
    obtain ⟨e, he, rfl⟩ := hall q hq
    exact ⟨_, mem_skewsOf.mpr ⟨e, he, hq, rfl⟩, rfl⟩
  obtain ⟨d, hd, rfl, hdeskew⟩ := deskewed_named s hnamed
  obtain ⟨e, he, -, rfl⟩ := mem_skewsOf.mp hd
  exact ⟨haligned, hfail, e, he, rfl, hsame.trans hdeskew⟩

theorem aligns_row (h : GroupMarked p s arrivals group latest)
    (hwithin : ∀ e ∈ arrivals, e.1.val ∈ group → latest ≤ e.2 + 512)
    (hmarked : group.all (fun q => (s.lane q).markerAligned) = true) :
    ∃ t, exec (.laneDeskew p arrivals) s = .next t ∧ Keeps [.ports] s t ∧
      ∀ q ∈ group, (t.lane q).groupAligned = true ∧ (t.lane q).deskewFail = false ∧
        ∃ e ∈ arrivals, e.1.val = q ∧ (t.lane q).deskew = latest - e.2 := by
  obtain ⟨t, hexec, hkeeps, hlane⟩ := run_lanes (laneDeskew p arrivals) s _
    (laneDeskew_aligns (s := { s with out := [] }) ⟨h.live, h.grouped, h.sink, h.pcs, h.members, h.all, h.last⟩ hwithin hmarked)
    (Keeps_trans _ _ _ _ (deskewed_keeps _ _) (eachLane_keeps group Lane.grouped _))
  refine ⟨t, hexec, hkeeps, fun q hq => ?_⟩
  rw [hlane]
  exact aligned_lane { s with out := [] } hq h.all

theorem skewed_row (h : GroupMarked p s arrivals group latest)
    (hbeyond : ∃ e ∈ arrivals, e.1.val ∈ group ∧ e.2 + 512 < latest)
    (hask : group.any (fun q => (s.ser q).lossAbort) = false) :
    ∃ t, exec (.laneDeskew p arrivals) s = .next t ∧ Keeps [.ports] s t ∧
      ∀ q ∈ group, (t.lane q).groupAligned = false ∧ (t.lane q).deskewFail = true := by
  have hfails : laneDeskew p arrivals { s with out := [] } = groupSkewed group { s with out := [] } := by
    rw [laneDeskew_fails (s := { s with out := [] }) ⟨h.live, h.grouped, h.sink, h.pcs, h.members, h.all, h.last⟩ hbeyond]
    split
    · exact if_neg (Bool.eq_false_iff.mp hask)
    · rfl
  obtain ⟨t, hexec, hkeeps, hlane⟩ := run_lanes (laneDeskew p arrivals) s _ hfails (eachLane_keeps group Lane.skewed _)
  refine ⟨t, hexec, hkeeps, fun q hq => ?_⟩
  rw [hlane]
  exact eachLane_all group Lane.skewed _ (fun l => l.groupAligned = false ∧ l.deskewFail = true) (fun _ => ⟨rfl, rfl⟩) q hq

theorem skew_abort_row {i : Nat} (h : GroupMarked p s arrivals group latest)
    (hbeyond : ∃ e ∈ arrivals, e.1.val ∈ group ∧ e.2 + 512 < latest)
    (hask : group.any (fun q => (s.ser q).lossAbort) = true) (hsite : s.siteOfPort p = some i)
    (hst : s.siteSt i = .running ∨ s.siteSt i = .paused) :
    ∃ t, exec (.laneDeskew p arrivals) s = .next t ∧ AbortsWith i 0x0C08 t ∧ t.mem = s.mem := by
  have hfails : laneDeskew p arrivals { s with out := [] } = (groupSkewed group { s with out := [] }).siteCause i 0x0C08 p := by
    rw [laneDeskew_fails (s := { s with out := [] }) ⟨h.live, h.grouped, h.sink, h.pcs, h.members, h.all, h.last⟩ hbeyond,
      show ({ s with out := [] } : State).siteOfPort p = some i from hsite]
    exact if_pos hask
  have hskewed : Keeps [.ports] { s with out := [] } (groupSkewed group { s with out := [] }) :=
    eachLane_keeps group Lane.skewed _
  have hstill : (groupSkewed group { s with out := [] }).siteSt i = s.siteSt i :=
    each_same (fun u => u.siteSt i) group (fun q t => t.setLane q Lane.skewed) (fun _ _ => rfl) _
  obtain ⟨t, hexec, haborts, -, hmem⟩ := run_siteCause (laneDeskew p arrivals) s hfails (hstill ▸ hst)
    (keeps_memory [.ports] { s with out := [] } _ hskewed (by decide))
  exact ⟨t, hexec, haborts, hmem⟩

end

/-- Settles O22, clause by clause: a change of the lane, or an abort after one. -/
theorem laneLocks : Obligations.LaneLocks := by
  unfold Obligations.LaneLocks
  rintro p c s hlive rfl
  refine ⟨lock_row hlive, loss_row hlive, fun i => loss_abort_row hlive, marker_row hlive,
    fun i full => elastic_row hlive full, fun arrivals group latest hgroup hsink hpcs hg hall hlatest => ?_⟩
  have hmarked : GroupMarked p s arrivals group latest := ⟨hlive, hgroup, hsink, hpcs, hg, hall, hlatest⟩
  exact ⟨aligns_row hmarked, fun hbeyond => ⟨skewed_row hmarked hbeyond, fun i => skew_abort_row hmarked hbeyond⟩⟩

end Sys2Proof.Proofs
end

section
/-! What a lane's PRBS checker, adaptation and fabric port leave (R239, R240, R243, R244, R253, R265, R404, R405, O23). Deciding,
    adapting and capturing a lane's symbols changes that port alone (`Hears`); what of the lane stays is said with it. -/
namespace Sys2Proof.Laws
open Sys2Proof.Machine Sys2Proof.Safety

/-! ### Objects of a port that no event counts in -/

theorem serial_not_eventKey {o : Obj} {n : Nat} (hkey : ∀ p, o.key p = (0x4000 + 0x40 * p + n) * 256 + 0) (hn : n < 0x33) (p : Nat) :
    ¬ eventKey (o.key p) := by
  rw [hkey]
  rintro (hdev | ⟨u, hport⟩)
  · have hlow : ∀ k ∈ [Obj.devLogLastCode.key, Obj.devEvtMasked.key, Obj.devEvtHostWritten.key, Obj.devEvtHostLost.key,
      Obj.devLogLost.key, Obj.devIjLastEvent.key], k < 0x4000 * 256 := by decide
    have := hlow _ hdev
    omega
  · have hcount : Obj.portEventCount.key u = (0x4000 + 0x40 * u + 0x33) * 256 + 0 := rfl
    omega

theorem portSerConfig_not_eventKey (p : Nat) : ¬ eventKey (Obj.portSerConfig.key p) :=
  serial_not_eventKey (o := .portSerConfig) (n := 0x18) (fun _ => rfl) (by decide) p

/-! ### A port that receives -/

/-- The parts in which received symbols leave something. -/
def hearParts : List Part := [.free, .doms, .sites, .ports, .mem]

/-- Nothing but a port and the parts that receiving writes differs; of the port's lane, g stays. -/
structure Hears {α : Type} (g : Lane → α) (p : Nat) (s t : State) : Prop where
  others : ∀ q, q ≠ p → t.port q = s.port q
  keeps : Keeps hearParts s t
  lane : g (t.lane p) = g (s.lane p)

section
variable {α : Type} {g : Lane → α} {p : Nat} {s t u : State}

theorem hears_refl (g : Lane → α) (p : Nat) (s : State) : Hears g p s s := ⟨fun _ _ => rfl, Keeps_refl _ _, rfl⟩

theorem hears_trans (h : Hears g p s t) (h' : Hears g p t u) : Hears g p s u :=
  ⟨fun q hq => (h'.others q hq).trans (h.others q hq), Keeps_trans _ _ _ _ h.keeps h'.keeps, h'.lane.trans h.lane⟩

/-- What stays of the lane may be said less closely. -/
theorem hears_of {β : Type} {f : Lane → β} (h : Hears f p s t) (hg : ∀ l m : Lane, f l = f m → g l = g m) : Hears g p s t :=
  ⟨h.others, h.keeps, hg _ _ h.lane⟩

theorem hears_ser (h : Hears g p s t) (q : Nat) : t.ser q = s.ser q :=
  congrArg serConfigOf (keeps_reg h.keeps (by decide) .portSerConfig q 0 (portSerConfig_not_eventKey q))

theorem hears_ports {l : List Part} (h : Keeps l s t) (hl : l ⊆ hearParts) (hports : .ports ∉ l) : Hears g p s t :=
  ⟨fun q _ => keeps_port h hports q, Keeps_mono _ _ _ _ h (fun _ hp => hl hp), by rw [State.lane, keeps_port h hports, State.lane]⟩

theorem hears_setPort (s : State) (p : Nat) (f : Port → Port) (hf : ∀ x, g (f x).lane = g x.lane) : Hears g p s (s.setPort p f) := by
  refine ⟨fun q hq => ?_, Keeps_mono _ _ _ _ (setPort_keeps s p f) (by decide), ?_⟩
  · rw [port_setPort, if_neg hq]
  · rw [State.lane, port_setPort, if_pos rfl, hf, State.lane]

theorem hears_setLane (s : State) (p : Nat) (f : Lane → Lane) (hf : ∀ l, g (f l) = g l) : Hears g p s (s.setLane p f) :=
  hears_setPort s p _ (fun _ => hf _)

theorem hears_onlyIf (c : Bool) (f : State → State) (h : Hears g p s (f s)) : Hears g p s (s.onlyIf c f) := by
  unfold State.onlyIf
  split
  · exact h
  · exact hears_refl _ _ _

theorem hears_foldl {β : Type} (l : List β) (f : State → β → State) (h : ∀ t x, Hears g p t (f t x)) (s : State) :
    Hears g p s (l.foldl f s) :=
  List.foldlRecOn (motive := fun t => Hears g p s t) l f (hears_refl _ _ _) (fun t ht x _ => hears_trans ht (h t x))

end

/-! ### Symbols are decided, adapt the equalizer and are captured (R243, R244, R347) -/

/-- What deciding and adapting leave of a lane. -/
def heard (l : Lane) : Bool × Nat × Nat × Checker := (l.locked, l.rx.prev, l.rx.upTo, l.rx.check)

theorem decideOne_hears (s : State) (p t : Nat) (q : Equalizer) (d odd : Option PinDrive) :
    Hears heard p s (s.decideOne p t q d odd).2 := by
  unfold State.decideOne
  dsimp only
  split
  · next v _ =>
    refine ⟨fun q hq => ?_, Keeps_mono _ _ _ _ (setLane_keeps s p _) (by decide), ?_⟩
    · rw [State.setLane, port_setPort, if_neg hq]
    · rw [lane_setLane, if_pos rfl]
      rfl
  · have hfree : Hears heard p s (s.free 8).2 := hears_ports (onlyFree_keeps _ _ (free_onlyFree s 8)) (by decide) (by decide)
    dsimp only
    exact hears_trans hfree (hears_setLane (s.free 8).2 p _ (by exact fun _ => rfl))

theorem decideWord_hears (s : State) (p : Nat) (o : LaneObs) (at' : Nat → Nat) : Hears heard p s (s.decideWord p o at').2 :=
  List.foldlRecOn (motive := fun e : List Nat × State => Hears heard p s e.2) _ _ (hears_refl _ _ _)
    (fun e he k _ => hears_trans he (decideOne_hears e.2 p (at' k) _ _ _))

theorem adapt_hears (s : State) (p : Nat) (o : LaneObs) (syms : List Nat) : Hears heard p s (s.adapt p o syms) := by
  unfold State.adapt
  extract_lets l runs counted
  have hcounted : Hears heard p s counted := by
    unfold counted
    split
    · exact hears_setLane s p _ (fun _ => rfl)
    · exact hears_refl _ _ _
  split
  · refine hears_trans hcounted (hears_onlyIf _ _ ?_)
    exact hears_trans (hears_trans (hears_ports (setDom_keeps _ _ _ _ _ _) (by decide) (by decide))
      (hears_ports (setDom_keeps _ _ _ _ _ _) (by decide) (by decide))) (hears_setLane _ p _ (fun _ => rfl))
  · exact hcounted

theorem portSerPrbs_not_eventKey (p : Nat) : ¬ eventKey (Obj.portSerPrbs.key p) :=
  serial_not_eventKey (o := .portSerPrbs) (n := 0x1C) (fun _ => rfl) (by decide) p

/-- A checker's lane has no elastic buffer (R246). -/
theorem slip_checker {s : State} {p : Nat} (n : Int) (h : (s.ser p).rxSink = 2) : s.slip p n = s := by
  have hbuffered : (s.ser p).buffered = false := by simp [SerConfig.buffered, h]
  simp [State.slip, hbuffered]

/-- Undoing inversion and precoding keeps the last symbol only (R251). -/
theorem incoming_hears (s : State) (p : Nat) (syms : List Nat) :
    Hears (fun l => (l.locked, l.rx.upTo, l.rx.check)) p s (s.incoming p syms).2 := by
  unfold State.incoming
  dsimp only
  split
  · exact hears_refl _ _ _
  · dsimp only
    exact hears_setLane s p _ (by exact fun _ => rfl)

/-- What the received symbols are depends on the lane's settings and on the last symbol before (R251). -/
theorem incoming_congr {s t : State} {p : Nat} (syms : List Nat) (hser : t.ser p = s.ser p)
    (hprev : (t.lane p).rx.prev = (s.lane p).rx.prev) : (t.incoming p syms).1 = (s.incoming p syms).1 := by
  unfold State.incoming
  rw [hser, hprev]
  dsimp only
  split <;> rfl

theorem rawByte_hears (s : State) (i p v : Nat) : Hears id p s (s.rawByte i p v) := by
  unfold State.rawByte
  extract_lets st r full
  split
  · exact hears_refl _ _ _
  · split
    · exact hears_refl _ _ _
    · extract_lets a stored counted
      have hstored : Hears id p s stored := by
        unfold stored
        split
        · exact hears_ports (l := [.mem]) ⟨rfl, rfl, fun x hx => by cases x <;> simp_all [Part.same]⟩ (by decide) (by decide)
        · exact hears_refl _ _ _
      have hcounted : Hears id p s counted := hears_trans hstored (hears_setPort stored p _ (by exact fun _ => rfl))
      split
      · exact hears_trans hcounted (hears_ports (setSite_keeps counted i _) (by decide) (by decide))
      · exact hcounted

theorem rawBits_hears (s : State) (i p v n : Nat) : Hears id p s (s.rawBits i p v n) := by
  unfold State.rawBits
  dsimp only
  split
  · exact hears_setPort s p _ (fun _ => rfl)
  · exact hears_trans (rawByte_hears s i p _) (hears_setPort _ p _ (fun _ => rfl))

theorem rawSymbols_hears (s : State) (i p : Nat) (syms : List Nat) : Hears id p s (s.rawSymbols i p syms) := by
  unfold State.rawSymbols
  dsimp only
  split
  · exact hears_refl _ _ _
  · exact hears_foldl syms _ (fun t x => rawBits_hears t i p _ _) s

/-! ### The PRBS checker (R253) -/

/-- The checker after symbols of its pattern. -/
def checked (c : SerConfig) (w : Word) (syms : List Nat) (k : Checker) : Checker :=
  ((c.patternForm.bitsOf syms).map (fun b => b != w.getLsbD 1)).foldl (Checker.bit (w.fld 12 4)) k

theorem checkWord_prbs {s : State} {p : Nat} (syms : List Nat) (h : (s.reg .portSerPrbs p).fld 12 4 ≠ 7) :
    s.checkWord p syms = s.setLane p (fun l => { l with rx := { l.rx with
      check := checked (s.ser p) (s.reg .portSerPrbs p) syms l.rx.check } }) := by
  unfold State.checkWord
  dsimp only
  rw [if_neg (by simpa using h)]
  rfl

/-- A lane has decided the symbols of its instants and adapted to them; its sink has not taken them. -/
def listened (s : State) (p : Nat) (o : LaneObs) (at' : Nat → Nat) : State :=
  ((s.decideWord p o at').2.setLane p (fun l => { l with
    signal := decide (1 ≤ transitions (s.decideWord p o at').1), rx := { l.rx with upTo := at' 63 } })).adapt p o
      (s.decideWord p o at').1

section
variable {s : State} {p : Nat} (o : LaneObs) (at' : Nat → Nat)

theorem listened_hears : Hears (fun l => (l.locked, l.rx.prev, l.rx.check)) p s (listened s p o at') := by
  have hdecided := decideWord_hears s p o at'
  have hadapted := adapt_hears ((s.decideWord p o at').2.setLane p (fun l => { l with
    signal := decide (1 ≤ transitions (s.decideWord p o at').1), rx := { l.rx with upTo := at' 63 } })) p o (s.decideWord p o at').1
  have hless (l m : Lane) (h : heard l = heard m) : (l.locked, l.rx.prev, l.rx.check) = (m.locked, m.rx.prev, m.rx.check) := by
    simp only [heard, Prod.mk.injEq] at h ⊢
    exact ⟨h.1, h.2.1, h.2.2.2⟩
  exact hears_trans (hears_trans (hears_of hdecided hless) (hears_setLane _ p _ (by exact fun _ => rfl))) (hears_of hadapted hless)

theorem listened_upTo : ((listened s p o at').lane p).rx.upTo = at' 63 := by
  have hadapted := (adapt_hears ((s.decideWord p o at').2.setLane p (fun l => { l with
    signal := decide (1 ≤ transitions (s.decideWord p o at').1), rx := { l.rx with upTo := at' 63 } })) p o (s.decideWord p o at').1).lane
  rw [lane_setLane, if_pos rfl] at hadapted
  exact congrArg (·.2.2.1) hadapted

/-- The symbols that the sink of a lane takes, and the state that it takes them in. -/
def taken (s : State) (p : Nat) (o : LaneObs) (at' : Nat → Nat) : List Nat × State :=
  (listened s p o at').incoming p (s.decideWord p o at').1

theorem taken_hears : Hears (fun l => (l.locked, l.rx.check)) p s (taken s p o at').2 :=
  hears_trans (hears_of (listened_hears o at') (fun l m h => by simp only [Prod.mk.injEq] at h ⊢; exact ⟨h.1, h.2.2⟩))
    (hears_of (incoming_hears _ p _) (fun l m h => by simp only [Prod.mk.injEq] at h ⊢; exact ⟨h.1, h.2.2⟩))

theorem taken_upTo : ((taken s p o at').2.lane p).rx.upTo = at' 63 :=
  (congrArg (·.2.1) (incoming_hears (listened s p o at') p (s.decideWord p o at').1).lane).trans (listened_upTo o at')

/-- Adaptation leaves what precoding is undone with (R244, R251). -/
theorem taken_symbols : (taken s p o at').1 = ((s.decideWord p o at').2.incoming p (s.decideWord p o at').1).1 := by
  have hdecided := decideWord_hears s p o at'
  have hlistened := listened_hears (s := s) (p := p) o at'
  refine incoming_congr _ ((hears_ser hlistened p).trans (hears_ser hdecided p).symm) ?_
  exact (congrArg (·.2.1) hlistened.lane).trans (congrArg (·.2.1) hdecided.lane).symm

/-- What a checker's lane does with its symbols: it takes them while it is locked. -/
theorem receiveWord_checker (hsink : (s.ser p).rxSink = 2) :
    (s.receiveWord p o at').2.2 = if ((taken s p o at').2.lane p).locked = true then
      (taken s p o at').2.checkWord p (taken s p o at').1 else (taken s p o at').2 := by
  have hslip : (listened s p o at').slip p o.slip = listened s p o at' :=
    slip_checker _ (by rw [hears_ser (listened_hears o at'), hsink])
  have hstill : ((taken s p o at').2.ser p).rxSink = 2 := by rw [hears_ser (taken_hears o at'), hsink]
  unfold State.receiveWord
  rw [taken, listened] at hstill ⊢
  rw [listened] at hslip
  dsimp only
  rw [hslip, hstill]
  rfl

/-- The checker's lane after its 64 symbols: the instant of the last, and what it took. -/
theorem receiveWord_checks (hsink : (s.ser p).rxSink = 2) (hpattern : (s.reg .portSerPrbs p).fld 12 4 ≠ 7) :
    Hears (fun _ => ()) p s (s.receiveWord p o at').2.2 ∧ ((s.receiveWord p o at').2.2.lane p).rx.upTo = at' 63 ∧
      ((s.receiveWord p o at').2.2.lane p).rx.check = (if (s.lane p).locked = true then
        checked (s.ser p) (s.reg .portSerPrbs p) ((s.decideWord p o at').2.incoming p (s.decideWord p o at').1).1
          (s.lane p).rx.check else (s.lane p).rx.check) := by
  have htaken := taken_hears (s := s) (p := p) o at'
  have hframe : Hears (fun _ => ()) p s (taken s p o at').2 := hears_of htaken (fun _ _ _ => rfl)
  have hlocked : ((taken s p o at').2.lane p).locked = (s.lane p).locked := congrArg (·.1) htaken.lane
  have hcheck : ((taken s p o at').2.lane p).rx.check = (s.lane p).rx.check := congrArg (·.2) htaken.lane
  have hprbs : (taken s p o at').2.reg .portSerPrbs p = s.reg .portSerPrbs p :=
    keeps_reg htaken.keeps (by decide) _ _ _ (portSerPrbs_not_eventKey p)
  rw [receiveWord_checker o at' hsink, hlocked]
  split
  · rw [checkWord_prbs _ (by rwa [hprbs]), hears_ser htaken, hprbs, lane_setLane, if_pos rfl, taken_symbols, hcheck]
    exact ⟨hears_trans hframe (hears_setLane _ p _ (fun _ => rfl)), taken_upTo o at', rfl⟩
  · exact ⟨hframe, taken_upTo o at', hcheck⟩

end
/-! ### Taps of the equalizer (R239, R240, R262) -/

theorem unsigned_lt (v : Int) : unsigned 8 v < 256 := by
  unfold unsigned
  omega

theorem signed_unsigned (n : Nat) : signed 8 (unsigned 8 (signed 8 n)) = signed 8 n := by
  unfold signed unsigned
  split <;> split <;> omega

/-- The word of taps reads as those taps. -/
theorem txTaps_txWord (a b c d : Nat) :
    txTaps (Word.of (txWord [signed 8 a, signed 8 b, signed 8 c, signed 8 d])) = [signed 8 a, signed 8 b, signed 8 c, signed 8 d] := by
  have hfield (m w x y z : Nat) (hm : m < 256) (hw : w < 256) (hx : x < 256) (hy : y < 256) (hz : z < 256) :
      let v := Word.of (m + w * 2 ^ 8 + x * 2 ^ 16 + y * 2 ^ 24 + z * 2 ^ 32)
      v.fld 8 8 = w ∧ v.fld 16 8 = x ∧ v.fld 24 8 = y ∧ v.fld 32 8 = z := by
    simp only [Word.of, Word.fld, BitVec.toNat_ofNat, Nat.shiftRight_eq_div_pow]
    omega
  unfold txTaps txWord
  extract_lets sum
  obtain ⟨hw, hx, hy, hz⟩ := hfield (128 - sum) _ _ _ _ (by omega) (unsigned_lt (signed 8 a)) (unsigned_lt (signed 8 b))
    (unsigned_lt (signed 8 c)) (unsigned_lt (signed 8 d))
  simp only [List.getD_cons_zero, List.getD_cons_succ]
  rw [hw, hx, hy, hz, signed_unsigned, signed_unsigned, signed_unsigned, signed_unsigned]

theorem portSerTxeq_not_eventKey (p : Nat) : ¬ eventKey (Obj.portSerTxeq.key p) :=
  serial_not_eventKey (o := .portSerTxeq) (n := 0x19) (fun _ => rfl) (by decide) p

/-- A lane whose taps are accepted in a WORD cycle. -/
def tapped (l : Lane) (runs : Bool) (w : Nat) (taps : List Int) : Lane :=
  { l with tx := if runs then { l.tx.settle w with next := some (w, taps) } else { l.tx with taps := taps, next := none } }

theorem regsBut_wr (s : State) (o : Obj) (v u k : Nat) : RegsBut [o.key u k] s (s.wr o v u k) :=
  fun _ _ hkey _ => Store_get_put_ne _ _ _ _ _ _ (by simpa using hkey)

theorem tapped_runs {runs : Bool} (l : Lane) (w : Nat) (taps : List Int) (h : runs = true) :
    (tapped l runs w taps).tx.next = some (w, taps) := by
  subst h
  rfl

theorem tapped_still {runs : Bool} (l : Lane) (w : Nat) (taps : List Int) (h : runs = false) :
    (tapped l runs w taps).tx.taps = taps := by
  subst h
  rfl

theorem regsBut_setLane {keys : List Nat} {s t : State} (h : RegsBut keys s t) (p : Nat) (f : Lane → Lane) :
    RegsBut keys s (t.setLane p f) := fun key d hkey hev => by
  rw [State.setLane, setPort_dict]
  exact h key d hkey hev

theorem acceptTaps_eq (s : State) (p : Nat) (taps : List Int) : s.acceptTaps p taps =
    (s.wr .portSerTxeq (txWord taps) p).setLane p (fun l => tapped l s.timeRuns (s.wordIndex (bundleOfPort p)) taps) := rfl

/-- Accepted taps read as the TXEQ, and are the lane's from then on. -/
theorem acceptTaps_sets (s : State) (p a b c d : Nat) (taps : List Int) (htaps : taps = [signed 8 a, signed 8 b, signed 8 c, signed 8 d]) :
    OnlyPort p [.regs] s (s.acceptTaps p taps) ∧ RegsBut [Obj.portSerTxeq.key p] s (s.acceptTaps p taps) ∧
      txTaps ((s.acceptTaps p taps).reg .portSerTxeq p) = taps ∧
      (s.acceptTaps p taps).lane p = tapped (s.lane p) s.timeRuns (s.wordIndex (bundleOfPort p)) taps := by
  rw [acceptTaps_eq]
  refine ⟨⟨fun q hq => ?_, ?_⟩, regsBut_setLane (regsBut_wr s .portSerTxeq (txWord taps) p 0) p _, ?_, ?_⟩
  · rw [State.setLane, port_setPort, if_neg hq, wr_port]
  · exact keeps_then _ _ _ _ _ _ (wr_keeps s .portSerTxeq (txWord taps) p 0) (setLane_keeps _ p _) (by decide) (by decide)
  · rw [State.setLane, setPort_reg, reg_wr_same, htaps, txTaps_txWord]
  · rw [lane_setLane, if_pos rfl, State.lane, wr_port, State.lane]

end Sys2Proof.Laws

namespace Sys2Proof.Proofs
open Sys2Proof.Machine Sys2Proof.Safety Sys2Proof.Laws

theorem exec_prbsLocked (o : LaneObs) (s : State) :
    exec (.prbsLocked o.port o.samples o.odd ⟨o.clock, o.slip, o.adapted⟩) s = run (prbsLocked o) s := rfl
theorem exec_adaptDone (p : PortNo) (s : State) : exec (.adaptDone p ()) s = run (adaptDone p) s := rfl
theorem exec_rxOverflow (p : PortNo) (s : State) : exec (.rxOverflow p) s = execRxOverflow p s := rfl
theorem exec_eqClear (p : PortNo) (s : State) : exec (.eqClear p) s = execEqClear p s := rfl
theorem exec_laneEq (p : PortNo) (a b c d : Byte) (s : State) : exec (.laneEq p a b c d) s = execLaneEq p a b c d s := rfl

/-! ### The checker's row -/

section
variable {s : State} {o : LaneObs} {at' : Nat → Nat}

/-- A checker's lane takes a word of symbols at given instants. -/
def takesWord (o : LaneObs) (at' : Nat → Nat) (s : State) : State :=
  s.onlyIf (s.laneLive o.port && decide (o.port.val < 96) && (s.ser o.port).rxSink == 2 && s.listens o.port
      && decide ((s.lane o.port).rx.upTo < at' 0)) (fun s =>
    match (s.receiveWord o.port o at').2.2.siteOfPort o.port with
    | some i =>
      if (s.receiveWord o.port o at').2.2.stepping i then
        (s.receiveWord o.port o at').2.2.rawSymbols i o.port (s.receiveWord o.port o at').1
      else (s.receiveWord o.port o at').2.2
    | none => (s.receiveWord o.port o at').2.2)

/-- PRBS_LOCKED takes the 64 symbols up to the present instant (log 151). -/
theorem prbsLocked_eq (o : LaneObs) (s : State) : prbsLocked o s =
    takesWord o (fun k => s.now - (s.symbolSteps (bundleOfPort o.port) (63 - k : Nat)).toNat) s := by
  unfold prbsLocked takesWord
  rfl

/-- After its word, a checker's lane differs by its raw capture at most (R347). -/
theorem takesWord_hears (hlive : s.laneLive o.port = true) (hlow : o.port.val < 96) (hsink : (s.ser o.port).rxSink = 2)
    (hlistens : s.listens o.port = true) (hdue : (s.lane o.port).rx.upTo < at' 0) :
    Hears id o.port (s.receiveWord o.port o at').2.2 (takesWord o at' s) := by
  have hcond : (s.laneLive o.port && decide (o.port.val < 96) && (s.ser o.port).rxSink == 2 && s.listens o.port
      && decide ((s.lane o.port).rx.upTo < at' 0)) = true := by
    rw [hlive, hsink, hlistens, decide_eq_true hlow, decide_eq_true hdue]
    rfl
  rw [takesWord, onlyIf_pos _ _ _ hcond]
  split
  · split
    · exact rawSymbols_hears _ _ _ _
    · exact hears_refl _ _ _
  · exact hears_refl _ _ _

theorem prbs_row {syms : List Nat} {u : State}
    (hat : at' = fun k => s.now - (s.symbolSteps (bundleOfPort o.port) (63 - k : Nat)).toNat)
    (hlive : s.laneLive o.port = true) (hlow : o.port.val < 96) (hsink : (s.ser o.port).rxSink = 2)
    (hlistens : s.listens o.port = true) (hpattern : (s.reg .portSerPrbs o.port).fld 12 4 ≠ 7)
    (hdue : (s.lane o.port).rx.upTo < at' 0) (hword : ({ s with out := [] } : State).decideWord o.port o at' = (syms, u)) :
    ∃ t, exec (.prbsLocked o.port o.samples o.odd ⟨o.clock, o.slip, o.adapted⟩) s = .next t ∧
      (∀ q, q ≠ o.port.val → t.port q = s.port q) ∧ Keeps hearParts s t ∧ (t.lane o.port).rx.upTo = at' 63 ∧
      (t.lane o.port).rx.check = (if (s.lane o.port).locked = true then
        checked (s.ser o.port) (s.reg .portSerPrbs o.port) (u.incoming o.port syms).1 (s.lane o.port).rx.check
        else (s.lane o.port).rx.check) := by
  have hafter := takesWord_hears (s := { s with out := [] }) hlive hlow hsink hlistens hdue
  have heffect : prbsLocked o { s with out := [] } = takesWord o at' { s with out := [] } := by
    rw [prbsLocked_eq, hat]
    rfl
  obtain ⟨hframe, hupTo, hcheck⟩ := receiveWord_checks (s := { s with out := [] }) (p := o.port) o at' hsink hpattern
  obtain ⟨hothers, hkeeps, -⟩ := hears_trans hframe (hears_of hafter (fun _ _ _ => rfl))
  have hlane : (takesWord o at' { s with out := [] }).lane o.port =
      (({ s with out := [] } : State).receiveWord o.port o at').2.2.lane o.port := hafter.lane
  rw [exec_prbsLocked]
  refine ⟨_, run_next (prbsLocked o) s _ heffect, fun q hq => (ended_port _ _ _).trans (hothers q hq), ended_effect_keeps hkeeps, ?_, ?_⟩
  · rw [State.lane, ended_port, ← State.lane, hlane, hupTo]
  · rw [State.lane, ended_port, ← State.lane, hlane, hcheck, hword]
    rfl

end

/-! ### Adaptation, overflow and the fabric's port -/

section
variable {p : PortNo} {s : State}

theorem adapt_row (hlive : s.laneLive p = true) (hmode : s.adaptMode p = 1) (hlocked : (s.lane p).locked = true)
    (hnew : (s.lane p).adaptDone = false) (hlength : s.adaptSymbols p ≤ (s.lane p).rx.symbols) :
    ∃ t, exec (.adaptDone p ()) s = .next t ∧ OnlyPort p [] s t ∧ t.lane p = { s.lane p with adaptDone := true } := by
  have hcond : (s.laneLive p && s.adaptMode p == 1 && (s.lane p).locked && !(s.lane p).adaptDone
      && decide (s.adaptSymbols p ≤ (s.lane p).rx.symbols)) = true := by
    rw [hlive, hmode, hlocked, hnew, decide_eq_true hlength]
    rfl
  rw [exec_adaptDone]
  exact run_lane p (adaptDone p) (fun l => { l with adaptDone := true }) s (by rw [adaptDone]; exact onlyIf_pos _ _ _ hcond)

theorem overflow_row (hlive : s.laneLive p = true) (hsink : (s.ser p).rxSink = 3) (hlost : (s.lane p).rx.lost ≠ 0) :
    ∃ t, exec (.rxOverflow p) s = .next t ∧ OnlyPort p [] s t ∧
      t.lane p = { s.lane p with rxOverflow := min ((s.lane p).rxOverflow + 1) 0xFFFF
                                 rx := { (s.lane p).rx with lost := (s.lane p).rx.lost - 1 } } := by
  have hcond : (s.laneLive p && (s.ser p).rxSink == 3 && (s.lane p).rx.lost != 0) = true := by
    rw [hlive, hsink, bne_iff_ne.mpr hlost]
    rfl
  rw [exec_rxOverflow, execRxOverflow]
  exact run_lane p _ (fun l => { l with rxOverflow := min (l.rxOverflow + 1) 0xFFFF, rx := { l.rx with lost := l.rx.lost - 1 } }) s
    (onlyIf_pos _ _ _ hcond)

theorem eqClear_row : ∃ t, exec (.eqClear p) s = .next t ∧ OnlyPort p [] s t ∧ t.lane p = { s.lane p with superseded := false } := by
  rw [exec_eqClear, execEqClear]
  exact run_lane p _ (fun l => { l with superseded := false }) s rfl

end

/-! ### Taps from the fabric (R240) -/

section
variable {p : PortNo} {s : State} {taps : List Int} (halive : s.alive = true) (hlow : p.val < 96) (hserial : s.isSerial p = true)
include halive hlow hserial

theorem laneEq_eq : laneEq p taps s =
    if !tapsOk taps then s.setLane p (fun l => { l with eqReject := min (l.eqReject + 1) 0xFFFF })
    else if (s.lane p).eqDict == some (s.wordIndex (bundleOfPort p)) then s.setLane p (fun l => { l with superseded := true })
    else (s.acceptTaps p taps).setLane p (fun l => { l with eqFabric := some (s.wordIndex (bundleOfPort p)) }) := by
  have hcond : (s.alive && decide (p.val < 96) && s.isSerial p) = true := by
    rw [halive, decide_eq_true hlow, hserial]
    rfl
  rw [laneEq, onlyIf_pos _ _ _ hcond]

theorem eq_rejected_row (hbad : tapsOk taps = false) :
    ∃ t, run (laneEq p taps) s = .next t ∧ OnlyPort p [] s t ∧
      t.lane p = { s.lane p with eqReject := min ((s.lane p).eqReject + 1) 0xFFFF } := by
  refine run_lane p (laneEq p taps) (fun l => { l with eqReject := min (l.eqReject + 1) 0xFFFF }) s ?_
  rw [laneEq_eq (s := { s with out := [] }) halive hlow hserial, hbad]
  rfl

theorem eq_superseded_row (hok : tapsOk taps = true) (hdict : (s.lane p).eqDict = some (s.wordIndex (bundleOfPort p))) :
    ∃ t, run (laneEq p taps) s = .next t ∧ OnlyPort p [] s t ∧ t.lane p = { s.lane p with superseded := true } := by
  refine run_lane p (laneEq p taps) (fun l => { l with superseded := true }) s ?_
  rw [laneEq_eq (s := { s with out := [] }) halive hlow hserial, hok]
  exact if_pos (beq_iff_eq.mpr hdict)

theorem eq_accepted_row {a b c d : Byte} (htaps : taps = [a, b, c, d].map (fun x => signed 8 x.toNat)) (hok : tapsOk taps = true)
    (hdict : (s.lane p).eqDict ≠ some (s.wordIndex (bundleOfPort p))) :
    ∃ t, run (laneEq p taps) s = .next t ∧ OnlyPort p [.regs] s t ∧ RegsBut [Obj.portSerTxeq.key p] s t ∧
      txTaps (t.reg .portSerTxeq p) = taps ∧ (t.lane p).eqFabric = some (s.wordIndex (bundleOfPort p)) ∧
      (s.timeRuns = true → (t.lane p).tx.next = some (s.wordIndex (bundleOfPort p), taps)) ∧
      (s.timeRuns = false → (t.lane p).tx.taps = taps) := by
  have heffect : laneEq p taps { s with out := [] } = (({ s with out := [] } : State).acceptTaps p taps).setLane p (fun l =>
      { l with eqFabric := some (s.wordIndex (bundleOfPort p)) }) := by
    rw [laneEq_eq (s := { s with out := [] }) halive hlow hserial, hok]
    exact if_neg (fun h => hdict (beq_iff_eq.mp h))
  obtain ⟨⟨hothers, hkeeps⟩, hregs, hreads, hlane⟩ := acceptTaps_sets { s with out := [] } p a.toNat b.toNat c.toNat d.toNat taps htaps
  have hended (t : State) : (s.keepFixed t.deliver).lane p = t.lane p := by rw [State.lane, ended_port, State.lane]
  refine ⟨_, run_next (laneEq p taps) s _ heffect, ⟨fun q hq => ?_, ended_effect_keeps ?_⟩, fun key dflt hkey hev => ?_, ?_, ?_⟩
  · rw [ended_port, State.setLane, port_setPort, if_neg hq]
    exact hothers q hq
  · exact keeps_then _ _ _ _ _ _ hkeeps (setLane_keeps _ p _) (by decide) (by decide)
  · exact (deliver_get _ key dflt hev).trans (regsBut_setLane hregs p _ key dflt hkey hev)
  · rw [ended_reg _ _ _ _ _ (portSerTxeq_not_eventKey p)]
    exact hreads
  · rw [hended, lane_setLane, if_pos rfl, hlane]
    exact ⟨rfl, tapped_runs _ _ _, tapped_still _ _ _⟩

end

/-- Settles O23, row by row. -/
theorem laneMeasures : Obligations.LaneMeasures := by
  unfold Obligations.LaneMeasures
  refine fun p s => ⟨?_, adapt_row, overflow_row, fun a b c d taps htaps halive hlow hserial => ?_, eqClear_row⟩
  · rintro o at' syms u rfl hlive hlow hsink hlistens hpattern hat hdue hword
    exact prbs_row hat hlive hlow hsink hlistens hpattern hdue hword
  · rw [exec_laneEq, execLaneEq, ← htaps]
    exact ⟨eq_rejected_row halive hlow hserial, eq_superseded_row halive hlow hserial, eq_accepted_row halive hlow hserial htaps⟩

end Sys2Proof.Proofs
end

section
/-! Accepted writes to contexts, injection, capture, lanes and calibration (R240, R244, R263, R273, R328, R343, R350, R378,
    R381, R386, O50): what each effect leaves, and that answering leaves it so. -/
namespace Sys2Proof.Laws
open Sys2Proof.Machine Sys2Proof.Safety

/-! ### An accepted write that is answered at once -/

/-- The words of a bundle and of a port that engines take. -/
def bundleWords : List Obj := [.bndPeCtxCmd, .bndInjControl, .bndCapRead, .bndCalCommand]
def portWords : List Obj := [.portSerTxeq, .portCalRequest]

theorem target_bundleWord (o : Obj) (h : o ∈ bundleWords) (b : BundleNo) : target (o.addr b) = .entry o b 0 :=
  (by decide : ∀ o ∈ bundleWords, ∀ b : BundleNo, target (o.addr b) = .entry o b 0) o h b
theorem target_portWord (o : Obj) (h : o ∈ portWords) (p : PortNo) : target (o.addr p) = .entry o p 0 :=
  (by decide : ∀ o ∈ portWords, ∀ p : PortNo, target (o.addr p) = .entry o p 0) o h p

theorem engineWord_direct (o : Obj) (h : o ∈ bundleWords ++ portWords) (v : Nat) : Direct o v ∧ o ≠ .devCommand := by
  simp only [bundleWords, portWords, List.cons_append, List.nil_append, List.mem_cons, List.not_mem_nil, or_false] at h
  obtain rfl | rfl | rfl | rfl | rfl | rfl := h <;>
    exact ⟨⟨by decide, by decide, by decide, by decide, nofun⟩, by decide⟩

/-- What the service of an accepted write is. -/
theorem engineWord_served (rq : Rq) (o : Obj) (u v : Nat) (s : State) (ho : o ∈ bundleWords ++ portWords)
    (ht : target (o.addr u) = .entry o u 0) (h : Accepted rq o u 0 v {} s) (hv : v < 256 ^ o.row.size) :
    writeTo rq o u 0 v {} { s with out := [] } = answerNow rq svcWrite (o.addr u) none
      (putEffect rq svcWrite (o.addr u) (putOf o u 0 v) {} (received rq s)) := by
  obtain ⟨hdirect, hdev⟩ := engineWord_direct o ho v
  exact writeTo_accepted rq o u 0 v {} s h ht hdirect hv (settle_of_ne _ _ _ hdev)

/-- An accepted write whose effect is answered OK. -/
theorem engineWord_written (rq : Rq) (o : Obj) (u v : Nat) (s e : State) (l : List Part) (ho : o ∈ bundleWords ++ portWords)
    (ht : target (o.addr u) = .entry o u 0) (h : Accepted rq o u 0 v {} s) (hv : v < 256 ^ o.row.size)
    (hput : putEffect rq svcWrite (o.addr u) (putOf o u 0 v) {} (received rq s) = (some .ok, e))
    (hkeeps : Keeps l (received rq s) e) (hij : e.ij = (received rq s).ij) :
    ∃ t, run (writeTo rq o u 0 v) s = .next t ∧ Replied rq svcWrite (o.addr u) .ok s t ∧ Keeps (l ++ answerParts) s t ∧
      Keeps answerParts e t := by
  have hf := engineWord_served rq o u v s ho ht h hv
  rw [hput] at hf
  exact answered_ends rq svcWrite (o.addr u) none (writeTo rq o u 0 v) l s e hf
    (Keeps_trans _ _ _ _ (Keeps_mono _ _ _ _ (received_keeps rq s) (by simp)) hkeeps) (hij.trans (received_ij rq s))

theorem bundleWord_not_eventKey (o : Obj) (h : o ∈ bundleWords) (b : BundleNo) : ¬ eventKey (o.key b) :=
  not_eventKey _ ((by decide : ∀ o ∈ bundleWords, ∀ b : BundleNo, o.key b < Obj.portEventCount.key) o h b)
    ((by decide : ∀ o ∈ bundleWords, ∀ b : BundleNo, o.key b ∉ [Obj.devLogLastCode.key, Obj.devEvtMasked.key,
      Obj.devEvtHostWritten.key, Obj.devEvtHostLost.key, Obj.devLogLost.key, Obj.devIjLastEvent.key]) o h b)

/-- A frame of one port, where the states before and after it are followed by frames of no port. -/
theorem onlyPort_between {p : Nat} {l m n : List Part} {r s e t : State} (hbefore : Keeps m s r) (heffect : OnlyPort p l r e)
    (hafter : Keeps n e t) (hm : .ports ∉ m) (hn : .ports ∉ n) : OnlyPort p (l ++ (m ++ n)) s t := by
  obtain ⟨hothers, hkeeps⟩ := heffect
  refine ⟨fun q hq => ?_, ?_⟩
  · rw [keeps_port hafter hn, hothers q hq, keeps_port hbefore hm]
  · have hfirst := keeps_then _ _ (.ports :: (l ++ (m ++ n))) _ _ _ hbefore hkeeps (by grind) (by grind)
    exact keeps_then _ _ _ _ _ _ hfirst hafter (fun _ hp => hp) (by grind)

/-- What answering leaves of the registers. -/
theorem regsBut_between {keys : List Nat} {l : List Part} {rq : Rq} {s e t : State} (heffect : RegsBut keys (received rq s) e)
    (hafter : Keeps l e t) (hl : .regs ∉ l) : RegsBut keys s t := fun key d hkey hev => by
  rw [hafter.2.2 .regs hl key d hev, heffect key d hkey hev, received_dict]

/-! ### BND_INJ_CONTROL (R326, R328) -/

theorem putEffect_injControl (rq : Rq) (a : Addr) (b v : Nat) (s : State) (hv : v < 256) :
    putEffect rq svcWrite a (putOf .bndInjControl b 0 v) {} s = (some .ok, injControlEffect b v s) :=
  congrArg (fun v => (some Status.ok, injControlEffect b v s)) (putOf_v .bndInjControl b 0 v hv)

theorem injControlEffect_bndEffect (b v : Nat) (s : State) : BndEffect b [.regs] s (injControlEffect b v s) := by
  unfold injControlEffect
  exact bndEffect_trans (bndEffect_wr b s .bndInjControl v b 0) (bndEffect_setBnd b _ _ _)

theorem injControlEffect_rd (b v : Nat) (s : State) (hv : v < 256) : (injControlEffect b v s).rd .bndInjControl b = v :=
  (rd_wr_same s .bndInjControl v b 0).trans (Nat.mod_eq_of_lt (by omega))

theorem injControlEffect_inj (b v : Nat) (s : State) : ((injControlEffect b v s).bnd b).inj =
    if v == 0 then { (s.bnd b).inj with oneShot := false }
    else { (if s.rd .bndInjControl b == 0 then { (s.bnd b).inj with
      hits := 0, lfsr := BitVec.ofNat 16 (injConfigOf (s.dom .bndInjConfig b 0 0 32)).seed } else (s.bnd b).inj) with
        oneShot := v == 2 } := by
  unfold injControlEffect
  dsimp only
  rw [bnd_setBnd, if_pos rfl]
  rfl

/-! ### BND_CAP_READ (R343, R350) -/

theorem putEffect_capRead (rq : Rq) (a : Addr) (b v : Nat) (s : State) (hv : v < 2 ^ 64) :
    putEffect rq svcWrite a (putOf .bndCapRead b 0 v) {} s = (some .ok, capReadEffect b v s) :=
  congrArg (fun v => (some Status.ok, capReadEffect b v s)) (putOf_v .bndCapRead b 0 v hv)

/-- A ring without a marker that waits takes the value and nothing else. -/
theorem capReadEffect_eq {b v i : Nat} {s : State} (hsite : s.siteOf b = some i) (hmode : (s.step1 i).wrapMode = false)
    (hdue : (s.ring i).endDue = none) : capReadEffect b v s = s.wr .bndCapRead v b := by
  have hdue' : ((s.wr .bndCapRead v b).ring i).endDue = none := hdue
  unfold capReadEffect
  rw [hsite]
  dsimp only
  rw [hmode, if_neg Bool.false_ne_true, State.ringEnd, hdue']

/-! ### PORT_SER_TXEQ and PORT_SER_RXEQ (R240, R244) -/

theorem wordIndex_of {s t : State} (htime : t.time = s.time) (htb : t.tb = s.tb) (hrd : ∀ k, t.rd .devLineRatio 0 k = s.rd .devLineRatio 0 k)
    (b : Nat) : t.wordIndex b = s.wordIndex b := by
  simp only [State.wordIndex, State.wordAt, State.now, State.lineP, State.lineQ, htime, htb, hrd]

@[simp] theorem received_wordIndex (rq : Rq) (s : State) (b : Nat) : (received rq s).wordIndex b = s.wordIndex b :=
  wordIndex_of (received_time rq s) (received_tb rq s) (fun _ => received_rd rq s _ _ _) b

theorem putEffect_txeq (rq : Rq) (a : Addr) (p v : Nat) (s : State) (hv : v < 2 ^ 64) :
    putEffect rq svcWrite a (putOf .portSerTxeq p 0 v) {} s = (some .ok, txeqEffect p v s) :=
  congrArg (fun v => (some Status.ok, txeqEffect p v s)) (putOf_v .portSerTxeq p 0 v hv)

@[simp] theorem setLane_ij (s : State) (p : Nat) (f : Lane → Lane) : (s.setLane p f).ij = s.ij := rfl

theorem txeqEffect_ij (s : State) (p v : Nat) : (txeqEffect p v s).ij = s.ij := by
  rw [txeqEffect, setLane_ij, acceptTaps_eq, setLane_ij, wr_ij]

theorem rxeqEffect_ij (s : State) (p : Nat) (data : List Byte) : (rxeqEffect p data s).ij = s.ij := by
  unfold rxeqEffect
  dsimp only
  split
  · exact setLane_ij s p _
  · exact setLane_ij _ p _

/-- The taps written read as the TXEQ, and the write is tied to its WORD cycle. -/
theorem txeqEffect_sets (s : State) (p v : Nat) :
    OnlyPort p [.regs] s (txeqEffect p v s) ∧ RegsBut [Obj.portSerTxeq.key p] s (txeqEffect p v s) ∧
      txTaps ((txeqEffect p v s).reg .portSerTxeq p) = txTaps (Word.of v) ∧
      ((txeqEffect p v s).lane p).eqDict = some (s.wordIndex (bundleOfPort p)) := by
  obtain ⟨⟨hothers, hkeeps⟩, hregs, hreads, -⟩ := acceptTaps_sets s p _ _ _ _ (txTaps (Word.of v)) rfl
  unfold txeqEffect
  refine ⟨⟨fun q hq => ?_, ?_⟩, regsBut_setLane hregs p _, ?_, ?_⟩
  · rw [State.setLane, port_setPort, if_neg hq, hothers q hq]
  · exact keeps_then _ _ _ _ _ _ hkeeps (setLane_keeps _ p _) (by decide) (by decide)
  · rw [State.setLane, setPort_reg, hreads]
  · rw [lane_setLane, if_pos rfl]

/-- A check that is passed is passed in each of its parts. -/
theorem firstRefusal_ok {l : List Status} (h : firstRefusal l = .ok) {x : Status} (hx : x ∈ l) : x = .ok := by
  by_contra hne
  unfold firstRefusal at h
  cases hfind : l.find? (· ≠ .ok) with
  | none => exact absurd (List.find?_eq_none.mp hfind x hx) (by simpa using hne)
  | some y =>
    rw [hfind] at h
    exact absurd (List.find?_some hfind) (by simpa using h)

theorem require_ok {c : Bool} {st : Status} (hst : st ≠ .ok) (h : require c st = .ok) : c = true := by
  unfold require at h
  split at h
  · assumption
  · exact absurd h hst

/-- An accepted write of PORT_SER_RXEQ begins at its first byte (R263). -/
theorem rxeqRange_off {off : Nat} {data : List Byte} (h : rxeqRange off data = .ok) : off = 0 := by
  have hall := require_ok (by decide) h
  simp only [Bool.and_eq_true, beq_iff_eq] at hall
  omega

/-- What an RXEQ write leaves: values that wait for the WORD boundary, or, while TIME does not run, that are in force. -/
theorem rxeqEffect_sets (s : State) (p : Nat) (data : List Byte) :
    OnlyPort p [.doms] s (rxeqEffect p data s) ∧
      (s.timeRuns = false → (rxeqEffect p data s).dom .portSerRxeq p 0 0 data.length = data ∧
        ((rxeqEffect p data s).lane p).rx.next = none) ∧
      (s.timeRuns = true → ((rxeqEffect p data s).lane p).rx.next = some (s.wordIndex (bundleOfPort p), data)) := by
  have hothers (t : State) (f : Lane → Lane) (q : Nat) (hq : q ≠ p) : (t.setLane p f).port q = t.port q := by
    rw [State.setLane, port_setPort, if_neg hq]
  unfold rxeqEffect
  dsimp only
  split
  · next hruns =>
    refine ⟨⟨hothers s _, Keeps_mono _ _ _ _ (setLane_keeps s p _) (by decide)⟩, fun h => absurd (hruns.symm.trans h) (by decide),
      fun _ => ?_⟩
    rw [lane_setLane, if_pos rfl]
  · next hstill =>
    refine ⟨⟨hothers _ _, ?_⟩, fun _ => ⟨dom_setDom_same _ _ _ _ _ _, ?_⟩, fun h => absurd h hstill⟩
    · exact keeps_then _ _ _ _ _ _ (setDom_keeps s .portSerRxeq p 0 0 data) (setLane_keeps _ p _) (by decide) (by decide)
    · rw [lane_setLane, if_pos rfl]

/-! ### Triggers of calibration (R355, R378, R386) -/

theorem trigger_ij (s : State) (p : Nat) (k : Fin 6) : (s.trigger p k).ij = s.ij := by
  unfold State.trigger
  dsimp only
  split
  · rfl
  · split <;> rfl

theorem trigger_keeps (s : State) (p : Nat) (k : Fin 6) : Keeps [.bnds, .ports] s (s.trigger p k) := by
  unfold State.trigger
  dsimp only
  split
  · exact Keeps_refl _ s
  · split
    · exact keeps_then _ _ _ _ _ _ (setPort_keeps s p _) (setBnd_keeps _ _ _) (by decide) (by decide)
    · exact keeps_then _ _ _ _ _ _ (setPort_keeps s p _) (setPort_keeps _ p _) (by decide) (by decide)

/-- A trigger changes no port's role. -/
theorem trigger_role (s : State) (p q : Nat) (k : Fin 6) : Port.role ((s.trigger p k).port q) = Port.role (s.port q) := by
  have hset (t : State) (f : Port → Port) (hf : ∀ x, Port.role (f x) = Port.role x) :
      Port.role ((t.setPort p f).port q) = Port.role (t.port q) := by
    rw [port_setPort]
    split
    · next h => rw [hf, h]
    · rfl
  unfold State.trigger
  dsimp only
  split
  · rfl
  · split
    · rw [setBnd_port]
      exact hset s _ (by exact fun _ => rfl)
    · exact (hset _ _ (by exact fun _ => rfl)).trans (hset s _ (by exact fun _ => rfl))

/-- A trigger that merges with no cycle is pending at its port. -/
theorem trigger_pends {s : State} {p : Nat} (k : Fin 6) (h : s.merges p = none) :
    OnlyPort p [] s (s.trigger p k) ∧ ((s.trigger p k).port p).cal.request = (s.port p).cal.request ∧
      (s.retired p = false → k ∈ ((s.trigger p k).port p).cal.pending) := by
  have hmerges : (s.setPort p (fun q => { q with cal := { q.cal with trigger := k.val } })).merges p = none := h
  unfold State.trigger
  dsimp only
  split
  · next hretired =>
    refine ⟨⟨fun _ _ => rfl, Keeps_refl _ s⟩, rfl, fun hserved => ?_⟩
    rw [hserved] at hretired
    exact absurd hretired (by simp)
  · rw [hmerges]
    refine ⟨⟨fun q hq => ?_, Keeps_trans _ _ _ _ (setPort_keeps s p _) (setPort_keeps _ p _)⟩, ?_, fun _ => ?_⟩
    · rw [port_setPort, if_neg hq, port_setPort, if_neg hq]
    · simp only [port_setPort, if_true]
    · simp only [port_setPort, if_true, List.mem_eraseDups]
      exact List.mem_cons_self

/-- A trigger that merges is of the port's cycle. -/
theorem trigger_merges {s : State} {p : Nat} {c : CalCycle} (k : Fin 6) (h : s.merges p = some c) (hretired : s.retired p = false) :
    ((s.trigger p k).bnd (bundleOfPort p)).cal.cycle = some { c with kinds := (k :: c.kinds).eraseDups } := by
  have hmerges : (s.setPort p (fun q => { q with cal := { q.cal with trigger := k.val } })).merges p = some c := h
  unfold State.trigger
  dsimp only
  rw [hretired, Bool.false_and, if_neg Bool.false_ne_true, hmerges]
  dsimp only
  rw [bnd_setBnd, if_pos rfl]

theorem merges_setCycle {s : State} {p : Nat} {c : CalCycle} (f : CalCycle → CalCycle) (h : s.merges p = some c)
    (hslot : (f c).slot = c.slot) (hphase : (f c).phase = c.phase) : (s.setCycle (bundleOfPort p) f).merges p = some (f c) := by
  obtain ⟨hcycle, hcond⟩ := Option.filter_eq_some_iff.mp h
  unfold State.merges
  dsimp only
  rw [setCycle_cycle f hcycle]
  refine Option.filter_eq_some_iff.mpr ⟨rfl, ?_⟩
  rw [hslot, hphase]
  exact hcond

theorem retired_setCycle (s : State) (b p : Nat) (f : CalCycle → CalCycle) : (s.setCycle b f).retired p = s.retired p := by
  have hbye : ((s.setCycle b f).bnd (p - 96)).cal.byeFailed = (s.bnd (p - 96)).cal.byeFailed := by
    rw [State.setCycle, bnd_setBnd]
    split
    · next h => rw [h]
    · rfl
  simp only [State.retired, State.portFailed, setCycle_port, hbye]

/-! ### PORT_CAL_REQUEST and CLEAR_SUB -/

theorem putEffect_calRequest (rq : Rq) (a : Addr) (p v : Nat) (s : State) (hv : v < 256) :
    putEffect rq svcWrite a (putOf .portCalRequest p 0 v) {} s = (some .ok, calRequestEffect p v s) :=
  congrArg (fun v => (some Status.ok, calRequestEffect p v s)) (putOf_v .portCalRequest p 0 v hv)

theorem putEffect_calCommand (rq : Rq) (a : Addr) (b v : Nat) (s : State) (hv : v < 65536) :
    putEffect rq svcWrite a (putOf .bndCalCommand b 0 v) {} s = (some .ok, clearSubEffect b (v % 16) s) :=
  congrArg (fun v => (some Status.ok, clearSubEffect b (v % 16) s)) (putOf_v .bndCalCommand b 0 v hv)

theorem calRequestEffect_cancels (p : Nat) (s : State) : calRequestEffect p 0 s = s.setPort p (fun q => { q with cal := { q.cal with
    request := 0, pending := q.cal.pending.filter (· != trigHost) } }) := rfl

/-- A request that merges with no cycle is the port's. -/
theorem calRequestEffect_pends {s : State} {p v : Nat} (hv : v ≠ 0) (h : s.merges p = none) :
    OnlyPort p [] s (calRequestEffect p v s) ∧ (calRequestEffect p v s).ij = s.ij ∧
      ((calRequestEffect p v s).port p).cal.request = v ∧
      (s.retired p = false → trigHost ∈ ((calRequestEffect p v s).port p).cal.pending) := by
  have heq : calRequestEffect p v s =
      (s.setPort p (fun q => { q with cal := { q.cal with request := v } })).trigger p trigHost := by
    unfold calRequestEffect
    rw [if_neg (by simpa using hv), h]
    rfl
  have hmerges : (s.setPort p (fun q => { q with cal := { q.cal with request := v } })).merges p = none := h
  have hretired : (s.setPort p (fun q => { q with cal := { q.cal with request := v } })).retired p = s.retired p := by
    simp [State.retired, State.portFailed]
  obtain ⟨⟨hothers, hkeeps⟩, hrequest, hpending⟩ := trigger_pends trigHost hmerges
  rw [heq]
  refine ⟨⟨fun q hq => ?_, Keeps_trans _ _ _ _ (setPort_keeps s p _) hkeeps⟩, trigger_ij _ _ _, ?_, fun hr => hpending (hretired.trans hr)⟩
  · rw [hothers q hq, port_setPort, if_neg hq]
  · rw [hrequest, port_setPort, if_pos rfl]

/-- A request that merges is its cycle's. -/
theorem calRequestEffect_merges {s : State} {p v : Nat} {c : CalCycle} (hv : v ≠ 0) (h : s.merges p = some c)
    (hretired : s.retired p = false) :
    Keeps [.bnds, .ports] s (calRequestEffect p v s) ∧ (calRequestEffect p v s).ij = s.ij ∧
      ((calRequestEffect p v s).bnd (bundleOfPort p)).cal.cycle
        = some { c with request := v, kinds := (trigHost :: c.kinds).eraseDups } := by
  have heq : calRequestEffect p v s =
      (s.setCycle (bundleOfPort p) (fun c => { c with request := v })).trigger p trigHost := by
    unfold calRequestEffect
    rw [if_neg (by simpa using hv), h]
    rfl
  rw [heq]
  refine ⟨keeps_then _ _ _ _ _ _ (setCycle_keeps s _ _) (trigger_keeps _ p _) (by decide) (by decide), trigger_ij _ _ _, ?_⟩
  exact trigger_merges trigHost (merges_setCycle (fun c => { c with request := v }) h rfl rfl) ((retired_setCycle _ _ _ _).trans hretired)

/-- CLEAR_SUB leaves the port neither substituted, replaced nor FAILED. -/
theorem clearSubEffect_clears (b slot : Nat) (s : State) :
    Keeps [.regs, .bnds, .ports] s (clearSubEffect b slot s) ∧ (clearSubEffect b slot s).ij = s.ij ∧
      ((clearSubEffect b slot s).port (8 * b + slot)).cal.substituted = false ∧
      ((clearSubEffect b slot s).port (8 * b + slot)).cal.replaced = false ∧
      ((clearSubEffect b slot s).port (8 * b + slot)).cal.failed = false := by
  unfold clearSubEffect
  extract_lets p inert released
  have hinert : Keeps [.regs, .ports] s inert ∧ inert.ij = s.ij := by
    unfold inert
    split
    · exact ⟨clearEnables_keeps s _, standing_ij _ _ (clearEnables_standing s _)⟩
    · exact ⟨Keeps_refl _ s, rfl⟩
  have hrole : Port.role ((released.trigger p trigClear).port p) =
      Port.role { inert.port p with cal := { (inert.port p).cal with substituted := false, replaced := false, failed := false } } := by
    rw [trigger_role, port_setPort, if_pos rfl]
  refine ⟨?_, (trigger_ij _ _ _).trans hinert.2, congrArg (·.2.2.1) hrole, congrArg (·.2.1) hrole, congrArg (·.2.2.2.1) hrole⟩
  exact keeps_then _ _ _ _ _ _ (keeps_then _ _ [.regs, .ports] _ _ _ hinert.1 (setPort_keeps inert p _) (by decide) (by decide))
    (trigger_keeps released p trigClear) (by decide) (by decide)

/-! ### BND_PE_CTX_CMD (R272, R273) -/

/-- The fields of a command's word. -/
theorem ctxCmdWord_fields {op count first src : Nat} (hop : op < 4) (hcount : count < 8192) (hfirst : first < 4096)
    (hsrc : src < 2 ^ 30) :
    ctxCmdWord op count first src < 2 ^ 64 ∧ ctxOp (ctxCmdWord op count first src) = op ∧
      ctxCount (ctxCmdWord op count first src) = count ∧ ctxFirst (ctxCmdWord op count first src) = first ∧
      ctxSrc (ctxCmdWord op count first src) = src := by
  simp only [ctxCmdWord, ctxOp, ctxCount, ctxFirst, ctxSrc, bits]
  omega

theorem putEffect_ctxCmd (rq : Rq) (a : Addr) (b : BundleNo) (v : Nat) (s : State) (hv : v < 2 ^ 64) :
    putEffect rq svcWrite a (putOf .bndPeCtxCmd b 0 v) {} s = ctxCmdEffect rq svcWrite a b v s := by
  have hb : Fin.ofNat 12 b.val = b := Fin.ext (Nat.mod_eq_of_lt b.isLt)
  exact (congrArg (fun v => ctxCmdEffect rq svcWrite a (Fin.ofNat 12 b.val) v s) (putOf_v .bndPeCtxCmd b 0 v hv)).trans (by rw [hb])

/-- FREE reads nothing. -/
theorem ctxCmdRead_free (count first src : Nat) (s : State) :
    ctxCmdRead 2 count first src s = (.ok, (upto count).map (fun k => (first + k, default)), s) := rfl

/-- What was read is staged, and the command waits. -/
def ctxStaged (rq : Rq) (b : BundleNo) (l : List (Nat × Context)) (s : State) : State :=
  (s.setBnd b (fun t => { t with pe := { t.pe with staged := l } })).openService rq svcWrite (Obj.bndPeCtxCmd.addr b) (.ctxCmd b)

theorem ctxStaged_keeps (rq : Rq) (b : BundleNo) (l : List (Nat × Context)) (s : State) :
    Keeps [.bnds, .ctl] s (ctxStaged rq b l s) :=
  keeps_then _ _ _ _ _ _ (setBnd_keeps s b _) (openService_keeps _ _ _ _ _) (by decide) (by decide)

theorem ctxStaged_bnd (rq : Rq) (b : BundleNo) (l : List (Nat × Context)) (s : State) (c : Nat) :
    (ctxStaged rq b l s).bnd c = if c = b then { s.bnd b with pe := { (s.bnd b).pe with staged := l } } else s.bnd c := by
  rw [ctxStaged, openService_bnd, bnd_setBnd]

section
variable {rq : Rq} {b : BundleNo} {op count first src : Nat} {s u : State} {l : List (Nat × Context)}

/-- What the service of a command does with what it has read. -/
theorem ctxCmd_served (hop : op < 4) (hcount : count < 8192) (hfirst : first < 4096) (hsrc : src < 2 ^ 30)
    (h : Accepted rq .bndPeCtxCmd b 0 (ctxCmdWord op count first src) {} s) :
    writeTo rq .bndPeCtxCmd b 0 (ctxCmdWord op count first src) {} { s with out := [] } =
      if (ctxCmdRead op count first src (received rq s)).1 = .ok then
        ctxStaged rq b (ctxCmdRead op count first src (received rq s)).2.1 (ctxCmdRead op count first src (received rq s)).2.2
      else (ctxCmdRead op count first src (received rq s)).2.2.reply rq svcWrite (Obj.bndPeCtxCmd.addr b)
        (ctxCmdRead op count first src (received rq s)).1 := by
  obtain ⟨hv, hop', hcount', hfirst', hsrc'⟩ := ctxCmdWord_fields hop hcount hfirst hsrc
  rw [engineWord_served rq .bndPeCtxCmd b _ s (by decide) (target_bundleWord _ (by decide) b) h hv, putEffect_ctxCmd _ _ _ _ _ hv,
    ctxCmdEffect, hop', hcount', hfirst', hsrc']
  generalize ctxCmdRead op count first src (received rq s) = r
  dsimp only
  by_cases hok : r.1 = .ok
  · rw [if_pos hok, hok]
    rfl
  · rw [if_pos (bne_iff_ne.mpr hok), if_neg hok]
    rfl

/-- A command that has staged what it read leaves its bundle so. -/
theorem ctxStaged_ends {m : List Part} (hkeeps : Keeps m (received rq s) u) (hm : .bnds ∉ m) :
    ((s.keepFixed (ctxStaged rq b l u).deliver).bnd b).pe.staged = l ∧
      OnlyBnd b (m ++ [.ctl]) s (s.keepFixed (ctxStaged rq b l u).deliver) := by
  refine ⟨?_, fun c hc => ?_, ended_keeps _ _ _ ?_⟩
  · rw [ended_bnd, ctxStaged_bnd, if_pos rfl]
  · rw [ended_bnd, ctxStaged_bnd, if_neg hc, keeps_bnd hkeeps hm, received_bnd]
  · exact keeps_then _ _ _ _ _ _ (Keeps_trans _ _ _ _ (Keeps_mono _ _ _ _ (received_keeps rq s) (by simp)) hkeeps)
      (ctxStaged_keeps rq b l u) (by simp) (by simp)

end

/-! ### Images are read (R273) -/

theorem readImages_calm (op size n ctx g : Nat) (s : State) (h : Checked s) : Calm s (readImages op size n ctx g s).2.2 := by
  induction n generalizing s ctx g with
  | zero => exact calm_refl s
  | succ n ih =>
    obtain ⟨hread, -⟩ := readGranules_calm s h g size
    have hrest := ih (ctx + 1) (g + size) (s.readGranules g [] size).2 (checked_of_memory _ _ (readGranules_memory _ _ _ _) h)
    simp only [readImages]
    split
    · exact hread
    · exact calm_trans _ _ _ hread hrest

theorem ctxCmdRead_calm (op count first src : Nat) (s : State) (h : Checked s) : Calm s (ctxCmdRead op count first src s).2.2 := by
  unfold ctxCmdRead
  split
  · exact calm_refl s
  · exact readImages_calm _ _ _ _ _ s h
  · exact readImages_calm _ _ _ _ _ s h

theorem readGranule_ij (s : State) (g : Nat) (ups : List Upset) : (s.readGranule g ups).2.ij = s.ij := by
  have hcounted (d : Decoded) : (s.countDecoded g d).ij = s.ij := by
    unfold State.countDecoded
    dsimp only
    split
    · rfl
    · split <;> rfl
  unfold State.readGranule
  split
  · dsimp only
    split
    · exact hcounted _
    · exact hcounted _
  · rfl

theorem readGranules_ij (s : State) (g : Nat) (ups : List Upset) (n : Nat) : (s.readGranules g ups n).2.ij = s.ij := by
  induction n generalizing s g with
  | zero => rfl
  | succ n ih => exact (ih _ _).trans (readGranule_ij s g ups)

theorem readImages_ij (op size n ctx g : Nat) (s : State) : (readImages op size n ctx g s).2.2.ij = s.ij := by
  induction n generalizing s ctx g with
  | zero => rfl
  | succ n ih =>
    simp only [readImages]
    split
    · exact readGranules_ij s g [] size
    · exact (ih _ _ _).trans (readGranules_ij s g [] size)

theorem ctxCmdRead_ij (op count first src : Nat) (s : State) : (ctxCmdRead op count first src s).2.2.ij = s.ij := by
  unfold ctxCmdRead
  split
  · rfl
  · exact readImages_ij _ _ _ _ _ s
  · exact readImages_ij _ _ _ _ _ s

/-- A calm change that stores nothing. -/
theorem calm_keeps {s t : State} (h : Calm s t) (hmem : t.memory = s.memory) : Keeps [.regs, .chans] s t := by
  obtain ⟨hpending, hfuses, hparts⟩ := h.frame
  refine ⟨hpending, hfuses, fun p hp => ?_⟩
  by_cases hp' : p = .mem
  · subst hp'
    exact ⟨memory_mem _ _ hmem, memory_memChk _ _ hmem⟩
  · exact hparts p (by simp_all)

/-- Channels are quiet by themselves and by one register. -/
theorem quiet_of_keeps {l : List Part} {s t : State} (h : Keeps l s t) (hregs : .regs ∉ l) (hchans : .chans ∉ l)
    (hq : ChansQuiet s) : ChansQuiet t := by
  have hchan (c : Nat) : t.chan c = s.chan c := by rw [State.chan, h.2.2 .chans hchans, State.chan]
  have hthr : t.rd .devMemLaneThreshold = s.rd .devMemLaneThreshold :=
    rd_of_regs _ _ _ _ _ (h.2.2 .regs hregs _ _ laneThreshold_not_eventKey)
  intro c hc
  rw [hchan, hthr]
  exact hq c hc

end Sys2Proof.Laws

namespace Sys2Proof.Proofs
open Sys2Proof.Machine Sys2Proof.Safety Sys2Proof.Laws

theorem exec_injArm (rq : Rq) (b : BundleNo) (s : State) : exec (.injArm rq b) s = run (writeTo rq .bndInjControl b 0 1) s := rfl
theorem exec_injDisarm (rq : Rq) (b : BundleNo) (s : State) : exec (.injDisarm rq b) s = run (writeTo rq .bndInjControl b 0 0) s := rfl
theorem exec_injOneShot (rq : Rq) (b : BundleNo) (s : State) : exec (.injOneShot rq b) s = run (writeTo rq .bndInjControl b 0 2) s := rfl

theorem inj_written (rq : Rq) (b : BundleNo) (s : State) (v : Nat) (hv : v < 256) (h : Accepted rq .bndInjControl b 0 v {} s) :
    ∃ t, run (writeTo rq .bndInjControl b 0 v) s = .next t ∧ Replied rq svcWrite (Obj.bndInjControl.addr b) .ok s t ∧
      t.rd .bndInjControl b = v ∧ (t.bnd b).inj = ((injControlEffect b v (received rq s)).bnd b).inj ∧
      OnlyBnd b (.regs :: answerParts) s t := by
  have heffect := injControlEffect_bndEffect b v (received rq s)
  obtain ⟨t, hexec, hreply, -, hafter⟩ := engineWord_written rq .bndInjControl b v s _ _ (by decide)
    (target_bundleWord _ (by decide) b) h hv (putEffect_injControl _ _ _ _ _ hv) heffect.only.2 heffect.ij
  refine ⟨t, hexec, hreply, ?_, ?_, onlyBnd_between (received_keeps rq s) heffect.only hafter (by decide) (by decide)⟩
  · rw [State.rd, keeps_reg hafter (by decide) _ _ _ (bundleWord_not_eventKey _ (by decide) b), ← State.rd,
      injControlEffect_rd _ _ _ hv]
  · rw [keeps_bnd hafter (by decide)]

theorem inj_row (rq : Rq) (b : BundleNo) (s : State) :
    (Accepted rq .bndInjControl b 0 1 {} s →
      ∃ t, exec (.injArm rq b) s = .next t ∧ Replied rq svcWrite (Obj.bndInjControl.addr b) .ok s t ∧
        t.rd .bndInjControl b = 1 ∧ (t.bnd b).inj.oneShot = false ∧
        (s.rd .bndInjControl b = 0 → (t.bnd b).inj.hits = 0) ∧ OnlyBnd b (.regs :: answerParts) s t) ∧
    (Accepted rq .bndInjControl b 0 0 {} s →
      ∃ t, exec (.injDisarm rq b) s = .next t ∧ Replied rq svcWrite (Obj.bndInjControl.addr b) .ok s t ∧
        t.rd .bndInjControl b = 0 ∧ (t.bnd b).inj = { (s.bnd b).inj with oneShot := false } ∧
        OnlyBnd b (.regs :: answerParts) s t) ∧
    (Accepted rq .bndInjControl b 0 2 {} s →
      ∃ t, exec (.injOneShot rq b) s = .next t ∧ Replied rq svcWrite (Obj.bndInjControl.addr b) .ok s t ∧
        t.rd .bndInjControl b = 2 ∧ (t.bnd b).inj.oneShot = true ∧ OnlyBnd b (.regs :: answerParts) s t) := by
  refine ⟨fun h => ?_, fun h => ?_, fun h => ?_⟩
  · obtain ⟨t, hexec, hreply, hrd, hinj, honly⟩ := inj_written rq b s 1 (by decide) h
    rw [injControlEffect_inj] at hinj
    refine ⟨t, hexec, hreply, hrd, by rw [hinj]; rfl, fun hwas => ?_, honly⟩
    rw [hinj, received_rd, hwas]
    rfl
  · obtain ⟨t, hexec, hreply, hrd, hinj, honly⟩ := inj_written rq b s 0 (by decide) h
    rw [injControlEffect_inj, received_bnd] at hinj
    exact ⟨t, hexec, hreply, hrd, hinj, honly⟩
  · obtain ⟨t, hexec, hreply, hrd, hinj, honly⟩ := inj_written rq b s 2 (by decide) h
    rw [injControlEffect_inj] at hinj
    exact ⟨t, hexec, hreply, hrd, by rw [hinj]; rfl, honly⟩

/-! ### Capture and equalizer -/

theorem exec_capReadWrite (rq : Rq) (b : BundleNo) (v : BitVec 64) (s : State) :
    exec (.capReadWrite rq b v) s = run (writeTo rq .bndCapRead b 0 v.toNat) s := rfl
theorem exec_txeqWrite (rq : Rq) (p : PortNo) (v : BitVec 64) (s : State) :
    exec (.txeqWrite rq p v) s = run (writeTo rq .portSerTxeq p 0 v.toNat) s := rfl
theorem exec_rxeqWrite (rq : Rq) (p : PortNo) (off : Nat) (data : List Byte) (s : State) :
    exec (.rxeqWrite rq p off data) s = run (blockTo rq .portSerRxeq p off data) s := rfl

theorem capRead_row (rq : Rq) (b : BundleNo) (s : State) (v : BitVec 64) (i : Nat) (h : Accepted rq .bndCapRead b 0 v.toNat {} s)
    (hsite : s.siteOf b = some i) (hmode : (s.step1 i).wrapMode = false) (hdue : (s.ring i).endDue = none) :
    ∃ t, exec (.capReadWrite rq b v) s = .next t ∧ Replied rq svcWrite (Obj.bndCapRead.addr b) .ok s t ∧
      t.rd .bndCapRead b = v.toNat ∧ RegsBut [Obj.bndCapRead.key b] s t ∧ Keeps (.regs :: answerParts) s t := by
  have hput := putEffect_capRead rq (Obj.bndCapRead.addr b) b v.toNat (received rq s) v.isLt
  rw [capReadEffect_eq (i := i) (by simpa only [State.siteOf, received_rd] using hsite)
    (by simpa only [State.step1, State.run', received_site] using hmode) (by simpa only [State.ring, received_site] using hdue)] at hput
  obtain ⟨t, hexec, hreply, hkeeps, hafter⟩ := engineWord_written rq .bndCapRead b v.toNat s _ [.regs] (by decide)
    (target_bundleWord _ (by decide) b) h v.isLt hput (wr_keeps _ _ _ _ _) rfl
  refine ⟨t, hexec, hreply, ?_, regsBut_between (regsBut_wr _ _ _ _ _) hafter (by decide), hkeeps⟩
  rw [State.rd, keeps_reg hafter (by decide) _ _ _ (bundleWord_not_eventKey _ (by decide) b), ← State.rd, rd_wr_same,
    Nat.mod_eq_of_lt v.isLt]

theorem txeq_row (rq : Rq) (s : State) (p : PortNo) (v : BitVec 64) (h : Accepted rq .portSerTxeq p 0 v.toNat {} s) :
    ∃ t, exec (.txeqWrite rq p v) s = .next t ∧ Replied rq svcWrite (Obj.portSerTxeq.addr p) .ok s t ∧
      txTaps (t.reg .portSerTxeq p) = txTaps v ∧ (t.lane p).eqDict = some (s.wordIndex (bundleOfPort p)) ∧
      RegsBut [Obj.portSerTxeq.key p] s t ∧ OnlyPort p (.regs :: answerParts) s t := by
  obtain ⟨honly, hregs, hreads, hlane⟩ := txeqEffect_sets (received rq s) p v.toNat
  have hword : Word.of v.toNat = v := BitVec.eq_of_toNat_eq (Nat.mod_eq_of_lt v.isLt)
  obtain ⟨t, hexec, hreply, -, hafter⟩ := engineWord_written rq .portSerTxeq p v.toNat s _ _ (by decide)
    (target_portWord _ (by decide) p) h v.isLt (putEffect_txeq _ _ _ _ _ v.isLt) honly.2 (txeqEffect_ij _ _ _)
  refine ⟨t, hexec, hreply, ?_, ?_, regsBut_between hregs hafter (by decide),
    onlyPort_between (received_keeps rq s) honly hafter (by decide) (by decide)⟩
  · rw [keeps_reg hafter (by decide) _ _ _ (portSerTxeq_not_eventKey p), hreads, hword]
  · rw [State.lane, keeps_port hafter (by decide), ← State.lane, hlane, received_wordIndex]

theorem rxeq_row (rq : Rq) (s : State) (p : PortNo) (off : Nat) (data : List Byte) (h : AcceptedBlock rq .portSerRxeq p off data s) :
    ∃ t, exec (.rxeqWrite rq p off data) s = .next t ∧
      RepliedBlock rq (Obj.portSerRxeq.addr p) off data.length .ok s t ∧
      (s.timeRuns = false → t.dom .portSerRxeq p 0 off data.length = data ∧ (t.lane p).rx.next = none) ∧
      (s.timeRuns = true → (t.lane p).rx.next = some (s.wordIndex (bundleOfPort p), data)) ∧
      OnlyPort p (.doms :: .ctl :: answerParts) s t := by
  have hoff : off = 0 := by
    obtain ⟨-, -, -, -, hlater⟩ := h
    exact rxeqRange_off (firstRefusal_ok hlater (List.mem_of_getElem? (i := 3) rfl))
  subst hoff
  have hbefore : Keeps [.ctl] s (dropTransfer rq.src (received rq s)) :=
    keeps_then _ _ _ _ _ _ (received_keeps rq s) (dropTransfer_keeps _ _) (by decide) (by decide)
  have hruns : (dropTransfer rq.src (received rq s)).timeRuns = s.timeRuns := (hbefore.2.2 .time (by decide)).2.1
  have hword : (dropTransfer rq.src (received rq s)).wordIndex (bundleOfPort p) = s.wordIndex (bundleOfPort p) :=
    received_wordIndex rq s _
  obtain ⟨honly, hnow, hlater⟩ := rxeqEffect_sets (dropTransfer rq.src (received rq s)) p data
  have hf := blockTo_accepted rq .portSerRxeq p 0 data s h
    ((by decide : ∀ p : PortNo, target (Obj.portSerRxeq.addr p) = .entry .portSerRxeq p 0) p) (by decide) (by decide)
  obtain ⟨t, hexec, hreply, -, hafter⟩ := answered_ends rq svcBlockWrite _ _ (blockTo rq .portSerRxeq p 0 data) (.ctl :: .ports :: [.doms])
    s (rxeqEffect p data (dropTransfer rq.src (received rq s))) hf
    (keeps_then _ _ _ _ _ _ hbefore honly.2 (by decide) (by decide)) ((rxeqEffect_ij _ _ _).trans (received_ij rq s))
  have hlane : t.lane p = (rxeqEffect p data (dropTransfer rq.src (received rq s))).lane p := by
    rw [State.lane, keeps_port hafter (by decide), ← State.lane]
  rw [hruns] at hnow hlater
  refine ⟨t, hexec, hreply, fun hstill => ?_, fun hrun => ?_, onlyPort_between hbefore honly hafter (by decide) (by decide)⟩
  · rw [keeps_dom hafter (by decide), hlane]
    exact hnow hstill
  · rw [hlane, hlater hrun, hword]

/-! ### Calibration -/

theorem exec_calRequestCancel (rq : Rq) (p : PortNo) (s : State) :
    exec (.calRequestCancel rq p) s = run (writeTo rq .portCalRequest p 0 0) s := rfl
theorem exec_calRequestLive (rq : Rq) (p : PortNo) (s : State) :
    exec (.calRequestLive rq p) s = run (writeTo rq .portCalRequest p 0 1) s := rfl
theorem exec_calRequestOffline (rq : Rq) (p : PortNo) (s : State) :
    exec (.calRequestOffline rq p) s = run (writeTo rq .portCalRequest p 0 2) s := rfl
theorem exec_clearSub (rq : Rq) (b : BundleNo) (slot : Fin 16) (s : State) :
    exec (.clearSub rq b slot) s = run (writeTo rq .bndCalCommand b 0 (2 ^ 12 + slot)) s := rfl

theorem cal_cancel_row (rq : Rq) (s : State) (p : PortNo) (h : Accepted rq .portCalRequest p 0 0 {} s) :
    ∃ t, exec (.calRequestCancel rq p) s = .next t ∧ Replied rq svcWrite (Obj.portCalRequest.addr p) .ok s t ∧
      (t.port p).cal.request = 0 ∧ (t.port p).cal.pending = (s.port p).cal.pending.filter (· != trigHost) ∧
      OnlyPort p answerParts s t := by
  have honly : OnlyPort p [] (received rq s) (calRequestEffect p 0 (received rq s)) := by
    rw [calRequestEffect_cancels]
    exact ⟨fun q hq => by rw [port_setPort, if_neg hq], setPort_keeps _ _ _⟩
  obtain ⟨t, hexec, hreply, -, hafter⟩ := engineWord_written rq .portCalRequest p 0 s _ _ (by decide)
    (target_portWord _ (by decide) p) h (by decide) (putEffect_calRequest _ _ _ _ _ (by decide)) honly.2 rfl
  have hport : t.port p = { s.port p with cal := { (s.port p).cal with
      request := 0, pending := (s.port p).cal.pending.filter (· != trigHost) } } := by
    rw [keeps_port hafter (by decide), calRequestEffect_cancels, port_setPort, if_pos rfl, received_port]
  exact ⟨t, hexec, hreply, by rw [hport], by rw [hport],
    onlyPort_between (received_keeps rq s) honly hafter (by decide) (by decide)⟩

/-- A request of a kind of cycle: the port's own, or that of a cycle which has not passed Listen. -/
theorem cal_requested (rq : Rq) (s : State) (p : PortNo) (v : Nat) (hv : v ≠ 0) (hlt : v < 256)
    (h : Accepted rq .portCalRequest p 0 v {} s) :
    (s.merges p = none →
      ∃ t, run (writeTo rq .portCalRequest p 0 v) s = .next t ∧ Replied rq svcWrite (Obj.portCalRequest.addr p) .ok s t ∧
        (t.port p).cal.request = v ∧ (s.retired p = false → trigHost ∈ (t.port p).cal.pending) ∧
        OnlyPort p answerParts s t) ∧
    (∀ c, s.merges p = some c → s.retired p = false →
      ∃ t, run (writeTo rq .portCalRequest p 0 v) s = .next t ∧ Replied rq svcWrite (Obj.portCalRequest.addr p) .ok s t ∧
        (t.bnd (bundleOfPort p)).cal.cycle = some { c with request := v, kinds := (trigHost :: c.kinds).eraseDups } ∧
        Keeps (.bnds :: .ports :: answerParts) s t) := by
  have hmerges : (received rq s).merges p = s.merges p := by simp only [State.merges, received_bnd]
  have hretired : (received rq s).retired p = s.retired p := by
    simp only [State.retired, State.portFailed, received_bnd, received_port]
  have hput := putEffect_calRequest rq (Obj.portCalRequest.addr p) p v (received rq s) hlt
  refine ⟨fun hnone => ?_, fun c hsome hserved => ?_⟩
  · obtain ⟨honly, hij, hrequest, hpending⟩ := calRequestEffect_pends (s := received rq s) hv (hmerges.trans hnone)
    obtain ⟨t, hexec, hreply, -, hafter⟩ := engineWord_written rq .portCalRequest p v s _ _ (by decide)
      (target_portWord _ (by decide) p) h hlt hput honly.2 hij
    refine ⟨t, hexec, hreply, ?_, fun hserved => ?_, onlyPort_between (received_keeps rq s) honly hafter (by decide) (by decide)⟩
    · rw [keeps_port hafter (by decide), hrequest]
    · rw [keeps_port hafter (by decide)]
      exact hpending (hretired.trans hserved)
  · obtain ⟨hkeeps, hij, hcycle⟩ := calRequestEffect_merges (s := received rq s) hv (hmerges.trans hsome) (hretired.trans hserved)
    obtain ⟨t, hexec, hreply, hframe, hafter⟩ := engineWord_written rq .portCalRequest p v s _ _ (by decide)
      (target_portWord _ (by decide) p) h hlt hput hkeeps hij
    exact ⟨t, hexec, hreply, by rw [keeps_bnd hafter (by decide), hcycle], hframe⟩

theorem clearSub_row (rq : Rq) (b : BundleNo) (s : State) (slot : Fin 16) (h : Accepted rq .bndCalCommand b 0 (2 ^ 12 + slot.val) {} s) :
    ∃ t, exec (.clearSub rq b slot) s = .next t ∧ Replied rq svcWrite (Obj.bndCalCommand.addr b) .ok s t ∧
      (t.port (8 * b + slot.val)).cal.substituted = false ∧ (t.port (8 * b + slot.val)).cal.replaced = false ∧
      (t.port (8 * b + slot.val)).cal.failed = false ∧ Keeps (.regs :: .bnds :: .ports :: answerParts) s t := by
  have hlt : 2 ^ 12 + slot.val < 65536 := by omega
  have hput := putEffect_calCommand rq (Obj.bndCalCommand.addr b) b (2 ^ 12 + slot.val) (received rq s) hlt
  rw [show (2 ^ 12 + slot.val) % 16 = slot.val by omega] at hput
  obtain ⟨hkeeps, hij, hsub, hreplaced, hfailed⟩ := clearSubEffect_clears b slot.val (received rq s)
  obtain ⟨t, hexec, hreply, hframe, hafter⟩ := engineWord_written rq .bndCalCommand b (2 ^ 12 + slot.val) s _ _ (by decide)
    (target_bundleWord _ (by decide) b) h hlt hput hkeeps hij
  refine ⟨t, hexec, hreply, ?_, ?_, ?_, hframe⟩ <;> rw [keeps_port hafter (by decide)] <;> assumption

/-! ### Contexts -/

theorem exec_free (rq : Rq) (b : BundleNo) (count : BitVec 13) (first : CtxNo) (s : State) :
    exec (.free rq b count first) s = run (writeTo rq .bndPeCtxCmd b 0 (ctxCmdWord 2 count.toNat first 0)) s := rfl
theorem exec_load (rq : Rq) (b : BundleNo) (count : BitVec 13) (first : CtxNo) (src : BitVec 30) (s : State) :
    exec (.load rq b count first src) s = memRun (writeTo rq .bndPeCtxCmd b 0 (ctxCmdWord 1 count.toNat first src.toNat)) s := rfl
theorem exec_restore (rq : Rq) (b : BundleNo) (count : BitVec 13) (first : CtxNo) (src : BitVec 30) (s : State) :
    exec (.restore rq b count first src) s = memRun (writeTo rq .bndPeCtxCmd b 0 (ctxCmdWord 3 count.toNat first src.toNat)) s := rfl

theorem free_row (rq : Rq) (b : BundleNo) (s : State) (count : BitVec 13) (first : CtxNo)
    (h : Accepted rq .bndPeCtxCmd b 0 (ctxCmdWord 2 count.toNat first 0) {} s) :
    ∃ t, exec (.free rq b count first) s = .next t ∧
      (t.bnd b).pe.staged = (upto count.toNat).map (fun k => (first.val + k, default)) ∧ OnlyBnd b [.ctl] s t ∧
      t.ctl.services = s.ctl.services ++
        [{ rq := rq, service := svcWrite, addr := Obj.bndPeCtxCmd.addr b, waits := .ctxCmd b, since := s.elapsed }] := by
  have hf := ctxCmd_served (by decide) count.isLt first.isLt (by decide) h
  rw [ctxCmdRead_free, if_pos rfl] at hf
  obtain ⟨hstaged, honly⟩ := ctxStaged_ends (b := b) (l := (upto count.toNat).map (fun k => (first.val + k, default)))
    (Keeps_refl [] (received rq s)) (by decide)
  refine ⟨_, run_next _ s _ hf, hstaged, honly, ?_⟩
  rw [ended_services, ctxStaged]
  simp [State.openService]

/-- Reading images of a healthy memory counts them, and the channels stay quiet. -/
theorem images_kept (rq : Rq) (op count first src : Nat) {s : State} (hs : Healthy s) :
    Keeps [.regs, .chans] (received rq s) (ctxCmdRead op count first src (received rq s)).2.2 ∧
      ChansQuiet (ctxCmdRead op count first src (received rq s)).2.2 := by
  have hquiet : ChansQuiet (received rq s) := quiet_of_keeps (received_keeps rq s) (by decide) (by decide) hs.1
  have hchecked : Checked (received rq s) := checked_of_memory _ _ (received_memory rq s) hs.2
  have hcalm := ctxCmdRead_calm op count first src (received rq s) hchecked
  exact ⟨calm_keeps hcalm (ctxCmdRead_memory op count first src (received rq s)), calm_quiet _ _ hcalm hquiet⟩

section
variable {rq : Rq} {b : BundleNo} {s : State} {op count first src : Nat} (hs : Healthy s) (hop : op < 4) (hcount : count < 8192)
  (hfirst : first < 4096) (hsrc : src < 2 ^ 30) (h : Accepted rq .bndPeCtxCmd b 0 (ctxCmdWord op count first src) {} s)
include hs hop hcount hfirst hsrc h

theorem images_staged (hok : (ctxCmdRead op count first src (received rq s)).1 = .ok) :
    ∃ t, memRun (writeTo rq .bndPeCtxCmd b 0 (ctxCmdWord op count first src)) s = .next t ∧
      (t.bnd b).pe.staged = (ctxCmdRead op count first src (received rq s)).2.1 ∧
      t.mem = s.mem ∧ OnlyBnd b [.free, .regs, .ctl, .chans] s t := by
  obtain ⟨hkept, hquiet⟩ := images_kept rq op count first src hs
  have hf := ctxCmd_served hop hcount hfirst hsrc h
  obtain ⟨hstaged, hothers, hkeeps⟩ := ctxStaged_ends (rq := rq) (b := b) (s := s)
    (l := (ctxCmdRead op count first src (received rq s)).2.1) hkept (by decide)
  have hend := quiet_of_keeps (ctxStaged_keeps rq b (ctxCmdRead op count first src (received rq s)).2.1 _) (by decide) (by decide) hquiet
  exact ⟨_, memRun_next _ s _ (hf.trans (if_pos hok)) hend, hstaged, (hkeeps.2.2 .mem (by decide)).1, hothers,
    Keeps_mono _ _ _ _ hkeeps (by decide)⟩

theorem images_refused {st : Status} (hst : (ctxCmdRead op count first src (received rq s)).1 = st) (hne : st ≠ .ok) :
    ∃ t, memRun (writeTo rq .bndPeCtxCmd b 0 (ctxCmdWord op count first src)) s = .next t ∧
      Replied rq svcWrite (Obj.bndPeCtxCmd.addr b) st s t ∧ t.bnd b = s.bnd b ∧ t.mem = s.mem ∧ ∀ c, t.ctx c = s.ctx c := by
  obtain ⟨hkept, hquiet⟩ := images_kept rq op count first src hs
  have hf := ctxCmd_served hop hcount hfirst hsrc h
  subst hst
  have hreply := reply_keeps (ctxCmdRead op count first src (received rq s)).2.2 rq svcWrite (Obj.bndPeCtxCmd.addr b)
    (ctxCmdRead op count first src (received rq s)).1 [] none
  have hend := quiet_of_keeps hreply (by decide) (by decide) hquiet
  have hframe := ended_keeps ([.regs, .chans] ++ answerParts) s _ (keeps_then _ _ _ _ _ _ (keeps_then _ _ [.regs, .chans] _ _ _
    (received_keeps rq s) hkept (by decide) (by decide)) hreply (by decide) (by decide))
  refine ⟨_, memRun_next _ s _ (hf.trans (if_neg hne)) hend, answered_replied _ _ _ _ _ _ (fun hdrop => ?_),
    keeps_bnd hframe (by decide) b, (hframe.2.2 .mem (by decide)).1, fun c => ?_⟩
  · rw [ctxCmdRead_ij, received_ij, hdrop]
  · rw [State.ctx, hframe.2.2 .ctxs (by decide), State.ctx]

end

/-- Settles O50, command by command. -/
theorem engineWrites : Obligations.EngineWrites := by
  unfold Obligations.EngineWrites
  refine fun rq b s => ⟨free_row rq b s, ?_, inj_row rq b s, capRead_row rq b s, txeq_row rq s, rxeq_row rq s,
    fun p => ⟨cal_cancel_row rq s p, ?_⟩, clearSub_row rq b s⟩
  · rintro op i count first src hs (⟨rfl, rfl⟩ | ⟨rfl, rfl⟩) h
    · exact ⟨images_staged hs (by decide) count.isLt first.isLt src.isLt h,
        fun st => images_refused hs (by decide) count.isLt first.isLt src.isLt h⟩
    · exact ⟨images_staged hs (by decide) count.isLt first.isLt src.isLt h,
        fun st => images_refused hs (by decide) count.isLt first.isLt src.isLt h⟩
  · rintro v i (⟨rfl, rfl⟩ | ⟨rfl, rfl⟩) h
    · exact cal_requested rq s p 1 (by decide) (by decide) h
    · exact cal_requested rq s p 2 (by decide) (by decide) h

end Sys2Proof.Proofs
end
